-- ==== Sys2Proof/Word.lean ====
section
/-! DEFINITION. The word types of the Tarind 8640 model: bytes, 32-bit and 64-bit register words, 48-bit device virtual
addresses and 37-bit memory addresses (00 R10, 08 R299). -/
namespace Sys2Proof

/-- One byte. -/
abbrev Byte := BitVec 8
/-- A 32-bit register or structure word. -/
abbrev Word32 := BitVec 32
/-- A 64-bit register or structure word. -/
abbrev Word := BitVec 64
/-- A partition number (00 R12): partition n belongs to PCIe function n. -/
abbrev Part := BitVec 5
/-- A logical core number (00 R13, 01 R16). -/
abbrev CoreId := BitVec 6
/-- A device virtual address (00, Numbers and notation). -/
abbrev VAddr := BitVec 48

end Sys2Proof
end

