-- ==== Sys2Proof/Syntax.lean ====
section
/-! DEFINITION. The commands that the block takes, with their operands. What reaches the device from outside (the bytes a
host read returned, a message of a peer, a sensor record, an edge of a pin) is an operand of the command. -/
namespace Sys2Proof

/-- Why a host read failed, in the coding of R318 and R440 (08, 10): unsupported request, completer abort, completion
timeout, poisoned data; and why a read of a peer failed (14 R597): refused with a reason of R593, timed out, its port DOWN, or
stalled a third time. -/
inductive ReadFail where
  | unsupported | abort | timeout | poisoned
  | refused (reason : Nat)
  | remoteTimeout | linkDown | burstStall
  deriving DecidableEq, Repr

/-- What a read of host memory, or of a peer, returned. -/
inductive HostRead where
  | ok (bytes : List Byte)
  | fail (why : ReadFail)
  deriving DecidableEq, Repr

/-- The size of a register access (00 R10). -/
inductive BarSize where
  | b1 | b2 | b4 | b8
  deriving DecidableEq, Repr

/-- The PCIe configuration fields that rules of the spec read (10 R391, R395, R398, R399, R403, R390). -/
inductive CfgField where
  | vfEnable | numVfs | msixEnable | functionMask | relaxedOrdering | completionTimeout
  deriving DecidableEq, Repr

/-- What a register write names: an offset of a function's BAR0, or a configuration field of a function. -/
inductive RegTarget where
  | bar (fn : Part) (off : BitVec 26) (size : BarSize) (data : Word)
  | cfg (fn : Part) (field : CfgField) (value : Nat)
  deriving DecidableEq, Repr

/-- A non-posted request outstanding to the host (10 R391). -/
inductive ReadId where
  | tail (p : Part) (ring : BitVec 10)
  | idleTail (p : Part) (ring : BitVec 10)
  | entry (p : Part) (ring : BitVec 10) (buffer : Bool)
  | payload (p : Part) (ring : BitVec 10)
  | reply (core : CoreId) (group tag thread : Nat)
  deriving DecidableEq, Repr

/-- The SRAM arrays of 09 R369 with the place of the error. -/
inductive SramArray where
  | registerFile (core : CoreId) (group : Nat)
  | sharedOrTile (core : CoreId) (workgroup : Nat)
  | l1 (core : CoreId) (line : Nat)
  | tensor (core : CoreId)
  | cacheData (slice : BitVec 5) (index : Nat) (half : Bool)
  | evictionBuffer (slice : BitVec 5) (index : Nat) (half : Bool)
  | cacheTags (slice : BitVec 5) (set : BitVec 10) (bothBad : Bool)
  | translation (set : Nat) (way : Nat)
  | gantry (processor : Nat)
  | weighbridge
  deriving DecidableEq, Repr

/-- The engine time that accounts keep apart (12 R542, R543). -/
inductive TimeKind where
  | core | tensor | other
  deriving DecidableEq, Repr

/-- What triggered a hang capture (11 R490): a watchdog or HANG record waiting for its capture, or FATAL. -/
inductive CaptureTrigger where
  | record (p : Part)
  | fatal
  deriving DecidableEq, Repr

/-! The instructions of a core program. The spec does not give the translated form (05 R170): a command names what its group does. -/

/-- A source of an instruction: a register of the thread, or a constant. -/
inductive Src where
  | reg (r : Nat)
  | lit (v : Nat)
  deriving DecidableEq, Repr

/-- Integer operations (04 R135, R151). -/
inductive IntFn where
  | add | sub | mul | and | or | xor | not | neg
  | udiv | umod | sdiv | srem | smod | shl | shr | sar
  | umin | umax | smin | smax
  deriving DecidableEq, Repr

/-- Integer comparisons. -/
inductive IntCmp where
  | eq | ne | ult | ule | slt | sle
  deriving DecidableEq, Repr

/-- FP32 operations (02 R40, R65). -/
inductive FpFn where
  | add | sub | mul | div | sqrt | fma | min | max | clamp | neg | abs
  deriving DecidableEq, Repr

/-- Floating-point comparisons (02 R64). -/
inductive FpCmp where
  | oeq | olt | ole | une | unord
  deriving DecidableEq, Repr

/-- A rounding of a conversion (02 R40): SPIR-V's FPRoundingMode. -/
inductive CvtRound where
  | rte | rtz | rtp | rtn
  deriving DecidableEq, Repr

/-- Conversions: a float to an integer of a width, signed or not (04 R135); an integer to FP32; between formats of 02 R34. -/
inductive CvtFn where
  | toInt (signed : Bool) (w : Nat)
  | ofInt (signed : Bool) (w : Nat)
  | float (src dst : Nat) (round : CvtRound)
  deriving DecidableEq, Repr

/-- What a thread can ask of its place (SPIR-V's built-ins). -/
inductive BuiltIn where
  | workgroupX | workgroupY | workgroupZ | localIndex | subgroup | lane
  | vertex | instanceIndex | primitive | invocation | tessU | tessV | tessW
  | fragX | fragY | sampleMask | helper | fragDepth
  deriving DecidableEq, Repr

/-- A group instruction that touches no memory but tables, planes and vertex buffers (04 R124). `other` is any instruction of
SPIR-V whose result the spec does not state. -/
inductive CoreOp where
  | int (f : IntFn) (w dst : Nat) (a b : Src)
  | cmp (f : IntCmp) (w dst : Nat) (a b : Src)
  | fp (f : FpFn) (dst : Nat) (a b c : Src)
  | fcmp (f : FpCmp) (dst : Nat) (a b : Src)
  | cvt (f : CvtFn) (dst : Nat) (a : Src)
  | select (w dst : Nat) (c a b : Src)
  | other (dst n : Nat) (uses : List Nat)
  | switch (sel : Src) (cases : List (Nat × Nat)) (default_ : Nat)
  | exit_ | discard | demote | unreachable | badFetch
  | builtIn (b : BuiltIn) (dst : Nat)
  | push (off n dst : Nat)
  | output (slot : Nat) (a : Src)
  | vertexIn (loc dst : Nat)
  | stageIn (slot : Nat) (inv : Src) (dst : Nat)
  | varying (dst n : Nat)
  | attachment (plane sample dst : Nat)
  | interlockEnd
  deriving DecidableEq, Repr

/-- A pointer of a program (05 R187, R190): a device virtual address in two registers, a byte offset of a buffer binding, or of the
workgroup's shared memory or the pass's tile buffer. -/
inductive MemPtr where
  | va (r : Nat)
  | buffer (set binding : Nat) (off : Src)
  | shared (off : Src)
  | tile (off : Src)
  deriving DecidableEq, Repr

/-- The sizes of an access (04 R147). -/
inductive MemSize where
  | b1 | b2 | b4 | b8 | b16
  deriving DecidableEq, Repr

/-- Atomic operations (04 R151). -/
inductive AtomFn where
  | add | sub | and | or | xor | umin | umax | smin | smax | exchange | compareExchange | fadd | fmin | fmax
  deriving DecidableEq, Repr

/-- The scopes of the memory model (04 R145). -/
inductive MemScope where
  | invocation | subgroup | workgroup | queueFamily | device | crossDevice
  deriving DecidableEq, Repr

/-- Group operations (04 R134). -/
inductive GroupFn where
  | elect | ballot | all | any
  | broadcast (lane : Nat)
  | shuffle
  | reduce (f : IntFn)
  | scan (f : IntFn) (exclusive : Bool)
  | other (n : Nat)
  deriving DecidableEq, Repr

/-- A texel: its level, its layer (or face, or slice of a 3D image), column and row. -/
structure Texel where
  level : Nat
  layer : Nat
  x : Nat
  y : Nat
  deriving DecidableEq, Repr

/-- What an image instruction does (06 R241 to R247): reads or writes the texel at the coordinates of each thread, or filters the
texels that each thread's coordinates choose (their footprint, by thread) through a sampler binding. -/
inductive ImageFn where
  | read (storage : Bool) (x y layer level : Src)
  | write (x y layer level : Src)
  | sample (set binding : Nat) (foot : List (Nat × List Texel))
  deriving DecidableEq, Repr

/-- An entry point of a translated module, as far as rules of the spec read it (05 R170, R184, R192; 06 R221, R237, R238): its
execution model (SPIR-V's number), registers per thread, threads per workgroup, shared bytes, output locations, and the modes that
its declarations choose. -/
structure EntryPt where
  model : Nat
  regs : Nat
  threads : Nat
  shared : Nat
  outLocs : Nat
  interlock : Nat
  writesDepth : Bool
  earlyTests : Bool
  kills : Bool
  sampleRate : Bool
  patchVerts : Nat
  domain : Nat
  spacing : Nat
  ccw : Bool
  pointMode : Bool
  ftz : Bool
  deriving DecidableEq, Repr

/-- What the program loader's translator found in a module (05 R170, R175): the check that an instruction failed, the one of lowest word
offset (status, word offset, detail); a failure that no single instruction causes (status, detail); and of a module it translates, the
bytes of code, the entry points and the declared atomic mode. The translated form is the firmware's (05 R180). -/
structure Findings where
  instr : Option (Nat × Nat × Nat)
  general : Option (Nat × Nat)
  used : Nat
  entries : List EntryPt
  atomicMode : Option Bool
  deriving DecidableEq, Repr


/-- The commands of the block: one constructor for each row of the table (95; the rule that governs each is cited). -/
inductive Instr where
  /-- A write to a register field that has no row of its own acts on the field as its access type gives (R6). -/
  | registerWrite (t : RegTarget)
  /-- A BAR access that is not 4 or 8 B, or is misaligned, completes on PCIe; a read returns zeros and a write changes nothing (R10). -/
  | unsupportedBarAccess (fn : Part) (off : BitVec 26) (bytes : Nat) (isRead : Bool)
  /-- PWRGD is asserted after at least 1 ms deasserted; every block is reset, DTIME restarts and start-up P1 begins (R687). -/
  | powerOn (testEn : Bool)
  /-- PWRGD is deasserted; within 10 µs every engine stops without saving, and the stacks are reset (R686). -/
  | pwrgdDeassert
  /-- A monitored rail below tolerance for more than 2 µs acts as a PWRGD deassertion (R688). -/
  | railUndervoltage
  /-- At P2 Keystone reconstructs DS from the PUF, derives its keys and reads the replay-protected region (R645). -/
  | keyDerivation (puf : Option (BitVec 128))
  /-- At P3 Keystone takes the verifying configuration record copy of highest GENERATION at least CFG_GEN (R653). -/
  | configurationRecordChoice (bad0 bad1 : BitVec 2)
  /-- At P4 the PLLs lock, the stacks train, rows are repaired and DEVICE_ID is sampled (R657). -/
  | stackTraining (refclk : Bool) (id : BitVec 3)
  /-- The power-on fill completes, leaving every page with zero data, valid checks and strength-3 parity (R362). -/
  | memoryFill
  /-- At P5 Keystone verifies the slot to boot, marks failed or interrupted slots FAILED and falls back or enters recovery (R658). -/
  | slotBootVerify
  /-- At P6 Keystone loads the GANTRY and WEIGHBRIDGE components and releases the Gantry (R657). -/
  | gantryRelease
  /-- At P7 the configuration master gives each logical core to a working site of its bench from the repair map (R17). -/
  | logicalCoreAssignment (back : List Nat)
  /-- At P8 FW_STATUS.READY is set and configuration requests are served (R657). -/
  | ready
  /-- PERST# is asserted and acts according to the device state (R689). -/
  | perstAssert
  /-- PERST# is released: the link trains, start-up runs from P1, or the device exits A2 or A3 (R689). -/
  | perstRelease
  /-- Keystone writes a new configuration record copy with the new repairs, verifies it and then advances CFG_GEN (R654). -/
  | configurationRecordAppend (good : Bool)
  /-- A hot reset acts as a physical-function FLR (R395). -/
  | hotReset
  /-- A link-down reset acts as a physical-function FLR (R395). -/
  | linkDownReset
  /-- An FLR of the physical function destroys every created partition and resets the physical function's registers (R395). -/
  | pfFlr
  /-- An FLR of virtual function n performs DESTROY steps 1 to 3 on partition n and resets its set-up page and MSI-X state (R395). -/
  | vfFlr (n : Part)
  /-- Clearing VF Enable destroys every created partition from 1 to 31 (R395). -/
  | vfEnableClear
  /-- Unmasking an MSI-X entry whose pending bit is set sends its message once (R398). -/
  | msixUnmask (fn : Part) (index : BitVec 11)
  /-- A write of a function's MSI-X table size takes effect unless it breaks the size, sum or enable conditions (R399). -/
  | pcieMsixAllocWrite (fn : Part) (value : Word32)
  /-- A non-posted request to the host times out at the programmed completion timeout (R391). -/
  | completionTimeout (req : ReadId)
  /-- PART_CMD CREATE reads and judges the create descriptor, then assigns claims, refills them and loads the partition segment table (R404). -/
  | partCreate (p : Part) (hdr claims : HostRead)
  /-- PART_CMD DESTROY stops the partition, kills its contexts, releases its resources and fills its claims (R405). -/
  | partDestroy (p : Part)
  /-- PART_CMD SET_GRANT sets the partition's model grant bit and invalidates its translations (R406). -/
  | setGrant (p : Part) (grant : Bool)
  /-- A FILLING claim finishes being written with zeros and valid page code and becomes FREE (R306). -/
  | claimFillingEnd (claim : BitVec 7)
  /-- RING_CMD CREATE reads the ring descriptor, clears the doorbell record's device words and enters ACTIVE (R410). -/
  | ringCreate (p : Part) (ring : BitVec 10) (desc : HostRead)
  /-- RING_CMD DESTROY stops fetching, waits for the entries in flight and frees the ring (R410). -/
  | ringDestroy (p : Part) (ring : BitVec 10)
  /-- RING_CMD STOP enters STOPPING and then STOPPED once the entries in flight have retired (R410). -/
  | ringStop (p : Part) (ring : BitVec 10)
  /-- RING_CMD RESUME clears the ERROR word and re-enters ACTIVE, fetching from RETIRED (R410). -/
  | ringResume (p : Part) (ring : BitVec 10)
  /-- RING_CMD QUERY reports the state of the ring (R410). -/
  | ringQuery (p : Part) (ring : BitVec 10)
  /-- A reserved RING_CMD code completes with RESERVED_SET and changes nothing (R410). -/
  | ringCmdReserved (p : Part) (ring : BitVec 10)
  /-- An ACTIVE ring issues a read of TAIL, no more often than once per GANTRY_RING_CFG.POLL (R427). -/
  | tailPoll (p : Part) (ring : BitVec 10)
  /-- A TAIL read returns; a valid TAIL ahead of the ring starts fetching, and the wake bit is consumed (R426). -/
  | tailReadReturn (p : Part) (ring : BitVec 10) (r : HostRead)
  /-- Fetched ring entries or command-buffer entries arrive from memory (R433). -/
  | entryFetch (p : Part) (ring : BitVec 10) (buffer : Bool) (r : HostRead)
  /-- After IDLE_AFTER_US with no new entry, the ring posts STATE := 1 and issues a TAIL read (D1, D2) (R428). -/
  | idleSequence (p : Part) (ring : BitVec 10)
  /-- The D2 TAIL read returns; the ring stays ACTIVE if TAIL is ahead or the wake bit is set, and otherwise enters IDLE (R428). -/
  | idleTailReturn (p : Part) (ring : BitVec 10) (r : HostRead)
  /-- A GANTRY_WAKE write resumes an IDLE ring, sets an ACTIVE ring's wake bit, or is ignored and counted (R431). -/
  | gantryWake (fn : Part) (value : Word32)
  /-- At step 3 the payload descriptor and parameter block arrive, and the descriptor is patched and checked (R435). -/
  | payloadRead (p : Part) (ring : BitVec 10) (r : HostRead)
  /-- An entry waiting at step 4 receives room under the device and partition in-flight limits (R418). -/
  | inFlightAdmission (p : Part) (ring : BitVec 10)
  /-- An entry's work completes; it retires, its signal is made and RETIRED advances (R419). -/
  | entryRetirement (wid : Nat)
  /-- A NOP entry retires at step 6 (R416). -/
  | nop (p : Part) (ring : BitVec 10)
  /-- A DISPATCH entry places the workgroups of a compute dispatch (R420). -/
  | dispatch (p : Part) (ring : BitVec 10)
  /-- A TENSOR entry issues a tensor work item that the Gantry checks and divides among cores (R86). -/
  | tensor (p : Part) (ring : BitVec 10)
  /-- A RENDER entry checks the pass descriptor and plane table and starts the geometry phase (R211). -/
  | render (p : Part) (ring : BitVec 10)
  /-- A COPY entry places a byte copy on a copy engine (R421). -/
  | copy (p : Part) (ring : BitVec 10)
  /-- Cache operation ZERO writes zeros to each line and allocates it dirty (R336). -/
  | zero (p : Part) (ring : BitVec 10)
  /-- Cache operation PRELOAD allocates each line and fills it from DRAM where it is absent (R336). -/
  | preload (p : Part) (ring : BitVec 10)
  /-- Cache operation PRELOAD_LOCK preloads each line and then locks it (R336). -/
  | preloadLock (p : Part) (ring : BitVec 10)
  /-- Cache operation UNLOCK unlocks each line that the partition locked (R336). -/
  | unlock (p : Part) (ring : BitVec 10)
  /-- Cache operation WRITEBACK writes each dirty line to DRAM and marks it clean (R336). -/
  | writeback (p : Part) (ring : BitVec 10)
  /-- A SCRUB entry decodes pages of a range in full and writes back corrected ones (R364). -/
  | scrub (p : Part) (ring : BitVec 10)
  /-- A copy engine finishes a block, line or page and continues with the first-ranked operation it holds (R718). -/
  | copyEngineBoundary (engine : BitVec 2) (ext : HostRead)
  /-- A copy engine stops its operation at a block, line or page boundary and saves its position (R516). -/
  | copyPreemption (engine : BitVec 2) (wid : Nat)
  /-- A LOAD_MODULE entry starts the program loader on a SPIR-V module (R170). -/
  | loadModule (p : Part) (ring : BitVec 10)
  /-- The loader ends a load, writes the load result record and signals the entry's fence (R174). -/
  | moduleLoadEnd (p : Part) (code spec : HostRead) (f : Findings)
  /-- An UNLOAD_MODULE entry frees a handle once every dispatch that names it has retired (R182). -/
  | unloadModule (p : Part) (ring : BitVec 10)
  /-- A SEG_UPDATE entry replaces segment descriptors, checks the table and installs it at retirement (R423). -/
  | segUpdate (p : Part) (ring : BitVec 10)
  /-- A CALL entry executes the entries of its command buffer as though they stood in the ring (R422). -/
  | call (p : Part) (ring : BitVec 10)
  /-- A TIMESTAMP entry writes the DTIME at which its step 2 ended (R424). -/
  | timestamp (p : Part) (ring : BitVec 10)
  /-- A ready group issues one instruction for its current set in an issue slot (R124). -/
  | groupInstruction (core : CoreId) (group : Nat) (op : CoreOp)
  /-- The current set reaches ROTATE_LIMIT instructions and the group switches to the next eligible set (R127). -/
  | rotation (core : CoreId) (group : Nat)
  /-- A set reaches a workgroup barrier and waits; the last arrival completes it and merges the waiting sets (R132). -/
  | workgroupBarrier (core : CoreId) (group : Nat)
  /-- A set reaches a Subgroup barrier, which completes when every unexited thread of the group has arrived (R133). -/
  | subgroupBarrier (core : CoreId) (group : Nat)
  /-- A SPIR-V group operation acts on the threads of the current set (R134). -/
  | groupOperation (core : CoreId) (group : Nat) (f : GroupFn) (uniform : Bool) (dst : Nat) (a b : Src)
  /-- A load is translated and served from L1, the home slice or a host or peer window (R147). -/
  | load (core : CoreId) (group : Nat) (ptr : MemPtr) (size : MemSize) (dst : Nat) (vol nt : Bool)
  /-- A store is translated and written through to its home slice or sent to the host or peer (R147). -/
  | store (core : CoreId) (group : Nat) (ptr : MemPtr) (size : MemSize) (src : Nat)
  /-- A release or acquire performs its scope's action (R145). -/
  | memoryBarrier (core : CoreId) (group : Nat) (release acquire : Bool) (scope : MemScope)
  /-- An atomic instruction applies its updates at the home slice or in shared memory in thread order (R152). -/
  | atomic (core : CoreId) (group : Nat) (ptr : MemPtr) (f : AtomFn) (wide : Bool) (dst val cmp : Nat)
  /-- OpReadClockKHR returns DTIME or the core's TCLK count (R189). -/
  | opReadClockKhr (core : CoreId) (group : Nat) (device : Bool) (dst : Nat)
  /-- A texture unit samples an image through a sampler binding (R241). -/
  | imageSample (core : CoreId) (group : Nat) (f : ImageFn) (set binding dst : Nat)
  /-- XMT.core TensorIssue issues one work item per distinct descriptor address to the core's array (R196). -/
  | tensorIssue (core : CoreId) (group : Nat) (ptr : MemPtr) (dst : Nat)
  /-- XMT.core TensorWait waits for a ticket's work item and acquires (R198). -/
  | tensorWait (core : CoreId) (group : Nat) (ticket : Src) (dst : Nat)
  /-- XMT.core TensorPoll reports whether a ticket's work item has completed (R198). -/
  | tensorPoll (core : CoreId) (group : Nat) (ticket : Src) (dst : Nat)
  /-- XMT.core TileHandoff registers a descriptor to be issued at the end of the tile (R200). -/
  | tileHandoff (core : CoreId) (group : Nat) (ptr : MemPtr)
  /-- XMT.core CadenceRead returns the phase, the lock state and the cycle count (R201). -/
  | cadenceRead (core : CoreId) (group : Nat) (dst : Nat)
  /-- XMT.core LineRead returns the head's line, blanking and enable state (R202). -/
  | lineRead (core : CoreId) (group : Nat) (head : BitVec 1) (dst : Nat)
  /-- XMT.core MarkFeed queues one feed per thread to a write-fed Mark unit (R203). -/
  | markFeed (core : CoreId) (group ptr : Nat) (value : Src) (size : MemSize)
  /-- XMT.core AsyncCopy starts per-thread copies into shared memory and returns tickets (R204). -/
  | asyncCopy (core : CoreId) (group : Nat) (dst : Src) (src : MemPtr) (bytes : Src) (out : Nat)
  /-- An AsyncCopy's data arrives in shared memory and its ticket completes (R206). -/
  | asyncCopyComplete (core : CoreId) (group ticket : Nat)
  /-- XMT.core CopyWait waits until every copy up to its ticket has completed (R206). -/
  | copyWait (core : CoreId) (group : Nat) (ticket : Src)
  /-- XMT.core L1Prefetch asks for up to 4,096 B to be brought into L1 (R207). -/
  | l1Prefetch (core : CoreId) (group : Nat) (ptr : MemPtr) (bytes : Src)
  /-- XMT.core Yield ends the current set's turn (R208). -/
  | yield (core : CoreId) (group : Nat)
  /-- XMT.core Sleep makes the group not ready for the given time (R208). -/
  | sleep (core : CoreId) (group : Nat) (ns : Src)
  /-- A group's sleep expires and the group becomes ready again (R208). -/
  | sleepExpiry (core : CoreId) (group : Nat)
  /-- XMT.core Trap raises GROUP_TRAP with the trap value of the lowest thread (R209). -/
  | trap (core : CoreId) (group : Nat) (value : Src)
  /-- A workgroup is placed on one core once its groups, registers, shared memory and barrier fit (R122). -/
  | workgroupPlacement (core : CoreId)
  /-- Every group of the named context on a core stops after its issued instruction completes (R164). -/
  | preemptionRequest (core : CoreId) (p : Part) (ctx : BitVec 16)
  /-- Once the in-device reads and atomics have drained, the core saves the groups' state to the save area (R167). -/
  | coreSave (core : CoreId) (p : Part) (ctx : BitVec 16)
  /-- Saved workgroups are restored on a live core and continue as though they had not stopped (R167). -/
  | resumption (core : CoreId)
  /-- A host-window or peer reply arrives and is written to the resident or saved register image (R166). -/
  | replyDelivery (core : CoreId) (group tag thread : Nat) (reply : HostRead)
  /-- Once its operands are present, the array adds one chunk to every accumulator of a tile (R75). -/
  | kStep (core : CoreId)
  /-- A work item's last output becomes visible, and its completion record is written (R103). -/
  | tensorCompletion (item : Nat)
  /-- An operand fault stops the work item on every array, each writing its own record (R108). -/
  | tensorFault (core : CoreId)
  /-- The array stops at a K-step boundary and saves its accumulators, position and counts (R109). -/
  | tensorPreemption (core : CoreId) (item : Nat)
  /-- A preempted work item resumes at its saved position on a live core (R111). -/
  | tensorResume (core : CoreId)
  /-- A draw record arrives and is checked; a failure abandons the pass (R215). -/
  | drawRecordFetch (pass : Nat)
  /-- A geometry unit takes a batch of 256 primitives and runs its vertex and tessellation programs (R217). -/
  | batch (pass : Nat) (unit : BitVec 3) (tess : List (List (Nat × Nat × Nat) × List (List Nat)))
  /-- A geometry unit sets up and bins one primitive, or culls it (R219). -/
  | primitive (pass : Nat) (unit : BitVec 3)
  /-- A write of GEOM_BIN_GRANT raises the commit or denies the pending growth request (R226). -/
  | geomBinGrant (p : Part) (value : Word32)
  /-- A growth request reaches BIN_TIMEOUT_MS without a grant, and the pass is abandoned (R225). -/
  | binGrowthTimeout (p : Part)
  /-- The Gantry hands the next tile to the core that first has a free tile slot (R230). -/
  | tileHandout (pass : Nat) (core : CoreId)
  /-- A fragment waits at OpBeginInvocationInterlockEXT until every earlier covering fragment has retired (R238). -/
  | beginInvocationInterlock (core : CoreId) (group : Nat)
  /-- A tile's last fragment retires; its tensor work is issued and its planes are stored (R254). -/
  | tileEnd (pass : Nat) (core : CoreId) (tile : Nat)
  /-- A tile's banks are released once its stores and handoff reads have finished (R255). -/
  | tileBankRelease (pass : Nat) (core : CoreId) (tile : Nat)
  /-- Every tile has stored and every tensor item has completed; the pass result record is written (R256). -/
  | renderPassComplete (pass : Nat)
  /-- A geometry unit stops at a primitive boundary and saves its state (R257). -/
  | geometryPreemption (pass : Nat) (unit : BitVec 3)
  /-- A core saves its fragment groups, tile buffer and rasteriser position (R258). -/
  | tilePhasePreemption (pass : Nat) (core : CoreId)
  /-- A DRESS_FLIP write makes a frame record pending, replacing any pending one (R272). -/
  | dressFlip (p : Part) (head : BitVec 1) (value : Word)
  /-- At the start of the latch line the head latches the pending flip and reads its record and tables (R271). -/
  | latchLine (head : BitVec 1)
  /-- Line 0 starts, FRAMES increments and the latched record is shown (R270). -/
  | frameStart (head : BitVec 1)
  /-- After line VACTIVE the head writes the DONE record of the shown record (R274). -/
  | doneRecord (head : BitVec 1)
  /-- A head's fetch of a layer line completes, or underruns and shows the background (R281). -/
  | layerFetch (head : BitVec 1) (late : Bool)
  /-- A write of 1 to ENABLE starts the head or is refused (R289). -/
  | headEnable (head : BitVec 1) (train : Option (Nat × Nat))
  /-- A write of 0 to ENABLE stops the head at the next line VACTIVE (R289). -/
  | headDisable (head : BitVec 1)
  /-- An eDP HPD interrupt retrains the link and is counted (R288). -/
  | hpdInterrupt (level : Bool) (train : Option (Nat × Nat))
  /-- A write of DRESS_DSI_CMD.GO queues a DSI packet for the next vertical blanking (R293). -/
  | dsiCommand (port : BitVec 1)
  /-- The DSI packet is sent in vertical blanking, and GO clears at completion (R293). -/
  | dsiPacketSend (port : BitVec 1) (resp : Option (List Byte))
  /-- A walker's frame map read returns and fills the translation cache (R321). -/
  | translationWalk (cache : BitVec 4) (k : Nat)
  /-- A write of MEM_XLATE_INVAL queues an invalidation of the partition's frames (R324). -/
  | memXlateInval (p : Part) (value : Word)
  /-- No translation cache holds an entry of the range, and BUSY reads 0 (R324). -/
  | invalidationComplete (p : Part)
  /-- A miss register's fill returns and serves the requests that wait on it (R330). -/
  | lineFill (slice : BitVec 5) (line : BitVec 30)
  /-- An eviction buffer entry's DRAM write completes and frees the entry (R331). -/
  | evictionWriteComplete (slice : BitVec 5) (k : Nat)
  /-- A sector is read with its check and delivered when the check matches (R352). -/
  | fastPathRead (sector : BitVec 31) (upset : List (Nat × Byte))
  /-- A full page decode ends CORRECTED, CLEAN or uncorrectable (R353). -/
  | slowPathDecode (page : BitVec 26) (upset : List (Nat × Byte))
  /-- A sector write reads and updates the sector, its check and the page parity (R358). -/
  | sectorWrite (slice : BitVec 5) (k : Nat) (half : Bool)
  /-- The patrol reads and decodes the next page in its period and repairs it (R363). -/
  | patrolScrub (upset : List (Nat × Byte))
  /-- Test operation READ_RAW copies a page's data and sideband into the buffer (R368). -/
  | readRaw (value : Word32)
  /-- Test operation WRITE_RAW writes the buffer to the page unchanged (R368). -/
  | writeRaw (value : Word32)
  /-- Test operation ENCODE computes checks and parity of the buffer data (R368). -/
  | encode (value : Word32)
  /-- An SRAM array detects a correctable or uncorrectable error and acts as its table gives (R369). -/
  | sramError (array : SramArray) (row : BitVec 32) (correctable : Bool)
  /-- The WINDOW_MIN threshold window ends and every count restarts (R371). -/
  | thresholdWindow
  /-- A write of ERR_FRAME_RETIRE triggers retirement of a logical frame (R371). -/
  | errFrameRetire (value : Word32)
  /-- A write of ERR_CORE_RETIRE triggers promotion of a logical core (R371). -/
  | errCoreRetire (value : Word32)
  /-- A queued frame retirement reaches the head of the queue and begins copying (R372). -/
  | frameRetirement
  /-- One page is decoded and copied to the spare frame; after the last page the remap changes (R372). -/
  | retirementPageCopy
  /-- After the drain the configuration master gives the logical core to the spare site (R374). -/
  | spareAssignment (core : CoreId)
  /-- The logical core becomes live again and a CORE_PROMOTED record is written (R374). -/
  | promotionComplete (core : CoreId)
  /-- A drained core with no spare becomes unavailable and a record is written (R375). -/
  | coreUnavailable (core : CoreId)
  /-- OBJ_CMD CREATE reads a descriptor and creates a context, fence, event or memory object (R447). -/
  | objCreate (p : Part) (owner : BitVec 16) (desc : HostRead)
  /-- OBJ_CMD ADD_REF takes a host reference for the owner (R447). -/
  | addRef (p : Part) (owner : BitVec 16)
  /-- OBJ_CMD RELEASE drops a host reference and frees the object when both counts reach 0 (R447). -/
  | release (p : Part) (owner : BitVec 16)
  /-- A fence signal advances the fence, changes nothing, or counts as a regression (R463). -/
  | signal (p : Part) (owner : BitVec 16)
  /-- OBJ_CMD READ returns a fence's value and code (R447). -/
  | objRead (p : Part) (owner : BitVec 16)
  /-- OBJ_CMD QUERY returns an object's reference counts and state (R447). -/
  | objQuery (p : Part) (owner : BitVec 16)
  /-- OBJ_CMD ARM arms an event for a fence value (R471). -/
  | arm (p : Part) (owner : BitVec 16)
  /-- OBJ_CMD KILL kills a LIVE context with CONTEXT_KILLED (R478). -/
  | kill (p : Part) (owner : BitVec 16)
  /-- OBJ_CMD OWNER_GONE kills the owner's contexts, errors its fences and drops its references (R481). -/
  | ownerGone (p : Part) (owner : BitVec 16)
  /-- A reserved OBJ_CMD code completes with RESERVED_SET (R447). -/
  | objCmdReserved (p : Part) (owner : BitVec 16)
  /-- At K2 every engine stops the killed context's work without saving (R478). -/
  | killEngineStop (p : Part) (ctx : BitVec 16)
  /-- At K3 the rings enter ERROR and every entry retires with the kill's code (R478). -/
  | killRetirement (p : Part) (ctx : BitVec 16)
  /-- At K4 the slot is released and the summary record is written (R480). -/
  | killSummaryRecord (p : Part) (ctx : BitVec 16)
  /-- The context watchdog reaches WATCHDOG_MS, triggering hang capture and a kill (R460). -/
  | contextWatchdog (p : Part) (ctx : BitVec 16)
  /-- An entry or node that has waited WAIT_TIMEOUT_MS retires with WAIT_TIMEOUT (R461). -/
  | waitTimeout (wid : Nat)
  /-- An armed event's TIMEOUT_MS expires and it fires with WAIT_TIMEOUT (R471). -/
  | eventTimeout (p : Part) (event : BitVec 16)
  /-- A deadlock scan starts every 1 ms of DTIME (R474). -/
  | deadlockScan
  /-- A scan ends and errors each fence of a still-blocked closed set with FENCE_DEADLOCK (R476). -/
  | deadlockBreak
  /-- A valid FAULTQ_TAIL write consumes records and re-arms the notification (R487). -/
  | faultqTail (p : Part) (value : Word32)
  /-- An engine has not stopped 100 µs after a request; HANG is raised and the engine is reset (R490). -/
  | hang (engine : BitVec 16)
  /-- A hang capture is written to the armed buffer (R491). -/
  | hangCapture (trig : CaptureTrigger)
  /-- A runnable context without a slot takes one from an idle or blocked holder (R502). -/
  | slotEviction (p : Part) (ctx : BitVec 16)
  /-- At a SLOT_SLICE_MS multiple, a waiting NORMAL context evicts the longest holder (R503). -/
  | slotRotation (p : Part) (ctx : BitVec 16)
  /-- Room frees on an engine and the Gantry places ready work in its fixed order (R507). -/
  | placement (engine : BitVec 16)
  /-- Engine time is added to a NORMAL context's virtual time at least every 100 µs (R508). -/
  | virtualTimeUpdate (p : Part) (ctx : BitVec 16) (kind : TimeKind) (ns : Nat) (step : Bool)
  /-- A NORMAL context that has held engines for TIMESLICE is preempted for waiting work (R509). -/
  | timeSlice (engine : BitVec 16)
  /-- A CADENCE_IN edge is filtered; short pulses and edges within 40 µs are rejected (R510). -/
  | cadenceInEdge (rising : Bool) (hold : Nat)
  /-- The unit acts on an accepted pulse: tracks the period, locks, unlocks or resets the phase (R511). -/
  | pulse
  /-- No pulse arrives by P × (1 + τ), and the unit unlocks and wraps the phase (R511). -/
  | missingPulse
  /-- The unlocked phase wraps and counts a cycle (R512). -/
  | phaseWrap
  /-- The phase or line reaches GATE_VALUE, and gated work proceeds (R514). -/
  | gateOpen (wid : Nat)
  /-- A node's deadline passes before it completes and the miss is counted (R515). -/
  | deadlineMiss (wid : Nat)
  /-- A PLAN LAUNCH reads the argument block and starts the plan's nodes (R526). -/
  | planLaunch (p : Part) (ring : BitVec 10)
  /-- A PLAN LOAD reads, checks and stores a plan image and writes the load result (R524). -/
  | planLoad (p : Part) (ring : BitVec 10) (ext : HostRead)
  /-- A PLAN UNLOAD waits for the plan's launches and frees the plan (R530). -/
  | planUnload (p : Part) (ring : BitVec 10)
  /-- A plan node that has passed its predecessor, fence, check, room and gate steps is dispatched (R526). -/
  | nodeDispatch (wid : Nat)
  /-- A node completes; failure propagates to successors and the launch retires when all complete (R528). -/
  | nodeCompletion (wid : Nat)
  /-- MODEL CREATE makes claims the model claim and creates the model object (R532). -/
  | modelCreate (p : Part) (ring : BitVec 10)
  /-- MODEL LOAD stops model work with MODEL_SWAPPED and starts writing the model claim (R533). -/
  | modelLoad (p : Part) (ring : BitVec 10)
  /-- At L3 the generation advances, LIVE is set and held work is released (R533). -/
  | modelLoadEnd
  /-- A load not at L3 by SWAP_TIMEOUT_S retires with WAIT_TIMEOUT (R533). -/
  | modelSwapTimeout
  /-- MODEL DESTROY clears LIVE and passes the model claims through FILLING (R534). -/
  | modelDestroy (p : Part) (ring : BitVec 10)
  /-- SERVE_START starts or resumes a serving session (R535). -/
  | serveStart (p : Part) (ring : BitVec 10)
  /-- SERVE_STOP ends every sequence and request with MODEL_SWAPPED and ends the session (R535). -/
  | serveStop (p : Part) (ring : BitVec 10)
  /-- A REQUEST queues a tenant's prompt in the serving session (R537). -/
  | request (p : Part) (ring : BitVec 10)
  /-- A CANCEL ends the partition's requests with that TAG (R541). -/
  | cancel (p : Part) (ring : BitVec 10)
  /-- At a step boundary tokens are delivered, sequences ended and admitted, and the next step launched (R538). -/
  | stepBoundary (ext : HostRead)
  /-- A write of ACCT_SEL takes a copy of the selected account (R544). -/
  | acctSel (p : Part) (value : Word32)
  /-- Crusher operation COMPRESS packs input into verified blocks (R556). -/
  | compress (p : Part) (ring : BitVec 10)
  /-- Crusher operation DECOMPRESS decodes a stream into the destination (R556). -/
  | decompress (p : Part) (ring : BitVec 10)
  /-- Crusher operation CHECK decodes and checks a stream without writing (R556). -/
  | check (p : Part) (ring : BitVec 10)
  /-- An engine takes, codes and writes one 64 KiB block (R558). -/
  | crusherBlock (engine : BitVec 1) (ext : HostRead) (upset : Bool)
  /-- An engine finishes its block and saves 256 B of operation state (R563). -/
  | crusherPreemption (engine : BitVec 1) (wid : Nat)
  /-- Mark operation FEED feeds bytes and opens a message when none is open (R567). -/
  | feed (unit : BitVec 4) (port : Option (Nat × Nat))
  /-- Mark operation ALIVE feeds bytes and records the message's alive value (R567). -/
  | alive (unit : BitVec 4) (port : Option (Nat × Nat))
  /-- Mark operation END compares the check and ends the message (R567). -/
  | markEnd (unit : BitVec 4) (port : Option (Nat × Nat))
  /-- Mark operation END_NOCHECK ends the message without comparison (R567). -/
  | endNocheck (unit : BitVec 4) (port : Option (Nat × Nat))
  /-- Mark operation RESTART discards the open message (R567). -/
  | markRestart (unit : BitVec 4) (port : Option (Nat × Nat))
  /-- A snooping unit takes a marked message from its stream and judges it (R570). -/
  | snoopedMessage (unit : BitVec 3)
  /-- A snooped message's stall timer expires; the message is discarded with BURST_STALL (R571). -/
  | markStall (unit : BitVec 3)
  /-- A write of MARK_RUN restores a unit's state, or is rejected (R573). -/
  | markRun (p : Part) (unit : BitVec 5) (value : Word)
  /-- A write of MARK_ATTACH attaches a snooping unit, or is rejected (R569). -/
  | markAttach (unit : BitVec 5) (value : Word32)
  /-- A write of MARK_GRANT grants a feed page, or is rejected (R575). -/
  | markGrant (unit : BitVec 5) (value : Word32)
  /-- A received flit is accepted, acknowledged or discarded with a NAK (R585). -/
  | flit (port : BitVec 2) (bytes : List Byte)
  /-- RETRY_NS passes with no ACK advance, and the sender retransmits (R585). -/
  | retryTimeout (port : BitVec 2)
  /-- A 1 ms symbol-error window ends and lanes at threshold are judged (R586). -/
  | symbolErrorWindow (port : BitVec 2) (errs : List Nat)
  /-- A port starts training (T1) (R587). -/
  | training (port : BitVec 2)
  /-- At T2 the lane test ends and the port width is chosen, or it goes DOWN (R587). -/
  | prbs31Test (port : BitVec 2) (good : BitVec 9)
  /-- At T3 the ends exchange DEVICE_ID and a conflict is detected (R587). -/
  | deviceIdExchange (port : BitVec 2) (id : BitVec 3)
  /-- At T4 the port resumes retransmission and becomes UP (R587). -/
  | trainingDone (port : BitVec 2) (last : BitVec 12)
  /-- A retrain not at T4 within 10 ms ends with the port DOWN (R587). -/
  | trainingTimeout (port : BitVec 2)
  /-- A write of 0 to LINK_PORT_CTL.ENABLE takes the port DOWN (R607). -/
  | portDisable (port : BitVec 2)
  /-- A READ message is checked and served, or forwarded (R592). -/
  | read (port : BitVec 2)
  /-- A READ_REPLY delivers peer data to the requester (R592). -/
  | readReply (port : BitVec 2)
  /-- A WRITE message is checked and written, then acknowledged (R594). -/
  | write (port : BitVec 2)
  /-- A WRITE_ACK completes a peer write, or faults the context when it carries a refusal (R594). -/
  | writeAck (port : BitVec 2)
  /-- An IMPORT message takes references on the objects its range overlaps (R596). -/
  | importMsg (port : BitVec 2)
  /-- An IMPORT_REPLY reports the target's acceptance or refusal (R596). -/
  | importReply (port : BitVec 2)
  /-- A RELEASE message drops an import's references (R596). -/
  | releaseMessage (port : BitVec 2)
  /-- A HAUL_REQ asks a parent for a block of the haul image (R604). -/
  | haulReq (port : BitVec 2)
  /-- A HAUL_BLOCK delivers 64 KiB of image, written or requested again (R604). -/
  | haulBlock (port : BitVec 2)
  /-- A STALLED reply makes the requester resend its burst (R600). -/
  | stalled (port : BitVec 2)
  /-- A remote request reaches REMOTE_TIMEOUT and fails (R598). -/
  | remoteTimeout (tag : Word32)
  /-- An open burst's stall timer expires and the burst is discarded (R600). -/
  | burstStall (port : BitVec 2) (vc : BitVec 3)
  /-- A write of LINK_IMPORT_DROP releases every import from the named device (R596). -/
  | linkImportDrop (value : Word32)
  /-- Loss of BL_REFCLK sets every enabled port DOWN (R692). -/
  | blRefclkLoss
  /-- PWR_CTL REQ with TARGET A2 tests the parties and proceeds or is refused (R616). -/
  | a2Request (force : Bool)
  /-- PWR_CTL REQ with TARGET A3 tests the parties and proceeds or is refused (R616). -/
  | a3Request (force : Bool)
  /-- PWR_CTL REQ with TARGET A4 tests the parties and proceeds or is refused (R616). -/
  | a4Request (force : Bool)
  /-- The PME_Turn_Off handshake completes and the device commits to the target state (R618). -/
  | pmeToAck (d3hot : Bool)
  /-- The handshake is not complete within 1 s, and the entry aborts (R616). -/
  | handshakeTimeout
  /-- At E5 the device reaches the target state (R618). -/
  | targetStateEntry
  /-- The idle condition holds for A1_IDLE_US, and the device enters A1 (R611). -/
  | a1Entry
  /-- A wake event starts the exit from A2 (W1, W2) (R620). -/
  | a2Exit
  /-- At W3 Keystone checks the retained firmware digest (R620). -/
  | retainedDigestCheck (good : Bool)
  /-- At W7 unretained claims are refilled and dispatch resumes in A0 (R620). -/
  | a2RefillEnd
  /-- A wake from A3 starts the full start-up without resetting the Weighbridge (R619). -/
  | a3Exit (junction : BitVec 8)
  /-- A 1 ms power mean is judged against the effective limit (R621). -/
  | powerMean (watts : BitVec 10) (junction : BitVec 8)
  /-- TCLK is lowered by 25 MHz every 10 µs over the limit (R621). -/
  | tclkThrottleStep
  /-- TCLK is raised by 25 MHz every 100 µs below the limit (R621). -/
  | tclkRaiseStep
  /-- 10 ms over the limit at 700 MHz preempts all NORMAL work (R622). -/
  | powerLimitAbort
  /-- After 10 ms below 95 % of the limit, NORMAL placement resumes (R622). -/
  | normalPlacementResume
  /-- A write of PWR_COOLANT reports inlet temperature and flow (R623). -/
  | pwrCoolant (value : Word32)
  /-- An out-of-limit reading held for COOLANT_HOLD_MS begins coolant loss (R624). -/
  | coolantLoss
  /-- No PWR_COOLANT write for 1 s begins coolant loss (R624). -/
  | coolantReportMissing
  /-- Coolant loss ends after 5 s of readings within limits (R624). -/
  | coolantLossEnd
  /-- A junction reaching 115 °C stops every engine and enters A3 (R625). -/
  | thermalTrip
  /-- A stream's period or data-ready edge starts one sensor read (R627). -/
  | sample (stream : BitVec 4)
  /-- A complete sample record is held, copied and evaluated (R628). -/
  | sampleRecord (stream : BitVec 4) (bytes : List Byte) (err : Bool)
  /-- A sensor read's stall timer expires and the record is discarded (R629). -/
  | sampleStall (stream : BitVec 4) (got : List Byte)
  /-- A Weighbridge watchdog expiry resets the Weighbridge core (R633). -/
  | weighbridgeWatchdog
  /-- The Weighbridge reloads and checks its program and resumes watching (R633). -/
  | weighbridgeResetEnd (good : Bool)
  /-- A write of 1 to WB_STATUS.CLASS_EV bit c clears it and releases a latched WAKE (R641). -/
  | classEvClear (value : Word32)
  /-- FW_CTL STAGE reads an image into the inactive slot and verifies it (R667). -/
  | stage (pages : BitVec 14)
  /-- Staging ends with the slot VALID or FAILED (R667). -/
  | stageComplete (r : HostRead) (flashOk : Bool)
  /-- FW_CTL ACTIVATE starts a hitless handover to the VALID slot (R668). -/
  | activate
  /-- The standby passes its self-test with the new GANTRY component (R668). -/
  | standbySelfTest
  /-- One Gantry role pauses dispatch and moves to the freed processor (R668). -/
  | roleMove
  /-- FW_CTL CONFIRM supplies the host's confirmation of a TRIAL slot (R669). -/
  | confirm
  /-- The new image confirms itself; slots change and R660 applies (R669). -/
  | selfConfirmation
  /-- The health window ends unconfirmed, and the roles move back (R669). -/
  | healthWindowExpiry
  /-- FW_CTL RESTART performs a fundamental reset after 1 ms (R667). -/
  | restart
  /-- A reserved FW_CTL code completes with STATE (R667). -/
  | fwCtlReserved
  /-- A processor misses 3 heartbeats, and the standby takes its role (R672). -/
  | heartbeatMiss (processor : BitVec 3)
  /-- A write setting FW_HAUL.ENABLE starts requesting the haul image (R670). -/
  | fwHaulEnable (value : Word32)
  /-- Every 10 ms an unanswered block 0 request is sent again (R670). -/
  | haulRequestTimer
  /-- SPDM GET_VERSION is answered (R661). -/
  | getVersion (msg : List Byte)
  /-- SPDM GET_CAPABILITIES is answered (R661). -/
  | getCapabilities (msg : List Byte)
  /-- SPDM NEGOTIATE_ALGORITHMS is answered (R661). -/
  | negotiateAlgorithms (msg : List Byte)
  /-- SPDM GET_DIGESTS is answered (R661). -/
  | getDigests (msg : List Byte)
  /-- SPDM GET_CERTIFICATE returns the slot 0 chain (R661). -/
  | getCertificate (slot : BitVec 8) (off len : BitVec 16)
  /-- SPDM CHALLENGE is answered with a device ECDSA signature (R661). -/
  | challenge (msg : List Byte)
  /-- SPDM GET_MEASUREMENTS returns the SHA-384 measurements (R663). -/
  | getMeasurements (index : BitVec 8)
  /-- SPDM KEY_EXCHANGE starts a responder-authenticated session (R661). -/
  | keyExchange (msg : List Byte)
  /-- SPDM FINISH completes session establishment (R661). -/
  | finish (session : BitVec 32) (msg : List Byte)
  /-- SPDM END_SESSION ends a secured session (R661). -/
  | endSession (session : BitVec 32) (msg : List Byte)
  /-- SPDM KEY_UPDATE updates session keys (R661). -/
  | keyUpdate (session : BitVec 32) (msg : List Byte)
  /-- SPDM HEARTBEAT keeps a session alive (R661). -/
  | heartbeat (session : BitVec 32) (msg : List Byte)
  /-- A VENDOR_DEFINED_REQUEST returns the dual-signed attestation report (R662). -/
  | vendorDefinedRequest (known : Bool) (code : BitVec 8) (nonce : List Byte)
  /-- An engine that was reset after HANG returns to service within 1 ms (R490). -/
  | engineResetEnd (engine : BitVec 16)
  /-- A wake from A3 that was deferred while the junction exceeded 95 °C proceeds once the junction falls to 95 °C (R625). -/
  | deferredWakeRelease (junction : BitVec 8)
  /-- An IDE_KM request inside a secured SPDM session programs or controls keys for up to 4 selective IDE streams (R661). -/
  | ideKm (session : BitVec 32) (op : BitVec 2) (stream : BitVec 8) (msg : List Byte)
  /-- A DOE Discovery request on the physical function's mailbox reports the supported protocols (R388). -/
  | doeDiscovery (index : BitVec 8)
  deriving DecidableEq, Repr

end Sys2Proof
end

