-- ==== Sys2Proof/Decode.lean ====
section
/-! DEFINITION. The block fetches nothing and decodes nothing: no row of the table gives a command any bits (95), so no word spells
one. -/
namespace Sys2Proof

/-- The command that a word spells by the table's bits: none, since no row has any. -/
def decodeTableWord (nbits w : Nat) : Option Instr :=
  match nbits, w with
  | _, _ => none

end Sys2Proof
end

