-- ==== Sys2Proof/Machine/Store.lean ====
section
/-! DEFINITION. Plain-data stores: an association list with strictly rising keys, the form in which every sparse piece
of state (memory, registers, tables) is held, and the list helpers the machine shares. -/
namespace Sys2Proof

/-- A finite map: pairs in strictly rising order of the key (`mwf`). -/
abbrev Map (α : Type) := List (Nat × α)

/-- The value under a key. -/
def mget {α : Type} (m : Map α) (k : Nat) : Option α :=
  match m with
  | [] => none
  | (k', v) :: r => if k' = k then some v else mget r k

/-- The value under a key, or `d` where the map lists none. -/
def mgetD {α : Type} (m : Map α) (k : Nat) (d : α) : α :=
  (mget m k).getD d

/-- The map with `v` under `k`. -/
def mset {α : Type} (m : Map α) (k : Nat) (v : α) : Map α :=
  match m with
  | [] => [(k, v)]
  | (k', v') :: r =>
    if k < k' then (k, v) :: (k', v') :: r
    else if k' = k then (k, v) :: r
    else (k', v') :: mset r k v

/-- The map with nothing under `k`. -/
def mdel {α : Type} (m : Map α) (k : Nat) : Map α :=
  m.filter (fun e => e.1 != k)

/-- The map with `v` under `k`, where `d` is what an unlisted key reads as: writing `d` removes the entry. -/
def msetD {α : Type} [DecidableEq α] (m : Map α) (k : Nat) (v d : α) : Map α :=
  if v = d then mdel m k else mset m k v

/-- The map with the value under `k`, where there is one, replaced by `f` of it. -/
def mupd {α : Type} (m : Map α) (k : Nat) (f : α → α) : Map α :=
  m.map (fun e => if e.1 = k then (e.1, f e.2) else e)

/-- The map with every value replaced by `f` of its key and value. -/
def mmap {α β : Type} (m : Map α) (f : Nat → α → β) : Map β :=
  m.map (fun e => (e.1, f e.1 e.2))

/-- The entries whose key and value pass `p`. -/
def mkeep {α : Type} (m : Map α) (p : Nat → α → Bool) : Map α :=
  m.filter (fun e => p e.1 e.2)

/-- Every key of `m` is above `k`. -/
def mabove {α : Type} (k : Nat) (m : Map α) : Bool :=
  m.all (fun e => k < e.1)

/-- The canonical form: keys strictly rising. -/
def mwf {α : Type} (m : Map α) : Bool :=
  match m with
  | [] => true
  | e :: r => mabove e.1 r && mwf r

/-- The canonical form of a map whose unlisted keys read as `d k`: rising keys, and no entry equal to `d k`. -/
def mwfD {α : Type} [DecidableEq α] (m : Map α) (d : Nat → α) : Bool :=
  mwf m && m.all (fun e => e.2 != d e.1)

/-- The smallest key from `k` on (`n` tried) that the map does not hold. -/
def mfree {α : Type} (m : Map α) (k n : Nat) : Option Nat :=
  (List.range n).map (k + ·) |>.find? (fun i => (mget m i).isNone)

/-- The list with element `i` replaced by `v` (unchanged where there is no such element). -/
def lset {α : Type} (l : List α) (i : Nat) (v : α) : List α :=
  match l, i with
  | [], _ => []
  | _ :: r, 0 => v :: r
  | a :: r, i + 1 => a :: lset r i v

/-- The list with element `i` replaced by `f` of it. -/
def lupd {α : Type} (l : List α) (i : Nat) (f : α → α) : List α :=
  match l, i with
  | [], _ => []
  | a :: r, 0 => f a :: r
  | a :: r, i + 1 => a :: lupd r i f

/-- The element `i`, or `d`. -/
def lget {α : Type} (l : List α) (i : Nat) (d : α) : α :=
  (l[i]?).getD d

/-- The bit `i` of a natural number. -/
def bitN (n i : Nat) : Bool :=
  n / 2 ^ i % 2 = 1

/-- Bits [hi:lo] of a natural number. -/
def bitsN (n hi lo : Nat) : Nat :=
  n / 2 ^ lo % 2 ^ (hi + 1 - lo)

/-- 1 for true and 0 for false. -/
def b2n (b : Bool) : Nat :=
  if b then 1 else 0

/-- The little-endian number that bytes spell (00 R2). -/
def leNat (bs : List Byte) : Nat :=
  match bs with
  | [] => 0
  | b :: r => b.toNat + 256 * leNat r

/-- The `n` little-endian bytes of a number (00 R2). -/
def leBytes (n x : Nat) : List Byte :=
  match n with
  | 0 => []
  | n + 1 => BitVec.ofNat 8 x :: leBytes n (x / 256)

/-- `n` bytes of a structure from an offset, short where the structure is. -/
def slice (bs : List Byte) (off n : Nat) : List Byte :=
  (bs.drop off).take n

/-- The `n`-byte field at an offset of a structure; bytes past its end read as 0. -/
def fieldAt (bs : List Byte) (off n : Nat) : Nat :=
  leNat (slice bs off n)

/-- The number `a` rounded up to a multiple of `m`. -/
def roundUp (a m : Nat) : Nat :=
  (a + m - 1) / m * m

/-- The number `a` rounded down to a multiple of `m`. -/
def roundDown (a m : Nat) : Nat :=
  a / m * m

/-- The smallest power of two not below `n` (1 for 0), found by doubling at most `fuel` times. -/
def pow2Up (n : Nat) (fuel : Nat) : Nat :=
  match fuel with
  | 0 => 1
  | f + 1 =>
    let p := pow2Up n f
    if n ≤ p then p else 2 * p

/-- Zeros. -/
def zeroBytes (n : Nat) : List Byte :=
  List.replicate n 0

/-- Element-wise fold of a step over the numbers below `n`, from 0 up. -/
def foldN {σ : Type} (n : Nat) (f : Nat → σ → σ) (s : σ) : σ :=
  match n with
  | 0 => s
  | n + 1 => f n (foldN n f s)

end Sys2Proof
end

