-- ==== Sys2Proof/Machine/Crc.lean ====
section
/-! DEFINITION. The cyclic redundancy check of 13 R564 and its presets (R565), which Mark units, the link (14 R584) and the haul
(14 R604) share. -/
namespace Sys2Proof

/-- The parameters of a CRC (13 R564). -/
structure CrcParams where
  w : Nat
  poly : Nat
  init : Nat
  refin : Bool
  refout : Bool
  xorout : Nat
  deriving DecidableEq, Repr

/-- The order of the low `n` bits reversed. -/
def reflect (n x : Nat) : Nat :=
  (List.range n).foldl (fun a i => a * 2 + x / 2 ^ i % 2) 0

/-- One shift of the register. -/
def crcShift (q : CrcParams) (c : Nat) : Nat :=
  if bitN c (q.w - 1) then Nat.xor (c * 2) q.poly % 2 ^ q.w else c * 2 % 2 ^ q.w

/-- `feed_byte` of 13 R564. -/
def crcFeed (q : CrcParams) (c : Nat) (b : Byte) : Nat :=
  let x := if q.refin then reflect 8 b.toNat else b.toNat
  foldN 8 (fun _ c => crcShift q c) (Nat.xor c (x * 2 ^ (q.w - 8)))

/-- `result` of 13 R564. -/
def crcResult (q : CrcParams) (c : Nat) : Nat :=
  Nat.xor (if q.refout then reflect q.w c else c) q.xorout

/-- The check value of a message. -/
def crcOf (q : CrcParams) (bs : List Byte) : Nat :=
  crcResult q (bs.foldl (crcFeed q) q.init)

/-- The presets of 13 R565; code 2 is CRC-32C. -/
def crcPreset (code : Nat) : Option CrcParams :=
  match code with
  | 1 => some { w := 32, poly := 0x04C11DB7, init := 0xFFFFFFFF, refin := true, refout := true, xorout := 0xFFFFFFFF }
  | 2 => some { w := 32, poly := 0x1EDC6F41, init := 0xFFFFFFFF, refin := true, refout := true, xorout := 0xFFFFFFFF }
  | 3 => some { w := 32, poly := 0xF4ACFB13, init := 0xFFFFFFFF, refin := true, refout := true, xorout := 0xFFFFFFFF }
  | 4 => some { w := 16, poly := 0x1021, init := 0xFFFF, refin := false, refout := false, xorout := 0 }
  | 5 => some { w := 8, poly := 0x1D, init := 0xFF, refin := false, refout := false, xorout := 0xFF }
  | 6 => some { w := 8, poly := 0x2F, init := 0xFF, refin := false, refout := false, xorout := 0xFF }
  | _ => none

/-- CRC-32C (13 R565, preset 2). -/
def crc32c : CrcParams :=
  { w := 32, poly := 0x1EDC6F41, init := 0xFFFFFFFF, refin := true, refout := true, xorout := 0xFFFFFFFF }

/-- The CRC of a flit (14 R584). -/
def crcFlit : CrcParams :=
  { w := 64, poly := 0x42F0E1EBA9EA3693, init := 0, refin := false, refout := false, xorout := 0 }

end Sys2Proof
end

