-- ==== Sys2Proof/Config.lean ====
section
/-! DEFINITION. Free values: what the spec leaves open or does not state. Each is an opaque constant, so nothing can be
proved of its value; the log entry that declares it is named. -/
namespace Sys2Proof.Config

/-- The n-th free number drawn by a command (log 3). -/
opaque freeNat (n : Nat) : Nat
/-- The byte at an address of a region whose content the spec leaves undefined, by the region's seed (log 3). -/
opaque undefByte (seed addr : Nat) : BitVec 8
/-- The error pattern that a page decoder assumes beyond its t symbols, if it assumes one (09 R353, log 12). -/
opaque beyondT (stored : List (Nat × BitVec 8)) : Option (List (Nat × BitVec 8))
/-- A byte stored in the overlap of the two ranges of a copy, or where a tensor item's output overlaps an operand (10 R421,
03 R95, log 13). -/
opaque overlapByte (n addr : Nat) : BitVec 8
/-- The tokens that the compressor would write for a block, which the spec leaves to it (13 R554, log 40). -/
opaque lzTokens (block : List (BitVec 8)) : List (BitVec 8)
/-- The FP32 result that the arrays return for an activation function at an FP32 input, where 03 R100 bounds it and does not
fix it: by the code of the function and the input's bits (log 29). -/
opaque actFn (code bits : Nat) : Nat
/-- A register that no instruction has written since its group was placed, by the group's seed and the register's place
(log 3). -/
opaque undefReg (seed at_ : Nat) : BitVec 32
/-- A component of a surface element where the spec names a conversion and states no result for it (06 R242): the sRGB transfer
functions (kinds 0 and 1), and an integer outside its format's range (kind 2), by the bits converted (log 30). -/
opaque surfFree (kind width bits : Nat) : Nat

/-- SHA-384, which the spec names and does not define (16 R646, R649; log 46). -/
opaque sha384 (bs : List (BitVec 8)) : List (BitVec 8)
/-- What the check of a signature block finds (16 R649), by the key index and the digest: 0 both signatures good, 1 the ECDSA check
failed, 2 the HSS check alone failed (log 46). -/
opaque sigVerdict (key : Nat) (digest block : List (BitVec 8)) : Nat
/-- A signature block by the device's own keys over bytes, with the HSS key of that number (16 R648, R664; log 46). -/
opaque deviceSign (bs : List (BitVec 8)) (q : Nat) : List (BitVec 8)
/-- The digest of the boot ROM (16 R663; log 46). -/
opaque bootRom : List (BitVec 8)
/-- The certificate chain that a base section holds (16 R651; log 46). -/
opaque chainOf (base : List (BitVec 8)) : List (BitVec 8)
/-- The body of an SPDM or DOE response that the spec leaves to those standards, by the response and its request (16 R661; log 46). -/
opaque spdmBody (code : Nat) (request : List (BitVec 8)) (n : Nat) : List (BitVec 8)

end Sys2Proof.Config
end

