-- ==== Sys2Proof/Machine/RegMap.lean ====
section
/-! DEFINITION. The register map (18 R701 to R711): where each register lies, its width, its fields with their access
types and ranges, and its reset value. A device-wide register is keyed by its offset in the physical function's BAR0; a
register of partition p's set-up page is keyed by `pkey p` of its offset in the page. -/
namespace Sys2Proof

/-- The access types of a register field (00 R6). `own` marks a field whose write is a row of its own. -/
inductive Access where
  | rw | ro | w1c | w1s | rwl | own
  deriving DecidableEq, Repr

/-- A register field: bits [hi:lo], its access type and the values its description lets it hold. -/
structure FieldDesc where
  hi : Nat
  lo : Nat
  ty : Access
  mn : Nat
  mx : Nat
  deriving DecidableEq, Repr

/-- A register, or an array of `n` registers at a stride: `atomic` asks for one 64-bit write (00 R11), `whole` makes a write
outside a range void as a whole (18 R714), `lock` is the bit of its set-up lock (0: none). -/
structure RegDesc where
  base : Nat
  n : Nat
  stride : Nat
  width : Nat
  reset : Nat
  atomic : Bool
  whole : Bool
  lock : Nat
  fields : List FieldDesc
  deriving DecidableEq, Repr

/-- A field that holds any value. -/
def fld (hi lo : Nat) (ty : Access) : FieldDesc :=
  { hi := hi, lo := lo, ty := ty, mn := 0, mx := 2 ^ (hi + 1 - lo) - 1 }

/-- A field with a range outside which a write is ignored. -/
def fldR (hi lo : Nat) (ty : Access) (mn mx : Nat) : FieldDesc :=
  { hi := hi, lo := lo, ty := ty, mn := mn, mx := mx }

/-- A register of plain fields, neither atomic nor whole nor locked. -/
def reg (base width reset : Nat) (fields : List FieldDesc) : RegDesc :=
  { base := base, n := 1, stride := 0, width := width, reset := reset, atomic := false, whole := false, lock := 0,
    fields := fields }

/-- The key of offset `off` in the set-up page of partition `p`. -/
def pkey (p : Nat) (off : Nat) : Nat :=
  (p + 1) * 67108864 + off

/-! The keys of the device-wide registers (the offset in the physical function's BAR0), then the offsets in a set-up page. -/
namespace Reg
/-- Offset in the set-up page (10 R410, 18 R704). -/
abbrev ringDescAddr : Nat := 0x0
/-- Offset in the set-up page (10 R410). -/
abbrev ringCmd : Nat := 0x8
/-- Offset in the set-up page (10 R410). -/
abbrev ringCmdStatus : Nat := 0xC
/-- Offset in the set-up page (11 R451). -/
abbrev objDescAddr : Nat := 0x100
/-- Offset in the set-up page (11 R451). -/
abbrev objHandle : Nat := 0x108
/-- Offset in the set-up page (11 R451). -/
abbrev objArg : Nat := 0x110
/-- Offset in the set-up page (11 R451). -/
abbrev objCmd : Nat := 0x118
/-- Offset in the set-up page (11 R451). -/
abbrev objStatus : Nat := 0x11C
/-- Offset in the set-up page (11 R451). -/
abbrev objOut : Nat := 0x120
/-- Offset in the set-up page (11 R451). -/
abbrev objOutAux : Nat := 0x128
/-- Offset in the set-up page (08 R324). -/
abbrev memXlateInval : Nat := 0x200
/-- Offset in the set-up page (08 R324). -/
abbrev memXlateStatus : Nat := 0x208
/-- Offset in the set-up page (06 R261). -/
abbrev geomBinCtl : Nat := 0x300
/-- Offset in the set-up page (06 R262). -/
abbrev geomBinReq : Nat := 0x308
/-- Offset in the set-up page (06 R262). -/
abbrev geomBinNeed : Nat := 0x310
/-- Offset in the set-up page (06 R263). -/
abbrev geomBinGrant : Nat := 0x318
/-- Offset in the set-up page (07 R295). -/
abbrev dressFlip (i : Nat) : Nat := 0x400 + 0x40 * i
/-- Offset in the set-up page (07 R295). -/
abbrev dressFlipCtl (i : Nat) : Nat := 0x408 + 0x40 * i
/-- Offset in the set-up page (18 R705). -/
abbrev dressHeadStatusCopy (i : Nat) : Nat := 0x410 + 0x40 * i
/-- Offset in the set-up page (11 R494). -/
abbrev hangCtl : Nat := 0x500
/-- Offset in the set-up page (12 R506). -/
abbrev schedSave : Nat := 0x600
/-- Offset in the set-up page (12 R506). -/
abbrev schedSaveUsed : Nat := 0x608
/-- Offset in the set-up page (12 R544). -/
abbrev acctSel : Nat := 0x700
/-- Offset in the set-up page (12 R544). -/
abbrev acctData (i : Nat) : Nat := 0x740 + 0x4 * i
/-- Offset in the set-up page (11 R489). -/
abbrev faultqHead : Nat := 0x800
/-- Offset in the set-up page (11 R487, R489). -/
abbrev faultqTail : Nat := 0x804
/-- Offset in the set-up page (11 R489). -/
abbrev faultqCtl : Nat := 0x808
/-- Offset in the set-up page (11 R489). -/
abbrev faultqStatus : Nat := 0x80C
/-- Offset in the set-up page (11 R489). -/
abbrev faultqOverflowCount : Nat := 0x810
/-- Offset in the set-up page (11 R489). -/
abbrev objFenceRegressCount : Nat := 0x814
/-- Offset in the set-up page (15 R640). -/
abbrev wbSampleAddr (i : Nat) : Nat := 0x1000 + 0x10 * i
/-- Offset in the set-up page (15 R640). -/
abbrev wbSampleHead (i : Nat) : Nat := 0x1008 + 0x10 * i
/-- Offset in the set-up page (11 R489). -/
abbrev faultqData (i : Nat) : Nat := 0x4000 + 0x4 * i
/-- PF BAR0 offset (01 R21). -/
abbrev cfgnetCoreLive : Nat := 0x100000
/-- PF BAR0 offset (01 R22). -/
abbrev cfgnetSpareState : Nat := 0x100008
/-- PF BAR0 offset (04 R130). -/
abbrev coreSchedCfg : Nat := 0x110000
/-- PF BAR0 offset (04 R141). -/
abbrev coreLsCfg : Nat := 0x110004
/-- PF BAR0 offset (04 R169). -/
abbrev coreStatus : Nat := 0x110008
/-- PF BAR0 offset (04 R131). -/
abbrev coreRotateCount : Nat := 0x110010
/-- PF BAR0 offset (04 R158). -/
abbrev coreAtomicSerialCount : Nat := 0x110018
/-- PF BAR0 offset (04 R143). -/
abbrev coreLsRepartCount : Nat := 0x110020
/-- PF BAR0 offset (04 R142). -/
abbrev coreLsState (i : Nat) : Nat := 0x110100 + 0x4 * i
/-- PF BAR0 offset (03 R115). -/
abbrev tensorCfg : Nat := 0x120000
/-- PF BAR0 offset (03 R119). -/
abbrev tensorStatus : Nat := 0x120004
/-- PF BAR0 offset (03 R118). -/
abbrev tensorDescCount : Nat := 0x120008
/-- PF BAR0 offset (03 R116). -/
abbrev tensorBusy : Nat := 0x120010
/-- PF BAR0 offset (03 R117). -/
abbrev tensorKstepCount : Nat := 0x120018
/-- PF BAR0 offset (06 R260). -/
abbrev geomCfg : Nat := 0x130000
/-- PF BAR0 offset (06 R265). -/
abbrev rasterStatus : Nat := 0x130004
/-- PF BAR0 offset (06 R264). -/
abbrev geomBinGrowCount : Nat := 0x130008
/-- PF BAR0 offset (06 R264). -/
abbrev geomBinDenyCount : Nat := 0x13000C
/-- PF BAR0 offset (06 R264). -/
abbrev surfDecodeErrCount : Nat := 0x130010
/-- PF BAR0 offset (06 R264). -/
abbrev rasterTileCount : Nat := 0x130018
/-- PF BAR0 offset (07 R294). -/
abbrev dressEdpCfg : Nat := 0x140000
/-- PF BAR0 offset (07 R298). -/
abbrev dressStatus : Nat := 0x140004
/-- PF BAR0 offset (07 R297). -/
abbrev dressLateCount : Nat := 0x140008
/-- PF BAR0 offset (07 R297). -/
abbrev dressReplaceCount : Nat := 0x14000C
/-- PF BAR0 offset (07 R297). -/
abbrev dressUnderrunCount : Nat := 0x140010
/-- PF BAR0 offset (07 R297). -/
abbrev dressFaultCount : Nat := 0x140014
/-- PF BAR0 offset (07 R297). -/
abbrev dressRetrainCount : Nat := 0x140018
/-- PF BAR0 offset (07 R290). -/
abbrev dressHeadCtl (i : Nat) : Nat := 0x140100 + 0x100 * i
/-- PF BAR0 offset (07 R292). -/
abbrev dressHeadPclk (i : Nat) : Nat := 0x140104 + 0x100 * i
/-- PF BAR0 offset (07 R291). -/
abbrev dressHeadHtiming (i : Nat) : Nat := 0x140108 + 0x100 * i
/-- PF BAR0 offset (07 R291). -/
abbrev dressHeadVtiming (i : Nat) : Nat := 0x140110 + 0x100 * i
/-- PF BAR0 offset (07 R296). -/
abbrev dressHeadStatus (i : Nat) : Nat := 0x140118 + 0x100 * i
/-- PF BAR0 offset (07 R293). -/
abbrev dressDsiCfg (i : Nat) : Nat := 0x140400 + 0x100 * i
/-- PF BAR0 offset (07 R293). -/
abbrev dressDsiCmd (i : Nat) : Nat := 0x140404 + 0x100 * i
/-- PF BAR0 offset (07 R293). -/
abbrev dressDsiData0 (i : Nat) : Nat := 0x140440 + 0x4 * i
/-- PF BAR0 offset (07 R293). -/
abbrev dressDsiData1 (i : Nat) : Nat := 0x140540 + 0x4 * i
/-- PF BAR0 offset (08 R342). -/
abbrev memQosCfg : Nat := 0x150000
/-- PF BAR0 offset (08 R345). -/
abbrev memStatus : Nat := 0x150004
/-- PF BAR0 offset (08 R344). -/
abbrev memLockRefuseCount : Nat := 0x150008
/-- PF BAR0 offset (08 R310). -/
abbrev memModel : Nat := 0x150010
/-- PF BAR0 offset (08 R344). -/
abbrev memXlateMissCount : Nat := 0x150018
/-- PF BAR0 offset (08 R344). -/
abbrev memEvbHitCount : Nat := 0x150020
/-- PF BAR0 offset (08 R309). -/
abbrev memClaim (i : Nat) : Nat := 0x150100 + 0x4 * i
/-- PF BAR0 offset (08 R343). -/
abbrev memLockQuota (i : Nat) : Nat := 0x150300 + 0x4 * i
/-- PF BAR0 offset (08 R343). -/
abbrev memLockUsed (i : Nat) : Nat := 0x150380 + 0x4 * i
/-- PF BAR0 offset (09 R382). -/
abbrev errCfg : Nat := 0x160000
/-- PF BAR0 offset (09 R384). -/
abbrev errCtl : Nat := 0x160004
/-- PF BAR0 offset (09 R387). -/
abbrev errStatus : Nat := 0x160008
/-- PF BAR0 offset (09 R384). -/
abbrev errSpare : Nat := 0x16000C
/-- PF BAR0 offset (09 R384). -/
abbrev errFrameRetire : Nat := 0x160010
/-- PF BAR0 offset (09 R384). -/
abbrev errCoreRetire : Nat := 0x160014
/-- PF BAR0 offset (09 R383). -/
abbrev errThresh : Nat := 0x160018
/-- PF BAR0 offset (09 R386). -/
abbrev errDramSlowCount : Nat := 0x160020
/-- PF BAR0 offset (09 R386). -/
abbrev errDramSymCount : Nat := 0x160028
/-- PF BAR0 offset (09 R386). -/
abbrev errSramCorrCount : Nat := 0x160030
/-- PF BAR0 offset (09 R386). -/
abbrev errDramUncorrCount : Nat := 0x160038
/-- PF BAR0 offset (09 R386). -/
abbrev errLostSectorCount : Nat := 0x16003C
/-- PF BAR0 offset (09 R386). -/
abbrev errSramUncorrCount : Nat := 0x160040
/-- PF BAR0 offset (09 R386). -/
abbrev errFrameRetireCount : Nat := 0x160044
/-- PF BAR0 offset (09 R386). -/
abbrev errCorePromoteCount : Nat := 0x160048
/-- PF BAR0 offset (09 R386). -/
abbrev errCoreNospareCount : Nat := 0x16004C
/-- PF BAR0 offset (09 R385). -/
abbrev errTestCtl : Nat := 0x160080
/-- PF BAR0 offset (09 R385). -/
abbrev errTestAddr : Nat := 0x160088
/-- PF BAR0 offset (09 R385). -/
abbrev errTestBuf (i : Nat) : Nat := 0x161000 + 0x4 * i
/-- PF BAR0 offset (10 R407). -/
abbrev partDescAddr : Nat := 0x170000
/-- PF BAR0 offset (10 R407). -/
abbrev partCmd : Nat := 0x170008
/-- PF BAR0 offset (10 R407). -/
abbrev partStatus : Nat := 0x17000C
/-- PF BAR0 offset (10 R443). -/
abbrev pcieStatus : Nat := 0x170010
/-- PF BAR0 offset (10 R442). -/
abbrev pcieMsiDropCount : Nat := 0x170014
/-- PF BAR0 offset (10 R399). -/
abbrev pcieMsixAlloc (i : Nat) : Nat := 0x170100 + 0x4 * i
/-- PF BAR0 offset (10 R441). -/
abbrev gantryRingCfg : Nat := 0x180000
/-- PF BAR0 offset (10 R443). -/
abbrev gantryRingStatus : Nat := 0x180004
/-- PF BAR0 offset (10 R442). -/
abbrev gantryWakeIgnoredCount : Nat := 0x180008
/-- PF BAR0 offset (10 R442). -/
abbrev gantryIdleAbortCount : Nat := 0x18000C
/-- PF BAR0 offset (10 R442). -/
abbrev gantryWakeCount : Nat := 0x180010
/-- PF BAR0 offset (11 R495). -/
abbrev gantryWdtCfg : Nat := 0x180018
/-- PF BAR0 offset (11 R497). -/
abbrev objDevStatus : Nat := 0x18001C
/-- PF BAR0 offset (11 R496). -/
abbrev objKillCount : Nat := 0x180020
/-- PF BAR0 offset (11 R496). -/
abbrev objDeadlockCount : Nat := 0x180024
/-- PF BAR0 offset (11 R496). -/
abbrev objHangCount : Nat := 0x180028
/-- PF BAR0 offset (12 R545). -/
abbrev schedCfg : Nat := 0x190000
/-- PF BAR0 offset (12 R548). -/
abbrev schedStatus : Nat := 0x190004
/-- PF BAR0 offset (12 R546). -/
abbrev serveStatus : Nat := 0x190008
/-- PF BAR0 offset (12 R547). -/
abbrev schedPreemptCount : Nat := 0x190010
/-- PF BAR0 offset (12 R547). -/
abbrev schedSwapCount : Nat := 0x190018
/-- PF BAR0 offset (12 R547). -/
abbrev schedDeadlineMissCount : Nat := 0x19001C
/-- PF BAR0 offset (12 R547). -/
abbrev schedGateDeadCount : Nat := 0x190020
/-- PF BAR0 offset (12 R547). -/
abbrev cadenceUnlockCount : Nat := 0x190024
/-- PF BAR0 offset (12 R547). -/
abbrev cadenceRejectCount : Nat := 0x190028
/-- PF BAR0 offset (12 R513). -/
abbrev cadenceCfg : Nat := 0x190030
/-- PF BAR0 offset (12 R513). -/
abbrev cadencePeriod : Nat := 0x190034
/-- PF BAR0 offset (12 R513). -/
abbrev cadenceStatus : Nat := 0x190038
/-- PF BAR0 offset (13 R574). -/
abbrev markCfg : Nat := 0x1A0000
/-- PF BAR0 offset (13 R575). -/
abbrev markGrant (i : Nat) : Nat := 0x1A0100 + 0x40 * i
/-- PF BAR0 offset (13 R576). -/
abbrev markCtl (i : Nat) : Nat := 0x1A0104 + 0x40 * i
/-- PF BAR0 offset (13 R577). -/
abbrev markPoly (i : Nat) : Nat := 0x1A0108 + 0x40 * i
/-- PF BAR0 offset (13 R577). -/
abbrev markXorout (i : Nat) : Nat := 0x1A0110 + 0x40 * i
/-- PF BAR0 offset (13 R577). -/
abbrev markAttach (i : Nat) : Nat := 0x1A0114 + 0x40 * i
/-- PF BAR0 offset (13 R580). -/
abbrev markUnitStatus (i : Nat) : Nat := 0x1A0118 + 0x40 * i
/-- PF BAR0 offset (13 R578). -/
abbrev markRun (i : Nat) : Nat := 0x1A0120 + 0x40 * i
/-- PF BAR0 offset (13 R578). -/
abbrev markResult (i : Nat) : Nat := 0x1A0128 + 0x40 * i
/-- PF BAR0 offset (13 R579). -/
abbrev markMsgCount (i : Nat) : Nat := 0x1A0130 + 0x40 * i
/-- PF BAR0 offset (13 R579). -/
abbrev markEventCount (i : Nat) : Nat := 0x1A0138 + 0x40 * i
/-- PF BAR0 offset (13 R582). -/
abbrev crushStatus : Nat := 0x1B0000
/-- PF BAR0 offset (13 R581). -/
abbrev crushStoredCount : Nat := 0x1B0004
/-- PF BAR0 offset (13 R581). -/
abbrev crushErrCount : Nat := 0x1B0008
/-- PF BAR0 offset (13 R581). -/
abbrev crushVerifyCount : Nat := 0x1B000C
/-- PF BAR0 offset (13 R581). -/
abbrev crushBlockCount : Nat := 0x1B0010
/-- PF BAR0 offset (14 R605). -/
abbrev linkCfg : Nat := 0x1C0000
/-- PF BAR0 offset (14 R606). -/
abbrev linkId : Nat := 0x1C0008
/-- PF BAR0 offset (14 R606). -/
abbrev linkRoute : Nat := 0x1C0010
/-- PF BAR0 offset (14 R606). -/
abbrev linkImportDrop : Nat := 0x1C0014
/-- PF BAR0 offset (14 R609). -/
abbrev linkStatus : Nat := 0x1C0018
/-- PF BAR0 offset (14 R608). -/
abbrev linkRetryCount : Nat := 0x1C0020
/-- PF BAR0 offset (14 R608). -/
abbrev linkLaneSwapCount : Nat := 0x1C0028
/-- PF BAR0 offset (14 R608). -/
abbrev linkStallCount : Nat := 0x1C002C
/-- PF BAR0 offset (14 R608). -/
abbrev linkRefuseCount : Nat := 0x1C0030
/-- PF BAR0 offset (14 R608). -/
abbrev linkTimeoutCount : Nat := 0x1C0034
/-- PF BAR0 offset (14 R608). -/
abbrev linkLateReplyCount : Nat := 0x1C0038
/-- PF BAR0 offset (14 R608). -/
abbrev linkHopDropCount : Nat := 0x1C003C
/-- PF BAR0 offset (14 R608). -/
abbrev linkDownCount : Nat := 0x1C0040
/-- PF BAR0 offset (14 R607). -/
abbrev linkPortCtl (i : Nat) : Nat := 0x1C0100 + 0x8 * i
/-- PF BAR0 offset (14 R607). -/
abbrev linkPortStatus (i : Nat) : Nat := 0x1C0104 + 0x8 * i
/-- PF BAR0 offset (15 R634). -/
abbrev pwrCtl : Nat := 0x1D0000
/-- PF BAR0 offset (15 R634). -/
abbrev pwrStatus : Nat := 0x1D0004
/-- PF BAR0 offset (15 R635). -/
abbrev pwrCfg : Nat := 0x1D0008
/-- PF BAR0 offset (15 R636). -/
abbrev pwrCoolant : Nat := 0x1D0010
/-- PF BAR0 offset (15 R636). -/
abbrev pwrReading : Nat := 0x1D0014
/-- PF BAR0 offset (15 R637). -/
abbrev pwrCountStatus : Nat := 0x1D0018
/-- PF BAR0 offset (15 R634). -/
abbrev pwrRetain (i : Nat) : Nat := 0x1D0020 + 0x4 * i
/-- PF BAR0 offset (15 R634). -/
abbrev pwrRetain2 : Nat := 0x1D0028
/-- PF BAR0 offset (15 R637). -/
abbrev pwrRefuseCount (i : Nat) : Nat := 0x1D0100 + 0x4 * i
/-- PF BAR0 offset (15 R637). -/
abbrev pwrAbortCount (i : Nat) : Nat := 0x1D0140 + 0x4 * i
/-- PF BAR0 offset (15 R638). -/
abbrev wbCfg : Nat := 0x1E0000
/-- PF BAR0 offset (15 R638). -/
abbrev wbGpio : Nat := 0x1E0004
/-- PF BAR0 offset (15 R641). -/
abbrev wbStatus : Nat := 0x1E0008
/-- PF BAR0 offset (15 R641). -/
abbrev wbStallCount : Nat := 0x1E000C
/-- PF BAR0 offset (15 R641). -/
abbrev wbDropCount : Nat := 0x1E0010
/-- PF BAR0 offset (15 R641). -/
abbrev wbResetCount : Nat := 0x1E0014
/-- PF BAR0 offset (18 R711). -/
abbrev wbAction0 : Nat := 0x1E0040
/-- PF BAR0 offset (15 R638). -/
abbrev wbActionFrom1 (i : Nat) : Nat := 0x1E0044 + 0x4 * i
/-- PF BAR0 offset (15 R639). -/
abbrev wbStream (i : Nat) : Nat := 0x1E0100 + 0x8 * i
/-- PF BAR0 offset (16 R673). -/
abbrev fwImageAddr : Nat := 0x1F0000
/-- PF BAR0 offset (16 R673). -/
abbrev fwCtl : Nat := 0x1F0008
/-- PF BAR0 offset (16 R674). -/
abbrev fwStatus : Nat := 0x1F000C
/-- PF BAR0 offset (16 R675). -/
abbrev fwCfg : Nat := 0x1F0010
/-- PF BAR0 offset (16 R675). -/
abbrev fwHaul : Nat := 0x1F0014
/-- PF BAR0 offset (16 R675). -/
abbrev fwSlot (i : Nat) : Nat := 0x1F0018 + 0x4 * i
/-- PF BAR0 offset (16 R676). -/
abbrev keyStatus : Nat := 0x1F0020
/-- PF BAR0 offset (16 R676). -/
abbrev keyUid (i : Nat) : Nat := 0x1F0028 + 0x8 * i
/-- PF BAR0 offset (16 R677). -/
abbrev fwFallbackCount : Nat := 0x1F0038
/-- PF BAR0 offset (16 R677). -/
abbrev fwTakeoverCount : Nat := 0x1F003C
/-- PF BAR0 offset (16 R677). -/
abbrev fwSigFailCount : Nat := 0x1F0040
/-- PF BAR0 offset (16 R677). -/
abbrev fwCountStatus : Nat := 0x1F0044
/-- WB_ACTION[c] (15 R638, 18 R711). -/
abbrev wbAction (c : Nat) : Nat := 0x1E0040 + 4 * c
/-- DRESS_DSI_DATA[k][i] (07 R293, 18 R707). -/
abbrev dressDsiData (k i : Nat) : Nat := 0x140440 + 0x100 * k + 4 * i
/-- PWR_RETAIN[i] (15 R634). -/
abbrev pwrRetainWord (i : Nat) : Nat := 0x1D0020 + 4 * i
end Reg

/-- The registers of the partition set-up page, at offsets from its start (18 R704). -/
def regsP : List RegDesc := [
  { reg Reg.ringDescAddr 64 0x0 [fld 63 6 .rw] with atomic := true },
  reg Reg.ringCmd 32 0x0 [fld 31 0 .own],
  reg Reg.ringCmdStatus 32 0x0 [fld 31 0 .ro],
  { reg Reg.objDescAddr 64 0x0 [fld 63 6 .rw] with atomic := true },
  reg Reg.objHandle 32 0x0 [fld 31 0 .rw],
  { reg Reg.objArg 64 0x0 [fld 63 0 .rw] with atomic := true },
  reg Reg.objCmd 32 0x0 [fld 31 0 .own],
  reg Reg.objStatus 32 0x0 [fld 31 0 .ro],
  reg Reg.objOut 64 0x0 [fld 63 0 .ro],
  reg Reg.objOutAux 32 0x0 [fld 31 0 .ro],
  { reg Reg.memXlateInval 64 0x0 [fld 63 0 .own] with atomic := true },
  reg Reg.memXlateStatus 32 0x0 [fld 31 0 .ro],
  reg Reg.geomBinCtl 32 0x0 [fld 10 0 .rw],
  reg Reg.geomBinReq 64 0x0 [fld 63 0 .ro],
  reg Reg.geomBinNeed 64 0x0 [fld 63 0 .ro],
  reg Reg.geomBinGrant 32 0x0 [fld 31 0 .own],
  { reg (Reg.dressFlip 0) 64 0x0 [fld 63 0 .own] with n := 2, stride := 0x40, atomic := true },
  { reg (Reg.dressFlipCtl 0) 32 0x0 [fld 10 0 .rw, fld 11 11 .rw] with n := 2, stride := 0x40 },
  { reg (Reg.dressHeadStatusCopy 0) 64 0x0 [fld 63 0 .ro] with n := 2, stride := 0x40 },
  { reg Reg.hangCtl 64 0x0 [fld 0 0 .rw, fld 47 12 .rw] with atomic := true }]

/-- The registers of the partition set-up page, at offsets from its start (18 R704). -/
def regsP2 : List RegDesc := [
  { reg Reg.schedSave 64 0x0 [fld 15 0 .rw, fld 47 16 .rw] with atomic := true },
  reg Reg.schedSaveUsed 32 0x0 [fld 31 0 .ro],
  reg Reg.acctSel 32 0x0 [fld 7 0 .own],
  { reg (Reg.acctData 0) 32 0x0 [fld 31 0 .ro] with n := 16, stride := 0x4 },
  reg Reg.faultqHead 32 0x0 [fld 31 0 .ro],
  reg Reg.faultqTail 32 0x0 [fld 31 0 .own],
  reg Reg.faultqCtl 32 0x0 [fld 10 0 .rw, fld 11 11 .rw],
  reg Reg.faultqStatus 32 0x0 [fld 1 0 .w1c],
  reg Reg.faultqOverflowCount 32 0x0 [fld 31 0 .ro],
  reg Reg.objFenceRegressCount 32 0x0 [fld 31 0 .ro],
  { reg (Reg.wbSampleAddr 0) 64 0x0 [fld 47 14 .rw] with n := 16, stride := 0x10, atomic := true },
  { reg (Reg.wbSampleHead 0) 32 0x0 [fld 31 0 .ro] with n := 16, stride := 0x10 },
  { reg (Reg.faultqData 0) 32 0x0 [fld 31 0 .ro] with n := 4096, stride := 0x4 }]

/-- The registers of the CFGNET block (18 R703). -/
def regsCfgnet : List RegDesc := [
  reg Reg.cfgnetCoreLive 64 0x0 [fld 63 0 .ro],
  reg Reg.cfgnetSpareState 32 0x0 [fld 31 0 .ro]]

/-- The registers of the CORE block (18 R703). -/
def regsCore : List RegDesc := [
  { reg Reg.coreSchedCfg 32 0x2 [fldR 1 0 .rwl 0 2, fld 8 8 .rwl, fld 31 31 .w1s] with lock := 31 },
  { reg Reg.coreLsCfg 32 0x2 [fldR 3 0 .rwl 2 8, fld 31 31 .w1s] with lock := 31 },
  reg Reg.coreStatus 32 0x0 [fld 2 0 .w1c],
  reg Reg.coreRotateCount 64 0x0 [fld 63 0 .ro],
  reg Reg.coreAtomicSerialCount 64 0x0 [fld 63 0 .ro],
  reg Reg.coreLsRepartCount 32 0x0 [fld 31 0 .ro],
  { reg (Reg.coreLsState 0) 32 0x0 [fld 31 0 .ro] with n := 64, stride := 0x4 }]

/-- The registers of the TENSOR block (18 R703). -/
def regsTensor : List RegDesc := [
  { reg Reg.tensorCfg 32 0xF [fld 3 0 .rwl, fld 8 8 .rwl, fld 31 31 .w1s] with lock := 31 },
  reg Reg.tensorStatus 32 0x0 [fld 1 0 .w1c],
  reg Reg.tensorDescCount 32 0x0 [fld 31 0 .ro],
  reg Reg.tensorBusy 64 0x0 [fld 63 0 .ro],
  reg Reg.tensorKstepCount 64 0x0 [fld 63 0 .ro]]

/-- The registers of the GEOM block (18 R703). -/
def regsGeom : List RegDesc := [
  { reg Reg.geomCfg 32 0x14 [fldR 9 0 .rwl 1 1000, fld 31 31 .w1s] with lock := 31 },
  reg Reg.rasterStatus 32 0x0 [fld 3 0 .w1c],
  reg Reg.geomBinGrowCount 32 0x0 [fld 31 0 .ro],
  reg Reg.geomBinDenyCount 32 0x0 [fld 31 0 .ro],
  reg Reg.surfDecodeErrCount 32 0x0 [fld 31 0 .ro],
  reg Reg.rasterTileCount 64 0x0 [fld 63 0 .ro]]

/-- The registers of the DRESS block (18 R703). -/
def regsDress : List RegDesc := [
  reg Reg.dressEdpCfg 32 0xA7 [fld 2 0 .rw, fld 5 3 .rw, fld 6 6 .rw, fld 7 7 .rw, fld 14 8 .ro],
  reg Reg.dressStatus 32 0x0 [fld 6 0 .w1c],
  reg Reg.dressLateCount 32 0x0 [fld 31 0 .ro],
  reg Reg.dressReplaceCount 32 0x0 [fld 31 0 .ro],
  reg Reg.dressUnderrunCount 32 0x0 [fld 31 0 .ro],
  reg Reg.dressFaultCount 32 0x0 [fld 31 0 .ro],
  reg Reg.dressRetrainCount 32 0x0 [fld 31 0 .ro],
  { reg (Reg.dressHeadCtl 0) 32 0x200 [fld 0 0 .own, fld 2 1 .rw, fld 4 3 .rw, fld 16 5 .rw, fld 21 17 .rwl, fld 31 31 .w1s] with n := 2, stride := 0x100, lock := 31 },
  { reg (Reg.dressHeadPclk 0) 32 0x0 [fld 19 0 .rw] with n := 2, stride := 0x100 },
  { reg (Reg.dressHeadHtiming 0) 64 0x0 [fld 15 0 .rw, fld 31 16 .rw, fld 47 32 .rw, fld 63 48 .rw] with n := 2, stride := 0x100, atomic := true },
  { reg (Reg.dressHeadVtiming 0) 64 0x0 [fld 15 0 .rw, fld 31 16 .rw, fld 47 32 .rw, fld 63 48 .rw] with n := 2, stride := 0x100, atomic := true },
  { reg (Reg.dressHeadStatus 0) 64 0x0 [fld 63 0 .ro] with n := 2, stride := 0x100 },
  { reg (Reg.dressDsiCfg 0) 32 0x4 [fld 2 0 .rw, fld 15 3 .rw, fld 16 16 .rw, fld 17 17 .rw] with n := 2, stride := 0x100 },
  { reg (Reg.dressDsiCmd 0) 32 0x0 [fld 5 0 .rw, fld 7 6 .rw, fld 14 8 .rw, fld 15 15 .rw, fld 16 16 .ro, fld 31 31 .own] with n := 2, stride := 0x100 },
  { reg (Reg.dressDsiData0 0) 32 0x0 [fld 31 0 .rw] with n := 16, stride := 0x4 },
  { reg (Reg.dressDsiData1 0) 32 0x0 [fld 31 0 .rw] with n := 16, stride := 0x4 }]

/-- The registers of the MEM block (18 R703). -/
def regsMem : List RegDesc := [
  { reg Reg.memQosCfg 32 0x1040 [fldR 8 0 .rwl 0 256, fldR 14 9 .rwl 1 32, fld 31 31 .w1s] with lock := 31 },
  reg Reg.memStatus 32 0x0 [fld 2 0 .w1c],
  reg Reg.memLockRefuseCount 32 0x0 [fld 31 0 .ro],
  reg Reg.memModel 64 0x0 [fld 63 0 .ro],
  reg Reg.memXlateMissCount 64 0x0 [fld 63 0 .ro],
  reg Reg.memEvbHitCount 64 0x0 [fld 63 0 .ro],
  { reg (Reg.memClaim 0) 32 0x0 [fld 31 0 .ro] with n := 95, stride := 0x4 },
  { reg (Reg.memLockQuota 0) 32 0x0 [fldR 8 0 .rw 0 384] with n := 32, stride := 0x4 },
  { reg (Reg.memLockUsed 0) 32 0x0 [fld 31 0 .ro] with n := 32, stride := 0x4 }]

/-- The registers of the ERR block (18 R703). -/
def regsErr : List RegDesc := [
  { reg Reg.errCfg 32 0x18 [fld 7 0 .rwl, fld 8 8 .rwl, fld 9 9 .rwl, fld 31 31 .w1s] with lock := 31 },
  reg Reg.errCtl 32 0x0 [fld 10 0 .rw],
  reg Reg.errStatus 32 0x0 [fld 0 0 .w1c, fld 1 1 .ro, fld 11 2 .w1c],
  reg Reg.errSpare 32 0x0 [fld 31 0 .ro],
  reg Reg.errFrameRetire 32 0x0 [fld 31 0 .own],
  reg Reg.errCoreRetire 32 0x0 [fld 31 0 .own],
  { reg Reg.errThresh 64 0x3C0104040 [fldR 11 0 .rwl 1 4095, fldR 15 12 .rwl 1 8, fldR 27 16 .rwl 1 4095, fldR 39 28 .rwl 1 4095] with atomic := true, whole := true },
  reg Reg.errDramSlowCount 64 0x0 [fld 63 0 .ro],
  reg Reg.errDramSymCount 64 0x0 [fld 63 0 .ro],
  reg Reg.errSramCorrCount 64 0x0 [fld 63 0 .ro],
  reg Reg.errDramUncorrCount 32 0x0 [fld 31 0 .ro],
  reg Reg.errLostSectorCount 32 0x0 [fld 31 0 .ro],
  reg Reg.errSramUncorrCount 32 0x0 [fld 31 0 .ro],
  reg Reg.errFrameRetireCount 32 0x0 [fld 31 0 .ro],
  reg Reg.errCorePromoteCount 32 0x0 [fld 31 0 .ro],
  reg Reg.errCoreNospareCount 32 0x0 [fld 31 0 .ro],
  reg Reg.errTestCtl 32 0x0 [fld 1 0 .rw, fld 3 2 .rw, fld 4 4 .own, fld 6 5 .ro],
  { reg Reg.errTestAddr 64 0x0 [fld 36 11 .rw] with atomic := true },
  { reg (Reg.errTestBuf 0) 32 0x0 [fld 31 0 .rw] with n := 576, stride := 0x4 }]

/-- The registers of the PCIE block (18 R703). -/
def regsPcie : List RegDesc := [
  { reg Reg.partDescAddr 64 0x0 [fld 63 6 .rw] with atomic := true },
  reg Reg.partCmd 32 0x0 [fld 31 0 .own],
  reg Reg.partStatus 32 0x0 [fld 31 0 .ro],
  reg Reg.pcieStatus 32 0x0 [fld 0 0 .w1c],
  reg Reg.pcieMsiDropCount 32 0x0 [fld 31 0 .ro],
  { reg (Reg.pcieMsixAlloc 0) 32 0x40 [fld 11 0 .own] with n := 32, stride := 0x4 }]

/-- The registers of the GANTRY block (18 R703). -/
def regsGantry : List RegDesc := [
  { reg Reg.gantryRingCfg 32 0x4 [fldR 7 0 .rwl 1 255, fld 31 31 .w1s] with lock := 31 },
  reg Reg.gantryRingStatus 32 0x0 [fld 2 0 .w1c],
  reg Reg.gantryWakeIgnoredCount 32 0x0 [fld 31 0 .ro],
  reg Reg.gantryIdleAbortCount 32 0x0 [fld 31 0 .ro],
  reg Reg.gantryWakeCount 64 0x0 [fld 63 0 .ro],
  { reg Reg.gantryWdtCfg 32 0x64 [fldR 13 0 .rwl 1 10000, fld 31 31 .w1s] with lock := 31 },
  reg Reg.objDevStatus 32 0x0 [fld 2 0 .w1c],
  reg Reg.objKillCount 32 0x0 [fld 31 0 .ro],
  reg Reg.objDeadlockCount 32 0x0 [fld 31 0 .ro],
  reg Reg.objHangCount 32 0x0 [fld 31 0 .ro]]

/-- The registers of the SCHED block (18 R703). -/
def regsSched : List RegDesc := [
  { reg Reg.schedCfg 32 0xA02814 [fldR 9 0 .rwl 1 1000, fldR 19 10 .rwl 1 1000, fldR 25 20 .rwl 1 60, fld 31 31 .w1s] with lock := 31 },
  reg Reg.schedStatus 32 0x0 [fld 5 0 .w1c],
  reg Reg.serveStatus 64 0x0 [fld 63 0 .ro],
  reg Reg.schedPreemptCount 64 0x0 [fld 63 0 .ro],
  reg Reg.schedSwapCount 32 0x0 [fld 31 0 .ro],
  reg Reg.schedDeadlineMissCount 32 0x0 [fld 31 0 .ro],
  reg Reg.schedGateDeadCount 32 0x0 [fld 31 0 .ro],
  reg Reg.cadenceUnlockCount 32 0x0 [fld 31 0 .ro],
  reg Reg.cadenceRejectCount 32 0x0 [fld 31 0 .ro],
  { reg Reg.cadenceCfg 32 0x1103E8 [fldR 14 0 .rwl 100 20000, fld 17 15 .rwl, fldR 21 18 .rwl 2 15, fld 22 22 .rwl, fld 31 31 .w1s] with lock := 31 },
  reg Reg.cadencePeriod 32 0xF4240 [fld 31 0 .ro],
  reg Reg.cadenceStatus 64 0x0 [fld 63 0 .ro]]

/-- The registers of the MARK block (18 R703). -/
def regsMark : List RegDesc := [
  { reg Reg.markCfg 32 0x64 [fldR 13 0 .rwl 10 10000, fld 31 31 .w1s] with lock := 31 },
  { reg (Reg.markGrant 0) 32 0x0 [fld 31 0 .own] with n := 24, stride := 0x40 },
  { reg (Reg.markCtl 0) 32 0x24 [fld 0 0 .rw, fldR 3 1 .rw 0 6, fld 5 4 .rw, fld 6 6 .rw, fld 7 7 .rw, fld 9 8 .rw, fld 13 10 .rw, fld 15 14 .rw, fld 27 16 .rw] with n := 24, stride := 0x40 },
  { reg (Reg.markPoly 0) 64 0x0 [fld 31 0 .rw, fld 63 32 .rw] with n := 24, stride := 0x40, atomic := true },
  { reg (Reg.markXorout 0) 32 0x0 [fld 31 0 .rw] with n := 24, stride := 0x40 },
  { reg (Reg.markAttach 0) 32 0x0 [fld 31 0 .own] with n := 24, stride := 0x40 },
  { reg (Reg.markUnitStatus 0) 32 0x0 [fld 10 0 .w1c] with n := 24, stride := 0x40 },
  { reg (Reg.markRun 0) 64 0x0 [fld 63 0 .own] with n := 24, stride := 0x40 },
  { reg (Reg.markResult 0) 64 0x0 [fld 63 0 .ro] with n := 24, stride := 0x40 },
  { reg (Reg.markMsgCount 0) 64 0x0 [fld 63 0 .ro] with n := 24, stride := 0x40 },
  { reg (Reg.markEventCount 0) 64 0x0 [fld 63 0 .ro] with n := 24, stride := 0x40 }]

/-- The registers of the CRUSH block (18 R703). -/
def regsCrush : List RegDesc := [
  reg Reg.crushStatus 32 0x0 [fld 3 0 .w1c],
  reg Reg.crushStoredCount 32 0x0 [fld 31 0 .ro],
  reg Reg.crushErrCount 32 0x0 [fld 31 0 .ro],
  reg Reg.crushVerifyCount 32 0x0 [fld 31 0 .ro],
  reg Reg.crushBlockCount 64 0x0 [fld 63 0 .ro]]

/-- The registers of the LINK block (18 R703). -/
def regsLink : List RegDesc := [
  { reg Reg.linkCfg 64 0x40014050C8 [fldR 9 0 .rwl 100 800, fldR 19 10 .rwl 1 1000, fldR 33 20 .rwl 1 10000, fldR 41 34 .rwl 1 255, fld 63 63 .w1s] with atomic := true, whole := true, lock := 63 },
  reg Reg.linkId 64 0x0 [fld 63 0 .ro],
  { reg Reg.linkRoute 32 0xFFFFFFFF [fld 3 0 .rw, fld 7 4 .rw, fld 11 8 .rw, fld 15 12 .rw, fld 19 16 .rw, fld 23 20 .rw, fld 27 24 .rw, fld 31 28 .rw] with whole := true },
  reg Reg.linkImportDrop 32 0x0 [fld 31 0 .own],
  reg Reg.linkStatus 32 0x0 [fld 7 0 .w1c],
  reg Reg.linkRetryCount 64 0x0 [fld 63 0 .ro],
  reg Reg.linkLaneSwapCount 32 0x0 [fld 31 0 .ro],
  reg Reg.linkStallCount 32 0x0 [fld 31 0 .ro],
  reg Reg.linkRefuseCount 32 0x0 [fld 31 0 .ro],
  reg Reg.linkTimeoutCount 32 0x0 [fld 31 0 .ro],
  reg Reg.linkLateReplyCount 32 0x0 [fld 31 0 .ro],
  reg Reg.linkHopDropCount 32 0x0 [fld 31 0 .ro],
  reg Reg.linkDownCount 32 0x0 [fld 31 0 .ro],
  { reg (Reg.linkPortCtl 0) 32 0x1 [fld 0 0 .rw, fld 1 1 .w1s] with n := 4, stride := 0x8 },
  { reg (Reg.linkPortStatus 0) 32 0x3C0 [fld 31 0 .ro] with n := 4, stride := 0x8 }]

/-- The registers of the PWR block (18 R703). -/
def regsPwr : List RegDesc := [
  reg Reg.pwrCtl 32 0x0 [fld 2 0 .rw, fld 3 3 .rw, fld 31 31 .own],
  reg Reg.pwrStatus 32 0x0 [fld 31 0 .ro],
  { reg Reg.pwrCfg 64 0x323E8D278F0 [fldR 8 0 .rw 100 300, fldR 16 9 .rwl 20 240, fldR 23 17 .rwl 85 105, fld 24 24 .rwl, fldR 34 25 .rwl 10 1000, fldR 44 35 .rwl 1 1000, fld 63 63 .w1s] with atomic := true, whole := true, lock := 63 },
  reg Reg.pwrCoolant 32 0x0 [fld 23 0 .own],
  reg Reg.pwrReading 32 0x0 [fld 31 0 .ro],
  reg Reg.pwrCountStatus 32 0x0 [fld 31 0 .w1c],
  { reg (Reg.pwrRetain 0) 32 0x0 [fld 31 0 .rw] with n := 2, stride := 0x4 },
  reg Reg.pwrRetain2 32 0x80000000 [fld 30 0 .rw, fld 31 31 .ro],
  { reg (Reg.pwrRefuseCount 0) 32 0x0 [fld 31 0 .ro] with n := 16, stride := 0x4 },
  { reg (Reg.pwrAbortCount 0) 32 0x0 [fld 31 0 .ro] with n := 16, stride := 0x4 }]

/-- The registers of the WB block (18 R703). -/
def regsWb : List RegDesc := [
  { reg Reg.wbCfg 32 0x7D0 [fldR 16 0 .rwl 100 100000, fld 20 17 .rwl, fld 31 31 .w1s] with lock := 31 },
  reg Reg.wbGpio 32 0x0 [fld 7 0 .rw, fld 15 8 .rw, fld 23 16 .ro],
  reg Reg.wbStatus 32 0x0 [fld 7 0 .own, fld 8 8 .ro, fld 11 9 .w1c],
  reg Reg.wbStallCount 32 0x0 [fld 31 0 .ro],
  reg Reg.wbDropCount 32 0x0 [fld 31 0 .ro],
  reg Reg.wbResetCount 32 0x0 [fld 31 0 .ro],
  reg Reg.wbAction0 32 0x0 [fld 31 0 .ro],
  { reg (Reg.wbActionFrom1 0) 32 0x17F [fld 7 0 .rw, fld 11 8 .rw, fld 15 12 .rw, fld 18 16 .rw, fld 19 19 .rw] with n := 7, stride := 0x4 },
  { reg (Reg.wbStream 0) 64 0x1F4004000000 [fld 0 0 .rw, fld 2 1 .rw, fld 9 3 .rw, fld 10 10 .rw, fld 13 11 .rw, fld 21 14 .rw, fld 29 22 .rw, fld 34 30 .rw, fld 50 35 .rw] with n := 16, stride := 0x8, atomic := true, whole := true }]

/-- The registers of the FW block (18 R703). -/
def regsFw : List RegDesc := [
  { reg Reg.fwImageAddr 64 0x0 [fld 63 12 .rw] with atomic := true },
  reg Reg.fwCtl 32 0x0 [fld 31 0 .own],
  reg Reg.fwStatus 32 0x0 [fld 31 0 .ro],
  { reg Reg.fwCfg 32 0x1E [fldR 9 0 .rwl 1 600, fld 10 10 .rwl, fld 31 31 .w1s] with lock := 31 },
  reg Reg.fwHaul 32 0x0 [fld 0 0 .own, fld 1 1 .rw, fld 3 2 .rw, fld 6 4 .ro],
  { reg (Reg.fwSlot 0) 32 0x0 [fld 31 0 .ro] with n := 2, stride := 0x4 },
  reg Reg.keyStatus 64 0x0 [fld 63 0 .ro],
  { reg (Reg.keyUid 0) 64 0x0 [fld 63 0 .ro] with n := 2, stride := 0x8 },
  reg Reg.fwFallbackCount 32 0x0 [fld 31 0 .ro],
  reg Reg.fwTakeoverCount 32 0x0 [fld 31 0 .ro],
  reg Reg.fwSigFailCount 32 0x0 [fld 31 0 .ro],
  reg Reg.fwCountStatus 32 0x0 [fld 2 0 .w1c]]

/-- Every device-wide register (18 R706 to R711). -/
def devRegs : List RegDesc :=
  regsCfgnet ++ regsCore ++ regsTensor ++ regsGeom ++ regsDress ++ regsMem ++ regsErr ++ regsPcie ++ regsGantry ++ regsSched ++ regsMark ++ regsCrush ++ regsLink ++ regsPwr ++ regsWb ++ regsFw

/-- Every register of a set-up page, copies excepted (18 R704, R705). -/
def pageRegs : List RegDesc :=
  regsP ++ regsP2

/-- The offset lies on an element of the register or array. -/
def RegDesc.holds (d : RegDesc) (off : Nat) : Bool :=
  d.base ≤ off &&
    (if d.n ≤ 1 then off == d.base
     else (off - d.base) % d.stride == 0 && (off - d.base) / d.stride < d.n)

/-- The register whose lowest byte lies at a key. -/
def regAt (key : Nat) : Option RegDesc :=
  if key < 67108864 then devRegs.find? (fun d => d.holds key)
  else pageRegs.find? (fun d => d.holds (key % 67108864))

/-- The value of the register at a key after the resets of 18 R716. -/
def resetVal (key : Nat) : Word :=
  match regAt key with
  | some d => BitVec.ofNat 64 d.reset
  | none => 0

end Sys2Proof
end

