-- ==== Sys2Proof/Machine/Num.lean ====
section
/-! DEFINITION. Number formats and arithmetic (02): exact values, the scalar formats, rounding, output conversion, stochastic
rounding, block quantisation and the activation functions (03 R98 to R100). -/
namespace Sys2Proof

/-- A value: not a number, an infinity, or (−1)^neg × m × 2^e held exactly (a zero keeps its sign). -/
inductive Val where
  | nan
  | inf (neg : Bool)
  | fin (neg : Bool) (m : Nat) (e : Int)
  deriving DecidableEq, Repr

/-- A binary floating-point format (02 R34): mantissa and exponent bits, least and largest exponent of a normal value, whether
it has infinities, and the integer mantissa of its largest finite value. -/
structure FpFmt where
  mb : Nat
  eb : Nat
  emin : Int
  emax : Int
  inf : Bool
  top : Nat
  deriving DecidableEq, Repr

abbrev fp32 : FpFmt := { mb := 23, eb := 8, emin := -126, emax := 127, inf := true, top := 2 ^ 24 - 1 }
abbrev bf16 : FpFmt := { mb := 7, eb := 8, emin := -126, emax := 127, inf := true, top := 255 }
abbrev fp16 : FpFmt := { mb := 10, eb := 5, emin := -14, emax := 15, inf := true, top := 2047 }
abbrev e4m3 : FpFmt := { mb := 3, eb := 4, emin := -6, emax := 8, inf := false, top := 14 }
abbrev e5m2 : FpFmt := { mb := 2, eb := 5, emin := -14, emax := 15, inf := true, top := 7 }

/-! The format codes (02 R36). -/
namespace Fmt
abbrev FP32 : Nat := 0
abbrev BF16 : Nat := 1
abbrev FP16 : Nat := 2
abbrev E4M3 : Nat := 3
abbrev E5M2 : Nat := 4
abbrev INT8 : Nat := 5
abbrev INT32 : Nat := 6
abbrev QB8I : Nat := 7
abbrev QB8F : Nat := 8
abbrev W1 : Nat := 9
abbrev W2T : Nat := 10
abbrev W2C : Nat := 11
abbrev W4I : Nat := 12
abbrev W4C : Nat := 13
end Fmt

/-- The floating-point format of a code, if it is one; a block-quantised E4M3 element is E4M3. -/
def fpOf (code : Nat) : Option FpFmt :=
  match code with
  | 0 => some fp32
  | 1 => some bf16
  | 2 => some fp16
  | 3 => some e4m3
  | 4 => some e5m2
  | 8 => some e4m3
  | _ => none

/-- The bits of an element of a format (02 R34, R41). -/
def fmtBits (code : Nat) : Nat :=
  match code with
  | 0 => 32
  | 1 => 16
  | 2 => 16
  | 6 => 32
  | 9 => 1
  | 10 => 2
  | 11 => 2
  | 12 => 4
  | 13 => 4
  | _ => 8

/-! Values. -/

/-- An integer. -/
def ofInt (i : Int) : Val :=
  .fin (i < 0) i.natAbs 0

/-- The two's complement integer that `n` bits spell. -/
def sInt (n x : Nat) : Int :=
  if x % 2 ^ n < 2 ^ (n - 1) then (x % 2 ^ n : Nat) else (x % 2 ^ n : Nat) - (2 ^ n : Nat)

/-- The value that bits spell in a floating-point format (02 R34, R35). -/
def decodeFp (f : FpFmt) (x : Nat) : Val :=
  let neg := bitN x (f.mb + f.eb)
  let ex := x / 2 ^ f.mb % 2 ^ f.eb
  let m := x % 2 ^ f.mb
  if ex = 2 ^ f.eb - 1 && f.inf then (if m = 0 then .inf neg else .nan)
  else if ex = 2 ^ f.eb - 1 && m = 2 ^ f.mb - 1 then .nan
  else if ex = 0 then .fin neg m (f.emin - f.mb)
  else .fin neg (2 ^ f.mb + m) (f.emin + (ex : Int) - 1 - f.mb)

/-- The value of an element of a scalar format. -/
def decodeFmt (code x : Nat) : Val :=
  match fpOf code with
  | some f => decodeFp f x
  | none => if code = Fmt.INT32 then ofInt (sInt 32 x) else ofInt (sInt 8 x)

/-- A rounding mode (02 R54): to nearest even, toward zero, or stochastic with 16 random bits. -/
inductive Rnd where
  | rne
  | rtz
  | sr (r : Nat)
  deriving DecidableEq, Repr

/-- m / 2^d rounded to an integer (02 R54, R60). -/
def shiftRound (rnd : Rnd) (m d : Nat) : Nat :=
  let q := m / 2 ^ d
  let r := m % 2 ^ d
  match rnd with
  | .rtz => q
  | .rne => if 2 ^ d < 2 * r || (2 * r = 2 ^ d && q % 2 = 1) then q + 1 else q
  | .sr x => if 2 ^ 16 ≤ r * 2 ^ 16 / 2 ^ d + x then q + 1 else q

/-- The magnitude m × 2^e in units of 2^u, rounded. -/
def gridRound (rnd : Rnd) (m : Nat) (e u : Int) : Nat :=
  if u ≤ e then m * 2 ^ (e - u).toNat else shiftRound rnd m (u - e).toNat

/-- The exponent of the least significant bit that format `f` keeps at the magnitude m × 2^e. -/
def unitExp (f : FpFmt) (m : Nat) (e : Int) : Int :=
  max ((Nat.log2 m : Int) + e) f.emin - f.mb

/-- m × 2^e is at most m' × 2^e'. -/
def magLe (m : Nat) (e : Int) (m' : Nat) (e' : Int) : Bool :=
  let b := min e e'
  m * 2 ^ (e - b).toNat ≤ m' * 2 ^ (e' - b).toNat

/-- A magnitude rounded to a format with the exponent unbounded above, and whether it exceeds the largest finite value
(02 R56): mantissa and unit. -/
def roundMag (f : FpFmt) (rnd : Rnd) (m : Nat) (e : Int) : Nat × Int × Bool :=
  let u := unitExp f m e
  let q := gridRound rnd m e u
  (q, u, ! magLe q u f.top (f.emax - f.mb))

/-- The value rounded to a format, overflow becoming infinity (02 R40, R49, R51); toward zero a finite value stays finite. -/
def rndVal (f : FpFmt) (rnd : Rnd) (v : Val) : Val :=
  match v with
  | .nan => .nan
  | .inf n => .inf n
  | .fin n m e =>
    if m = 0 then .fin n 0 0
    else match roundMag f rnd m e with
      | (q, u, ovf) =>
        if ovf then (if rnd = .rtz then .fin n f.top (f.emax - f.mb) else .inf n) else .fin n q u

/-- The value rounded to FP32, to nearest even. -/
def rnd32 (v : Val) : Val :=
  rndVal fp32 .rne v

/-- The canonical NaN of a format (02 R37). -/
def nanBits (f : FpFmt) : Nat :=
  if f.inf then (2 ^ f.eb - 1) * 2 ^ f.mb + 2 ^ (f.mb - 1) else 2 ^ (f.mb + f.eb) - 1

/-- The bits of a value that a format represents exactly; an infinity of a format without one is its NaN. -/
def packFp (f : FpFmt) (v : Val) : Nat :=
  match v with
  | .nan => nanBits f
  | .inf n => if f.inf then b2n n * 2 ^ (f.mb + f.eb) + (2 ^ f.eb - 1) * 2 ^ f.mb else nanBits f
  | .fin n m e =>
    if m = 0 then b2n n * 2 ^ (f.mb + f.eb)
    else
      let u := unitExp f m e
      let q := gridRound .rne m e u
      b2n n * 2 ^ (f.mb + f.eb) + ((u + f.mb - f.emin).toNat * 2 ^ f.mb + q)

/-- The FP32 bits of a value, rounded. -/
def bits32 (v : Val) : Nat :=
  packFp fp32 (rnd32 v)

/-- The value of FP32 bits. -/
def val32 (x : Nat) : Val :=
  decodeFp fp32 x

/-! Exact arithmetic, with IEEE 754's special values (02 R51, R53). -/

def vneg (v : Val) : Val :=
  match v with
  | .nan => .nan
  | .inf n => .inf (! n)
  | .fin n m e => .fin (! n) m e

def vabs (v : Val) : Val :=
  match v with
  | .nan => .nan
  | .inf _ => .inf false
  | .fin _ m e => .fin false m e

def vmul (a b : Val) : Val :=
  match a, b with
  | .nan, _ => .nan
  | _, .nan => .nan
  | .inf n, .inf k => .inf (n != k)
  | .inf n, .fin k m _ => if m = 0 then .nan else .inf (n != k)
  | .fin k m _, .inf n => if m = 0 then .nan else .inf (n != k)
  | .fin n m e, .fin k m' e' => .fin (n != k) (m * m') (e + e')

/-- A value times 2^k. -/
def vscale (v : Val) (k : Int) : Val :=
  match v with
  | .fin n m e => .fin n m (e + k)
  | x => x

/-- The signed mantissa of a magnitude at exponent `b`, which is at most its own. -/
def sMant (n : Bool) (m : Nat) (e b : Int) : Int :=
  let x : Int := (m * 2 ^ (e - b).toNat : Nat)
  if n then -x else x

def vadd (a b : Val) : Val :=
  match a, b with
  | .nan, _ => .nan
  | _, .nan => .nan
  | .inf n, .inf k => if n = k then .inf n else .nan
  | .inf n, .fin _ _ _ => .inf n
  | .fin _ _ _, .inf n => .inf n
  | .fin n m e, .fin k m' e' =>
    if m = 0 && m' = 0 then .fin (n && k) 0 0
    else
      let u := min e e'
      let x := sMant n m e u + sMant k m' e' u
      .fin (x < 0) x.natAbs u

/-- An exact sum: −0 when every addend is −0 (02 R51). -/
def vsum (l : List Val) : Val :=
  match l with
  | [] => .fin false 0 0
  | v :: r => r.foldl vadd v

/-- The order of two values; none where one is a NaN (02 R64). -/
def vcmp (a b : Val) : Option Ordering :=
  match a, b with
  | .nan, _ => none
  | _, .nan => none
  | .inf n, .inf k => some (compare (b2n k) (b2n n))
  | .inf n, .fin _ _ _ => some (if n then .lt else .gt)
  | .fin _ _ _, .inf n => some (if n then .gt else .lt)
  | .fin n m e, .fin k m' e' =>
    let u := min e e'
    some (compare (sMant n m e u) (sMant k m' e' u))

def vle (a b : Val) : Bool :=
  match vcmp a b with
  | some .gt => false
  | some _ => true
  | none => false

def vlt (a b : Val) : Bool :=
  vcmp a b = some .lt

def isNan (v : Val) : Bool :=
  v = .nan

/-- The value is a zero of either sign. -/
def isZero (v : Val) : Bool :=
  match v with
  | .fin _ m _ => m = 0
  | _ => false

def isNegZero (v : Val) : Bool :=
  match v with
  | .fin n m _ => n && m = 0
  | _ => false

/-- The larger of two numbers, +0 above −0 (02 R65). -/
def maxNum (a b : Val) : Val :=
  if isZero a && isZero b then (if isNegZero a then b else a) else if vle a b then b else a
/-- The smaller of two numbers, −0 below +0 (02 R65). -/
def minNum (a b : Val) : Val :=
  if isZero a && isZero b then (if isNegZero a then a else b) else if vle a b then a else b

/-- Propagating maximum and minimum (02 R65). -/
def vmaxP (a b : Val) : Val :=
  if isNan a || isNan b then .nan else maxNum a b
def vminP (a b : Val) : Val :=
  if isNan a || isNan b then .nan else minNum a b

/-- Number-preferring maximum and minimum (02 R65). -/
def vmaxN (a b : Val) : Val :=
  if isNan a then b else if isNan b then a else maxNum a b
def vminN (a b : Val) : Val :=
  if isNan a then b else if isNan b then a else minNum a b

/-- The FP32 steps of the epilogue (03 R97): each rounds once to nearest even. -/
def mul32 (a b : Val) : Val := rnd32 (vmul a b)
def add32 (a b : Val) : Val := rnd32 (vadd a b)

/-! Output conversion (02 R54 to R59). -/

/-- A converted element: its bits, and whether it counts in SAT_COUNT and in NAN_TO_INT_COUNT. -/
structure Conv where
  bits : Nat
  sat : Bool
  nanInt : Bool
  deriving DecidableEq, Repr

/-- Conversion to a two's complement format of `n` bits: always saturates (02 R58). -/
def convInt (n : Nat) (rnd : Rnd) (v : Val) : Conv :=
  let lim (neg : Bool) : Nat := if neg then 2 ^ (n - 1) else 2 ^ (n - 1) - 1
  match v with
  | .nan => { bits := 0, sat := false, nanInt := true }
  | .inf neg => { bits := lim neg, sat := true, nanInt := false }
  | .fin neg m e =>
    let q := gridRound rnd m e 0
    if neg then
      (if 2 ^ (n - 1) < q then { bits := lim true, sat := true, nanInt := false }
       else { bits := (2 ^ n - q) % 2 ^ n, sat := false, nanInt := false })
    else if 2 ^ (n - 1) ≤ q then { bits := lim false, sat := true, nanInt := false }
    else { bits := q, sat := false, nanInt := false }

/-- Conversion to a floating-point format (02 R55 to R57, R59); `strict` is the overflow mode STRICT. -/
def convFp (f : FpFmt) (rnd : Rnd) (strict : Bool) (v : Val) : Conv :=
  let top (neg : Bool) : Nat := packFp f (.fin neg f.top (f.emax - f.mb))
  match v with
  | .nan => { bits := nanBits f, sat := false, nanInt := false }
  | .inf neg =>
    if strict then { bits := packFp f (.inf neg), sat := false, nanInt := false }
    else { bits := top neg, sat := true, nanInt := false }
  | .fin neg m e =>
    if m = 0 then { bits := packFp f (.fin neg 0 0), sat := false, nanInt := false }
    else match roundMag f rnd m e with
      | (q, u, ovf) =>
        if ! ovf then { bits := packFp f (.fin neg q u), sat := false, nanInt := false }
        else if rnd = .rtz then { bits := top neg, sat := false, nanInt := false }
        else { bits := if strict then packFp f (.inf neg) else top neg, sat := true, nanInt := false }

/-- Conversion of an FP32 value to a scalar output format. -/
def convOut (code : Nat) (rnd : Rnd) (strict : Bool) (v : Val) : Conv :=
  match fpOf code with
  | some f => convFp f rnd strict v
  | none => convInt (if code = Fmt.INT32 then 32 else 8) rnd v

/-- The random bits of the element at row m and column n (02 R61). -/
def srBits (seed m n : Nat) : Nat :=
  let x0 := Nat.xor (Nat.xor (seed % 2 ^ 32) (m * 0x9E3779B9 % 2 ^ 32)) (n * 0x85EBCA6B % 2 ^ 32)
  let x1 := Nat.xor x0 (x0 / 2 ^ 16) * 0x7FEB352D % 2 ^ 32
  let x2 := Nat.xor x1 (x1 / 2 ^ 15) * 0x846CA68B % 2 ^ 32
  Nat.xor x2 (x2 / 2 ^ 16) / 2 ^ 16

/-- The rounding mode of a ROUND code for the element at (m, n) (02 R54). -/
def rndOf (code seed m n : Nat) : Rnd :=
  if code = 2 then .sr (srBits seed m n) else if code = 1 then .rtz else .rne

/-! Block quantisation (02 R67 to R73). -/

/-- A quantised block: its scale code, its element bytes, and what it adds to FLUSH_COUNT and NAN_BLOCK_COUNT. -/
structure QBlock where
  scale : Nat
  elems : List Nat
  flush : Nat
  nan : Nat
  deriving DecidableEq, Repr

/-- The smallest e with m × 2^k ≤ L × 2^e, at least −127 (02 R69). -/
def blockExp (lim m : Nat) (k : Int) : Int :=
  let e0 := (Nat.log2 m : Int) + k - Nat.log2 lim - 1
  let e := if magLe m k lim e0 then e0 else if magLe m k lim (e0 + 1) then e0 + 1 else e0 + 2
  max e (-127)

/-- Quantises the present elements of a block; each comes with its rounding mode. -/
def blockQuant (code : Nat) (l : List (Val × Rnd)) : QBlock :=
  let amax := (l.map (fun x => vabs x.1)).foldl vmaxP (.fin false 0 0)
  match amax with
  | .nan => { scale := 0xFF, elems := l.map (fun _ => 0), flush := 0, nan := 1 }
  | .inf _ => { scale := 0xFF, elems := l.map (fun _ => 0), flush := 0, nan := 1 }
  | .fin _ m k =>
    if m = 0 then { scale := 0, elems := l.map (fun _ => 0), flush := 0, nan := 0 }
    else
      let e := blockExp (if code = Fmt.QB8I then 127 else 448) m k
      let q := l.map (fun x =>
        let v := vscale x.1 (-e)
        let b := if code = Fmt.QB8I then (convInt 8 x.2 v).bits else (convFp e4m3 x.2 false v).bits
        if code = Fmt.QB8F && b = 0x80 then 0 else b)
      { scale := (e + 127).toNat, elems := q,
        flush := ((l.zip q).filter (fun x => x.2 = 0 && ! isZero x.1.1)).length, nan := 0 }

/-- The value of a scale code (02 R68). -/
def scaleVal (u : Nat) : Val :=
  if u = 0xFF then .nan else .fin false 1 ((u : Int) - 127)

/-! Activation functions (03 R98 to R100). Where R100 bounds a result without fixing it, the result is the free value of
`Config.actFn` as long as that lies in the bound, which is judged against the function computed to about 140 bits. -/

/-- Fraction bits of the fixed-point numbers below. -/
abbrev fixBits : Nat := 160
abbrev fixOne : Nat := 2 ^ 160

/-- m × 2^e in fixed point, truncated; magnitudes of 1,024 and more read as 1,024. -/
def fixOf (m : Nat) (e : Int) : Nat :=
  if m = 0 then 0
  else if 10 ≤ (Nat.log2 m : Int) + e then 1024 * fixOne
  else if 0 ≤ e + 160 then m * 2 ^ (e + 160).toNat
  else m / 2 ^ (-(e + 160)).toNat

/-- e^−w of a fixed-point w: Taylor's series at w / 256, squared eight times; 0 from w = 128 on. -/
def expNeg (w : Nat) : Nat :=
  if 128 * fixOne ≤ w then 0
  else
    let r := w / 256
    let t := foldN 40 (fun k a => fixOne - r * a / fixOne / (40 - k)) fixOne
    foldN 8 (fun _ a => a * a / fixOne) t

/-- 1 / (1 + e^−w) of a signed fixed-point w. -/
def sigmoidFix (neg : Bool) (w : Nat) : Nat :=
  let x := expNeg w
  if neg then x * fixOne / (fixOne + x) else fixOne * fixOne / (fixOne + x)

/-- The argument 2 × 0.7978845608 (x + 0.044715 x³) of GELU, in fixed point: magnitude only, the sign is x's. -/
def geluArg (m : Nat) (e : Int) : Nat :=
  let x := fixOf m e
  let c := x + x * x / fixOne * x / fixOne * 44715 / 1000000
  2 * c * 7978845608 / 10000000000

/-- The function value at a finite x, to about 140 bits (03 R98). -/
def actNear (code : Nat) (n : Bool) (m : Nat) (e : Int) : Val :=
  match code with
  | 4 => .fin n (m * sigmoidFix n (geluArg m e)) (e - 160)
  | 5 => .fin n (m * sigmoidFix n (fixOf m e)) (e - 160)
  | 6 => .fin false (sigmoidFix n (fixOf m e)) (-160)
  | _ =>
    let x := expNeg (2 * fixOf m e)
    .fin n ((fixOne - x) * fixOne / (fixOne + x)) (-160)

/-- `v` lies within 2^−22 × max(1, |f|) of f (03 R100). -/
def actWithin (v f : Val) : Bool :=
  vle (vabs (vadd v (vneg f))) (vmul (.fin false (2 ^ 60 - 1) (-82)) (maxNum (.fin false 1 0) (vabs f)))

/-- The result at a finite x of a function that R100 bounds. -/
def actFree (code : Nat) (n : Bool) (m : Nat) (e : Int) : Val :=
  let near := actNear code n m e
  let v := val32 (Config.actFn code (bits32 (.fin n m e)))
  if actWithin v near then v else rnd32 near

/-- The activation function of an ACT code (03 R98). -/
def activate (code : Nat) (p0 p1 x : Val) : Val :=
  match code with
  | 0 => x
  | 1 => vmaxP x (.fin false 0 0)
  | 2 => vminP (vmaxP x p0) p1
  | 3 => if isNan x then .nan else if vle (.fin false 0 0) x then x else mul32 p0 x
  | 4 => match x with
    | .nan => .nan
    | .inf n => if n then .fin true 0 0 else .inf false
    | .fin n m e => if m = 0 then .fin n 0 0 else actFree 4 n m e
  | 5 => match x with
    | .nan => .nan
    | .inf n => if n then .fin true 0 0 else .inf false
    | .fin n m e => if m = 0 then .fin n 0 0 else actFree 5 n m e
  | 6 => match x with
    | .nan => .nan
    | .inf n => if n then .fin false 0 0 else .fin false 1 0
    | .fin n m e => if m = 0 then .fin false 1 (-1) else actFree 6 n m e
  | _ => match x with
    | .nan => .nan
    | .inf n => .fin n 1 0
    | .fin n m e => if m = 0 then .fin n 0 0 else actFree 7 n m e

end Sys2Proof
end

