-- ==== Sys2Proof/Machine/StMem.lean ====
section
/-! DEFINITION. The state of memory: DRAM with its page code, the frame remap and the spare pool, claims and the model
claim, segments, translation caches and walkers, bench caches with their miss registers and eviction buffers
(08 and 09). -/
namespace Sys2Proof

/-- How the stored bits of one physical page differ from a codeword that holds true checks (09 R347, R348). `err` lists, by
byte of the page (0 to 2,047 the data, 2,048 to 2,303 the sideband), the exclusive-or between the byte stored and the
byte of the page's codeword; `chk` lists, by sector, the exclusive-or between the codeword's check symbol and the check
its data would have. A page listed nowhere is a clean codeword. -/
structure PageDev where
  err : Map Byte
  chk : Map (BitVec 16)
  deriving DecidableEq, Repr

/-- The kinds of a claim (08 R304). -/
inductive ClaimKind where
  | free | priv | shared | model | filling
  deriving DecidableEq, Repr

/-- A claim: owner, kind, page-code strength and peer mask (08 R305, R309). -/
structure Claim where
  owner : Nat
  kind : ClaimKind
  strength : Nat
  peerMask : Nat
  deriving DecidableEq, Repr

/-- The kinds of a segment (08 R312). -/
inductive SegKind where
  | none | claim | model | host | peer
  deriving DecidableEq, Repr

/-- A segment descriptor (08 R312). -/
structure Seg where
  kind : SegKind
  base : Nat
  read : Bool
  write : Bool
  frames : Nat
  target : Nat
  device : Nat
  deriving DecidableEq, Repr

/-- Which segment table an access uses: a context's (by its object key) or a partition's (08 R311). -/
inductive TableId where
  | ctx (key : Nat)
  | part (p : Nat)
  deriving DecidableEq, Repr

/-- An entry of a translation cache: one 2 MiB frame of one table (08 R319). -/
structure XEntry where
  table : TableId
  vframe : Nat
  frame : Nat
  word : Nat
  deriving DecidableEq, Repr

/-- A line of a bench cache: its line address (mem[36:7]), the valid and dirty bits of its two sectors, its 128 bytes and
the partition that locked it (08 R329, R334). -/
structure Line where
  addr : Nat
  valid : List Bool
  dirty : List Bool
  bytes : List Byte
  lock : Option Nat
  deriving DecidableEq, Repr

/-- A read of a thread of a core on its way (08 R321, R330; 04 R147): the table it translates by, its core and group, the tag of
its instruction, its thread, its size and device virtual address, the memory address once it is translated, and whether it uses and
allocates L1 (04 R148). -/
structure Waiter where
  table : TableId
  core : Nat
  group : Nat
  tag : Nat
  thread : Nat
  size : Nat
  va : Nat
  mem : Nat
  useL1 : Bool
  allocL1 : Bool
  deriving DecidableEq, Repr

/-- A frame map read that a walker makes, and the reads that wait for it (08 R321). -/
structure Walk where
  table : TableId
  vframe : Nat
  waiters : List Waiter
  deriving DecidableEq, Repr

/-- A miss register: the line it fills, the sectors it has read so far and the requests that wait on it (08 R330). -/
structure MissReg where
  line : Nat
  want : List Bool
  waiters : List Waiter
  deriving DecidableEq, Repr

/-- An entry of an eviction buffer: the line and whether its DRAM write has been issued (08 R331). -/
structure EvEntry where
  line : Line
  issued : Bool
  deriving DecidableEq, Repr

/-- A slow-path decode in progress at a stack controller: the memory page, and the sectors that wait for it
(09 R352, R353). -/
structure SlowReq where
  page : Nat
  sectors : List Nat
  deriving DecidableEq, Repr

/-- What a sector read ended with: its 64 bytes, or an uncorrectable outcome (09 R353). -/
inductive SectorData where
  | bytes (bs : List Byte)
  | lostTo (outcome : Nat)
  deriving DecidableEq, Repr

/-- A pending range of MEM_XLATE_INVAL (08 R324): frames from a virtual frame, or every entry (`count = 0`). -/
structure InvalRange where
  vframe : Nat
  count : Nat
  deriving DecidableEq, Repr

/-- A frame retirement (09 R371, R372): the logical frame, its reason, and for the one at the head of the queue the spare
frame and the next page to copy. -/
structure Retire where
  frame : Nat
  reason : Nat
  toFrame : Option Nat
  page : Nat
  deriving DecidableEq, Repr

/-- The memory system. -/
structure MemSt where
  /-- Data bytes as stored, by physical byte address (physical frame × 2 MiB + mem[20:0]); unlisted bytes are 0. -/
  dram : Map Byte
  /-- Pages that differ from a clean codeword, by physical page. -/
  pdev : Map PageDev
  /-- The frame remap (08 R301): logical to physical, where it is not the identity. -/
  remap : Map Nat
  /-- Free physical frames of the spare pool, lowest first (09 R370). -/
  pool : List Nat
  /-- Claims 0 to 94; an unlisted claim is FREE at strength 3 (09 R362). -/
  claims : Map Claim
  /-- The claims that FILLING still fills, in the order they are filled (08 R306, 10 R405). -/
  fillQ : List Nat
  /-- The model claim: first claim and count (0: none) (08 R307). -/
  modelFirst : Nat
  modelCount : Nat
  /-- MEM_MODEL.LIVE (08 R310, 12 R531). -/
  modelLive : Bool
  /-- MEM_MODEL.GRANT (08 R310). -/
  grant : BitVec 32
  /-- Bench cache lines, by (slice × 1,024 + set) × 16 + way, slice = 4 × bench + slice of the bench (08 R328). -/
  lines : Map Line
  /-- Tree pseudo-LRU bits of a set, by slice × 1,024 + set (08 R333). -/
  plru : Map Nat
  /-- Miss registers, by slice (08 R330). -/
  miss : Map (List MissReg)
  /-- Requests that wait at a slice's input, by slice (08 R330). -/
  input : Map (List Waiter)
  /-- Eviction buffers, by slice (08 R331). -/
  evb : Map (List EvEntry)
  /-- Sectors delivered to the miss registers, by sector address mem[36:6] (09 R352, R353). -/
  filled : Map SectorData
  /-- Slow-path decodes in progress (09 R352). -/
  slowQ : List SlowReq
  /-- Translation cache sets, most recently used first: bench b's set i at 64b + i, the system cache's at 512 + i (08 R319). -/
  xsets : Map (List XEntry)
  /-- Walks outstanding, by translation cache (0 to 7 the benches, 8 the system cache) (08 R321). -/
  walks : Map (List Walk)
  /-- Invalidations pending, by partition (08 R324). -/
  inval : Map (List InvalRange)
  /-- Corrected symbols of a logical frame in the window (09 R371). -/
  frameSyms : Map Nat
  /-- Corrected errors of a logical core in the window (09 R371). -/
  coreErrs : Map Nat
  /-- Frames with an uncorrectable record written in the window, by memory page (09 R355). -/
  recorded : Map Bool
  /-- Logical frames for which SPARE_EXHAUSTED was written (09 R373). -/
  exhausted : Map Bool
  /-- Frames retired already, by logical frame (09 R371). -/
  retired : Map Bool
  /-- The retirement queue, the one in progress first (09 R372). -/
  retireQ : List Retire
  /-- Start of the threshold window, in DTIME (09 R371). -/
  windowStart : Nat
  /-- The next physical page of the patrol scrub, and when its period began (09 R363). -/
  patrolPage : Nat
  patrolTime : Nat
  deriving DecidableEq, Repr

end Sys2Proof
end

