-- ==== Sys2Proof/Machine/StHost.lean ====
section
/-! DEFINITION. The state of the host interface: PCIe functions and MSI-X, partitions, rings with their entries, objects
with their references, kills in progress, and what the device has sent (10 and 11). -/
namespace Sys2Proof

/-- What leaves the device: posted writes, non-posted reads it issues, MSI-X messages, completions, link and side-band
messages, and pin levels. -/
inductive Output where
  /-- A posted write of function `fn` to a host address (10 R390). -/
  | hostWrite (fn addr : Nat) (bytes : List Byte)
  /-- A read of `n` bytes that function `fn` issues (10 R391). -/
  | hostRead (fn addr n : Nat)
  /-- The MSI-X message of entry `index` of function `fn`'s table (10 R397). -/
  | msix (fn index : Nat)
  /-- The completion of a BAR read that R10 answers with zeros (00 R10). -/
  | barRead (fn : Nat) (bytes : List Byte)
  /-- A flit sent on a link port (14 R583). -/
  | flit (port : Nat) (bytes : List Byte)
  /-- An answer of the SPDM or DOE responder (16 R661). -/
  | spdm (code : Nat) (bytes : List Byte)
  /-- A packet sent on DSI port `port` (07 R293). -/
  | dsi (port : Nat) (header : Nat) (bytes : List Byte)
  /-- A level driven on a pin (17, 15 R632). -/
  | pin (name : Nat) (level : Bool)
  /-- Head `head` begins frame `frame`: the record it shows, by its address, or black (07 R270). -/
  | scanout (head frame record : Nat) (shown : Bool)
  /-- A line of head `head` as it is sent: red, green and blue of each pixel at the output depth (07 R286). -/
  | pixels (head line : Nat) (rgb : List (List Nat))
  /-- A command on a sensor bus (15 R627). -/
  | bus (stream : Nat) (cmd : Nat)
  deriving DecidableEq, Repr

/-- The references of an object: the host's by owner tag, and the device's (11 R446, R453). -/
structure Refs where
  host : Map Nat
  dev : Nat
  deriving DecidableEq, Repr

/-- An error record (11 R483); `detail` is bytes 40 to 63. -/
structure ErrRec where
  code : Nat
  engine : Nat
  part : Nat
  flags : Nat
  slot : Nat
  ring : Nat
  entry : Nat
  fault : Nat
  dtime : Nat
  detail : List Byte
  deriving DecidableEq, Repr

/-- Where a piece of work comes from: the identifier of its ring entry or plan node, its partition, its context (object
key), the ring index and the entry's device address (10 R438, 11 R483). -/
structure Origin where
  wid : Nat
  part : Nat
  ctx : Nat
  ring : Nat
  entry : Nat
  deriving DecidableEq, Repr

/-- The condition of a context for slot decisions (12 R501). -/
inductive CtxCond where
  | idle | blocked | runnable
  deriving DecidableEq, Repr

/-- A context (11 R450, R459; 12 R498). -/
structure Ctx where
  gen : Nat
  owner : Nat
  refs : Refs
  live : Bool
  watchdogMs : Nat
  waitTimeoutMs : Nat
  sched : Nat
  segs : List Seg
  /-- The context slot held, since when it is held or has been lost, the context's condition and since when it is in it (12 R500 to R503). -/
  slot : Option Nat
  slotSince : Nat
  cond : CtxCond
  condSince : Nat
  /-- It has been idle since it last was ready; virtual time of a NORMAL context (12 R508), in parts of a nanosecond
  (`vtimeUnit`); and since when it holds engines (12 R509). -/
  idled : Bool
  vtime : Nat
  runSince : Option Nat
  /-- Watchdog: the DTIME of the last restart, the time already counted, and since when it runs (11 R460). -/
  wdRestart : Option Nat
  wdHeld : Nat
  wdSince : Option Nat
  deriving DecidableEq, Repr

/-- A fence (11 R450, R462 to R470). -/
structure Fence where
  gen : Nat
  owner : Nat
  refs : Refs
  value : Word
  err : Option Nat
  hostSignal : Bool
  exported : Bool
  mirror : Nat
  regressRec : Bool
  deriving DecidableEq, Repr

/-- An event (11 R450, R471, R472). -/
structure Event where
  gen : Nat
  owner : Nat
  refs : Refs
  fence : Nat
  value : Word
  record : Nat
  vector : Nat
  msiEn : Bool
  timeoutMs : Nat
  armed : Bool
  armedAt : Nat
  firings : Nat
  deriving DecidableEq, Repr

/-- A memory object (11 R450, R452, R457). -/
structure MemObj where
  gen : Nat
  owner : Nat
  refs : Refs
  mem : Nat
  frames : Nat
  deriving DecidableEq, Repr

/-- The state of a ring (10 R411). -/
inductive RingState where
  | active | idle | stopping | stopped | error
  deriving DecidableEq, Repr

/-- How far an entry has come (10 R417): before step 1 or waiting there, at step 2, at step 3, at step 4, at step 5, ready to
be dispatched at step 6, dispatched, or retired with a code. -/
inductive EStep where
  | start | wait | barrier | payload | room | gate | ready | work
  | done (code : Nat)
  deriving DecidableEq, Repr

/-- A fetched ring entry or command-buffer entry: its count (the CALL's count for a buffer entry), its index in the buffer,
its 64 bytes as read, its address (10 R438), its step and since when it waits there, the descriptor as patched, the
references it holds and its CALL's progress. -/
structure Entry where
  wid : Nat
  count : Nat
  inCall : Option Nat
  bytes : List Byte
  addr : Nat
  step : EStep
  since : Nat
  step2End : Nat
  desc : List Byte
  waitRef : Bool
  sigRef : Bool
  ctxRef : Bool
  counted : Bool
  /-- For a CALL: buffer entries fetched, and the code of the first that failed. -/
  bufFetched : Nat
  bufCode : Nat
  deriving DecidableEq, Repr

/-- What a ring command waits for before it completes (10 R410). -/
inductive RingWait where
  | stop | destroy | resume
  deriving DecidableEq, Repr

/-- A ring (10 R408 to R428). -/
structure Ring where
  state : RingState
  base : Nat
  log2 : Nat
  inDevice : Bool
  ctx : Nat
  vector : Nat
  doorbell : Nat
  idleAfterUs : Nat
  fetched : Nat
  retired : Nat
  lastTail : Nat
  tailSince : Nat
  pollAt : Nat
  /-- The wake bit; whether a TAIL read is outstanding and whether it was issued after the bit was set; the same for the read
  of D2 (10 R428). -/
  wake : Bool
  poll : Bool
  pollFresh : Bool
  d2 : Bool
  d2Fresh : Bool
  errorWord : Nat
  entries : List Entry
  waitFor : Option RingWait
  deriving DecidableEq, Repr

/-- A partition (10 R400 to R406). -/
structure Partition where
  created : Bool
  destroying : Bool
  ringQuota : Nat
  inflightQuota : Nat
  slotQuota : Nat
  segs : List Seg
  /-- Fault queue records by slot (11 R486), and whether its notification is armed (11 R488). -/
  faultq : Map (List Byte)
  notify : Bool
  /-- The claims that its DESTROY has yet to fill (10 R405). -/
  filling : List Nat
  deriving DecidableEq, Repr

/-- An MSI-X table entry (10 R396, 18 R702): address, data, mask bit and pending bit. -/
structure Msix where
  addr : Word
  data : Word32
  masked : Bool
  pend : Bool
  deriving DecidableEq, Repr

/-- The PCIe configuration state that the spec's rules read (10 R388 to R399). -/
structure PcieSt where
  vfEnable : Bool
  numVfs : Nat
  /-- MSI-X Enable and Function Mask, and Relaxed Ordering Enable, bit f for function f. -/
  msixEnable : BitVec 32
  funcMask : BitVec 32
  relaxed : BitVec 32
  /-- The Completion Timeout Value field of Device Control 2 (10 R391). -/
  cto : Nat
  deriving DecidableEq, Repr

/-- A kill in progress (11 R477 to R480): its first DTIME, the command cause (none where a record caused it), the slot at K1,
the records collected, whether K2 and K3 are done, and the counts of the summary. -/
structure Kill where
  since : Nat
  handle : Nat
  cause : Option Nat
  slot : Nat
  recs : List ErrRec
  stopped : Bool
  retiredAll : Bool
  first : Option ErrRec
  nRetired : Nat
  nFences : Nat
  deriving DecidableEq, Repr

/-- What an object command waits for before it completes (11 R447, R478, R481): the kill of a context, or the kills of
OWNER_GONE for a tag. -/
inductive ObjWait where
  | kill (ctx : Nat)
  | ownerGone (tag : Nat)
  deriving DecidableEq, Repr

/-- A hang capture that waits to be written (11 R490 to R492): its partition, the trigger's record, and its bytes after that
record. -/
structure Capture where
  part : Nat
  record : ErrRec
  rest : List Byte
  deriving DecidableEq, Repr

/-- Host interface, rings and objects. -/
structure HostSt where
  pcie : PcieSt
  /-- MSI-X entries that differ from an erased, masked one, by function × 2,048 + index. -/
  msix : Map Msix
  /-- Partitions, by number. -/
  parts : Map Partition
  /-- Rings, by partition × 1,024 + index. -/
  rings : Map Ring
  /-- Objects, by partition × 65,536 + index. -/
  ctxs : Map Ctx
  fences : Map Fence
  events : Map Event
  memObjs : Map MemObj
  /-- The last generation assigned to a slot, by type × 2,097,152 + object key (11 R444). -/
  gens : Map Nat
  /-- Kills in progress, by context key. -/
  kills : Map Kill
  /-- The partition whose DESTROY a PART_CMD waits for (10 R400). -/
  partCmd : Option Nat
  /-- The object command that waits, by partition; and the hang captures that wait, by partition, FATAL's own under 32 (11 R490). -/
  objWait : Map ObjWait
  captures : Map Capture
  /-- Work that has completed and not yet retired, with its code, by work identifier (10 R419, 12 R528). -/
  finished : Map Nat
  /-- The DTIME at which the last deadlock scan started, and the waits (by work identifier) of the set it found (11 R474). -/
  scanAt : Nat
  scanSet : List Nat
  /-- The next work identifier. -/
  nextWid : Nat
  deriving DecidableEq, Repr

end Sys2Proof
end

