-- ==== Sys2Proof/Machine/StSched.lean ====
section
/-! DEFINITION. The state of the Gantry's scheduling: the cadence unit, gates, save pools, copy engines, plans and launches,
the model object, the serving session and accounts (12; 10 R718). -/
namespace Sys2Proof

/-- The cadence unit (12 R510 to R512, R719). -/
structure CadenceSt where
  /-- P of the last lock; none before the first lock, when P follows NOMINAL_HZ (12 R511). -/
  period : Option Nat
  /-- DTIME of the last phase reset. -/
  t : Nat
  cycles : Nat
  locked : Bool
  /-- DTIME of the last pulse, and of an accepted edge on which the unit has yet to act. -/
  lastPulse : Option Nat
  edge : Option Nat
  /-- The last edge was ignored, and so is the one that reverts it (12 R510). -/
  glitch : Bool
  /-- The relock run: it has a start point, the intervals it holds and the last of them. -/
  runStart : Bool
  runCount : Nat
  runLast : Nat
  deriving DecidableEq, Repr

/-- A gate that work waits at (12 R514): phase (1) or line of head 0 or 1 (2, 3), the cycle or frame in which it opens, and the
value. -/
structure GateWait where
  kind : Nat
  turn : Nat
  value : Nat
  deriving DecidableEq, Repr

/-- What a copy engine does (10 R421, 08 R336, 09 R364, 12 R533). -/
inductive CopyKind where
  | copy | zero | preload | preloadLock | unlock | writeback
  | scrub (byMem : Bool) (reportOnly : Bool)
  | modelLoad
  deriving DecidableEq, Repr

/-- The counts of a scrub summary (09 R366). -/
structure ScrubCounts where
  pages : Nat
  corrected : Nat
  symbols : Nat
  uncorr : Nat
  lost : Nat
  maxSymbols : Nat
  retires : Nat
  firstUncorr : Option Nat
  deriving DecidableEq, Repr

/-- An operation on a copy engine, or waiting for one (10 R718). -/
structure CopyOp where
  org : Origin
  kind : CopyKind
  src : Nat
  dst : Nat
  bytes : Nat
  pos : Nat
  compl : Nat
  lines : Nat
  refused : Nat
  scrub : ScrubCounts
  start : Option Nat
  readyAt : Nat
  placedAt : Nat
  /-- Saved after a preemption: where in the save pool, and since when (12 R504, R516). -/
  saved : Option (Nat × Nat)
  deriving DecidableEq, Repr

/-- Crusher operations (13 R556), and the decoding of a model load (12 R533). -/
inductive CrushKind where
  | compress | decompress | check | modelLoad
  deriving DecidableEq, Repr

/-- A Crusher operation, placed on an engine or on both, or waiting (13 R556 to R563): its addresses and lengths, the next block, the
offset of its first input byte and of its first output byte, whether the LAST block has passed, its counts, and where it is saved. -/
structure CrushOp where
  org : Origin
  kind : CrushKind
  both : Bool
  engine : Nat
  src : Nat
  dst : Nat
  srcBytes : Nat
  dstBytes : Nat
  compl : Nat
  block : Nat
  inPos : Nat
  outPos : Nat
  last : Bool
  stored : Nat
  fill : Nat
  preempts : Nat
  start : Option Nat
  readyAt : Nat
  placedAt : Nat
  saved : Option (Nat × Nat)
  deriving DecidableEq, Repr

/-- A stored plan (12 R519 to R523): its nodes and patches, its descriptor area, and the device address of that area as LOAD read it
(03 R106). -/
structure Plan where
  ctx : Nat
  model : Nat
  nodes : List (List Byte)
  patches : List Nat
  area : List Byte
  addr : Nat
  bytes : Nat
  deriving DecidableEq, Repr

/-- How far a plan node has come (12 R526). -/
inductive NStep where
  | preds | fence | check | room | gate | ready | work
  | done (code : Nat)
  deriving DecidableEq, Repr

/-- A node of a launch: its patched copies, whether it failed by itself, since when it waits, whether it counts toward the in-flight
limits, the fences that the launch holds for it and whether it holds its context (11 R453, 12 R530), its deadline (cycle and phase) and
whether it has missed it. -/
structure NodeSt where
  wid : Nat
  step : NStep
  node : List Byte
  desc : List Byte
  selfFailed : Bool
  since : Nat
  counted : Bool
  refs : List Nat
  ctxRef : Bool
  deadline : Option (Nat × Nat)
  missed : Bool
  deriving DecidableEq, Repr

/-- A launch in flight (12 R526 to R529): the identifier of its PLAN entry (0 for a serving step), its plan, the origin of its nodes'
work in the plan's context and that of the entry itself, the entry's PAYLOAD_ADDR, the argument block's address, and its counts. -/
structure Launch where
  wid : Nat
  plan : Nat
  org : Origin
  from_ : Origin
  payload : Nat
  resultAddr : Nat
  nodes : List NodeSt
  run : Nat
  preempts : Nat
  misses : Nat
  start : Option Nat
  cycle : Nat
  deriving DecidableEq, Repr

/-- A model load in progress (12 R533). -/
structure ModelLoad where
  org : Origin
  start : Nat
  src : Nat
  crushed : Bool
  bytes : Nat
  written : Nat
  result : Nat
  ended : Bool
  deriving DecidableEq, Repr

/-- A serving request (12 R531, R537). -/
structure Request where
  org : Origin
  promptAddr : Nat
  outAddr : Nat
  progress : Nat
  promptCount : Nat
  maxNew : Nat
  stop : Option Nat
  account : Nat
  tag : Nat
  at_ : Nat
  deriving DecidableEq, Repr

/-- A sequence in a slot of the session (12 R538): its request, prompt, position of its next row, tokens generated, the last of
them, its admission number, and how it ends. -/
structure Seqn where
  req : Request
  prompt : List Nat
  pos : Nat
  made : Nat
  last : Nat
  order : Nat
  fresh : Bool
  ended : Option Nat
  cancelled : Bool
  finished : Bool
  deriving DecidableEq, Repr

/-- A row of the step in flight (12 R539). -/
structure Row where
  slot : Nat
  last : Bool
  first : Bool
  pos : Nat
  token : Nat
  deriving DecidableEq, Repr

/-- The serving session (12 R535 to R541). -/
structure ServeSt where
  active : Bool
  suspended : Bool
  plan : Nat
  batchMax : Nat
  seqSlots : Nat
  chunk : Nat
  rowTable : Nat
  outTable : Nat
  ctx : Nat
  queues : Map (List Request)
  seqs : Map Seqn
  rows : List Row
  /-- The identifier of the step's launch while it is in flight. -/
  step : Option Nat
  steps : Nat
  lastPart : Nat
  nextOrder : Nat
  /-- A SERVE_STOP that waits for the step in flight, by work identifier. -/
  stopping : Option Nat
  deriving DecidableEq, Repr

/-- An account (12 R542). -/
structure Account where
  queueWait : Nat
  preempted : Nat
  core : Nat
  tensor : Nat
  other : Nat
  jobs : Nat
  preemptions : Nat
  sharedJobs : Nat
  misses : Nat
  flags : Nat
  deriving DecidableEq, Repr

/-- Scheduling, plans and serving. -/
structure SchedSt where
  cadence : CadenceSt
  /-- Gates that work waits at, by work identifier. -/
  gates : Map GateWait
  /-- KiB reserved in the save pool of a partition (12 R504, R506). -/
  saveUsed : Map Nat
  /-- Operations on each copy engine, and those that wait for placement or are saved (10 R718, 12 R516). -/
  copies : Map (List CopyOp)
  copyWait : List CopyOp
  /-- Crusher operations that are placed, and those that wait for placement or are saved (13 R558, R563). -/
  crush : List CrushOp
  crushWait : List CrushOp
  /-- Plans by partition × 256 + index, the last generation of each slot, and launches in flight by their own identifier. -/
  plans : Map Plan
  planGens : Map Nat
  launches : Map Launch
  /-- UNLOAD entries that wait, by work identifier: the plan (12 R530). -/
  unloads : Map Nat
  /-- The model object exists; DESTROY has begun to end it; dispatch of the contexts with MODEL segments is held; its generation;
  device references; the load in progress (12 R531 to R534). -/
  model : Bool
  modelDying : Bool
  swapHeld : Bool
  modelGen : Nat
  modelRefs : Nat
  load : Option ModelLoad
  serve : ServeSt
  /-- Accounts by partition × 256 + number; and the copy that ACCT_SEL took, by partition (12 R542, R544). -/
  accounts : Map Account
  acctCopy : Map (List Byte)
  /-- Preemptions asked for (12 R509): of an operation, by engine and work identifier, and of a context's work on an engine; the DTIME
  of the first outstanding request to an engine; and the engines that are being reset (11 R490). -/
  stopOps : List (Nat × Nat)
  stopCtx : List (Nat × Nat)
  stopAt : Map Nat
  resetting : List Nat
  /-- NORMAL placement is stopped by the power limit (15 R622), and dispatch paused (16 R668). -/
  held : Bool
  paused : Bool
  deriving DecidableEq, Repr

end Sys2Proof
end

