-- ==== Sys2Proof/Machine/StCore.lean ====
section
/-! DEFINITION. The state of the cores, of loaded modules and of the tensor arrays: thread groups with their convergence sets,
workgroups, the local store, dispatches (04, 05), tensor work items and the runs that arrays hold (03). -/
namespace Sys2Proof

/-- Why a convergence set waits (04 R127, R132, R133; 05 R198, R206; 06 R240). -/
inductive SetWait where
  | run | barrier | subgroup | interlock
  | ticket (t : Nat)
  | copy (t : Nat)
  deriving DecidableEq, Repr

/-- A convergence set (04 R125): its program counter, its threads as a 64-bit mask, and why it waits. -/
structure CSet where
  pc : Nat
  mask : Nat
  wait : SetWait
  deriving DecidableEq, Repr

/-- A read of a thread whose instruction has not written its registers: its tag, thread, first destination register, size and
device virtual address; `host` where it left through a host window, `peer` where it left for a peer (04 R165, R166); and its bytes
once they have arrived. The registers of an instruction are written when the reads of all its threads have arrived
(04 R159). -/
structure PendRead where
  tag : Nat
  thread : Nat
  dest : Nat
  size : Nat
  va : Nat
  host : Bool
  peer : Bool
  got : Option (List Byte)
  deriving DecidableEq, Repr

/-- An AsyncCopy of a thread that has not completed (05 R204 to R206). -/
structure ACopy where
  ticket : Nat
  thread : Nat
  dst : Nat
  src : Nat
  bytes : Nat
  deriving DecidableEq, Repr

/-- A thread group (04 R121 to R127, R167): its identifier, its index in the workgroup, its issue path, its current set and the others, the
instructions issued since the set became current, registers by thread × 128 + register, outstanding reads, its sleep, its copies, and whether it stops for a preemption. -/
structure Group where
  gid : Nat
  idx : Nat
  path : Nat
  cur : CSet
  others : List CSet
  count : Nat
  regs : Map Word32
  seed : Nat
  reads : List PendRead
  sleep : Option (Nat × Nat)
  copyIssued : Nat
  copies : List ACopy
  stopping : Bool
  deriving DecidableEq, Repr

/-- The program stage of a workgroup (05 R184). -/
inductive Stage where
  | compute | vertex | control | eval | fragment
  deriving DecidableEq, Repr

/-- A workgroup on a core, or saved (04 R122, R167): its job and linear index, its module and entry point, its place in the
local store in KiB granules, its shared memory, and its tensor tickets (05 R197). -/
structure WG where
  wgid : Nat
  org : Origin
  job : Nat
  index : Nat
  stage : Stage
  modKey : Nat
  entry : Nat
  regs : Nat
  sharedKib : Nat
  sharedAt : Nat
  groups : List Group
  shared : Map Byte
  seed : Nat
  issued : Nat
  ended : Nat
  placedAt : Nat
  saved : Option (Nat × Nat)
  deriving DecidableEq, Repr

/-- A sector that an L1 holds, in one of the core's banks (04 R136, R144). -/
structure L1Line where
  sector : Nat
  bank : Nat
  bytes : List Byte
  deriving DecidableEq, Repr

/-- A fragment of a tile (06 R231 to R238): its place in primitive order, its pixel, the samples it covers, their depths as FP32
bits, the group and thread that shade it, and how far it has come. -/
inductive FragStep where
  | waiting | running | exited
  deriving DecidableEq, Repr

structure Frag where
  order : Nat
  draw : Nat
  x : Nat
  y : Nat
  cover : Nat
  depth : List Nat
  gid : Nat
  thread : Nat
  helper : Bool
  killed : Bool
  step : FragStep
  outs : Map Word32
  deriving DecidableEq, Repr

/-- A tile on a core, or saved (06 R230 to R240, R254 to R258): its pass, number and first bank, the tile buffer, how far its list
of primitives is rasterised, its fragments that have not retired, the handoff descriptors registered, and what has ended. -/
structure TileSt where
  pass : Nat
  tile : Nat
  bank : Nat
  banks : Nat
  tb : Map Byte
  seed : Nat
  pos : Nat
  frags : List Frag
  handoffs : List Nat
  ended : Bool
  stored : Bool
  items : List Nat
  placedAt : Nat
  saved : Option (Nat × Nat)
  deriving DecidableEq, Repr

/-- A core: its workgroups, its tiles, its L1, and the start of its TCLK count (05 R189). -/
structure CoreSt where
  wgs : List WG
  tiles : List TileSt
  l1 : List L1Line
  clockAt : Nat
  clockBase : Nat
  deriving DecidableEq, Repr

/-- Output slots of a thread: component c of Location p is 4p + c, and these built-ins follow (SPIR-V's, 05 R184). -/
abbrev slotPosition : Nat := 128
abbrev slotPointSize : Nat := 132
abbrev slotClip : Nat := 133
abbrev slotCull : Nat := 141
abbrev slotOuter : Nat := 149
abbrev slotInner : Nat := 153
abbrev slotDepth : Nat := 155

/-- A loaded module (05 R170, R177, R181): its generation, its code region, its entry points and its declared atomic mode. -/
structure Module where
  gen : Nat
  codeAddr : Nat
  codeBytes : Nat
  entries : List EntryPt
  atomicMode : Option Bool
  deriving DecidableEq, Repr

/-- A load that the program loader performs or will (05 R170 to R179). -/
structure LoadOp where
  org : Origin
  desc : List Byte
  start : Nat
  deriving DecidableEq, Repr

/-- A set of workgroups to place: a compute dispatch, or the program runs of a geometry batch (10 R420, 06 R217). -/
structure Job where
  org : Origin
  stage : Stage
  modKey : Nat
  entry : Nat
  cores : Nat
  bench : Option Nat
  total : Nat
  next : Nat
  done : Nat
  dims : Nat × Nat
  threads : Nat
  bind : Nat
  push : Nat
  compat : Bool
  /-- The draw of a geometry batch whose program this is. -/
  draw : Nat
  saved : List WG
  readyAt : Nat
  start : Option Nat
  /-- Cores that have run part of it (10 R420, 03 R83). -/
  used : List Nat
  /-- Outputs of a geometry batch's programs, by invocation × 256 + slot. -/
  outs : Map Word32
  deriving DecidableEq, Repr

/-- The counts of a tensor work item (02 R63, 03 R104). -/
structure TCounts where
  sat : Nat
  nanInt : Nat
  expandSat : Nat
  w2t : Nat
  flush : Nat
  nanBlock : Nat
  preempts : Nat
  tiles : Nat
  deriving DecidableEq, Repr

/-- Where a work item comes from (03 R82): a ring entry or plan node; a core program, with its core, workgroup and ticket; the end
of a tile, with its core, pass and tile. -/
inductive TPath where
  | gantry
  | core (core wgid ticket : Nat)
  | pass (core pass tile : Nat)
  deriving DecidableEq, Repr

/-- A tensor work item (03 R82 to R111): its descriptor, how many cores it may use, the runs not yet placed and those that run,
its partial reductions by tile, its counts, how many of its runs have been placed (`open_`), and the fault that stopped it: DTIME, engine and
code. -/
structure TItem where
  org : Origin
  path : TPath
  desc : List Byte
  descAddr : Nat
  spread : Nat
  runsLeft : Nat
  counts : TCounts
  partials : Map Val
  start : Option Nat
  lastOut : Nat
  cores : List Nat
  open_ : Nat
  fault : Option (Nat × Nat × Nat)
  readyAt : Nat
  deriving DecidableEq, Repr

/-- A run of tiles of a work item on an array, or saved (03 R77, R78, R109): its tiles, the current set with its accumulators, the
K-step that each tile of the set does next, and the tile buffer bytes saved with it. -/
structure TRun where
  item : Nat
  first : Nat
  count : Nat
  set : Nat
  setLen : Nat
  tile : Nat
  k : Nat
  acc : List (List Val)
  placedAt : Nat
  saved : Option (Nat × Nat)
  deriving DecidableEq, Repr

/-- Cores, modules and tensor arrays. -/
structure CoreAll where
  cores : Map CoreSt
  /-- TCLK in MHz (01 R27, 15 R621). -/
  tclk : Nat
  jobs : Map Job
  /-- Modules by partition × 4,096 + index, the generation last given to a slot, loads in progress by partition, and unload
  entries that wait, by work identifier: the module's key (05 R177 to R182). -/
  modules : Map Module
  modGens : Map Nat
  loads : Map (List LoadOp)
  modUnloads : Map Nat
  /-- Work items by identifier; each array's queue; saved and unplaced runs (03 R84, R109). -/
  items : Map TItem
  queues : Map (List TRun)
  savedRuns : List TRun
  deriving DecidableEq, Repr

end Sys2Proof
end

