-- ==== Sys2Proof/Machine/StDress.lean ====
section
/-! DEFINITION. The state of the Dressing engine (07). -/
namespace Sys2Proof

/-- A frame record as latched: its address, its 576 bytes, the tables read with it (layer index, 8 for the post-blend table; one
that is absent is the identity), and whether it has been shown (07 R271, R275, R282). -/
structure FrameRec where
  addr : Nat
  bytes : List Byte
  tables : Map (List Byte)
  seen : Bool
  deriving DecidableEq, Repr

/-- A head (07 R266 to R283). -/
structure HeadSt where
  enabled : Bool
  /-- ENABLE was cleared; the head stops at the next line VACTIVE (07 R289). -/
  stopping : Bool
  /-- The current line, and the part of it that has passed, in pixel clocks × 10^6 (07 R270). -/
  line : Nat
  acc : Nat
  /-- Frames, modulo 2^32. -/
  frames : Nat
  /-- LEAD_LINES in force for this frame (07 R290). -/
  lead : Nat
  /-- The address of the pending flip (07 R271). -/
  pending : Option Nat
  /-- This frame's latch has been made. -/
  latchMade : Bool
  /-- The record latched, and the one shown in this frame; none shows black. -/
  latched : Option FrameRec
  shown : Option FrameRec
  /-- The DONE record of this frame is due (07 R274). -/
  doneDue : Bool
  /-- The next line to fetch, and the layers disabled to the end of the frame (07 R281, R282). -/
  fetchLine : Nat
  layersOff : List Nat
  /-- Writeback rows of a compressed surface that wait for their block row: line and pixels' bytes (07 R275, 06 R249). -/
  wbRows : Map (List Byte)
  deriving DecidableEq, Repr

/-- A head right after reset. -/
def noHead : HeadSt :=
  { enabled := false, stopping := false, line := 0, acc := 0, frames := 0, lead := 16, pending := none, latchMade := false,
    latched := none, shown := none, doneDue := false, fetchLine := 0, layersOff := [], wbRows := [] }

end Sys2Proof
end

