-- ==== Sys2Proof/Machine/StLink.lean ====
section
/-! DEFINITION. The state of the Baphor Link ports (14) and of the Mark units (13). -/
namespace Sys2Proof

/-- A data flit (14 R583): sequence number, channel, FLAGS and payload. -/
structure Flit where
  seq : Nat
  vc : Nat
  flags : Nat
  payload : List Byte
  deriving DecidableEq, Repr

/-- A burst that a port receives (14 R600): its channel, its bytes so far, the DTIME of its last flit, and whether it was
discarded. -/
structure Burst where
  vc : Nat
  bytes : List Byte
  since : Nat
  dead : Bool
  deriving DecidableEq, Repr

/-- How far training has come (14 R587). -/
inductive TrainStep where
  | none | t1 | t2 | t3
  deriving DecidableEq, Repr

/-- A link port (14 R583 to R587, R600): training wanted or under way, with the width and neighbour it found; the next sequence
number to send, flits sent and not acknowledged, flits that wait, retransmission rounds without an advance and the DTIME of the
last advance; the next sequence number expected; open bursts, the latest first, by channel; whole messages received, by channel;
and when the symbol-error window began. -/
structure PortSt where
  want : Bool
  again : Bool
  step : TrainStep
  trainAt : Nat
  good : Nat
  ident : Nat
  txSeq : Nat
  unacked : List Flit
  wait : List Flit
  rounds : Nat
  ackAt : Nat
  rxNext : Nat
  bursts : List Burst
  inbox : List (Nat × List Byte)
  winAt : Nat
  deriving DecidableEq, Repr

/-- What a remote request is for (14 R592, R596, R604): a read of a thread of a core, a write, or an import. -/
inductive ReqKind where
  | coreRead (core gid tag thread : Nat)
  | write
  | imp
  deriving DecidableEq, Repr

/-- A remote request that awaits its reply (14 R592, R598, R600): its message, its work and engine, the address it was made for,
the port it left on, its attempts and stalls, and when it was sent. -/
structure LinkReq where
  kind : ReqKind
  org : Origin
  engine : Nat
  core : Nat
  gid : Nat
  device : Nat
  mem : Nat
  va : Nat
  n : Nat
  msg : List Byte
  port : Option Nat
  attempts : Nat
  stalls : Nat
  sentAt : Nat
  deriving DecidableEq, Repr

/-- An import that this device holds for a peer (14 R596): its source, partition, range and epoch, and the objects on which it
holds a reference. -/
structure Import where
  src : Nat
  part : Nat
  base : Nat
  frames : Nat
  epoch : Nat
  mems : List Nat
  fences : List Nat
  deriving DecidableEq, Repr

/-- The link. -/
structure LinkSt where
  ports : List PortSt
  nextTag : Nat
  reqs : Map LinkReq
  imports : List Import
  deriving DecidableEq, Repr

/-- The operations of a write-fed Mark unit (13 R567). -/
inductive MarkOpKind where
  | feed | alive | finish | finishNoCheck | restart
  deriving DecidableEq, Repr

/-- A queued operation: its size and value. -/
structure MarkOp where
  kind : MarkOpKind
  size : Nat
  value : Nat
  deriving DecidableEq, Repr

/-- A piece of a stream that a snooping unit takes (13 R570): whether it begins and ends a message. -/
structure MarkPiece where
  first : Bool
  last : Bool
  bytes : List Byte
  deriving DecidableEq, Repr

/-- A Mark unit (13 R564 to R573), beside its registers: queued operations; pieces of its stream; bytes of the open message, the
last of them that are not yet fed, and the first that may hold the alive field; its alive value; when its last byte came; and
whether it ignores the rest of a discarded message. -/
structure MarkUnit where
  queue : List MarkOp
  pieces : List MarkPiece
  count : Nat
  held : List Byte
  head : List Byte
  alive : Option Nat
  byteAt : Nat
  ignoring : Bool
  deriving DecidableEq, Repr

/-- A port after reset: it trains when ENABLE is 1 (14 R587). -/
def resetPort : PortSt :=
  { want := true, again := false, step := .none, trainAt := 0, good := 0, ident := 0, txSeq := 0, unacked := [], wait := [],
    rounds := 0, ackAt := 0, rxNext := 0, bursts := [], inbox := [], winAt := 0 }

/-- The link after reset. -/
def resetLink : LinkSt :=
  { ports := [resetPort, resetPort, resetPort, resetPort], nextTag := 0, reqs := [], imports := [] }

/-- A Mark unit with no message. -/
def noMark : MarkUnit :=
  { queue := [], pieces := [], count := 0, held := [], head := [], alive := none, byteAt := 0, ignoring := false }

end Sys2Proof
end

