-- ==== Sys2Proof/Machine/StPower.lean ====
section
/-! DEFINITION. The state of the power states and of cooling, the Weighbridge (15), Keystone with the flash and the Gantry's
processors (16), the reset pins (17), and core promotion (09 R374, R375). -/
namespace Sys2Proof

/-- A request for a power state that waits or is committed (15 R616, R618): its target, the DTIME of the write, and of E4. -/
structure PwrReq where
  target : Nat
  at_ : Nat
  commitAt : Option Nat
  deriving DecidableEq, Repr

/-- Power states and cooling (15 R610 to R625): the request; since when the A1 condition holds; how far an exit from A2 has come
(0: none; 1: W2; 2: W3); the wake event that waits; THERMTRIP# and WAKE# driven low; the DTIME of the last change of TCLK; since when
the mean has been above the limit at the floor, and below 95 % of it; the DTIME of the last coolant report; and since when inlet and
flow have been out of their limits and both within them. -/
structure PowerSt where
  req : Option PwrReq
  idleSince : Option Nat
  exit : Nat
  wake : Option Nat
  deferred : Bool
  tripped : Bool
  wakePin : Bool
  stepAt : Nat
  overSince : Option Nat
  underSince : Option Nat
  coolAt : Nat
  inletBad : Option Nat
  flowBad : Option Nat
  coolGood : Option Nat
  deriving DecidableEq, Repr

/-- A record that the Weighbridge holds (15 R627, R628). -/
structure WbRec where
  bytes : List Byte
  delivered : Bool
  deriving DecidableEq, Repr

/-- A sensor stream (15 R627 to R629): the next ALIVE value, the records held, the DTIME and ALIVE value of the read in progress,
and when the last read began. -/
structure WbStream where
  alive : Nat
  held : List WbRec
  reading : Option (Nat × Nat)
  last : Option Nat
  deriving DecidableEq, Repr

/-- The Weighbridge (15 R626 to R633): its streams; the mailbox; the filter's scratch vector after the last evaluation; each class's
consecutive count and whether it has fired; latched wakes (bit c); GPIO levels that classes drive; and a reset in progress. -/
structure WbSt where
  streams : Map WbStream
  mbox : Map Byte
  scratch : List Byte
  hold : Map Nat
  fired : Map Bool
  latched : Nat
  forced : Map Bool
  resetAt : Option Nat
  deriving DecidableEq, Repr

/-- A firmware slot of the flash (16 R642, R655, R675): its state code and its image. -/
structure FwSlot where
  state : Nat
  img : List Byte
  deriving DecidableEq, Repr

/-- A copy of the configuration record (16 R651, R652): its generation, its base section and the repair entries (kind, location)
found at manufacture and appended since. -/
structure ConfigRec where
  gen : Nat
  base : List Byte
  made : List (Nat × Nat)
  added : List (Nat × Nat)
  deriving DecidableEq, Repr

/-- What a start-up began from (16 R657). -/
inductive BootCause where
  | powerOn | exitA3 | fundamental
  deriving DecidableEq, Repr

/-- A firmware operation in progress (16 R666): STAGE reads `pages` pages from `addr`. -/
structure FwOp where
  op : Nat
  at_ : Nat
  pages : Nat
  addr : Nat
  deriving DecidableEq, Repr

/-- A handover (16 R668, R669): the slot that the roles move to, whether they move back, whether the standby has passed its
self-test, roles moved, and the DTIME of the last step. -/
structure Handover where
  slot : Nat
  back : Bool
  tested : Bool
  moved : Nat
  at_ : Nat
  deriving DecidableEq, Repr

/-- A haul in progress (16 R670, 14 R604): the block asked for, attempts on it, when it was asked for, and the bytes received. -/
structure Haul where
  block : Nat
  tries : Nat
  at_ : Nat
  bytes : List Byte
  deriving DecidableEq, Repr

/-- An SPDM session (16 R661): its identifier, whether FINISH has passed, and how often its keys were updated. -/
structure SpdmSession where
  id : Nat
  open_ : Bool
  updates : Nat
  deriving DecidableEq, Repr

/-- The SPDM responder (16 R661): how far negotiation has come (0 none, 1 version, 2 capabilities, 3 algorithms), sessions, and the
selective IDE streams whose keys are set (stream: programmed or running). -/
structure SpdmSt where
  level : Nat
  sessions : List SpdmSession
  nextId : Nat
  streams : Map Nat
  deriving DecidableEq, Repr

/-- Keystone, the flash and the Gantry's processors (16), and the pins of 17. -/
structure SecSt where
  /-- The flash: slots A and B, and the copies of the configuration record (R642). -/
  slots : List FwSlot
  recs : List (Option ConfigRec)
  /-- The replay-protected region (R643): FLOOR, REVOKED, CFG_GEN and NEXT_Q. -/
  floor : Nat
  revoked : Nat
  cfgGen : Nat
  nextQ : Nat
  /-- PWRGD; TEST_EN was found high when it was asserted (17 R681); PERST# and when it was asserted. -/
  pwrgd : Bool
  factory : Bool
  perst : Bool
  perstAt : Nat
  /-- A PERST# assertion in A0 or A1 stopped the device, which waits for the release (17 R689). -/
  held : Bool
  /-- The start-up: what it began from, when, and the last step P1 to P8 that is complete (0: none runs). -/
  cause : BootCause
  bootAt : Nat
  step : Nat
  /-- The device identity exists and the replay-protected region can be read (R645, R647); KEY_UID; the
  device is in recovery; the two parts of P5 are complete (R657). -/
  ident : Bool
  uid : Nat
  recovery : Bool
  filled : Bool
  verified : Bool
  /-- The state book's format (R666, R668), and boots counted. -/
  book : Nat
  boots : Nat
  /-- The copy of the record taken (R653), repairs to append (R654), and whether this start-up's fill is complete. -/
  taken : Option Nat
  repairs : List (Nat × Nat)
  /-- The slot whose GANTRY component runs, and the digests of the components that run: KEYSTONE, GANTRY, WEIGHBRIDGE (R663). -/
  running : Option Nat
  digests : List (List Byte)
  /-- A slot to boot as TRIAL (R667), the slot staged last, and the slot of the haul image (R670). -/
  trial : Option Nat
  staged : Option Nat
  haulImage : Option Nat
  op : Option FwOp
  hand : Option Handover
  /-- The health window: when it began, since when no processor has missed a heartbeat, and the host's confirmation (R669). -/
  window : Option Nat
  heartAt : Nat
  confirmed : Bool
  previous : Option Nat
  /-- The processors: that of each role, the standby, and those out of service (R668, R672). -/
  roles : List Nat
  standby : Option Nat
  haul : Option Haul
  /-- Records that wait until partition 0 exists (R658). -/
  waiting : List ErrRec
  /-- DTIMEs of the reports signed in the last hour (R664), and the two LMS_EXHAUSTED records written (R665). -/
  reports : List Nat
  lmsLow : Bool
  lmsOut : Bool
  spdm : SpdmSt
  deriving DecidableEq, Repr

/-- A core that drains for a promotion, or becomes unavailable (09 R374, R375): its trigger's reason, its site, and whether the spare
has its number. -/
structure Drain where
  core : Nat
  reason : Nat
  oldSite : Nat
  assigned : Bool
  deriving DecidableEq, Repr

/-- Logical cores and sites (01 R17 to R20): the site of each logical core, the free spare site of each bench, the cores that drain
or wait to, in trigger order; and the corrected errors of each SRAM row in the window (09 R377). -/
structure SiteSt where
  sites : Map Nat
  spares : Map Nat
  drains : List Drain
  sram : Map Nat
  deriving DecidableEq, Repr

/-- A0, with nothing asked for. -/
def resetPower : PowerSt :=
  { req := none, idleSince := none, exit := 0, wake := none, deferred := false, tripped := false, wakePin := false, stepAt := 0,
    overSince := none, underSince := none, coolAt := 0, inletBad := none, flowBad := none, coolGood := none }

/-- A stream that has not been sampled. -/
def noStream : WbStream :=
  { alive := 0, held := [], reading := none, last := none }

/-- The Weighbridge after power-on. -/
def resetWb : WbSt :=
  { streams := [], mbox := [], scratch := List.replicate 64 0, hold := [], fired := [], latched := 0, forced := [], resetAt := none }

/-- No SPDM connection. -/
def noSpdm : SpdmSt :=
  { level := 0, sessions := [], nextId := 1, streams := [] }

/-- An empty slot. -/
def emptySlot : FwSlot :=
  { state := 0, img := [] }

/-- Keystone as power-on finds it: no image in the flash, and a record without repairs (log 42). -/
def resetSec : SecSt :=
  { slots := [emptySlot, emptySlot], recs := [some { gen := 0, base := [], made := [], added := [] }, none], floor := 0, revoked := 0, cfgGen := 0, nextQ := 0, pwrgd := true, factory := false, perst := false,
    perstAt := 0, held := false, cause := .powerOn, bootAt := 0, step := 1, ident := false, uid := 0, recovery := false, filled := false, verified := false, book := 0, boots := 0, taken := none, repairs := [],
    running := none, digests := [], trial := none, staged := none, haulImage := none, op := none, hand := none, window := none, heartAt := 0,
    confirmed := false, previous := none, roles := [0, 1, 2, 3], standby := some 4, haul := none, waiting := [], reports := [], lmsLow := false,
    lmsOut := false, spdm := noSpdm }

/-- No core has a site yet (01 R21). -/
def resetSites : SiteSt :=
  { sites := [], spares := [], drains := [], sram := [] }

end Sys2Proof
end

