-- ==== Sys2Proof/Machine/StRaster.lean ====
section
/-! DEFINITION. The state of render passes (06): geometry batches, primitives after set-up, bin memory and growth requests,
tiles handed out and saved. -/
namespace Sys2Proof

/-- A primitive after set-up (06 R219, R220): its place in primitive order (batch, then place in the batch), its draw, its kind (1
point, 2 line, 3 triangle), its snapped corners in 1/256 pixel with their depths as FP32 bits, and its facing. -/
structure Prim where
  batch : Nat
  seq : Nat
  draw : Nat
  kind : Nat
  pts : List (Int × Int × Nat)
  front : Bool
  deriving DecidableEq, Repr

/-- How far a batch has come (06 R217): the program that runs, or its set-up. -/
inductive BatchStep where
  | vertex | control | eval | setup
  deriving DecidableEq, Repr

/-- An input primitive of a batch: its draw, its instance and its vertices by their place in the batch's list of distinct
vertices (06 R218). -/
structure InPrim where
  draw : Nat
  inst : Nat
  verts : List Nat
  deriving DecidableEq, Repr

/-- A batch on a geometry unit (06 R217 to R222): its number, its input primitives, its distinct pairs of vertex and instance, the
draw each belongs to, the job whose programs run, the outputs of the last program by invocation × 256 + slot, the tessellator's
points (patch, u, v, w as FP32 bits) and generated primitives (draw and points), the place of the next primitive, how many it has
made, and whether its vertex pages are allocated. -/
structure Batch where
  index : Nat
  prims : List InPrim
  verts : List (Nat × Nat × Nat)
  step : BatchStep
  job : Nat
  outs : Map Word32
  points : List (Nat × Nat × Nat × Nat)
  gen : List (Nat × List Nat)
  pos : Nat
  made : Nat
  paged : Bool
  deriving DecidableEq, Repr

/-- The phases of a pass (06 R210): geometry, tiles, or abandoned with a code. -/
inductive PassStep where
  | geometry | tiles | gone
  deriving DecidableEq, Repr

/-- A render pass (06 R210 to R259): its descriptor and planes; draw records fetched; the place of the next batch (draw, instance,
primitive of the instance); a batch for each geometry unit that has one, and those saved; primitives in no order; bytes of bin
memory used, committed, and listings by tile × 8 + unit; units that stall, with the end of their allocation; tiles handed out and
stored, and saved tiles with their groups; and its counts. -/
structure RPass where
  org : Origin
  desc : List Byte
  planes : List (List Byte)
  draws : List (List Byte)
  step : PassStep
  nextBatch : Nat
  at_ : Nat × Nat × Nat
  units : Map Batch
  savedUnits : List (Nat × Nat × Nat)
  prims : List Prim
  used : Nat
  commit : Nat
  lists : Map Nat
  stalls : Map Nat
  nextTile : Nat
  savedTiles : List (TileSt × List WG)
  finished : Nat
  stored : Nat
  binned : Nat
  culled : Nat
  growths : Nat
  preempts : Nat
  decodeErrs : Nat
  start : Option Nat
  binnedAt : Nat
  readyAt : Nat
  /-- Cores on which tiles of the pass have been placed, for the CORES limit (06 R230). -/
  cores : List Nat
  deriving DecidableEq, Repr

/-- Render passes by work identifier, and the passes of each partition whose growth request is pending or waits, the pending one
first, with the DTIME at which it was posted (06 R224, R225). -/
structure RasterSt where
  passes : Map RPass
  growth : Map (List Nat)
  postedAt : Map Nat
  deriving DecidableEq, Repr

end Sys2Proof
end

