-- ==== Sys2Proof/Machine/State.lean ====
section
/-! DEFINITION. The state of the device, as plain data, and the state right after power-on reset (00 to 18). -/
namespace Sys2Proof.Machine

/-- The whole machine. -/
structure State where
  /-- The commands that wait, first in first out. -/
  pending : List Instr
  /-- Counter of the free values drawn so far (the model's own field: the n-th free value is `Config.free… n`). -/
  fresh : Nat
  /-- DTIME in nanoseconds, modulo 2^64 (01 R29). -/
  dtime : Nat
  /-- What the device has sent, oldest first. -/
  out : List Output
  /-- Registers that differ from their reset value, by key (18 R704 to R711). -/
  regs : Map Word
  mem : MemSt
  host : HostSt
  sched : SchedSt
  core : CoreAll
  /-- The two heads of the Dressing engine (07). -/
  heads : List HeadSt
  link : LinkSt
  /-- Mark units that have been used. -/
  marks : Map MarkUnit
  raster : RasterSt
  power : PowerSt
  wb : WbSt
  sec : SecSt
  site : SiteSt
  deriving DecidableEq, Repr

/-- Why the device stops. No command of the table stops it: a faulting access is an effect of its command. -/
inductive Fault where
  /-- An access to an address that names no memory (08 R299). Raised by no meaning: translation cannot reach one. Safe. -/
  | noMemory
  deriving DecidableEq, Repr

/-- Why a command is refused. -/
inductive Refusal where
  /-- The command has no meaning yet. Raised by `exec` alone. Safe. -/
  | notModelled (mnemonic : String)
  deriving DecidableEq, Repr

/-- Memory after power-on, before the fill (09 R362): nothing stored, no claim assigned, every cache empty. -/
def resetMem : MemSt :=
  { dram := [], pdev := [], remap := [], pool := [], claims := [], fillQ := [], modelFirst := 0, modelCount := 0, modelLive := false,
    grant := 0, lines := [], plru := [], miss := [], input := [], evb := [], filled := [], slowQ := [], xsets := [],
    walks := [], inval := [], frameSyms := [], coreErrs := [], recorded := [], exhausted := [], retired := [], retireQ := [],
    windowStart := 0, patrolPage := 0, patrolTime := 0 }

/-- The host interface after power-on (10 R395, 18 R716). -/
def resetHost : HostSt :=
  { pcie := { vfEnable := false, numVfs := 0, msixEnable := 0, funcMask := 0, relaxed := 0xFFFFFFFF, cto := 0 },
    msix := [], parts := [], rings := [], ctxs := [], fences := [], events := [], memObjs := [], gens := [], kills := [],
    partCmd := none, objWait := [], captures := [],
    finished := [], scanAt := 0, scanSet := [], nextWid := 1 }

/-- No serving session (12 R546). -/
def noServe : ServeSt :=
  { active := false, suspended := false, plan := 0, batchMax := 0, seqSlots := 0, chunk := 0, rowTable := 0, outTable := 0,
    ctx := 0, queues := [], seqs := [], rows := [], step := none, steps := 0, lastPart := 31, nextOrder := 0,
    stopping := none }

/-- Scheduling after power-on: the cadence unit unlocked (12 R511), and nothing scheduled. -/
def resetSched : SchedSt :=
  { cadence := { period := none, t := 0, cycles := 0, locked := false, lastPulse := none, edge := none, glitch := false, runStart := false,
                 runCount := 0, runLast := 0 },
    gates := [], saveUsed := [], copies := [], copyWait := [], crush := [], crushWait := [], plans := [], planGens := [], launches := [], unloads := [],
    model := false, modelDying := false, swapHeld := false, modelGen := 0, modelRefs := 0, load := none, serve := noServe, accounts := [], acctCopy := [],
    stopOps := [], stopCtx := [], stopAt := [], resetting := [], held := false, paused := false }

/-- Cores, modules and arrays after power-on: no core is live, nothing is loaded, and TCLK stands at 0 (01 R21, 15 R632). -/
def resetCore : CoreAll :=
  { cores := [], tclk := 0, jobs := [], modules := [], modGens := [], loads := [], modUnloads := [], items := [],
    queues := [], savedRuns := [] }

/-- No render pass. -/
def resetRaster : RasterSt :=
  { passes := [], growth := [], postedAt := [] }

/-- The machine right after a power-on: every register at its reset value, and LAST_EXIT at 2 (18 R716). -/
def State.reset : State :=
  { pending := [], fresh := 0, dtime := 0, out := [], regs := [(Reg.pwrStatus, 0x10000000)], mem := resetMem, host := resetHost,
    sched := resetSched, core := resetCore, heads := [noHead, noHead], link := resetLink,
    marks := [], raster := resetRaster,
    power := resetPower, wb := resetWb, sec := resetSec, site := resetSites }

end Sys2Proof.Machine
end

