-- ==== Sys2Proof/Machine/Flags.lean ====
section
/-! DEFINITION. Registers and their fields, the counter policy (09 R378 to R381), the counter event and MSI-X messages
(10 R396 to R398). -/
namespace Sys2Proof.Machine

/-- The register at a key. -/
def rd (s : State) (key : Nat) : Word :=
  mgetD s.regs key (resetVal key)

/-- The state with a register's value replaced. -/
def wr (s : State) (key : Nat) (v : Word) : State :=
  { s with regs := msetD s.regs key v (resetVal key) }

/-- Bits [hi:lo] of a word. -/
def wbits (w : Word) (hi lo : Nat) : Nat :=
  bitsN w.toNat hi lo

/-- A word with bits [hi:lo] replaced by the low bits of `x`. -/
def wput (w : Word) (hi lo x : Nat) : Word :=
  BitVec.ofNat 64 (w.toNat - wbits w hi lo * 2 ^ lo + x % 2 ^ (hi + 1 - lo) * 2 ^ lo)

/-- A field of the register at a key. -/
def rdF (s : State) (key hi lo : Nat) : Nat :=
  wbits (rd s key) hi lo

/-- The state with a field of a register replaced. -/
def wrF (s : State) (key hi lo x : Nat) : State :=
  wr s key (wput (rd s key) hi lo x)

/-- The state with one more message sent. -/
def emit (s : State) (o : Output) : State :=
  { s with out := s.out ++ [o] }

/-- A free number, and the state in which the next one differs (log 3). -/
def draw (s : State) : Nat × State :=
  (Config.freeNat s.fresh, { s with fresh := s.fresh + 1 })

/-- The MSI-X table entry `i` of function `f` (18 R702): erased and masked where none is listed, as PCIe resets it. -/
def msixGet (s : State) (f i : Nat) : Msix :=
  mgetD s.host.msix (f * 2048 + i) { addr := 0, data := 0, masked := true, pend := false }

/-- The state with an MSI-X table entry replaced. -/
def msixPut (s : State) (f i : Nat) (e : Msix) : State :=
  { s with host := { s.host with
      msix := msetD s.host.msix (f * 2048 + i) e { addr := 0, data := 0, masked := true, pend := false } } }

/-- The size of function `f`'s MSI-X table (10 R396). -/
def msixSize (s : State) (f : Nat) : Nat :=
  rdF s (Reg.pcieMsixAlloc f) 11 0

/-- A message whose index lies in the table: sent, or made pending at a masked entry (10 R398). Nothing is sent and nothing
becomes pending while MSI-X Enable is clear (log 20). -/
def deliverMsix (s : State) (f i : Nat) : State :=
  if s.host.pcie.msixEnable.getLsbD f then
    if s.host.pcie.funcMask.getLsbD f || (msixGet s f i).masked then
      msixPut s f i { msixGet s f i with pend := true }
    else emit s (.msix f i)
  else s

/-- A dropped message is counted; its counter's overflow raises the counter event once (10 R398, 09 R379, R380). -/
def dropMsix (s : State) : State :=
  if (rd s Reg.pcieMsiDropCount).toNat < 2 ^ 32 - 1 then
    wr s Reg.pcieMsiDropCount (rd s Reg.pcieMsiDropCount + 1)
  else if rdF s Reg.pcieStatus 0 0 = 1 then s
  else
    let s1 := wrF (wrF s Reg.pcieStatus 0 0 1) Reg.errStatus 0 0 1
    if rdF s1 Reg.errCtl 10 0 < msixSize s1 0 then deliverMsix s1 0 (rdF s1 Reg.errCtl 10 0) else s1

/-- Sends the message of index `i` of function `f`, or drops it (10 R398). -/
def sendMsix (s : State) (f i : Nat) : State :=
  if i < msixSize s f then deliverMsix s f i else dropMsix s

/-- The counter event (09 R380). -/
def counterEvent (s : State) : State :=
  sendMsix (wrF s Reg.errStatus 0 0 1) 0 (rdF s Reg.errCtl 10 0)

/-- Sets an overflow bit; its change from 0 to 1 raises the counter event (09 R379). -/
def setOverflow (s : State) (status bit : Nat) : State :=
  if rdF s status bit bit = 1 then s else counterEvent (wrF s status bit bit 1)

/-- Adds `n` to a saturating counter held in bits [hi:lo] of the register at `key`: it holds its maximum, and an increment
that finds it there sets the overflow bit (09 R379). -/
def bumpF (s : State) (key hi lo status bit n : Nat) : State :=
  if rdF s key hi lo + n ≤ 2 ^ (hi + 1 - lo) - 1 then wrF s key hi lo (rdF s key hi lo + n)
  else setOverflow (wrF s key hi lo (2 ^ (hi + 1 - lo) - 1)) status bit

/-- Adds `n` to a saturating 32-bit counter. -/
def bump32 (s : State) (key status bit n : Nat) : State :=
  bumpF s key 31 0 status bit n

/-- Adds `n` to a saturating 64-bit counter. -/
def bump64 (s : State) (key status bit n : Nat) : State :=
  bumpF s key 63 0 status bit n

end Sys2Proof.Machine
end

