-- ==== Sys2Proof/Machine/LinkSend.lean ====
section
/-! DEFINITION. Sending on the link (14 R583 to R592): flits, ports, routes, messages and remote requests; and the pieces of a
stream that snooping Mark units take (13 R569, R570). -/
namespace Sys2Proof.Machine

/-! Snooping (13 R569). -/

/-- Mark unit `u` (13 R564). -/
def markOf (s : State) (u : Nat) : MarkUnit :=
  mgetD s.marks u noMark
def setMark (s : State) (u : Nat) (m : MarkUnit) : State :=
  { s with marks := mset s.marks u m }

/-- A piece of a stream reaches every enabled snooping unit that is attached to it; `sel` says which units, by their
number and MARK_ATTACH. -/
def snoop (s : State) (sel : Nat → Nat → Bool) (q : MarkPiece) : State :=
  (List.range 8).foldl (fun s i =>
    if rdF s (Reg.markCtl (16 + i)) 0 0 = 1 && sel (16 + i) (rd s (Reg.markAttach (16 + i))).toNat then
      setMark s (16 + i) { markOf s (16 + i) with pieces := (markOf s (16 + i)).pieces ++ [q] }
    else s) s

/-- A whole message on a channel of a port, received (`dir` 0) or sent (`dir` 1) (13 R569). -/
def snoopLink (s : State) (port vc dir : Nat) (bs : List Byte) : State :=
  snoop s (fun _ a => bitsN a 2 0 = 1 && bitsN a 4 3 = port && bitsN a 7 5 = vc && bitsN a 8 8 = dir)
    { first := true, last := true, bytes := bs }

/-- A piece of a COPY of ring `ring` of partition `part` whose source lies in a HOST segment (13 R569). -/
def snoopRing (s : State) (part ring : Nat) (first last : Bool) (bs : List Byte) : State :=
  snoop s (fun u a => bitsN a 2 0 = 2 && bitsN a 18 9 = ring && rdF s (Reg.markGrant u) 4 0 = part)
    { first := first, last := last, bytes := bs }

/-! Ports and flits. -/

def setLink (s : State) (x : LinkSt) : State :=
  { s with link := x }
/-- Port `p`. -/
def portOf (s : State) (p : Nat) : PortSt :=
  lget s.link.ports p resetPort
def setPort (s : State) (p : Nat) (x : PortSt) : State :=
  setLink s { s.link with ports := lset s.link.ports p x }

/-- LINK_PORT_STATUS.STATE (14 R607). -/
def portState (s : State) (p : Nat) : Nat :=
  rdF s (Reg.linkPortStatus p) 1 0
abbrev portDownCode : Nat := 0
abbrev portTraining : Nat := 1
abbrev portUp : Nat := 2
abbrev portConflict : Nat := 3

/-- The 256 bytes of a flit (14 R583, R584). -/
def flitBytes (kind seq ack vc flags : Nat) (payload : List Byte) : List Byte :=
  let b := leBytes 2 (seq % 4096 + kind * 4096) ++ leBytes 2 (ack % 4096) ++ leBytes 1 vc ++ leBytes 1 flags ++
    leBytes 2 payload.length ++ (payload ++ zeroBytes 240).take 240
  b ++ leBytes 8 (crcOf crcFlit b)

/-- The sequence number of the last flit accepted on port `p`. -/
def lastAccepted (s : State) (p : Nat) : Nat :=
  ((portOf s p).rxNext + 4095) % 4096

/-- Sends a data flit. -/
def emitFlit (s : State) (p : Nat) (f : Flit) : State :=
  emit s (.flit p (flitBytes 0 f.seq (lastAccepted s p) f.vc f.flags f.payload))

/-- Sends an idle flit, which carries an acknowledgement alone (14 R585). -/
def emitAck (s : State) (p : Nat) : State :=
  emit s (.flit p (flitBytes 1 0 (lastAccepted s p) 0 0 []))

/-- Sends a NAK with the sequence number expected next (14 R583). -/
def emitNak (s : State) (p : Nat) : State :=
  emit s (.flit p (flitBytes 2 0 (portOf s p).rxNext 0 0 []))

/-- The flits of two classes in the order they leave: channels 0 and 1 first, with 1 flit in 16 of channels 2 and 3 while they have
flits waiting (14 R590). -/
def mixFlits (fuel k : Nat) (hi lo : List Flit) : List Flit :=
  match fuel with
  | 0 => []
  | n + 1 =>
    match hi, lo with
    | [], l => l
    | h, [] => h
    | f :: h, g :: l => if k = 15 then g :: mixFlits n 0 (f :: h) l else f :: mixFlits n (k + 1) h (g :: l)

/-- An UP port sends flits that wait, at most 512 being unacknowledged (14 R585, R590). -/
def pump (s : State) (p : Nat) : State :=
  let q := portOf s p
  if portState s p ≠ portUp then s
  else
    let l := mixFlits q.wait.length 0 (q.wait.filter (fun f => f.vc < 2)) (q.wait.filter (fun f => 2 ≤ f.vc))
    let go := l.take (512 - q.unacked.length)
    let sent := (go.zip (List.range go.length)).map (fun e => { e.1 with seq := (q.txSeq + e.2) % 4096 })
    let s1 := setPort s p { q with wait := l.drop go.length, unacked := q.unacked ++ sent, txSeq := (q.txSeq + go.length) % 4096,
                                   ackAt := if q.unacked.isEmpty then s.dtime else q.ackAt }
    sent.foldl (fun s f => emitFlit s p f) s1

/-- The payloads of a message, 240 bytes a flit. -/
def flitParts (fuel : Nat) (bs : List Byte) : List (List Byte) :=
  match fuel with
  | 0 => []
  | n + 1 => if bs.length ≤ 240 then [bs] else bs.take 240 :: flitParts n (bs.drop 240)

/-- A message as flits: FIRST on the first, LAST on the last (14 R583). -/
def flitsOf (vc : Nat) (bs : List Byte) : List Flit :=
  let l := flitParts (bs.length / 240 + 1) bs
  (l.zip (List.range l.length)).map (fun e =>
    { seq := 0, vc := vc, flags := b2n (e.2 = 0) + 2 * b2n (e.2 + 1 = l.length), payload := e.1 })

/-- Sends a message on a channel of a port; while the port trains, it waits (14 R587, R600). -/
def sendOn (s : State) (p vc : Nat) (bs : List Byte) : State :=
  pump (setPort (snoopLink s p vc 1 bs) p { portOf s p with wait := (portOf s p).wait ++ flitsOf vc bs }) p

/-! Messages (14 R591). -/

abbrev opRead : Nat := 1
abbrev opReadReply : Nat := 2
abbrev opWrite : Nat := 3
abbrev opWriteAck : Nat := 4
abbrev opImport : Nat := 5
abbrev opImportReply : Nat := 6
abbrev opRelease : Nat := 7
abbrev opHaulReq : Nat := 8
abbrev opHaulBlock : Nat := 9
abbrev opStalled : Nat := 10

/-- The channel of a message (14 R590). -/
def vcOf (op : Nat) : Nat :=
  if op = opHaulReq then 2
  else if op = opHaulBlock then 3
  else if op = opRead || op = opWrite || op = opImport || op = opRelease then 0 else 1

/-- This device's DEVICE_ID and EPOCH (14 R606). -/
def ownId (s : State) : Nat := rdF s Reg.linkId 2 0
def ownEpoch (s : State) : Nat := rdF s Reg.linkId 63 32

/-- The 32-byte header of a message (14 R591). -/
def msgHeader (s : State) (op dest part status len addr tag : Nat) : List Byte :=
  leBytes 1 op ++ leBytes 1 dest ++ leBytes 1 (ownId s) ++ leBytes 1 0 ++ leBytes 1 part ++ leBytes 1 status ++
    leBytes 2 len ++ leBytes 8 addr ++ leBytes 4 tag ++ leBytes 4 (if op = opImport then ownEpoch s else 0) ++ zeroBytes 8

/-- The port on which a message to a device leaves (14 R589): the lowest-numbered UP port that reaches it, or the port of
LINK_ROUTE, where it is not DOWN. -/
def routeOf (s : State) (d : Nat) : Option Nat :=
  match (List.range 4).find? (fun p => portState s p = portUp && rdF s (Reg.linkPortStatus p) 4 2 = d) with
  | some p => some p
  | none =>
    let r := rdF s Reg.linkRoute (4 * d + 3) (4 * d)
    if r < 4 && (portState s r = portUp || portState s r = portTraining) then some r else none

/-- Sends a reply or a RELEASE by the routes; one that has no route is lost (14 R589). -/
def sendTo (s : State) (dest op : Nat) (bs : List Byte) : State :=
  match routeOf s dest with
  | some p => sendOn s p (vcOf op) bs
  | none => bump32 s Reg.linkHopDropCount Reg.linkStatus 6 1

/-! Remote requests (14 R592, R598). -/

/-- The state with a request recorded under a new tag and its message sent; none where it has no route (14 R589). -/
def sendReq (s : State) (op : Nat) (r : LinkReq) (len : Nat) (data : List Byte) : Option State :=
  match routeOf s r.device with
  | none => none
  | some p =>
    let tag := s.link.nextTag
    let msg := msgHeader s op r.device r.org.part 0 len r.mem tag ++ data
    let s1 := setLink s { s.link with
      nextTag := (tag + 1) % 2 ^ 32,
      reqs := mset s.link.reqs tag { r with msg := msg, port := some p, attempts := 1, sentAt := s.dtime } }
    some (sendOn s1 p (vcOf op) msg)

/-- Work of a partition with no ring entry: the origin of requests that no engine has claimed. -/
def noWork (part ctx : Nat) : Origin :=
  { wid := 0, part := part, ctx := ctx, ring := 0xFFFFFFFF, entry := 0 }

/-- A request before it is sent. -/
def newReq (kind : ReqKind) (o : Origin) (engine device mem va n : Nat) : LinkReq :=
  { kind := kind, org := o, engine := engine, core := 0, gid := 0, device := device, mem := mem, va := va, n := n, msg := [],
    port := none, attempts := 0, stalls := 0, sentAt := 0 }

/-- The writes of a run of bytes to a peer, at most 4 KiB each and within one 4 KiB block (14 R592); none where the device has no
route. -/
def peerWrite (s : State) (fuel : Nat) (part ctx device mem va : Nat) (bs : List Byte) : Option State :=
  match fuel with
  | 0 => some s
  | k + 1 =>
    if bs.isEmpty then some s
    else
      let n := min bs.length (4096 - mem % 4096)
      match sendReq s opWrite (newReq .write (noWork part ctx) 0x0800 device mem va n) (n - 1) (bs.take n) with
      | none => none
      | some s1 => peerWrite s1 k part ctx device (mem + n) (va + n) (bs.drop n)

/-- Requests that no engine has claimed belong to this work of this engine. -/
def claimReqs (s : State) (o : Origin) (engine core gid : Nat) : State :=
  setLink s { s.link with reqs := mmap s.link.reqs (fun _ r =>
    if r.org.wid = 0 && r.kind = .write then { r with org := o, engine := engine, core := core, gid := gid } else r) }

/-- A write of a group to a peer awaits its acknowledgement (04 R145, R146; 14 R599). -/
def awaitsAck (s : State) (core gid : Nat) : Bool :=
  s.link.reqs.any (fun r => r.2.kind = .write && r.2.engine = core && r.2.gid = gid && r.2.org.wid ≠ 0)

/-! Imports (14 R596). -/

/-- An IMPORT for every PEER segment of a table that takes effect. -/
def importSegs (s : State) (part : Nat) (l : List Seg) : State :=
  l.foldl (fun s g =>
    if g.kind = .peer then
      (sendReq s opImport (newReq .imp (noWork part 0) 0x0800 g.device g.target g.base 0) (g.frames - 1) []).getD s
    else s) s

/-- A RELEASE for every PEER segment of a table that is replaced or freed. -/
def releaseSegs (s : State) (part : Nat) (l : List Seg) : State :=
  l.foldl (fun s g =>
    if g.kind = .peer then
      sendTo s g.device opRelease (msgHeader s opRelease g.device part 0 (g.frames - 1) g.target 0)
    else s) s

/-- The fence slots begin here (14 R595). -/
abbrev fenceWindow : Nat := 0x1F00000000

/-- The memory address of a fence's slot, by its key (14 R595). -/
def fenceSlot (k : Nat) : Nat :=
  fenceWindow + k / 65536 * 2 ^ 21 + 32 * (k % 65536)

/-- An import's range holds an address. -/
def importCovers (m : Import) (a n : Nat) : Bool :=
  m.base < a + n && a < m.base + m.frames * 2 ^ 21

end Sys2Proof.Machine
end

