-- ==== Sys2Proof/Machine/Ops.lean ====
section
/-! DEFINITION. The operations that every part of the device shares: error records and the fault queue (11 R483 to R488), the
first step of a kill (11 R477, R478), object handles and references (11 R444 to R454), fences and events
(11 R462 to R472), and timers (01 R31). -/
namespace Sys2Proof.Machine

/-! Condition codes (11 R485; 05 to 16). -/
namespace Cond
abbrev ok : Nat := 0
abbrev segMiss : Nat := 0x0101
abbrev segPerm : Nat := 0x0102
abbrev segAlign : Nat := 0x0103
abbrev memUncorr : Nat := 0x0104
abbrev claimBound : Nat := 0x0105
abbrev hostWindowAbort : Nat := 0x0106
abbrev frameRetired : Nat := 0x0107
abbrev spareExhausted : Nat := 0x0108
abbrev illegalInstr : Nat := 0x0201
abbrev groupTrap : Nat := 0x0202
abbrev localBound : Nat := 0x0203
abbrev tensorDesc : Nat := 0x0204
abbrev bindingInvalid : Nat := 0x0205
abbrev watchdog : Nat := 0x0207
abbrev corePromoted : Nat := 0x0208
abbrev coreUnavailable : Nat := 0x0209
abbrev ringFormat : Nat := 0x0301
abbrev ringFetchAbort : Nat := 0x0302
abbrev planPatchBound : Nat := 0x0303
abbrev indirectBound : Nat := 0x0304
abbrev hang : Nat := 0x0305
abbrev binGrowthDenied : Nat := 0x0306
abbrev fenceDeadlock : Nat := 0x0401
abbrev ownerGone : Nat := 0x0402
abbrev waitTimeout : Nat := 0x0403
abbrev contextKilled : Nat := 0x0404
abbrev fenceRegress : Nat := 0x0405
abbrev modelSwapped : Nat := 0x0406
abbrev handleInvalid : Nat := 0x0407
abbrev linkDown : Nat := 0x0501
abbrev remoteTimeout : Nat := 0x0502
abbrev remoteFault : Nat := 0x0503
abbrev burstStall : Nat := 0x0504
abbrev codecIllegal : Nat := 0x0601
abbrev codecDistance : Nat := 0x0602
abbrev codecLength : Nat := 0x0603
abbrev codecHeader : Nat := 0x0604
abbrev codecCheck : Nat := 0x0605
abbrev codecVerify : Nat := 0x0606
abbrev codecOutput : Nat := 0x0607
abbrev sigEcdsa : Nat := 0x0701
abbrev sigLms : Nat := 0x0702
abbrev rollback : Nat := 0x0703
abbrev lmsExhausted : Nat := 0x0704
abbrev notConfirmed : Nat := 0x0705
abbrev thermalTrip : Nat := 0x0801
abbrev coolantLoss : Nat := 0x0802
abbrev powerAbort : Nat := 0x0803
abbrev markMismatch : Nat := 0x0901
abbrev aliveRepeat : Nat := 0x0902
abbrev aliveSkip : Nat := 0x0903
end Cond

/-! Engine identifiers (00 R13). -/
namespace Engine
abbrev core (n : Nat) : Nat := n
abbrev tensor (n : Nat) : Nat := 0x0100 + n
abbrev geom (b : Nat) : Nat := 0x0200 + b
abbrev dress (h : Nat) : Nat := 0x0300 + h
abbrev crush (e : Nat) : Nat := 0x0400 + e
abbrev copy (c : Nat) : Nat := 0x0500 + c
abbrev link (p : Nat) : Nat := 0x0600 + p
abbrev mark (u : Nat) : Nat := 0x0700 + u
abbrev gantry : Nat := 0x0800
abbrev keystone : Nat := 0x0900
abbrev weighbridge : Nat := 0x0A00
end Engine

/-- A partition that has never been created (10 R404). -/
def noPartition : Partition :=
  { created := false, destroying := false, ringQuota := 0, inflightQuota := 0, slotQuota := 0, segs := [], faultq := [],
    notify := false, filling := [] }

/-- Partition `p`. -/
def partOf (s : State) (p : Nat) : Partition :=
  mgetD s.host.parts p noPartition

def setPart (s : State) (p : Nat) (x : Partition) : State :=
  { s with host := { s.host with parts := mset s.host.parts p x } }
def setCtx (s : State) (k : Nat) (x : Ctx) : State :=
  { s with host := { s.host with ctxs := mset s.host.ctxs k x } }
def setFence (s : State) (k : Nat) (x : Fence) : State :=
  { s with host := { s.host with fences := mset s.host.fences k x } }
def setEvent (s : State) (k : Nat) (x : Event) : State :=
  { s with host := { s.host with events := mset s.host.events k x } }
def setMemObj (s : State) (k : Nat) (x : MemObj) : State :=
  { s with host := { s.host with memObjs := mset s.host.memObjs k x } }
def setRing (s : State) (k : Nat) (x : Ring) : State :=
  { s with host := { s.host with rings := mset s.host.rings k x } }
def setKill (s : State) (k : Nat) (x : Kill) : State :=
  { s with host := { s.host with kills := mset s.host.kills k x } }

/-- Work `wid` has completed with `code`; the first code stays (10 R419). -/
def finish (s : State) (wid code : Nat) : State :=
  if (mget s.host.finished wid).isSome then s
  else { s with host := { s.host with finished := mset s.host.finished wid code } }

/-- A timer of `t` nanoseconds started at DTIME `start` is due (01 R31: it expires no earlier than its value). -/
def due (s : State) (start t : Nat) : Bool :=
  t ≤ (s.dtime + 2 ^ 64 - start % 2 ^ 64) % 2 ^ 64

/-! Error records. -/

/-- `n` detail bytes: the given ones, then zeros. -/
def padTo (n : Nat) (bs : List Byte) : List Byte :=
  (bs ++ zeroBytes n).take n

/-- The 64 bytes of an error record (11 R483). -/
def recBytes (r : ErrRec) : List Byte :=
  leBytes 2 r.code ++ leBytes 2 r.engine ++ leBytes 1 r.part ++ leBytes 1 r.flags ++ leBytes 2 r.slot ++ leBytes 4 r.ring ++
    leBytes 4 0 ++ leBytes 8 r.entry ++ leBytes 8 r.fault ++ leBytes 8 r.dtime ++ padTo 24 r.detail

/-- The notification of partition `p`'s fault queue: sent when it is armed and enabled, and then disarmed (11 R488). -/
def notifyFaultq (s : State) (p : Nat) : State :=
  if (partOf s p).notify then
    let s1 := setPart s p { partOf s p with notify := false }
    if rdF s1 (pkey p Reg.faultqCtl) 11 11 = 1 then sendMsix s1 p (rdF s1 (pkey p Reg.faultqCtl) 10 0) else s1
  else s

/-- The queue of partition `p` holds 256 records (11 R486). -/
def faultqFull (s : State) (p : Nat) : Bool :=
  (rdF s (pkey p Reg.faultqHead) 31 0 + 2 ^ 32 - rdF s (pkey p Reg.faultqTail) 31 0) % 2 ^ 32 = 256

/-- Appends a record to its partition's fault queue, or drops and counts it (11 R486). -/
def appendRec (s : State) (r : ErrRec) : State :=
  let p := r.part
  let h := rdF s (pkey p Reg.faultqHead) 31 0
  if faultqFull s p then
    notifyFaultq (bump32 s (pkey p Reg.faultqOverflowCount) (pkey p Reg.faultqStatus) 0 1) p
  else
    let s1 := setPart s p { partOf s p with faultq := mset (partOf s p).faultq (h % 256) (recBytes r) }
    notifyFaultq (wr s1 (pkey p Reg.faultqHead) (BitVec.ofNat 64 ((h + 1) % 2 ^ 32))) p

/-- The flag INFO of a record (11 R484). -/
abbrev flagInfo : Nat := 2
/-- The flag KILL of a record (11 R484). -/
abbrev flagKill : Nat := 1

/-- A record of no context: slot 0xFFFF, ring 0xFFFF_FFFF, entry 0 (09 R355, R376). -/
def plainRec (s : State) (code engine part flags fault : Nat) (detail : List Byte) : ErrRec :=
  { code := code, engine := engine, part := part, flags := flags, slot := 0xFFFF, ring := 0xFFFFFFFF, entry := 0,
    fault := fault, dtime := s.dtime, detail := detail }

/-- The slot of a context, or 0xFFFF (11 R483). -/
def slotOf (s : State) (k : Nat) : Nat :=
  match mget s.host.ctxs k with
  | some c => c.slot.getD 0xFFFF
  | none => 0xFFFF

/-- A record of work (11 R483). -/
def workRec (s : State) (o : Origin) (code engine flags fault : Nat) (detail : List Byte) : ErrRec :=
  { code := code, engine := engine, part := o.part, flags := flags, slot := slotOf s o.ctx, ring := o.ring,
    entry := o.entry, fault := fault, dtime := s.dtime, detail := detail }

/-- A record of this code, INFO clear, kills its context (11 R477, 14 R597). -/
def killing (code : Nat) : Bool :=
  (0x0101 ≤ code && code ≤ 0x0106) || (0x0200 ≤ code && code ≤ 0x02FF) || code = 0x0305 ||
    (0x0501 ≤ code && code ≤ 0x0504)

abbrev tyCtx : Nat := 1
abbrev tyFence : Nat := 2
abbrev tyEvent : Nat := 3
abbrev tyMem : Nat := 4
abbrev tyModel : Nat := 5

/-- The key of an object: its partition and index (11 R444). -/
def okey (p idx : Nat) : Nat :=
  p * 65536 + idx

/-- The handle of an object (11 R444). -/
def mkHandle (ty k gen : Nat) : Nat :=
  k % 65536 + k / 65536 % 32 * 65536 + ty * 2 ^ 21 + gen * 2 ^ 24

/-- Step K1 of a kill (11 R478): the context becomes KILLED; its records are collected until K2. -/
def killCtx (s : State) (k : Nat) (cause : Option Nat) (recs : List ErrRec) : State :=
  match mget s.host.ctxs k with
  | some c =>
    if c.live then
      setKill (setCtx s k { c with live := false }) k
        { since := s.dtime, handle := mkHandle tyCtx k c.gen, cause := cause, slot := slotOf s k, recs := recs, stopped := false, retiredAll := false,
          first := none, nRetired := 0, nFences := 0 }
    else
      match mget s.host.kills k with
      | some q => if q.stopped then s else setKill s k { q with recs := q.recs ++ recs }
      | none => s
  | none => s

/-- Raises a condition of work: a killing record joins the kill of the context, any other record is appended
(11 R477, R479). -/
def raise (s : State) (o : Origin) (code engine fault : Nat) (detail : List Byte) : State :=
  if killing code then killCtx s o.ctx none [workRec s o code engine 0 fault detail]
  else appendRec s (workRec s o code engine 0 fault detail)

/-- Raises a condition and completes the work with its code (10 R419: an entry that fails retires at once). -/
def failWork (s : State) (o : Origin) (code engine fault : Nat) (detail : List Byte) : State :=
  finish (raise s o code engine fault detail) o.wid code

/-! Handles and references (11 R444 to R454). -/

/-- The key that a handle names: INDEX and PARTITION (11 R444). -/
def hKey (h : Nat) : Nat :=
  okey (bitsN h 20 16) (bitsN h 15 0)

/-- The handle is of type `ty` and of partition `p`. -/
def hIs (h ty p : Nat) : Bool :=
  bitsN h 23 21 = ty && bitsN h 20 16 = p

/-- The live context of partition `p` that a handle names. -/
def findCtx (s : State) (p h : Nat) : Option Ctx :=
  match mget s.host.ctxs (hKey h) with
  | some c => if hIs h tyCtx p && c.gen = bitsN h 31 24 then some c else none
  | none => none

/-- The live fence of partition `p` that a handle names. -/
def findFence (s : State) (p h : Nat) : Option Fence :=
  match mget s.host.fences (hKey h) with
  | some f => if hIs h tyFence p && f.gen = bitsN h 31 24 then some f else none
  | none => none

/-- The live event of partition `p` that a handle names. -/
def findEvent (s : State) (p h : Nat) : Option Event :=
  match mget s.host.events (hKey h) with
  | some e => if hIs h tyEvent p && e.gen = bitsN h 31 24 then some e else none
  | none => none

/-- The live memory object of partition `p` that a handle names. -/
def findMemObj (s : State) (p h : Nat) : Option MemObj :=
  match mget s.host.memObjs (hKey h) with
  | some m => if hIs h tyMem p && m.gen = bitsN h 31 24 then some m else none
  | none => none

/-- HOST_REFS: the sum of the owners' references (11 R453). -/
def hostRefs (r : Refs) : Nat :=
  (r.host.map (fun e => e.2)).foldl (· + ·) 0

/-- No reference is left (11 R454). -/
def refsNone (r : Refs) : Bool :=
  hostRefs r = 0 && r.dev = 0

/-- One more device reference. -/
def refsTake (r : Refs) : Refs :=
  { r with dev := r.dev + 1 }

/-- One device reference less. -/
def refsDrop (r : Refs) : Refs :=
  { r with dev := r.dev - 1 }

/-- The generation that a slot takes at its next use: from 1, modulo 2^8, skipping 0 (11 R444). -/
def nextGen (s : State) (ty k : Nat) : Nat :=
  let g := mgetD s.host.gens (ty * 2 ^ 21 + k) 0
  if g = 255 then 1 else g + 1

/-- Records the generation assigned to a slot. -/
def setGen (s : State) (ty k g : Nat) : State :=
  { s with host := { s.host with gens := mset s.host.gens (ty * 2 ^ 21 + k) g } }

/-- A freed fence loses its value (11 R454). -/
def freeFence (s : State) (k : Nat) : State :=
  match mget s.host.fences k with
  | some f => if refsNone f.refs then { s with host := { s.host with fences := mdel s.host.fences k } } else s
  | none => s

/-- A freed memory object (11 R454). -/
def freeMemObj (s : State) (k : Nat) : State :=
  match mget s.host.memObjs k with
  | some m => if refsNone m.refs then { s with host := { s.host with memObjs := mdel s.host.memObjs k } } else s
  | none => s

/-- A new exported fence takes the references of the imports that cover its slot (14 R596). -/
def importFence (s : State) (k : Nat) : State :=
  match mget s.host.fences k with
  | some f =>
    if f.exported then
      let n := (s.link.imports.filter (fun m => importCovers m (fenceSlot k) 16)).length
      let s1 := setFence s k { f with refs := { f.refs with dev := f.refs.dev + n } }
      setLink s1 { s1.link with imports := s1.link.imports.map (fun m =>
        if importCovers m (fenceSlot k) 16 then { m with fences := m.fences ++ [k] } else m) }
    else s
  | none => s

/-- Takes a device reference to a fence. -/
def holdFence (s : State) (k : Nat) : State :=
  match mget s.host.fences k with
  | some f => setFence s k { f with refs := refsTake f.refs }
  | none => s

/-- Drops a device reference to a fence, and frees it when none is left. -/
def dropFence (s : State) (k : Nat) : State :=
  match mget s.host.fences k with
  | some f => freeFence (setFence s k { f with refs := refsDrop f.refs }) k
  | none => s

/-- A freed event writes nothing more and drops its fence (11 R453, R454). -/
def freeEvent (s : State) (k : Nat) : State :=
  match mget s.host.events k with
  | some e =>
    if refsNone e.refs then dropFence { s with host := { s.host with events := mdel s.host.events k } } e.fence else s
  | none => s

/-- Drops the translations of a table (08 R323). -/
def dropTable (s : State) (t : TableId) : State :=
  { s with mem := { s.mem with
      xsets := mmap s.mem.xsets (fun _ l => l.filter (fun e => e.table != t)),
      walks := mmap s.mem.walks (fun _ l => l.filter (fun w => w.table != t)) } }

/-- A freed context gives up its slot, its saved state and its segment table (11 R454), whose PEER segments are released
(14 R596). One that is being killed is freed once its kill has ended (DESIGN CHOICE: log 53). -/
def freeCtx (s : State) (k : Nat) : State :=
  match mget s.host.ctxs k with
  | some c =>
    if refsNone c.refs && (mget s.host.kills k).isNone then
      releaseSegs (dropTable { s with host := { s.host with ctxs := mdel s.host.ctxs k } } (.ctx k)) (k / 65536) c.segs
    else s
  | none => s

/-- Takes a device reference to a context. -/
def holdCtx (s : State) (k : Nat) : State :=
  match mget s.host.ctxs k with
  | some c => setCtx s k { c with refs := refsTake c.refs }
  | none => s

/-- Drops a device reference to a context, and frees it when none is left. -/
def dropCtx (s : State) (k : Nat) : State :=
  match mget s.host.ctxs k with
  | some c => freeCtx (setCtx s k { c with refs := refsDrop c.refs }) k
  | none => s

/-! Fences and events (11 R462 to R472). -/

/-- Fence value `f` has reached `v` (11 R462). -/
def reached (f v : Word) : Bool :=
  (f - v).toNat < 2 ^ 63

/-- The 16-byte mirror record (11 R470). -/
def mirrorBytes (f : Fence) : List Byte :=
  leBytes 8 f.value.toNat ++ leBytes 2 (f.err.getD 0) ++ zeroBytes 6

/-- Writes the mirror record of a fence that has one (11 R470). -/
def writeMirror (s : State) (k : Nat) : State :=
  match mget s.host.fences k with
  | some f => if f.mirror = 0 then s else emit s (.hostWrite (k / 65536) f.mirror (mirrorBytes f))
  | none => s

/-- An event fires with a code (11 R472): its record is written, then its message is sent, and it stays disarmed. -/
def fireEvent (s : State) (k : Nat) (e : Event) (code : Nat) : State :=
  let v := match mget s.host.fences e.fence with
    | some f => f.value.toNat
    | none => 0
  let n := (e.firings + 1) % 2 ^ 32
  let s1 := setEvent s k { e with armed := false, firings := n }
  let s2 := emit s1 (.hostWrite (k / 65536) e.record
    (leBytes 8 v ++ leBytes 8 s.dtime ++ leBytes 2 code ++ zeroBytes 2 ++ leBytes 4 n ++ zeroBytes 8))
  if e.msiEn then sendMsix s2 (k / 65536) e.vector else s2

/-- An armed event fires when its fence has reached its value, or is errored without having reached it (11 R471). -/
def judgeEvent (s : State) (k : Nat) : State :=
  match mget s.host.events k with
  | none => s
  | some e =>
    match mget s.host.fences e.fence with
    | none => s
    | some f =>
      if ! e.armed then s
      else if reached f.value e.value then fireEvent s k e Cond.ok
      else match f.err with
        | some c => fireEvent s k e c
        | none => s

/-- Every event of a fence is judged, in table order. -/
def judgeEvents (s : State) (fence : Nat) : State :=
  (s.host.events.filter (fun e => e.2.fence = fence)).foldl (fun s e => judgeEvent s e.1) s

/-- A regression (11 R464): counted in the fence's partition, with one record between two advances. -/
def regress (s : State) (k : Nat) (f : Fence) (v : Word) (engine : Nat) : State :=
  let p := k / 65536
  let s1 := bump32 s (pkey p Reg.objFenceRegressCount) (pkey p Reg.faultqStatus) 1 1
  if f.regressRec then s1
  else
    let s2 := setFence s1 k { f with regressRec := true }
    appendRec s2 (plainRec s Cond.fenceRegress engine p flagInfo 0
      (leBytes 4 (mkHandle tyFence k f.gen) ++ zeroBytes 4 ++ leBytes 8 v.toNat ++ leBytes 8 f.value.toNat))

/-- A normal signal of value `v` to fence `k` (11 R463, R467). -/
def signalFence (s : State) (k : Nat) (v : Word) (engine : Nat) : State :=
  match mget s.host.fences k with
  | none => s
  | some f =>
    if f.err.isSome then s
    else if v = f.value then s
    else if (v - f.value).toNat < 2 ^ 63 then
      judgeEvents (writeMirror (setFence s k { f with value := v, regressRec := false }) k) k
    else regress s k f v engine

/-- A signal that carries an error (11 R467): the first error stays, the value is kept. -/
def errorFence (s : State) (k : Nat) (code : Nat) : State :=
  match mget s.host.fences k with
  | none => s
  | some f =>
    if f.err.isSome then s
    else judgeEvents (writeMirror (setFence s k { f with err := some code }) k) k

end Sys2Proof.Machine
end

