-- ==== Sys2Proof/Machine/PowerBase.lean ====
section
/-! DEFINITION. What other parts of the device do to the power state: the aborts of a requested entry (15 R616, R617), the return from
A1 (15 R611), and the halt of fetching (15 R618). -/
namespace Sys2Proof.Machine

/-! Pins, as `Output.pin` names them (17 R680). -/

/-- THERMTRIP# (17 R697). -/
abbrev pinThermtrip : Nat := 0
/-- WAKE# (15 R619). -/
abbrev pinWake : Nat := 1
/-- GPIO0 to GPIO7 (15 R632). -/
abbrev pinGpio (n : Nat) : Nat := 8 + n

/-- The state with power replaced. -/
def setPower (s : State) (x : PowerSt) : State :=
  { s with power := x }

/-- PWR_STATUS.STATE: 0 to 4 for A0 to A4 (15 R634). -/
def pwrState (s : State) : Nat :=
  rdF s Reg.pwrStatus 2 0

def setPwrState (s : State) (n : Nat) : State :=
  wrF s Reg.pwrStatus 2 0 n

/-- The result of a request: RESULT, PARTY and REFUSERS, with REQ cleared (15 R617, R634). -/
def pwrResult (s : State) (result party refusers : Nat) : State :=
  wrF (wrF (wrF (wrF s Reg.pwrStatus 4 3 result) Reg.pwrStatus 8 5 party) Reg.pwrStatus 24 9 refusers) Reg.pwrCtl 31 31 0

/-- A party aborts an entry that has not reached E4 (15 R616 to R618). -/
def abortEntry (s : State) (party : Nat) : State :=
  match s.power.req with
  | some r =>
    if r.commitAt.isNone then
      bump32 (pwrResult (setPower s { s.power with req := none }) 3 party 0) (Reg.pwrAbortCount party) Reg.pwrCountStatus (16 + party) 1
    else s
  | none => s

/-- The device returns to A0 from A1 (15 R611). -/
def leaveA1 (s : State) : State :=
  if pwrState s = 1 then setPower (setPwrState s 0) { s.power with idleSince := none } else s

/-- A request of the host arrives over PCIe: it ends A1, and aborts an entry (15 R611, R616 party 6). -/
def hostTouch (s : State) : State :=
  leaveA1 (abortEntry s 6)

/-- Fetching is stopped: by a request from E2 on, and outside A0 and A1 (15 R618). -/
def fetchHalted (s : State) : Bool :=
  s.power.req.isSome || 2 ≤ pwrState s

end Sys2Proof.Machine
end

