-- ==== Sys2Proof/Machine/Blocks.lean ====
section
/-! DEFINITION. What a hang capture holds (11 R492, R493): the engine blocks, the ring entry and its descriptor, as they stand at
the trigger. -/
namespace Sys2Proof.Machine

/-- The identifiers of every engine, in increasing order (00 R13). -/
def allEngines : List Nat :=
  List.range 64 ++ (List.range 64).map (0x100 + ·) ++ (List.range 8).map (0x200 + ·) ++ (List.range 2).map (0x300 + ·) ++
    (List.range 2).map (0x400 + ·) ++ (List.range 4).map (0x500 + ·) ++ (List.range 4).map (0x600 + ·) ++
    (List.range 24).map (0x700 + ·) ++ [0x800, 0x900, 0xA00]

/-- Work of a partition that is no ring entry's. -/
def partOrigin (p : Nat) : Origin :=
  { wid := 0, part := p, ctx := 2 ^ 32, ring := 0xFFFFFFFF, entry := 0 }

/-- The runs that an array holds, with their items. -/
def arrayRuns (s : State) (n : Nat) : List (TRun × TItem) :=
  (mgetD s.core.queues n []).filterMap (fun r => (mget s.core.items r.item).map (fun x => (r, x)))

/-- Entries in flight of every ring, by partition: the work of the Gantry. -/
def gantryWork (s : State) : List Origin :=
  s.host.rings.flatMap (fun r => (r.2.entries.filter (fun e => e.step = .work)).map (fun e =>
    { wid := e.wid, part := r.1 / 1024, ctx := r.2.ctx, ring := r.1 % 1024, entry := e.addr }))

/-- The work that an engine holds, as its origins, with the count of its progress where the state keeps one (11 R493). -/
def engineWork (s : State) (e : Nat) : List (Origin × Option Nat) :=
  let i := e % 256
  match e / 256 with
  | 0 => match mget s.core.cores i with
    | some c => c.wgs.map (fun w => (w.org, none)) ++ c.tiles.filterMap (fun t => (mget s.raster.passes t.pass).map (fun p => (p.org, none)))
    | none => []
  | 1 => (arrayRuns s i).map (fun x => (x.2.org, some x.1.k))
  | 2 => (s.raster.passes.filter (fun p => (mget p.2.units i).isSome && ! p.2.savedUnits.any (fun u => u.1 = i))).map
      (fun p => (p.2.org, (mget p.2.units i).map (fun b => b.made)))
  | 3 => if (lget s.heads i noHead).enabled then [(partOrigin (rdF s (Reg.dressHeadCtl i) 21 17), some (lget s.heads i noHead).line)] else []
  | 4 => (s.sched.crush.filter (fun o => o.both || o.engine = i)).map (fun o => (o.org, some o.inPos))
  | 5 => (mgetD s.sched.copies i []).map (fun o => (o.org, some o.pos))
  | 6 => (s.link.reqs.filter (fun q => q.2.port = some i)).map (fun q => (q.2.org, none))
  | 7 => match mget s.marks i with
    | some u => if u.queue.isEmpty && u.pieces.isEmpty then [] else [(partOrigin (rdF s (Reg.markGrant i) 4 0), none)]
    | none => []
  | 8 => (gantryWork s).map (fun o => (o, none))
  | 9 => if s.sec.op.isSome then [(partOrigin 0, none)] else []
  | _ => []

/-- The engine is out of service (01 R21, 09 R375, 11 R490, 14 R586, 15 R633). -/
def engineAbsent (s : State) (e : Nat) : Bool :=
  let i := e % 256
  s.sched.resetting.contains e ||
    (match e / 256 with
      | 0 => ! (rd s Reg.cfgnetCoreLive).getLsbD i
      | 1 => ! (rd s Reg.cfgnetCoreLive).getLsbD i
      | 6 => portState s i ≠ portUp
      | 10 => s.wb.resetAt.isSome
      | _ => false)

/-- Bytes 40 to 63 of the block of a core: module handle, word offset of the current set of the oldest resident group, and resident groups
of that context. -/
def coreBlock (s : State) (n : Nat) (o : Origin) : List Byte :=
  match (mget s.core.cores n).map (fun c => c.wgs.filter (fun w => w.org.ctx = o.ctx)) with
  | some (w :: r) =>
    let gs := (w :: r).flatMap (fun x => x.groups)
    let gen := ((mget s.core.modules w.modKey).map (fun m => m.gen)).getD 0
    leBytes 4 (w.modKey % 4096 + w.modKey / 4096 % 32 * 4096 + gen * 2 ^ 17) ++
      leBytes 4 ((gs.head?.map (fun g => g.cur.pc)).getD 0) ++ leBytes 2 gs.length
  | _ => []

/-- Bytes 40 to 63 of the block of an array: descriptor address, tile and K-step. -/
def tensorBlock (s : State) (n : Nat) (o : Origin) : List Byte :=
  match (arrayRuns s n).find? (fun x => x.2.org = o) with
  | some (r, it) => leBytes 8 it.descAddr ++ leBytes 4 r.tile ++ leBytes 4 r.k
  | none => []

/-- The block of an engine for partition `p`, 64 B (11 R493). `hung` is the engine that does not respond; the counts that the state does
not keep are free values by `x` (DESIGN CHOICE: log 52). -/
def engineBlock (s : State) (p x : Nat) (hung : Option Nat) (e : Nat) : List Byte :=
  let l := engineWork s e
  let short := fun (st : Nat) => padTo 64 (leBytes 2 e ++ leBytes 1 st)
  if hung = some e then short 4
  else match l.find? (fun w => w.1.part = p) with
    | some (o, n) =>
      let more := if e < 256 then coreBlock s (e % 256) o else if e < 512 then tensorBlock s (e % 256) o else []
      padTo 64 (leBytes 2 e ++ leBytes 1 1 ++ zeroBytes 1 ++ leBytes 2 (slotOf s o.ctx) ++ zeroBytes 2 ++ leBytes 4 o.ring ++ zeroBytes 4 ++
        leBytes 8 o.entry ++ leBytes 8 (n.getD (Config.freeNat (x + 2 * e))) ++ leBytes 8 (Config.freeNat (x + 2 * e + 1)) ++ more)
    | none => if l ≠ [] then short 2 else if engineAbsent s e then short 3 else short 0

/-- The ring entry that a record names, with its descriptor as patched. -/
def capturedEntry (s : State) (r : ErrRec) : List Byte :=
  match (mget s.host.rings (r.part * 1024 + r.ring)).bind (fun q => q.entries.find? (fun e => e.addr = r.entry)) with
  | some e => padTo 64 e.bytes ++ padTo 128 e.desc
  | none => zeroBytes 192

/-- A trigger is counted, and its capture, as every engine stands now, waits to be written (11 R490, R491). -/
def triggerCapture (s : State) (key : Nat) (r : ErrRec) (hung : Option Nat) : State :=
  let (x, s1) := draw s
  let c : Capture := { part := r.part, record := r, rest := capturedEntry s r ++ allEngines.flatMap (engineBlock s r.part x hung) }
  bump32 { s1 with host := { s1.host with captures := mset s1.host.captures key c } } Reg.objHangCount Reg.objDevStatus 2 1

/-- The key under which FATAL's capture waits. -/
abbrev fatalKey : Nat := 32

end Sys2Proof.Machine
end

