-- ==== Sys2Proof/Machine/PageCode.lean ====
section
/-! DEFINITION. The page code (09 R346 to R353): arithmetic in GF(2^16), the parity of a page, sector checks, and what a full
decode of a page ends with. -/
namespace Sys2Proof.Machine

/-- Doubling in GF(2^16) with the primitive polynomial 0x1_100B (09 R346). -/
def gfDouble (a : Nat) : Nat :=
  if a < 32768 then 2 * a else Nat.xor (2 * a) 0x1100B

/-- The product in GF(2^16) by the low `n` bits of `b`. -/
def gfMulBits (n a b : Nat) : Nat :=
  match n with
  | 0 => 0
  | n + 1 => Nat.xor (if b % 2 = 1 then a else 0) (gfMulBits n (gfDouble a) (b / 2))

/-- The product in GF(2^16) (09 R346). -/
def gfMul (a b : Nat) : Nat :=
  gfMulBits 16 a b

/-- The power α^n of the primitive element 2. -/
def gfPow (n : Nat) : Nat :=
  match n with
  | 0 => 1
  | n + 1 => gfDouble (gfPow n)

/-- A polynomial times (x − r), coefficients from the highest power. -/
def polyMulRoot (g : List Nat) (r : Nat) : List Nat :=
  List.zipWith Nat.xor (g ++ [0]) (0 :: g.map (fun c => gfMul c r))

/-- The generator polynomial (x − α^1) … (x − α^n), from the highest power (09 R346). -/
def genPoly (n : Nat) : List Nat :=
  match n with
  | 0 => [1]
  | n + 1 => polyMulRoot (genPoly n) (gfPow (n + 1))

/-- One step of the division by g: the remainder register `r` takes the message symbol `m`. -/
def parityStep (g r : List Nat) (m : Nat) : List Nat :=
  let fb := Nat.xor m (r.headD 0)
  List.zipWith (fun a c => Nat.xor a (gfMul fb c)) (r.tail ++ [0]) g

/-- The parity symbols q_0 to q_(2t−1) of a message (09 R347). -/
def parity (t : Nat) (msg : List Nat) : List Nat :=
  msg.foldl (parityStep (genPoly (2 * t)).tail) (List.replicate (2 * t) 0)

/-- The number of symbols that strength `s` corrects (09 R346). -/
def tOf (s : Nat) : Nat :=
  12 * (s + 1)

/-- One bit of the sector check's shift register (09 R351). -/
def checkBit (c : Nat) : Nat :=
  if bitN c 15 then Nat.xor (2 * c % 65536) 0x8BB7 else 2 * c % 65536

/-- The sector check of 64 bytes at memory address `mem` (09 R351). -/
def sectorCheck (data : List Byte) (mem : Nat) : Nat :=
  let c := data.foldl (fun c b =>
    checkBit (checkBit (checkBit (checkBit (checkBit (checkBit (checkBit (checkBit
      (Nat.xor c (b.toNat * 256)))))))))) 0xFFFF
  Nat.xor (Nat.xor c (bitsN mem 21 6)) (bitsN mem 36 22)

/-- The 16-bit symbols that pairs of bytes spell, low byte first (09 R347). -/
def symbols (bs : List Byte) : List Nat :=
  match bs with
  | a :: b :: r => (a.toNat + 256 * b.toNat) :: symbols r
  | [a] => [a.toNat]
  | [] => []

/-- The bytes of symbols, low byte first. -/
def symBytes (l : List Nat) : List Byte :=
  l.flatMap (fun x => leBytes 2 x)

/-- The 256 sideband bytes that a page's checks and data have at strength `s` (09 R347, R348). -/
def sideband (s : Nat) (data : List Byte) (checks : List Nat) : List Byte :=
  symBytes (parity (tOf s) (symbols data ++ checks)) ++ zeroBytes (192 - 4 * tOf s) ++ symBytes checks

/-- The true checks of the 32 sectors of a page at memory address `mem` (09 R351). -/
def trueChecks (data : List Byte) (mem : Nat) : List Nat :=
  (List.range 32).map (fun k => sectorCheck (slice data (64 * k) 64) (mem + 64 * k))

/-- The symbol of the codeword that byte `i` of a stored page belongs to, or none for an ignored byte (09 R347, R348). -/
def symbolOf (t i : Nat) : Option Nat :=
  if i < 2048 then some (i / 2)
  else if i < 2048 + 4 * t then some (1056 + (i - 2048) / 2)
  else if i < 2240 then none
  else if i < 2304 then some (1024 + (i - 2240) / 2)
  else none

/-- The symbols in error in a list of byte errors, each once (09 R353). -/
def errSymbols (t : Nat) (err : Map Byte) : List Nat :=
  (err.filterMap (fun e => if e.2 = 0 then none else symbolOf t e.1)).eraseDups

/-- The value of the error polynomial at α^i: symbol j of the codeword has power 1,055 + 2t − j for a message symbol and
2t − 1 − (j − 1,056) for a parity symbol (09 R347). -/
def syndrome (t i : Nat) (err : Map Byte) : Nat :=
  err.foldl (fun a e =>
    match symbolOf t e.1 with
    | none => a
    | some j =>
      let pw := if j < 1056 then 1055 + 2 * t - j else 2 * t - 1 - (j - 1056)
      let v := if e.1 % 2 = 0 then e.2.toNat else 256 * e.2.toNat
      Nat.xor a (gfMul v (gfPow (i * pw % 65535)))) 0

/-- Every syndrome of the error pattern is zero: it is itself a codeword (09 R347). -/
def isCodeword (t : Nat) (err : Map Byte) : Bool :=
  (List.range (2 * t)).all (fun i => syndrome t (i + 1) err = 0)

/-- The exclusive-or of two byte patterns. -/
def xorErr (a b : Map Byte) : Map Byte :=
  b.foldl (fun m e => msetD m e.1 (mgetD m e.1 0 ^^^ e.2) 0) a

/-- What a full decode of a page finds (09 R353): nothing wrong; a pattern of at most t symbols, corrected; or too many. -/
inductive Decode where
  | clean
  | corrected (pattern : Map Byte) (n : Nat)
  | failed
  deriving DecidableEq, Repr

/-- The decoder at t symbols. A pattern of at most t symbols is found exactly. Beyond t the decoder fails, unless it assumes
some other pattern of at most t symbols that differs from the stored one by a codeword (09 R353, log 12). -/
def decodePage (t : Nat) (err : Map Byte) : Decode :=
  let n := (errSymbols t err).length
  if n = 0 then .clean
  else if n ≤ t then .corrected (err.filter (fun e => (symbolOf t e.1).isSome)) n
  else match Config.beyondT err with
    | some e =>
      if (errSymbols t e).length ≤ t && 0 < (errSymbols t e).length && isCodeword t (xorErr err e) then
        .corrected e (errSymbols t e).length
      else .failed
    | none => .failed

/-! The decoder itself, for a page whose stored bits are given outright (09 R353, R368): Berlekamp and Massey's locator, its
roots, and Forney's values. -/

/-- The inverse in GF(2^16): the power 2^16 − 2, by `n` squarings. -/
def gfInvFrom (n a r : Nat) : Nat :=
  match n with
  | 0 => r
  | n + 1 => gfInvFrom n (gfMul a a) (gfMul r (gfMul a a))

def gfInv (a : Nat) : Nat :=
  gfInvFrom 15 a 1

/-- The sum of two polynomials, lowest power first. -/
def polyAdd (a b : List Nat) : List Nat :=
  match a, b with
  | [], b => b
  | a, [] => a
  | x :: a, y :: b => Nat.xor x y :: polyAdd a b

/-- A polynomial times a constant. -/
def polyScale (a : List Nat) (k : Nat) : List Nat :=
  a.map (fun x => gfMul x k)

/-- The value of a polynomial, lowest power first. -/
def polyEval (a : List Nat) (x : Nat) : Nat :=
  a.foldr (fun c r => Nat.xor c (gfMul r x)) 0

/-- The product of two polynomials. -/
def polyMul (a b : List Nat) : List Nat :=
  match a with
  | [] => []
  | x :: a => polyAdd (polyScale b x) (0 :: polyMul a b)

/-- The state of the search for the error locator. -/
structure Locator where
  c : List Nat
  b : List Nat
  l : Nat
  m : Nat
  d : Nat
  deriving DecidableEq, Repr

/-- One step of the search, with the syndromes so far, the latest first. -/
def locStep (q : Locator) (n : Nat) (syn : List Nat) : Locator :=
  let d := (q.c.zip syn).foldl (fun a e => Nat.xor a (gfMul e.1 e.2)) 0
  if d = 0 then { q with m := q.m + 1 }
  else
    let c := polyAdd q.c (List.replicate q.m 0 ++ polyScale q.b (gfMul d (gfInv q.d)))
    if 2 * q.l ≤ n then { c := c, b := q.c, l := n + 1 - q.l, m := 1, d := d } else { q with c := c, m := q.m + 1 }

/-- The error locator of a list of syndromes. -/
def locator (todo seen : List Nat) (n : Nat) (q : Locator) : Locator :=
  match todo with
  | [] => q
  | x :: r => locator r (x :: seen) (n + 1) (locStep q n (x :: seen))

/-- The power of symbol j of the codeword (09 R347). -/
def symPower (t j : Nat) : Nat :=
  if j < 1056 then 1055 + 2 * t - j else 2 * t - 1 - (j - 1056)

/-- The first byte of symbol j of the codeword in the stored page (09 R348). -/
def symByte (j : Nat) : Nat :=
  if j < 1024 then 2 * j else if j < 1056 then 2240 + 2 * (j - 1024) else 2048 + 2 * (j - 1056)

/-- The pattern of at most t symbols by which a stored page differs from a codeword, if there is one: `err` is its difference
from any codeword. -/
def nearest (t : Nat) (err : Map Byte) : Option (Map Byte) :=
  let syn := (List.range (2 * t)).map (fun i => syndrome t (i + 1) err)
  if syn.all (· == 0) then some []
  else
    let q := locator syn [] 0 { c := [1], b := [1], l := 0, m := 1, d := 1 }
    let omega := (polyMul syn q.c).take (2 * t)
    let deriv := (q.c.drop 1).zip (List.range (q.c.length - 1)) |>.map (fun e => if e.2 % 2 = 0 then e.1 else 0)
    let hits := (List.range (1056 + 2 * t)).filterMap (fun j =>
      let xi := gfPow ((65535 - symPower t j) % 65535)
      if polyEval q.c xi = 0 then some (j, gfMul (polyEval omega xi) (gfInv (polyEval deriv xi))) else none)
    let pat := hits.foldl (fun m e =>
      msetD (msetD m (symByte e.1) (BitVec.ofNat 8 e.2) 0) (symByte e.1 + 1) (BitVec.ofNat 8 (e.2 / 256)) 0) []
    if hits.length ≤ t && isCodeword t (xorErr err pat) then some pat else none

end Sys2Proof.Machine
end

