-- ==== Sys2Proof/Machine/Dram.lean ====
section
/-! DEFINITION. The stack controllers: the frame remap and placement, fast-path reads, slow-path decodes, sector writes, lost
sectors, and the triggers of frame retirement (08 R299 to R303; 09 R346 to R373). -/
namespace Sys2Proof.Machine

/-- The first memory address of the device-reserved region (08 R299). -/
abbrev reservedBase : Nat := 0x17C0000000
/-- The first address that names no memory (08 R299). -/
abbrev memEnd : Nat := 0x17E0000000

/-- The state with memory replaced. -/
def setMem (s : State) (m : MemSt) : State :=
  { s with mem := m }

/-- A claim; an unlisted one is FREE at strength 3 (09 R362). -/
def claimOf (s : State) (n : Nat) : Claim :=
  mgetD s.mem.claims n { owner := 0, kind := .free, strength := 3, peerMask := 0 }

/-- The page-code strength of a memory address (09 R350). -/
def strengthOf (s : State) (mem : Nat) : Nat :=
  if mem < reservedBase then (claimOf s (mem / 2 ^ 30)).strength else 3

/-- The logical frame of a memory address (08 R301). -/
def frameOf (mem : Nat) : Nat :=
  mem / 2 ^ 21

/-- The physical frame that holds page `i` of a logical frame: the remap, or the spare for the pages a retirement has copied
(08 R301, 09 R372). -/
def physFrame (s : State) (f i : Nat) : Nat :=
  match s.mem.retireQ.head? with
  | some r =>
    match r.toFrame with
    | some q => if r.frame = f && i < r.page then q else mgetD s.mem.remap f f
    | none => mgetD s.mem.remap f f
  | none => mgetD s.mem.remap f f

/-- The physical page of a memory page (mem[36:11]). -/
def physPage (s : State) (page : Nat) : Nat :=
  physFrame s (page / 1024) (page % 1024) * 1024 + page % 1024

/-- The stack, pseudo-channel, bank and row of a physical page (08 R303). -/
def place (p : Nat) : Nat × Nat × Nat × Nat :=
  let g := Nat.xor (p % 128) (p / 128 % 128)
  (g / 32, g % 32, p / 128 % 64, p / 8192)

/-- The stored byte at a byte of a physical page. -/
def rawByte (s : State) (pp i : Nat) : Byte :=
  mgetD s.mem.dram (pp * 2048 + i) 0

/-- The 64 stored bytes of sector `k` of a physical page. -/
def rawSector (s : State) (pp k : Nat) : List Byte :=
  (List.range 64).map (fun i => rawByte s pp (64 * k + i))

/-- The 2,048 stored data bytes of a physical page. -/
def rawPage (s : State) (pp : Nat) : List Byte :=
  (List.range 2048).map (rawByte s pp)

/-- How a physical page differs from a clean codeword. -/
def devOf (s : State) (pp : Nat) : PageDev :=
  mgetD s.mem.pdev pp { err := [], chk := [] }

/-- The state with a page's difference replaced. -/
def setDev (s : State) (pp : Nat) (d : PageDev) : State :=
  setMem s { s.mem with pdev := msetD s.mem.pdev pp d { err := [], chk := [] } }

/-- Stores data bytes at byte `i` of a physical page. -/
def putBytes (s : State) (pp i : Nat) (bs : List Byte) : State :=
  setMem s { s.mem with
    dram := (bs.zip (List.range bs.length)).foldl (fun m e => msetD m (pp * 2048 + i + e.2) e.1 0) s.mem.dram }

/-- The bytes of sector `k` as the page's codeword holds them. -/
def codeSector (s : State) (pp k : Nat) : List Byte :=
  (List.range 64).map (fun i => rawByte s pp (64 * k + i) ^^^ mgetD (devOf s pp).err (64 * k + i) 0)

/-- The error of the stored check of sector `k`. -/
def checkErr (d : PageDev) (k : Nat) : Nat :=
  (mgetD d.err (2240 + 2 * k) 0).toNat + 256 * (mgetD d.err (2241 + 2 * k) 0).toNat

/-- The check stored for sector `k` (09 R348). -/
def storedCheck (s : State) (pp k mem : Nat) : Nat :=
  Nat.xor (Nat.xor (sectorCheck (codeSector s pp k) mem) (mgetD (devOf s pp).chk k 0).toNat) (checkErr (devOf s pp) k)

/-- The sector at memory address `mem` matches its check (09 R352). -/
def sectorMatches (s : State) (mem : Nat) : Bool :=
  let pp := physPage s (mem / 2048)
  let k := mem / 64 % 32
  sectorCheck (rawSector s pp k) (mem / 64 * 64) = storedCheck s pp k (mem / 64 * 64)

/-- Errors that strike the stored bits of a physical page: byte indices as in 09 R348, and the bits that flip. -/
def applyUpset (s : State) (pp : Nat) (ups : List (Nat × Byte)) : State :=
  ups.foldl (fun s u =>
    if u.1 < 2304 then
      let s1 := if u.1 < 2048 then putBytes s pp u.1 [rawByte s pp u.1 ^^^ u.2] else s
      setDev s1 pp { devOf s1 pp with err := msetD (devOf s1 pp).err u.1 (mgetD (devOf s1 pp).err u.1 0 ^^^ u.2) 0 }
    else s) s

/-! Retirement triggers (09 R371, R373). -/

/-- The detail words of a frame record (09 R376). -/
def frameDetail (s : State) (f q reason : Nat) : List Byte :=
  leBytes 2 f ++ leBytes 2 (mgetD s.mem.remap f f) ++ leBytes 2 q ++ leBytes 1 reason ++ zeroBytes 1 ++
    leBytes 4 (mgetD s.mem.frameSyms f 0) ++ leBytes 2 s.mem.pool.length

/-- A trigger that finds no free frame writes one SPARE_EXHAUSTED record for the frame until the next start-up (09 R373). -/
def spareExhausted (s : State) (f reason : Nat) : State :=
  if (mget s.mem.exhausted f).isSome then s
  else appendRec (setMem s { s.mem with exhausted := mset s.mem.exhausted f true })
    (plainRec s Cond.spareExhausted Engine.gantry 0 flagInfo (f * 2 ^ 21) (frameDetail s f 0xFFFF reason))

/-- A trigger of retirement of logical frame `f` (09 R371): ignored where it is queued, retiring or retired. -/
def triggerFrame (s : State) (f reason : Nat) : State :=
  if s.mem.retireQ.any (fun r => r.frame = f) || (mget s.mem.retired f).isSome then s
  else if s.mem.pool = [] then spareExhausted s f reason
  else setMem s { s.mem with
    retireQ := s.mem.retireQ ++ [{ frame := f, reason := reason, toFrame := none, page := 0 }] }

/-- A repair entry waits to be appended to the configuration record (09 R377, 16 R652, R654), once. -/
def addRepair (s : State) (kind loc : Nat) : State :=
  let known := match s.sec.taken.bind (fun i => (s.sec.recs[i]?).join) with
    | some r => r.added.contains (kind, loc) || r.made.contains (kind, loc)
    | none => false
  if known || s.sec.repairs.contains (kind, loc) then s else { s with sec := { s.sec with repairs := s.sec.repairs ++ [(kind, loc)] } }

/-- The location of a page's DRAM row in a repair entry (16 R652). -/
def rowLoc (pp : Nat) : Nat :=
  let pl := place pp
  pl.1 + pl.2.1 * 4 + pl.2.2.1 * 128 + pl.2.2.2 * 8192

/-- Corrected symbols of one decode of a page count toward its frame's threshold, and can trigger (09 R371); four or more put the row
on the repair list (R377). -/
def countSymbols (s0 : State) (page t n : Nat) : State :=
  let f := page / 1024
  let s := if 4 ≤ n then addRepair s0 3 (rowLoc (physPage s0 page)) else s0
  let c := mgetD s.mem.frameSyms f 0 + n
  let s1 := setMem (bump64 s Reg.errDramSymCount Reg.errStatus 4 n)
    { (bump64 s Reg.errDramSymCount Reg.errStatus 4 n).mem with frameSyms := mset s.mem.frameSyms f c }
  if rdF s1 Reg.errThresh 11 0 ≤ c then triggerFrame s1 f 1
  else if (rdF s1 Reg.errThresh 15 12 * t + 7) / 8 ≤ n then triggerFrame s1 f 2
  else s1

/-- The detail words of MEM_UNCORR (09 R354). -/
def uncorrDetail (s : State) (mem outcome : Nat) : List Byte :=
  let pl := place (physPage s (mem / 2048))
  leBytes 1 (strengthOf s mem) ++ leBytes 1 outcome ++ leBytes 1 (mem / 64 % 32) ++ zeroBytes 5 ++
    leBytes 8 (mem / 64 * 64) ++ leBytes 1 pl.1 ++ leBytes 1 pl.2.1 ++ leBytes 1 pl.2.2.1 ++ zeroBytes 1 ++
    leBytes 2 pl.2.2.2

/-- The record of an uncorrectable outcome (09 R355). -/
def uncorrRecord (s : State) (mem outcome : Nat) : ErrRec :=
  plainRec s Cond.memUncorr Engine.gantry 0 flagInfo (mem / 64 * 64) (uncorrDetail s mem outcome)

/-- What stands for the record of a FATAL that has none (16 R672): zeros (DESIGN CHOICE: log 52). -/
def noRecord : ErrRec :=
  { code := 0, engine := 0, part := 0, flags := 0, slot := 0, ring := 0, entry := 0, fault := 0, dtime := 0, detail := [] }

/-- FATAL (09 R357): an uncorrectable read by firmware in the device-reserved region; its capture describes the engines now. -/
def setFatal (s : State) (r : ErrRec) : State :=
  let s1 := wrF s Reg.errStatus 1 1 1
  triggerCapture (sendMsix s1 0 (rdF s1 Reg.errCtl 10 0)) fatalKey r none

/-- An uncorrectable outcome (09 R355, R371): counted, one record for its page in each window, and a trigger. -/
def uncorrNote (s : State) (mem outcome : Nat) : State :=
  let s1 := bump32 s Reg.errDramUncorrCount Reg.errStatus 5 1
  let s2 :=
    if (mget s1.mem.recorded (mem / 2048)).isSome then s1
    else appendRec (setMem s1 { s1.mem with recorded := mset s1.mem.recorded (mem / 2048) true })
      (uncorrRecord s mem outcome)
  triggerFrame s2 (frameOf mem) 3

/-- An uncorrectable outcome of a read: of the device-reserved region it is a read by firmware, and FATAL (09 R357). -/
def uncorrectable (s : State) (mem outcome : Nat) : State :=
  if reservedBase ≤ mem then setFatal (uncorrNote s mem outcome) (uncorrRecord s mem outcome) else uncorrNote s mem outcome

/-! Decodes. -/

/-- A corrected page written back (09 R353): the data loses the pattern, and each stored check is kept as it then reads; `mem`
is the memory address of the page, `t` its strength's number of symbols. -/
def writeBack (s : State) (pp mem t : Nat) (pattern : Map Byte) : State :=
  let d := devOf s pp
  let left := xorErr d.err pattern
  let s1 := pattern.foldl (fun s e => if e.1 < 2048 then putBytes s pp e.1 [rawByte s pp e.1 ^^^ e.2] else s) s
  let s2 := setDev s1 pp { d with err := left }
  -- the codeword reached holds its own checks: no error is left, and each check is judged against the new data
  let chk := (List.range 32).foldl (fun m k =>
    msetD m k (BitVec.ofNat 16 (Nat.xor (storedCheck s2 pp k (mem + 64 * k))
      (sectorCheck (rawSector s2 pp k) (mem + 64 * k)))) 0) []
  setDev s2 pp { err := left.filter (fun e => (symbolOf t e.1).isNone), chk := chk }

/-- What a requested sector of a page gives once the page decodes (09 R353, R359): its data, or outcome 2 where its check is
the complement of its data's check, or 3. -/
def judgeSector (s : State) (pp k : Nat) : SectorData :=
  let c := mgetD (devOf s pp).chk k 0
  if c = 0 then .bytes (rawSector s pp k) else if c = 0xFFFF then .lostTo 2 else .lostTo 3

/-- The data a sector gave. -/
def isBytes (d : SectorData) : Bool :=
  match d with
  | .bytes _ => true
  | .lostTo _ => false

/-- What a full decode of a page gave: the symbols it corrected, whether it found too many, and what each requested sector
gives. -/
structure PageRead where
  symbols : Nat
  failed : Bool
  sectors : List (Nat × SectorData)
  deriving DecidableEq, Repr

/-- A full decode of physical page `pp` at `t` symbols, `mem` its memory address, for some of its sectors; written back where
`back` (09 R353). Nothing is counted here. -/
def decodeFull (s : State) (pp mem t : Nat) (sectors : List Nat) (back : Bool) : State × PageRead :=
  match decodePage t (devOf s pp).err with
  | .clean => (s, { symbols := 0, failed := false, sectors := sectors.map (fun k => (k, judgeSector s pp k)) })
  | .corrected pat n =>
    let w := writeBack s pp mem t pat
    (if back then w else s, { symbols := n, failed := false, sectors := sectors.map (fun k => (k, judgeSector w pp k)) })
  | .failed => (s, { symbols := 0, failed := true, sectors := sectors.map (fun k => (k, .lostTo 1)) })

/-- The first sector that a decode found uncorrectable, with its outcome. -/
def firstLost (l : List (Nat × SectorData)) : Option (Nat × Nat) :=
  l.findSome? (fun e => match e.2 with
    | .bytes _ => none
    | .lostTo o => some (e.1, o))

/-- A slow-path decode of a memory page for some of its sectors (09 R353): what each sector gives, and the state after. -/
def slowDecode (s : State) (page : Nat) (sectors : List Nat) : State × List (Nat × SectorData) :=
  let t := tOf (strengthOf s (page * 2048))
  let s1 := bump64 s Reg.errDramSlowCount Reg.errStatus 3 1
  let (s2, r) := decodeFull s1 (physPage s page) (page * 2048) t sectors true
  let s3 := if r.symbols = 0 then s2 else countSymbols s2 page t r.symbols
  match firstLost r.sectors with
  | none => (s3, r.sectors)
  | some (k, o) => (uncorrectable s3 (page * 2048 + 64 * k) o, r.sectors)

/-- A read of the sector at `mem` (09 R352): the fast path, or the slow path where the check does not match. -/
def readSector (s : State) (mem : Nat) : State × SectorData :=
  let page := mem / 2048
  let k := mem / 64 % 32
  if sectorMatches s mem then (s, .bytes (rawSector s (physPage s page) k))
  else
    match slowDecode s page [k] with
    | (s1, (_, d) :: _) => (s1, d)
    | (s1, []) => (s1, .lostTo 1)

/-- New parity over a page whose stored data is taken as it is; `chk` gives each sector's check difference
(09 R358, R360). -/
def encodeFresh (s : State) (pp : Nat) (chk : Map (BitVec 16)) : State :=
  setDev s pp { err := [], chk := chk }

/-- The sectors other than `k` whose stored data does not match their stored check (09 R360). -/
def badSectors (s : State) (page k : Nat) : List Nat :=
  (List.range 32).filter (fun j => j != k && ! sectorMatches s (page * 2048 + 64 * j))

/-- Counts sectors written as lost (09 R359). -/
def countLost (s : State) (n : Nat) : State :=
  if n = 0 then s else bump32 s Reg.errLostSectorCount Reg.errStatus 6 n

/-- Writes the new data of a sector whose page is good to update: the parity follows the difference, so an error that the
stored page has elsewhere stays where it is (09 R358). -/
def updateSector (s : State) (page k : Nat) (data : List Byte) (complement : Bool) : State :=
  let pp := physPage s page
  let mem := page * 2048 + 64 * k
  let s1 := putBytes s pp (64 * k) data
  let want := Nat.xor (Nat.xor (sectorCheck data mem) (if complement then 0xFFFF else 0)) (checkErr (devOf s1 pp) k)
  setDev s1 pp { devOf s1 pp with
    chk := msetD (devOf s1 pp).chk k (BitVec.ofNat 16 (Nat.xor want (sectorCheck (codeSector s1 pp k) mem))) 0 }

/-- The write of a sector (09 R358 to R361), after which a fill that has read it reads it again; `lost` writes its check complemented (R359). A page that cannot be decoded keeps
the sectors whose stored check matches, and every other sector is written as lost (R360). -/
def writeSector (s : State) (mem : Nat) (data : List Byte) (lost : Bool) : State :=
  let page := mem / 2048
  let k := mem / 64 % 32
  let t := tOf (strengthOf s mem)
  let sf := setMem s { s.mem with filled := mdel s.mem.filled (mem / 64) }
  let s0 := if lost then countLost sf 1 else sf
  if sectorMatches s0 mem then updateSector s0 page k data lost
  else
    let s1 := bump64 s0 Reg.errDramSlowCount Reg.errStatus 3 1
    match decodePage t (devOf s1 (physPage s1 page)).err with
    | .clean => updateSector s1 page k data lost
    | .corrected pat n =>
      updateSector (writeBack (countSymbols s1 page t n) (physPage s page) (page * 2048) t pat) page k data lost
    | .failed =>
      let bad := badSectors s1 page k
      let s2 := uncorrNote (countLost s1 bad.length) mem 1
      let s3 := encodeFresh s2 (physPage s2 page) (bad.map (fun j => (j, 0xFFFF)))
      updateSector s3 page k data lost

end Sys2Proof.Machine
end

