-- ==== Sys2Proof/Machine/Cache.lean ====
section
/-! DEFINITION. The bench caches (08 R328 to R334): the home slice and set of a line, hits, fills, evictions, the eviction
buffers, locks, and reads and writes of memory through them. -/
namespace Sys2Proof.Machine

/-- The slice that is home to a memory address, 4 × bench + slice of the bench (08 R328). -/
def homeSlice (mem : Nat) : Nat :=
  Nat.xor (Nat.xor (Nat.xor (bitsN mem 11 7) (bitsN mem 16 12)) (Nat.xor (bitsN mem 21 17) (bitsN mem 26 22)))
    (Nat.xor (bitsN mem 31 27) (bitsN mem 36 32))

/-- The set of a memory address in its slice (08 R328). -/
def homeSet (mem : Nat) : Nat :=
  Nat.xor (bitsN mem 21 12) (bitsN mem 31 22)

/-- The set of a line address (mem[36:7]) among all slices. -/
def setIdx (la : Nat) : Nat :=
  homeSlice (la * 128) * 1024 + homeSet (la * 128)

/-- The line in way `w` of a set. -/
def wayLine (s : State) (si w : Nat) : Option Line :=
  mget s.mem.lines (si * 16 + w)

/-- The way that holds a line, if its slice holds it. -/
def findWay (s : State) (la : Nat) : Option Nat :=
  (List.range 16).find? (fun w => match wayLine s (setIdx la) w with
    | some l => l.addr = la
    | none => false)

/-- The state with way `w` of a set replaced. -/
def setLine (s : State) (si w : Nat) (l : Line) : State :=
  setMem s { s.mem with lines := mset s.mem.lines (si * 16 + w) l }

/-- The pseudo-LRU bits after `fuel` levels of `touch` from node `n` (08 R333). -/
def touchFrom (fuel n b : Nat) : Nat :=
  match fuel with
  | 0 => b
  | k + 1 =>
    let i := n / 2
    let cleared := if bitN b i then b - 2 ^ i else b
    touchFrom k i (if n % 2 = 0 then cleared + 2 ^ i else cleared)

/-- Procedure touch of 08 R333. -/
def touch (s : State) (si w : Nat) : State :=
  setMem s { s.mem with plru := msetD s.mem.plru si (touchFrom 4 (w + 16) (mgetD s.mem.plru si 0)) 0 }

/-- Every way below node `c` of the tree is locked; `fuel` levels are left to descend. -/
def allLocked (s : State) (si : Nat) (fuel c : Nat) : Bool :=
  match fuel with
  | 0 => match wayLine s si (c - 16) with
    | some l => l.lock.isSome
    | none => false
  | k + 1 => allLocked s si k (2 * c) && allLocked s si k (2 * c + 1)

/-- The walk of function victim (08 R333) from node `n` with `fuel` levels left. -/
def victimFrom (s : State) (si b : Nat) (fuel n : Nat) : Nat :=
  match fuel with
  | 0 => n - 16
  | k + 1 =>
    let c := 2 * n + b2n (bitN b n)
    victimFrom s si b k (if allLocked s si k c then Nat.xor c 1 else c)

/-- Function victim of 08 R333. -/
def victim (s : State) (si : Nat) : Nat :=
  match (List.range 16).find? (fun w => (wayLine s si w).isNone) with
  | some w => w
  | none => victimFrom s si (mgetD s.mem.plru si 0) 4 1

/-! Eviction buffers (08 R331). -/

def evOf (s : State) (slice : Nat) : List EvEntry :=
  mgetD s.mem.evb slice []

def setEv (s : State) (slice : Nat) (l : List EvEntry) : State :=
  setMem s { s.mem with evb := msetD s.mem.evb slice l [] }

/-- The DRAM writes of a line's dirty sectors (08 R331, 09 R358). -/
def writeDirty (s : State) (l : Line) : State :=
  (List.range 2).foldl (fun s h =>
    if lget l.dirty h false then writeSector s (l.addr * 128 + 64 * h) (slice l.bytes (64 * h) 64) false else s) s

/-- The eviction buffer entry `i` of a slice completes its write and is freed. -/
def drainEv (s : State) (slice i : Nat) : State :=
  match (evOf s slice)[i]? with
  | some e => setEv (writeDirty s e.line) slice ((evOf s slice).eraseIdx i)
  | none => s

/-- A dirty line enters the eviction buffer; a full buffer first completes its oldest write (08 R331, log 14). -/
def pushEv (s : State) (l : Line) : State :=
  let slice := homeSlice (l.addr * 128)
  let s1 := if (evOf s slice).length < 32 then s else drainEv s slice 0
  setEv s1 slice (evOf s1 slice ++ [{ line := l, issued := false }])

/-- Way `w` of a set is emptied: a dirty line enters the eviction buffer, a clean one is dropped (08 R331). -/
def evict (s : State) (si w : Nat) : State :=
  match wayLine s si w with
  | none => s
  | some l =>
    let s1 := setMem s { s.mem with lines := mdel s.mem.lines (si * 16 + w) }
    if l.dirty.any id then pushEv s1 l else s1

/-- An empty line. -/
def blankLine (la : Nat) : Line :=
  { addr := la, valid := [false, false], dirty := [false, false], bytes := zeroBytes 128, lock := none }

/-- Allocates a line that its slice does not hold; answers its way. -/
def allocate (s : State) (la : Nat) : State × Nat :=
  let si := setIdx la
  let w := victim s si
  (setLine (evict s si w) si w (blankLine la), w)

/-- The way of a line, allocated where it is absent. -/
def wayFor (s : State) (la : Nat) : State × Nat :=
  match findWay s la with
  | some w => (s, w)
  | none => allocate s la

/-- Puts the 64 bytes of sector `h` of a line in its way, valid, and touches the way. -/
def installSector (s : State) (la h : Nat) (bs : List Byte) (dirty : Bool) : State :=
  let (s1, w) := wayFor s la
  match wayLine s1 (setIdx la) w with
  | none => s1
  | some l =>
    touch (setLine s1 (setIdx la) w
      { l with valid := lset l.valid h true,
               dirty := lset l.dirty h (dirty || lget l.dirty h false),
               bytes := if h = 0 then padTo 64 bs ++ l.bytes.drop 64 else l.bytes.take 64 ++ padTo 64 bs })
      (setIdx la) w

/-- The valid sector at memory address `mem` in its slice. -/
def cachedSector (s : State) (mem : Nat) : Option (List Byte) :=
  match findWay s (mem / 128) with
  | none => none
  | some w => match wayLine s (setIdx (mem / 128)) w with
    | some l => if lget l.valid (mem / 64 % 2) false then some (slice l.bytes (64 * (mem / 64 % 2)) 64) else none
    | none => none

/-- The index of the eviction buffer entry that holds a line. -/
def evFind (s : State) (la : Nat) : Option Nat :=
  (evOf s (homeSlice (la * 128))).findIdx? (fun e => e.line.addr = la)

/-- The valid sector at `mem` in the eviction buffer of its slice. -/
def evSector (s : State) (mem : Nat) : Option (List Byte) :=
  match evFind s (mem / 128) with
  | none => none
  | some i => match (evOf s (homeSlice mem))[i]? with
    | some e => if lget e.line.valid (mem / 64 % 2) false then some (slice e.line.bytes (64 * (mem / 64 % 2)) 64) else none
    | none => none

/-- Counts an access that an eviction buffer serves or merges (08 R344). -/
def countEvHit (s : State) : State :=
  bump64 s Reg.memEvbHitCount Reg.memStatus 1 1

/-- A read of the sector at `mem` through its home slice (08 R329 to R332): a hit, the eviction buffer, or a fill from DRAM,
which allocates the line where `alloc` (03 R96). A fill that meets an uncorrectable sector allocates no line. -/
def sectorInBy (alloc : Bool) (s : State) (mem : Nat) : State × SectorData :=
  match cachedSector s mem with
  | some bs =>
    (match findWay s (mem / 128) with
      | some w => touch s (setIdx (mem / 128)) w
      | none => s, .bytes bs)
  | none =>
    match evSector s mem with
    | some bs => (countEvHit s, .bytes bs)
    | none =>
      match readSector s (mem / 64 * 64) with
      | (s1, .bytes bs) => (if alloc then installSector s1 (mem / 128) (mem / 64 % 2) bs false else s1, .bytes bs)
      | (s1, .lostTo o) => (s1, .lostTo o)

/-- A read of a sector that allocates its line. -/
def sectorIn (s : State) (mem : Nat) : State × SectorData :=
  sectorInBy true s mem

/-- Replaces bytes of a 64-byte sector from offset `o`. -/
def patchSector (old : List Byte) (o : Nat) (bs : List Byte) : List Byte :=
  old.take o ++ bs ++ old.drop (o + bs.length)

/-- Merges bytes into the eviction buffer entry `i` of the slice of `mem` (08 R331). -/
def mergeEv (s : State) (i mem : Nat) (old bs : List Byte) : State :=
  let h := mem / 64 % 2
  let new := patchSector old (mem % 64) bs
  setEv (countEvHit s) (homeSlice mem) (lupd (evOf s (homeSlice mem)) i (fun e =>
    { e with line := { e.line with
        valid := lset e.line.valid h true, dirty := lset e.line.dirty h true,
        bytes := if h = 0 then new ++ e.line.bytes.drop 64 else e.line.bytes.take 64 ++ new } }))

/-- A write of bytes that lie in one sector, through the home slice (08 R329, R331): it reads nothing when it covers the whole
sector, and otherwise fetches a sector that is not valid. Answers the outcome of a fetch that failed. -/
def sectorOut (s : State) (mem : Nat) (bs : List Byte) : State × Option Nat :=
  let la := mem / 128
  let h := mem / 64 % 2
  let s0 := match evFind s la with
    | some i => if ((evOf s (homeSlice mem))[i]?.map (fun e => e.issued)).getD false then drainEv s (homeSlice mem) i else s
    | none => s
  match evFind s0 la with
  | some i =>
    match evSector s0 mem with
    | some old => (mergeEv s0 i mem old bs, none)
    | none =>
      if bs.length = 64 then (mergeEv s0 i mem (zeroBytes 64) bs, none)
      else match readSector s0 (mem / 64 * 64) with
        | (s1, .bytes old) => (mergeEv s1 i mem old bs, none)
        | (s1, .lostTo o) => (s1, some o)
  | none =>
    if bs.length = 64 then (installSector s0 la h bs true, none)
    else match sectorIn s0 mem with
      | (s1, .bytes old) => (installSector s1 la h (patchSector old (mem % 64) bs) true, none)
      | (s1, .lostTo o) => (s1, some o)

/-- The sectors that `n` bytes from `mem` touch, as (address of the first byte wanted, how many). -/
def sectorSpans (mem n : Nat) : List (Nat × Nat) :=
  if n = 0 then []
  else (List.range ((mem + n - 1) / 64 - mem / 64 + 1)).map (fun i =>
    let base := (mem / 64 + i) * 64
    let lo := max base mem
    (lo, min (base + 64) (mem + n) - lo))

/-- What a read of memory gave: its bytes, or the first sector that is uncorrectable, with its outcome (09 R354). -/
inductive MemRes where
  | ok (bytes : List Byte)
  | bad (mem outcome : Nat)
  deriving DecidableEq, Repr

/-- Reads the spans of a range in order. -/
def readSpans (alloc : Bool) (s : State) (l : List (Nat × Nat)) (acc : List Byte) : State × MemRes :=
  match l with
  | [] => (s, .ok acc)
  | (m, n) :: r =>
    match sectorInBy alloc s m with
    | (s1, .bytes bs) => readSpans alloc s1 r (acc ++ slice bs (m % 64) n)
    | (s1, .lostTo o) => (s1, .bad (m / 64 * 64) o)

/-- Reads `n` bytes of memory from a memory address. -/
def memReadBy (alloc : Bool) (s : State) (mem n : Nat) : State × MemRes :=
  readSpans alloc s (sectorSpans mem n) []

/-- Reads `n` bytes of memory, its lines allocated. -/
def memRead (s : State) (mem n : Nat) : State × MemRes :=
  memReadBy true s mem n

/-- Writes the spans of a range in order; a span whose sector cannot be fetched stops the write. -/
def writeSpans (s : State) (l : List (Nat × Nat)) (bs : List Byte) : State × Option (Nat × Nat) :=
  match l with
  | [] => (s, none)
  | (m, n) :: r =>
    match sectorOut s m (bs.take n) with
    | (s1, none) => writeSpans s1 r (bs.drop n)
    | (s1, some o) => (s1, some (m / 64 * 64, o))

/-- Writes bytes to memory from a memory address; answers the sector and outcome of a fetch that failed. -/
def memWrite (s : State) (mem : Nat) (bs : List Byte) : State × Option (Nat × Nat) :=
  writeSpans s (sectorSpans mem bs.length) bs

/-! Locks and whole lines (08 R334, R336). -/

/-- MEM_LOCK_USED of a partition (08 R343). -/
def lockUsed (s : State) (p : Nat) : Nat :=
  (s.mem.lines.filter (fun e => e.2.lock = some p)).length

/-- Locked lines of a set. -/
def setLocks (s : State) (si : Nat) : Nat :=
  ((List.range 16).filter (fun w => match wayLine s si w with
    | some l => l.lock.isSome
    | none => false)).length

/-- A lock of a line by partition `p` is refused (08 R334, R343). -/
def lockRefused (s : State) (la p : Nat) : Bool :=
  12 ≤ setLocks s (setIdx la) ||
    rdF s (Reg.memLockQuota p) 8 0 * 1024 ≤ lockUsed s p ||
    393216 ≤ (s.mem.lines.filter (fun e => e.2.lock.isSome)).length ||
    (claimOf s (la * 128 / 2 ^ 30)).kind = .filling

/-- Locks a line that its slice holds; answers whether the lock was refused (08 R334). -/
def lockLine (s : State) (la p : Nat) : State × Bool :=
  match findWay s la with
  | none => (s, false)
  | some w => match wayLine s (setIdx la) w with
    | none => (s, false)
    | some l =>
      if l.lock.isSome then (s, false)
      else if lockRefused s la p then (bump32 s Reg.memLockRefuseCount Reg.memStatus 2 1, true)
      else (setLine s (setIdx la) w { l with lock := some p }, false)

/-- Unlocks a line that partition `p` locked (08 R336). -/
def unlockLine (s : State) (la p : Nat) : State :=
  match findWay s la with
  | none => s
  | some w => match wayLine s (setIdx la) w with
    | none => s
    | some l => if l.lock = some p then setLine s (setIdx la) w { l with lock := none } else s

/-- Unlocks every line that satisfies `q` (08 R334). -/
def unlockWhere (s : State) (q : Line → Bool) : State :=
  setMem s { s.mem with lines := mmap s.mem.lines (fun _ l => if q l then { l with lock := none } else l) }

/-- ZERO of a line (08 R336): zeros, allocated dirty, nothing read. -/
def zeroLine (s : State) (la : Nat) : State :=
  let s0 := match evFind s la with
    | some i => setEv s (homeSlice (la * 128)) ((evOf s (homeSlice (la * 128))).eraseIdx i)
    | none => s
  installSector (installSector s0 la 0 (zeroBytes 64) true) la 1 (zeroBytes 64) true

/-- PRELOAD of a line (08 R336): both sectors fetched where they are not valid. Answers a sector that failed. -/
def preloadLine (s : State) (la : Nat) : State × Option (Nat × Nat) :=
  match memRead s (la * 128) 128 with
  | (s1, .ok _) => (s1, none)
  | (s1, .bad m o) => (s1, some (m, o))

/-- WRITEBACK of a line (08 R336): its dirty sectors are written, and it stays allocated and clean. -/
def writebackLine (s : State) (la : Nat) : State :=
  match findWay s la with
  | none => s
  | some w => match wayLine s (setIdx la) w with
    | none => s
    | some l =>
      if l.dirty.any id then setLine (writeDirty s l) (setIdx la) w { l with dirty := [false, false] } else s

/-- Writes back and invalidates a line, in its slice and in the eviction buffer (09 R367). -/
def flushLine (s : State) (la : Nat) : State :=
  let s1 := writebackLine s la
  let s2 := match evFind s1 la with
    | some i => drainEv s1 (homeSlice (la * 128)) i
    | none => s1
  match findWay s2 la with
  | some w => setMem s2 { s2.mem with lines := mdel s2.mem.lines (setIdx la * 16 + w) }
  | none => s2

/-- Drops, unwritten, every cached line of a range of memory addresses: FILLING replaces their content (08 R306). -/
def dropLines (s : State) (lo hi : Nat) : State :=
  let out := fun (a : Nat) => a * 128 < lo || hi ≤ a * 128
  setMem s { s.mem with
    lines := mkeep s.mem.lines (fun _ l => out l.addr),
    evb := (mmap s.mem.evb (fun _ l => l.filter (fun e => out e.line.addr))).filter (fun e => e.2 != []),
    miss := (mmap s.mem.miss (fun _ l => l.filter (fun e => out e.line))).filter (fun e => e.2 != []),
    filled := mkeep s.mem.filled (fun k _ => out (k / 2)) }

/-- Fills a claim with zeros and valid page code at a strength (08 R306, 09 R350). -/
def fillClaim (s : State) (n strength : Nat) : State :=
  let s1 := dropLines s (n * 2 ^ 30) ((n + 1) * 2 ^ 30)
  let mine := fun (pf : Nat) =>
    (List.range 512).any (fun i => mgetD s.mem.remap (n * 512 + i) (n * 512 + i) = pf) ||
      s.mem.retireQ.any (fun r => r.frame / 512 = n && r.toFrame = some pf)
  setMem s1 { s1.mem with
    dram := mkeep s1.mem.dram (fun a _ => ! mine (a / 2 ^ 21)),
    pdev := mkeep s1.mem.pdev (fun pp _ => ! mine (pp / 1024)),
    claims := mset s1.mem.claims n { claimOf s1 n with strength := strength } }

end Sys2Proof.Machine
end

