-- ==== Sys2Proof/Machine/Operands.lean ====
section
/-! DEFINITION. The operand forms: how the structures that commands name are read. Segment descriptors with their checks
(08 R312, R313), frame map entries (08 R314), ring entries (10 R415) and words of descriptors. -/
namespace Sys2Proof.Machine

/-- The 64-bit word at a byte offset of a structure (00 R2). -/
def wordAt (bs : List Byte) (off : Nat) : Nat :=
  fieldAt bs off 8

/-- Bits [hi:lo] of the 64-bit word at a byte offset. -/
def fAt (bs : List Byte) (off hi lo : Nat) : Nat :=
  bitsN (wordAt bs off) hi lo

/-- The segment kind of a code (08 R312); 5 to 7 are reserved. -/
def segKindOf (n : Nat) : Option SegKind :=
  match n with
  | 0 => some .none
  | 1 => some .claim
  | 2 => some .model
  | 3 => some .host
  | 4 => some .peer
  | _ => none

/-- The code of a segment kind (08 R312). -/
def segKindCode (k : SegKind) : Nat :=
  match k with
  | .none => 0
  | .claim => 1
  | .model => 2
  | .host => 3
  | .peer => 4

/-- The segment that 32 bytes spell (08 R312). -/
def parseSeg (b : List Byte) : Seg :=
  { kind := (segKindOf (fAt b 0 50 48)).getD .none, base := fAt b 0 47 0, read := fAt b 0 51 51 = 1,
    write := fAt b 0 52 52 = 1, frames := fAt b 8 26 0,
    target := match (segKindOf (fAt b 0 50 48)).getD .none with
      | .host => wordAt b 16
      | _ => fAt b 16 36 0,
    device := fAt b 24 2 0 }

/-- The byte offset of the first word of a segment descriptor that breaks 08 R313; `owns` says which claims are PRIVATE or
SHARED claims of the partition, `self` is the device's own ID. -/
def segFault (b : List Byte) (owns : Nat → Bool) (self : Nat) : Option Nat :=
  match segKindOf (fAt b 0 50 48) with
  | none => some 0
  | some k =>
    let base := fAt b 0 47 0
    let len := fAt b 8 26 0
    let t := wordAt b 16
    if fAt b 0 63 53 ≠ 0 then some 0
    else if k ≠ .none ∧ (base = 0 ∨ base % 2 ^ 21 ≠ 0) then some 0
    else if fAt b 8 63 27 ≠ 0 then some 8
    else if k ≠ .none ∧ (len = 0 ∨ 2 ^ 48 < base + len * 2 ^ 21) then some 8
    else if (k = .claim ∧ (2 ^ 37 ≤ t ∨ t % 4 ≠ 0)) ∨ (k = .model ∧ (2 ^ 37 ≤ t ∨ t % 2 ^ 21 ≠ 0)) ∨
        (k = .host ∧ t % 4096 ≠ 0) ∨ (k = .peer ∧ (2 ^ 37 ≤ t ∨ t % 2 ^ 21 ≠ 0)) then some 16
    else if k = .claim ∧ ((List.range ((t + 4 * len - 1) / 2 ^ 30 - t / 2 ^ 30 + 1)).any (fun i =>
        ! owns (t / 2 ^ 30 + i))) then some 16
    else if fAt b 24 63 3 ≠ 0 then some 24
    else if k ≠ .peer ∧ fAt b 24 2 0 ≠ 0 then some 24
    else if k = .peer ∧ fAt b 24 2 0 = self then some 24
    else none

/-- The 16 descriptors of a table. -/
def segSlices (b : List Byte) : List (List Byte) :=
  (List.range 16).map (fun i => slice b (32 * i) 32)

/-- The index and byte offset of the first descriptor of a table that breaks R313. -/
def tableFault (b : List Byte) (owns : Nat → Bool) (self : Nat) : Option (Nat × Nat) :=
  (List.range 16).findSome? (fun i => (segFault (slice b (32 * i) 32) owns self).map (fun w => (i, w)))

/-- Claim `n` is a PRIVATE or SHARED claim of partition `p` (08 R315). -/
def ownsClaim (s : State) (p n : Nat) : Bool :=
  n ≤ 94 && (claimOf s n).owner = p && ((claimOf s n).kind = .priv || (claimOf s n).kind = .shared)

/-- The device's own DEVICE_ID (14 R606). -/
def selfId (s : State) : Nat :=
  ownId s

/-! Ring entries (10 R415). -/

def eKind (b : List Byte) : Nat := fAt b 0 7 0
def eWaitEn (b : List Byte) : Bool := fAt b 0 8 8 = 1
def eSignalEn (b : List Byte) : Bool := fAt b 0 9 9 = 1
def eBarrier (b : List Byte) : Bool := fAt b 0 10 10 = 1
def eIntr (b : List Byte) : Bool := fAt b 0 11 11 = 1
def eGate (b : List Byte) : Nat := fAt b 0 13 12
def eGateValue (b : List Byte) : Nat := fAt b 0 63 32
def ePayload (b : List Byte) : Nat := fAt b 8 47 0
def eArg (b : List Byte) : Nat := wordAt b 16
def eWaitFence (b : List Byte) : Nat := fAt b 24 31 0
def eSignalFence (b : List Byte) : Nat := fAt b 24 63 32
def eWaitValue (b : List Byte) : Word := BitVec.ofNat 64 (wordAt b 32)
def eSignalValue (b : List Byte) : Word := BitVec.ofNat 64 (wordAt b 40)
def eParamAddr (b : List Byte) : Nat := fAt b 48 47 0
def eParamMask (b : List Byte) : Nat := fAt b 48 63 48

/-- The serialising kinds (10 R416): LOAD_MODULE, UNLOAD_MODULE, SEG_UPDATE and TIMESTAMP. -/
def eSerial (b : List Byte) : Bool :=
  eKind b = 0x07 || eKind b = 0x08 || eKind b = 0x09 || eKind b = 0x0E

/-! Plan nodes (12 R521). -/

/-- The words of a node that are the ring entry's: its fence words lie one word earlier (12 R521). -/
def nWaitEn (b : List Byte) : Bool := fAt b 0 8 8 = 1
def nSignalEn (b : List Byte) : Bool := fAt b 0 9 9 = 1
def nWaitFence (b : List Byte) : Nat := fAt b 0x18 31 0
def nSignalFence (b : List Byte) : Nat := fAt b 0x18 63 32
def nWaitValue (b : List Byte) : Word := BitVec.ofNat 64 (wordAt b 0x20)
def nSignalValue (b : List Byte) : Word := BitVec.ofNat 64 (wordAt b 0x28)

/-- The predecessors of a node, by its 16-bit fields (12 R521). -/
def nodePreds (b : List Byte) : List Nat :=
  (List.range 4).filterMap (fun i =>
    if fAt b 0x10 (16 * i + 15) (16 * i + 15) = 1 then some (fAt b 0x10 (16 * i + 11) (16 * i)) else none)

end Sys2Proof.Machine
end

