-- ==== Sys2Proof/Machine/Xlate.lean ====
section
/-! DEFINITION. Translation (08 R315 to R327): segment match, kinds, frame maps, the translation caches, and the transfers of
engines through them. -/
namespace Sys2Proof.Machine

/-- What an access does (08 R316, R318). -/
inductive Acc where
  | read | write | atomic | cacheRead | cacheZero | tensor | tensorOut | record
  deriving DecidableEq, Repr

/-- The access code of the detail words (08 R318). -/
def accCode (a : Acc) : Nat :=
  match a with
  | .read => 0
  | .tensor => 0
  | .write => 1
  | .tensorOut => 1
  | .record => 1
  | .atomic => 2
  | .cacheRead => 3
  | .cacheZero => 3

/-- The kinds that admit an access (08 R316). -/
def admits (k : SegKind) (a : Acc) : Bool :=
  match k, a with
  | .none, _ => false
  | .claim, _ => true
  | .model, .read => true
  | .model, .tensor => true
  | .model, .cacheRead => true
  | .model, _ => false
  | .host, .read => true
  | .host, .write => true
  | .host, .record => true
  | .host, _ => false
  | .peer, .read => true
  | .peer, .write => true
  | .peer, .record => true
  | .peer, _ => false

/-- READ and WRITE of a segment allow an access (08 R316): a MODEL segment's WRITE is ignored. -/
def allows (g : Seg) (a : Acc) : Bool :=
  match a with
  | .read => g.read
  | .tensor => g.read
  | .cacheRead => g.read
  | .write => g.write
  | .tensorOut => g.write
  | .record => g.write
  | .cacheZero => g.write
  | .atomic => g.read && g.write

/-- Why a translation failed, with what its detail words need (08 R318, 09 R354). -/
structure XFault where
  code : Nat
  va : Nat
  seg : Nat
  kind : Nat
  acc : Nat
  table : Nat
  word : Nat
  base : Nat
  reason : Nat
  mem : Nat
  outcome : Nat
  deriving DecidableEq, Repr

/-- Where one translated piece lies. -/
inductive Loc where
  | mem (addr n : Nat)
  | host (addr n : Nat)
  | peer (device addr n : Nat)
  deriving DecidableEq, Repr

/-- The segments of a table (08 R311). -/
def tableOf (s : State) (t : TableId) : List Seg :=
  match t with
  | .ctx k => match mget s.host.ctxs k with
    | some c => c.segs
    | none => []
  | .part p => (partOf s p).segs

/-- The partition of a table. -/
def tablePart (t : TableId) : Nat :=
  match t with
  | .ctx k => k / 65536
  | .part p => p

/-- The context of a table, 0 for a partition's. -/
def tableCtx (t : TableId) : Nat :=
  match t with
  | .ctx k => k
  | .part _ => 0

/-- The lowest-indexed segment that holds an address (08 R315 step 1). -/
def findSeg (l : List Seg) (va : Nat) : Option (Nat × Seg) :=
  (l.zip (List.range l.length)).findSome? (fun e =>
    if e.1.kind ≠ .none ∧ e.1.base ≤ va ∧ va < e.1.base + e.1.frames * 2 ^ 21 then some (e.2, e.1) else none)

/-- The set of a translation cache: bench caches 0 to 7 by va[26:21], the system cache 8 by va[25:21] (08 R319). -/
def xset (cache vframe : Nat) : Nat :=
  if cache < 8 then cache * 64 + vframe % 64 else 512 + vframe % 32

/-- The entry of a translation cache for a frame of a table. -/
def xfind (s : State) (cache : Nat) (t : TableId) (vf : Nat) : Option XEntry :=
  (mgetD s.mem.xsets (xset cache vf) []).find? (fun e => e.table = t && e.vframe = vf)

/-- Makes an entry the most recently used of its set, at most 8 ways (08 R319). -/
def xput (s : State) (cache : Nat) (e : XEntry) : State :=
  let i := xset cache e.vframe
  let old := (mgetD s.mem.xsets i []).filter (fun x => ! (x.table = e.table && x.vframe = e.vframe))
  setMem s { s.mem with xsets := mset s.mem.xsets i ((e :: old).take 8) }

/-- A fault of step 1 to 5 of 08 R315. -/
def xfault (code va : Nat) (t : TableId) (a : Acc) (g : Option (Nat × Seg)) (word : Nat) : XFault :=
  { code := code, va := va, seg := (g.map (fun e => e.1)).getD 0xFF, kind := (g.map (fun e => segKindCode e.2.kind)).getD 0,
    acc := accCode a, table := match t with
      | .ctx _ => 0
      | .part _ => 1,
    word := word, base := (g.map (fun e => e.2.base)).getD 0, reason := 0, mem := 0, outcome := 0 }

/-- The frame a frame map entry names, checked for a partition (08 R315 step 4): the code of its failure, or the memory
address of the frame. -/
def judgeFrame (s : State) (p word : Nat) : Nat ⊕ Nat :=
  if bitsN word 31 31 = 0 then .inl Cond.segMiss
  else if ownsClaim s p (bitsN word 15 9) then .inr (bitsN word 15 9 * 2 ^ 30 + bitsN word 8 0 * 2 ^ 21)
  else .inl Cond.claimBound

/-- A frame map read (08 R321): through the bench cache, counted, and on success entered in the translation cache. -/
def walkFrame (s : State) (cache : Nat) (t : TableId) (g : Seg) (vf : Nat) : State × (XFault ⊕ Nat) :=
  let va := vf * 2 ^ 21
  let gi := findSeg (tableOf s t) va
  let s1 := bump64 s Reg.memXlateMissCount Reg.memStatus 0 1
  match memRead s1 (g.target + 4 * (vf - g.base / 2 ^ 21)) 4 with
  | (s2, .bad m o) => (s2, .inl { xfault Cond.memUncorr va t .read gi 0 with mem := m, outcome := o })
  | (s2, .ok bs) =>
    match judgeFrame s2 (tablePart t) (leNat bs) with
    | .inl c => (s2, .inl (xfault c va t .read gi (leNat bs)))
    | .inr f => (xput s2 cache { table := t, vframe := vf, frame := f, word := leNat bs }, .inr f)

/-- The checks of steps 1 and 2 of 08 R315. -/
def segStep (s : State) (t : TableId) (a : Acc) (va : Nat) : XFault ⊕ (Nat × Seg) :=
  match findSeg (tableOf s t) va with
  | none => .inl (xfault Cond.segMiss va t a none 0)
  | some g => if admits g.2.kind a && allows g.2 a then .inr g else .inl (xfault Cond.segPerm va t a (some g) 0)

/-- The write-fed Mark unit whose feed page an access of memory meets (13 R567). -/
def feedUnit (s : State) (mem n : Nat) : Option Nat :=
  (List.range 16).find? (fun u => rdF s (Reg.markGrant u) 5 5 = 1 &&
    rdF s (Reg.markGrant u) 30 6 * 4096 < mem + n && mem < rdF s (Reg.markGrant u) 30 6 * 4096 + 4096)

/-- An access lands at a memory address, unless a feed page diverts it: it then raises SEG_PERM (13 R567). -/
def landAt (s : State) (t : TableId) (a : Acc) (va n mem : Nat) : XFault ⊕ Loc :=
  if (feedUnit s mem n).isSome then .inl (xfault Cond.segPerm va t a (findSeg (tableOf s t) va) 0) else .inr (.mem mem n)

/-- The translation of one byte address (08 R315): where the piece of `n` bytes from it, within one 2 MiB frame, lies. -/
def xlate (s : State) (cache : Nat) (t : TableId) (a : Acc) (va n : Nat) : State × (XFault ⊕ Loc) :=
  match segStep s t a va with
  | .inl f => (s, .inl f)
  | .inr (i, g) =>
    match g.kind with
    | .none => (s, .inl (xfault Cond.segMiss va t a none 0))
    | .claim =>
      match xfind s cache t (va / 2 ^ 21) with
      | some e => (xput s cache e, landAt s t a va n (e.frame + va % 2 ^ 21))
      | none =>
        match walkFrame s cache t g (va / 2 ^ 21) with
        | (s1, .inl f) => (s1, .inl { f with va := va, acc := accCode a })
        | (s1, .inr f) => (s1, landAt s t a va n (f + va % 2 ^ 21))
    | .model =>
      let off := g.target + (va - g.base)
      if ! s.mem.grant.getLsbD (tablePart t) || ! s.mem.modelLive || s.mem.modelCount * 2 ^ 30 ≤ off then
        (s, .inl (xfault Cond.claimBound va t a (some (i, g)) 0))
      else (s, .inr (.mem (s.mem.modelFirst * 2 ^ 30 + off) n))
    | .host => (s, .inr (.host (g.target + (va - g.base)) n))
    | .peer => (s, .inr (.peer g.device (g.target + (va - g.base)) n))

/-- The pieces of a range, cut at 2 MiB frames. -/
def framePieces (va n : Nat) : List (Nat × Nat) :=
  if n = 0 then []
  else (List.range ((va + n - 1) / 2 ^ 21 - va / 2 ^ 21 + 1)).map (fun i =>
    let base := (va / 2 ^ 21 + i) * 2 ^ 21
    let lo := max base va
    (lo, min (base + 2 ^ 21) (va + n) - lo))

/-- Translates pieces in increasing order; the lowest failing byte gives the fault (08 R315). -/
def xlatePieces (s : State) (cache : Nat) (t : TableId) (a : Acc) (l : List (Nat × Nat)) : State × (XFault ⊕ List Loc) :=
  match l with
  | [] => (s, .inr [])
  | (va, n) :: r =>
    match xlate s cache t a va n with
    | (s1, .inl f) => (s1, .inl f)
    | (s1, .inr x) =>
      match xlatePieces s1 cache t a r with
      | (s2, .inl f) => (s2, .inl f)
      | (s2, .inr xs) => (s2, .inr (x :: xs))

/-- Translates a range as a whole: a fault names the access's first byte (08 R315, log 21). -/
def xlateRange (s : State) (cache : Nat) (t : TableId) (a : Acc) (va n : Nat) : State × (XFault ⊕ List Loc) :=
  match xlatePieces s cache t a (framePieces va n) with
  | (s1, .inl f) => (s1, .inl { f with va := va })
  | r => r

/-- The reason code of a failed host read (08 R318, 10 R440). -/
def failCode (w : ReadFail) : Nat :=
  match w with
  | .unsupported => 1
  | .abort => 2
  | .timeout => 3
  | .poisoned => 4
  | .refused r => r
  | .remoteTimeout => 0
  | .linkDown => 0
  | .burstStall => 0

/-- The condition of a read of a peer that failed (14 R597). -/
def peerCond (w : ReadFail) : Nat :=
  match w with
  | .remoteTimeout => Cond.remoteTimeout
  | .linkDown => Cond.linkDown
  | .burstStall => Cond.burstStall
  | _ => Cond.remoteFault

/-- A failed access of a peer (14 R597): `seg` holds the device, `outcome` the attempts. -/
def peerFault (s : State) (t : TableId) (va device mem attempts : Nat) (w : ReadFail) : XFault :=
  { xfault (peerCond w) va t .read (findSeg (tableOf s t) va) 0 with
    seg := device, mem := mem, outcome := attempts, reason := failCode w }

/-- The detail words of a fault of an engine other than a core (08 R318, 09 R354, 14 R597). -/
def xdetail (s : State) (f : XFault) : List Byte :=
  if f.code = Cond.memUncorr then uncorrDetail s f.mem f.outcome
  else if Cond.linkDown ≤ f.code && f.code ≤ Cond.burstStall then
    leBytes 1 f.reason ++ leBytes 1 f.seg ++ leBytes 1 ((routeOf s f.seg).getD 0xFF) ++ leBytes 1 f.outcome ++ zeroBytes 4 ++ leBytes 8 f.mem
  else leBytes 1 f.seg ++ leBytes 1 f.kind ++ leBytes 1 f.acc ++ leBytes 1 f.table ++ leBytes 4 f.word ++ leBytes 8 f.base ++
    leBytes 1 f.reason

/-- Reads translated pieces: memory through the bench caches, host and peer pieces from what the read returned (`ext`). -/
def readLocs (alloc : Bool) (s : State) (t : TableId) (va : Nat) (l : List Loc) (ext : HostRead) (acc : List Byte) :
    State × (XFault ⊕ List Byte) :=
  match l with
  | [] => (s, .inr acc)
  | .mem a n :: r =>
    match memReadBy alloc s a n with
    | (s1, .ok bs) => readLocs alloc s1 t va r ext (acc ++ bs)
    | (s1, .bad m o) =>
      (s1, .inl { xfault Cond.memUncorr va t .read (findSeg (tableOf s t) va) 0 with mem := m, outcome := o })
  | .host _ n :: r =>
    match ext with
    | .ok bs => readLocs alloc s t va r (.ok (bs.drop n)) (acc ++ padTo n bs)
    | .fail w =>
      (s, .inl { xfault Cond.hostWindowAbort va t .read (findSeg (tableOf s t) va) 0 with reason := failCode w })
  | .peer d a n :: r =>
    if (routeOf s d).isNone then (s, .inl (peerFault s t va d a 0 .linkDown))
    else
      match ext with
      | .ok bs => readLocs alloc s t va r (.ok (bs.drop n)) (acc ++ padTo n bs)
      | .fail w => (s, .inl (peerFault s t va d a 1 w))

/-- A read of a range by an engine through a translation cache (08 R315, R325). -/
def engineReadBy (alloc : Bool) (s : State) (cache : Nat) (t : TableId) (a : Acc) (va n : Nat) (ext : HostRead) :
    State × (XFault ⊕ List Byte) :=
  match xlateRange s cache t a va n with
  | (s1, .inl f) => (s1, .inl f)
  | (s1, .inr l) => readLocs alloc s1 t va l ext []

/-- A read of a range whose lines are allocated. -/
def engineRead (s : State) (cache : Nat) (t : TableId) (a : Acc) (va n : Nat) (ext : HostRead) :
    State × (XFault ⊕ List Byte) :=
  engineReadBy true s cache t a va n ext

/-- Writes translated pieces: memory through the bench caches, host pieces as posted writes of the function (08 R325), peer
pieces as writes that leave by the link (14 R592). -/
def writeLocs (s : State) (t : TableId) (va : Nat) (l : List Loc) (bs : List Byte) : State × Option XFault :=
  match l with
  | [] => (s, none)
  | .mem a n :: r =>
    match memWrite s a (bs.take n) with
    | (s1, none) => writeLocs s1 t va r (bs.drop n)
    | (s1, some (m, o)) =>
      (s1, some { xfault Cond.memUncorr va t .write (findSeg (tableOf s t) va) 0 with mem := m, outcome := o })
  | .host a n :: r => writeLocs (emit s (.hostWrite (tablePart t) a (bs.take n))) t va r (bs.drop n)
  | .peer d a n :: r =>
    match peerWrite s (n / 4096 + 2) (tablePart t) (tableCtx t) d a va (bs.take n) with
    | some s1 => writeLocs s1 t va r (bs.drop n)
    | none => (s, some (peerFault s t va d a 0 .linkDown))

/-- A write of a range by an engine. -/
def engineWrite (s : State) (cache : Nat) (t : TableId) (a : Acc) (va : Nat) (bs : List Byte) : State × Option XFault :=
  match xlateRange s cache t a va bs.length with
  | (s1, .inl f) => (s1, some f)
  | (s1, .inr l) => writeLocs s1 t va l bs

/-- A memory fault of an engine's work (08 R318, R337): its record kills the context and the work fails with the code. -/
def engineFault (s : State) (o : Origin) (engine : Nat) (f : XFault) : State :=
  failWork s o f.code engine f.va (xdetail s f)

end Sys2Proof.Machine
end

