-- ==== Sys2Proof/Machine/Sched.lean ====
section
/-! DEFINITION. What scheduling shares: SCHED words and ranks (12 R498, R507), context slots and conditions (R500 to R503), the
save pool (R504, R505), virtual time (R508), preemption counts (R509) and accounts (R542, R543). -/
namespace Sys2Proof.Machine

/-- The state with scheduling replaced. -/
def setSched (s : State) (x : SchedSt) : State :=
  { s with sched := x }

/-- The SCHED word of a context (12 R498). -/
def schedWord (s : State) (k : Nat) : Nat :=
  ((mget s.host.ctxs k).map (fun c => c.sched)).getD 0

/-- The context is REALTIME (12 R498). -/
def isRealtime (s : State) (k : Nat) : Bool :=
  bitN (schedWord s k) 0

def prioOf (s : State) (k : Nat) : Nat :=
  bitsN (schedWord s k) 4 1
def weightOf (s : State) (k : Nat) : Nat :=
  bitsN (schedWord s k) 12 5
def accountOf (s : State) (k : Nat) : Nat :=
  bitsN (schedWord s k) 20 13

/-- The context is LIVE (11 R459). -/
def ctxLive (s : State) (k : Nat) : Bool :=
  ((mget s.host.ctxs k).map (fun c => c.live)).getD false

/-! Accounts (12 R542). -/

/-- An account right after its partition's CREATE. -/
def noAccount : Account :=
  { queueWait := 0, preempted := 0, core := 0, tensor := 0, other := 0, jobs := 0, preemptions := 0, sharedJobs := 0,
    misses := 0, flags := 0 }

/-- The counts of an account. -/
inductive AcctField where
  | queueWait | preempted | core | tensor | other | jobs | preemptions | sharedJobs | misses
  deriving DecidableEq, Repr

/-- A saturating sum and whether it passed its maximum of `bits` bits (12 R542). -/
def satAdd (bits a n : Nat) : Nat × Bool :=
  if a + n < 2 ^ bits then (a + n, false) else (2 ^ bits - 1, true)

/-- Sets overflow bit `i` of an account's FLAGS. -/
def acctFlag (a : Account) (i : Nat) (b : Bool) : Account :=
  if b && ! bitN a.flags i then { a with flags := a.flags + 2 ^ i } else a

/-- An account with `n` added to a count (12 R542). -/
def acctAdd (a : Account) (f : AcctField) (n : Nat) : Account :=
  match f with
  | .queueWait => acctFlag { a with queueWait := (satAdd 64 a.queueWait n).1 } 0 (satAdd 64 a.queueWait n).2
  | .preempted => acctFlag { a with preempted := (satAdd 64 a.preempted n).1 } 0 (satAdd 64 a.preempted n).2
  | .core => acctFlag { a with core := (satAdd 64 a.core n).1 } 1 (satAdd 64 a.core n).2
  | .tensor => acctFlag { a with tensor := (satAdd 64 a.tensor n).1 } 2 (satAdd 64 a.tensor n).2
  | .other => acctFlag { a with other := (satAdd 64 a.other n).1 } 3 (satAdd 64 a.other n).2
  | .jobs => acctFlag { a with jobs := (satAdd 32 a.jobs n).1 } 4 (satAdd 32 a.jobs n).2
  | .preemptions => acctFlag { a with preemptions := (satAdd 32 a.preemptions n).1 } 5 (satAdd 32 a.preemptions n).2
  | .sharedJobs => acctFlag { a with sharedJobs := (satAdd 32 a.sharedJobs n).1 } 6 (satAdd 32 a.sharedJobs n).2
  | .misses => acctFlag { a with misses := (satAdd 32 a.misses n).1 } 7 (satAdd 32 a.misses n).2

/-- The account `a` of partition `p`. -/
def acctOf (s : State) (p a : Nat) : Account :=
  mgetD s.sched.accounts (p * 256 + a) noAccount

/-- Charges account `a` of partition `p`. -/
def chargeAcct (s : State) (p a : Nat) (f : AcctField) (n : Nat) : State :=
  setSched s { s.sched with accounts := mset s.sched.accounts (p * 256 + a) (acctAdd (acctOf s p a) f n) }

/-- Charges the account of a context (12 R543). -/
def charge (s : State) (k : Nat) (f : AcctField) (n : Nat) : State :=
  chargeAcct s (k / 65536) (accountOf s k) f n

/-- The 64 bytes of an account (12 R542). -/
def acctBytes (a : Account) : List Byte :=
  leBytes 8 a.queueWait ++ leBytes 8 a.preempted ++ leBytes 8 a.core ++ leBytes 8 a.tensor ++ leBytes 8 a.other ++
    leBytes 4 a.jobs ++ leBytes 4 a.preemptions ++ leBytes 4 a.sharedJobs ++ leBytes 4 a.misses ++ leBytes 2 a.flags ++
    zeroBytes 6

/-- DTIME elapsed since `t`. -/
def elapsed (s : State) (t : Nat) : Nat :=
  (s.dtime + 2 ^ 64 - t % 2 ^ 64) % 2 ^ 64

/-! The order of placement (12 R507). -/

/-- A part of a nanosecond in which every share 1/WEIGHT of a nanosecond is whole (12 R508). -/
def vtimeUnit : Nat :=
  (List.range 255).foldl (fun a i => Nat.lcm a (i + 1)) 1

/-- Lexicographic order. -/
def lexLt (a b : List Nat) : Bool :=
  match a, b with
  | [], _ :: _ => true
  | x :: xs, y :: ys => x < y || (x == y && lexLt xs ys)
  | _, [] => false

/-- The deadline of a plan node, by work identifier (12 R515). -/
def deadlineOf (s : State) (wid : Nat) : Option (Nat × Nat) :=
  s.sched.launches.findSome? (fun l => l.2.nodes.findSome? (fun n => if n.wid = wid then n.deadline else none))

/-- The place of ready work in the order of R507: the smallest list goes first. -/
def rankOf (s : State) (ctx wid readyAt : Nat) : List Nat :=
  if isRealtime s ctx then
    match deadlineOf s wid with
    | some (c, ph) => [0, c, ph]
    | none => [1, 15 - prioOf s ctx, readyAt]
  else [2, 15 - prioOf s ctx, ((mget s.host.ctxs ctx).map (fun c => c.vtime)).getD 0, readyAt]

/-- The index of the element of smallest rank, the first among equals. -/
def bestIdx {α : Type} (rank : α → List Nat) (l : List α) : Option Nat :=
  match l with
  | [] => none
  | a :: r =>
    match bestIdx rank r with
    | none => some 0
    | some i => match r[i]? with
      | some b => if lexLt (rank b) (rank a) then some (i + 1) else some 0
      | none => some 0

/-! Context slots (12 R500). -/

/-- Slots that the contexts of a partition hold. -/
def slotsHeld (s : State) (p : Nat) : Nat :=
  (s.host.ctxs.filter (fun c => c.1 / 65536 = p && c.2.slot.isSome)).length

/-- The lowest slot that no context holds. -/
def slotFree (s : State) : Option Nat :=
  (List.range 256).find? (fun i => s.host.ctxs.all (fun c => c.2.slot ≠ some i))

/-- The context holds a slot. -/
def holdsSlot (s : State) (k : Nat) : Bool :=
  ((mget s.host.ctxs k).map (fun c => c.slot.isSome)).getD false

/-- Gives a context slot `n`. -/
def giveSlot (s : State) (k n : Nat) : State :=
  match mget s.host.ctxs k with
  | some c => setCtx s k { c with slot := some n, slotSince := s.dtime }
  | none => s

/-- A context without a slot takes a free one, its partition being below SLOT_QUOTA (12 R500). -/
def takeSlot (s : State) (k : Nat) : State :=
  if holdsSlot s k || ! ctxLive s k then s
  else match slotFree s with
    | some n => if slotsHeld s (k / 65536) < (partOf s (k / 65536)).slotQuota then giveSlot s k n else s
    | none => s

/-- A context loses its slot; its translations are invalidated (12 R500). -/
def dropSlot (s : State) (k : Nat) : State :=
  match mget s.host.ctxs k with
  | some c => if c.slot.isSome then dropTable (setCtx s k { c with slot := none, slotSince := s.dtime }) (.ctx k) else s
  | none => s

/-! The save pool (12 R504 to R506). -/

/-- KiB reserved in a partition's pool. -/
def saveUsed (s : State) (p : Nat) : Nat :=
  mgetD s.sched.saveUsed p 0

/-- SCHED_SAVE.SIZE_MIB and the pool's first address. -/
def poolMiB (s : State) (p : Nat) : Nat :=
  rdF s (pkey p Reg.schedSave) 15 0
def poolBase (s : State) (p : Nat) : Nat :=
  rdF s (pkey p Reg.schedSave) 47 16 * 65536

/-- A reservation of a number of bytes, in KiB: whole pages of 4 KiB (12 R504). -/
def saveKib (bytes : Nat) : Nat :=
  roundUp bytes 4096 / 1024

/-- The pool has room for a reservation; a pool of size 0 places nothing (12 R506). -/
def saveRoom (s : State) (p kib : Nat) : Bool :=
  poolMiB s p ≠ 0 && saveUsed s p + kib ≤ poolMiB s p * 1024

def reserve (s : State) (p kib : Nat) : State :=
  setSched s { s.sched with saveUsed := msetD s.sched.saveUsed p (saveUsed s p + kib) 0 }
def unreserve (s : State) (p kib : Nat) : State :=
  setSched s { s.sched with saveUsed := msetD s.sched.saveUsed p (saveUsed s p - kib) 0 }

/-- The power limit holds back the placement of a context's work (15 R622): NORMAL work only. -/
def heldBack (s : State) (k : Nat) : Bool :=
  s.sched.held && ! isRealtime s k

/-- A unit of work of a context may be placed, as far as its context goes (12 R500, R506; 15 R622; 16 R668). -/
def mayPlace (s : State) (k kib : Nat) : Bool :=
  ctxLive s k && holdsSlot s k && saveRoom s (k / 65536) kib && ! heldBack s k && ! s.sched.paused

/-- `n` bytes of undefined content, at addresses of a region from `a`. -/
def undefBytes (seed a n : Nat) : List Byte :=
  (List.range n).map (fun i => Config.undefByte seed (a + i))

/-- Where in the pool a unit of `n` bytes is saved: a page that the spec leaves open (log 25). -/
def savePlace (s : State) (p n : Nat) : Nat × State :=
  let (x, s1) := draw s
  (poolBase s p + x % (poolMiB s p * 256 - roundUp n 4096 / 4096 + 1) * 4096, s1)

/-- Writes `n` undefined bytes into a partition's pool. -/
def undefWrite (s : State) (p a n : Nat) : State × Option XFault :=
  match xlateRange s 8 (.part p) .write a n with
  | (s1, .inl f) => (s1, some f)
  | (s1, .inr l) => writeLocs s1 (.part p) a l (undefBytes s.fresh a n)

/-- Saves a unit of `n` bytes into the pool: its bytes there are undefined. A write that faults kills the context
(12 R505). Answers the address. -/
def saveUnit (s : State) (o : Origin) (engine n : Nat) : State × Nat :=
  let (a, s1) := savePlace s o.part n
  match undefWrite s1 o.part a n with
  | (s2, none) => (s2, a)
  | (s2, some f) => (raise s2 o f.code engine f.va (xdetail s2 f), a)

/-- Restores a unit of `n` bytes from the pool; a failed read kills the context (12 R505). -/
def restoreUnit (s : State) (o : Origin) (engine a n : Nat) : State :=
  match engineRead s 8 (.part o.part) .read a n (.fail .abort) with
  | (s1, .inl f) => raise s1 o f.code engine f.va (xdetail s1 f)
  | (s1, .inr _) => s1

/-! Conditions of contexts (12 R501) and preemption counts. -/

/-- A ring entry that has not retired. -/
def entryOpen (e : Entry) : Bool :=
  match e.step with
  | .done _ => false
  | _ => true

/-- An entry whose work is placed, or ready for engine room: a CALL, a PLAN and a queued REQUEST have none of their own. -/
def entryReady (e : Entry) : Bool :=
  match e.step with
  | .ready => true
  | .work => fAt e.bytes 0 7 0 ≠ 0x0D && fAt e.bytes 0 7 0 ≠ 0x0A &&
      ! (fAt e.bytes 0 7 0 = 0x0B && fAt e.desc 0 3 0 = 6)
  | _ => false

/-- A node whose work is placed, or ready for engine room. -/
def nodeReady (n : NodeSt) : Bool :=
  n.step = .ready || n.step = .work

/-- A node that has not completed. -/
def nodeOpen (n : NodeSt) : Bool :=
  match n.step with
  | .done _ => false
  | _ => true

/-- The lowest virtual time of the NORMAL contexts that are ready (12 R508). -/
def leastVtime (s : State) : Option Nat :=
  s.host.ctxs.foldl (fun m c =>
    if c.2.cond = .runnable && c.2.live && ! bitN c.2.sched 0 then
      match m with
      | none => some c.2.vtime
      | some v => some (min v c.2.vtime)
    else m) none

/-- An engine, by its identifier (00 R13), holds placed work of a context (12 R509). -/
def engineHolds (s : State) (e k : Nat) : Bool :=
  let i := e % 256
  let passCtx := fun (id : Nat) => (mget s.raster.passes id).map (fun p => p.org.ctx)
  match e / 256 with
  | 0 => match mget s.core.cores i with
    | some c => c.wgs.any (fun w => w.org.ctx = k) || c.tiles.any (fun t => passCtx t.pass = some k)
    | none => false
  | 1 => (mgetD s.core.queues i []).any (fun r => ((mget s.core.items r.item).map (fun x => x.org.ctx)) = some k)
  | 2 => s.raster.passes.any (fun p => p.2.org.ctx = k && (mget p.2.units i).isSome && ! p.2.savedUnits.any (fun u => u.1 = i))
  | 4 => s.sched.crush.any (fun o => o.org.ctx = k && (o.both || o.engine = i))
  | 5 => (mgetD s.sched.copies i []).any (fun o => o.org.ctx = k)
  | _ => false

/-- The identifiers of the engines that hold work: cores, arrays, geometry units, Crusher and copy engines (00 R13). -/
def workEngines : List Nat :=
  List.range 64 ++ (List.range 64).map (256 + ·) ++ (List.range 8).map (512 + ·) ++ [0x400, 0x401] ++
    (List.range 4).map (0x500 + ·)

/-- Some engine holds placed work of a context (12 R509, 11 R460). -/
def enginesHold (s : State) (k : Nat) : Bool :=
  workEngines.any (fun e => engineHolds s e k)

/-- Work of a context is placed, on cores alone, and each of its groups waits for host-window or peer replies only (12 R501;
DESIGN CHOICE: log 50, a group with such reads outstanding and none inside the device counts as waiting for them). -/
def awaitsOutside (s : State) (k : Nat) : Bool :=
  let ws := (s.core.cores.flatMap (fun c => c.2.wgs)).filter (fun w => w.org.ctx = k)
  let mine := s.core.jobs.filter (fun j => j.2.org.ctx = k)
  ! ws.isEmpty && ws.all (fun w => w.groups.all (fun g => ! g.reads.isEmpty && g.copies.isEmpty && g.reads.all (fun r => r.host || r.peer))) &&
    mine.all (fun j => j.2.total ≤ j.2.next && j.2.saved.isEmpty) && s.core.savedRuns.all (fun r => ((mget s.core.items r.item).map (fun x => x.org.ctx)) ≠ some k) &&
    ((workEngines.filter (fun e => 256 ≤ e)).all (fun e => ! engineHolds s e k)) && s.sched.copyWait.all (fun o => o.org.ctx ≠ k) &&
    s.sched.crushWait.all (fun o => o.org.ctx ≠ k) && s.raster.passes.all (fun p => p.2.org.ctx ≠ k)

/-- The condition of a context (12 R501). -/
def condOf (s : State) (k : Nat) : CtxCond :=
  let es := (s.host.rings.filter (fun r => r.2.ctx = k)).flatMap (fun r => r.2.entries)
  let ns := (s.sched.launches.filter (fun l => l.2.org.ctx = k)).flatMap (fun l => l.2.nodes)
  if es.any (fun e => e.step = .ready) || ns.any (fun n => n.step = .ready) then .runnable
  else if es.any entryReady || ns.any nodeReady then (if awaitsOutside s k then .blocked else .runnable)
  else if es.any entryOpen || ns.any nodeOpen then .blocked
  else .idle

/-- A preemption is already asked of an engine. -/
def askedOn (s : State) (e : Nat) : Bool :=
  s.sched.stopCtx.any (fun x => x.1 = e) || s.sched.stopOps.any (fun x => x.1 = e)

/-- The DTIME of the first outstanding request to an engine (11 R490). -/
def noteAsk (s : State) (e : Nat) : State :=
  if askedOn s e then s else setSched s { s.sched with stopAt := mset s.sched.stopAt e s.dtime }

/-- A preemption of a context's work on an engine is asked for (12 R509). -/
def askStop (s : State) (e k : Nat) : State :=
  if s.sched.stopCtx.contains (e, k) then s
  else setSched (noteAsk s e) { (noteAsk s e).sched with stopCtx := s.sched.stopCtx ++ [(e, k)] }

/-- A preemption of an operation on an engine is asked for (12 R509). -/
def askOp (s : State) (e wid : Nat) : State :=
  if s.sched.stopOps.contains (e, wid) then s
  else setSched (noteAsk s e) { (noteAsk s e).sched with stopOps := s.sched.stopOps ++ [(e, wid)] }

/-- The engine is in service: it is not being reset after a HANG (11 R490). -/
def engineUp (s : State) (e : Nat) : Bool :=
  ! s.sched.resetting.contains e

/-- Preemptions asked of an engine end with the work there (12 R509). -/
def pruneStops (s : State) : State :=
  setSched s { s.sched with stopCtx := s.sched.stopCtx.filter (fun x => engineHolds s x.1 x.2) }

/-- The time since which a context holds engines, and the time its watchdog has counted (12 R509, 11 R460). -/
def noteRun (s : State) (h : Bool) (c : Ctx) : Ctx :=
  if h then
    { c with runSince := some (c.runSince.getD s.dtime), wdSince := some (c.wdSince.getD s.dtime),
             wdRestart := some (c.wdRestart.getD s.dtime) }
  else { c with runSince := none, wdSince := none, wdHeld := c.wdHeld + (c.wdSince.map (elapsed s)).getD 0 }

/-- A context's condition is noted with the DTIME of its change; one that becomes ready after being idle takes the larger of its
virtual time and the lowest of the ready contexts (12 R502, R508). -/
def noteCond (s : State) (k : Nat) : State :=
  match mget s.host.ctxs k with
  | none => s
  | some c0 =>
    let c := noteRun s (enginesHold s k) c0
    let q := condOf s k
    if q = c.cond then setCtx s k c
    else
      let v := if q = .runnable && c.idled then max c.vtime ((leastVtime s).getD c.vtime) else c.vtime
      setCtx s k { c with cond := q, condSince := s.dtime, vtime := v,
                          idled := if q = .idle then true else if q = .runnable then false else c.idled }

/-- Every live context's condition is noted, and preemptions that are over are forgotten. -/
def noteConds (s : State) : State :=
  s.host.ctxs.foldl (fun s c => noteCond s c.1) (pruneStops s)

/-- A node of a launch, replaced by `f` of it, by its identifier. -/
def updNode (s : State) (wid : Nat) (f : NodeSt → NodeSt) : State :=
  setSched s { s.sched with launches := mmap s.sched.launches (fun _ l =>
    { l with nodes := l.nodes.map (fun n => if n.wid = wid then f n else n) }) }

/-- The launch and the node of a work identifier. -/
def findNode (s : State) (wid : Nat) : Option (Nat × Launch × NodeSt) :=
  s.sched.launches.findSome? (fun l => (l.2.nodes.find? (fun n => n.wid = wid && wid ≠ 0)).map (fun n => (l.1, l.2, n)))

/-- One preemption of a context's work (12 R509), by the work's identifier. -/
def countPreempt (s : State) (o : Origin) : State :=
  let s1 := charge (bump64 s Reg.schedPreemptCount Reg.schedStatus 0 1) o.ctx .preemptions 1
  setSched s1 { s1.sched with launches := mmap s1.sched.launches (fun _ l =>
    if l.nodes.any (fun n => n.wid = o.wid) then { l with preempts := l.preempts + 1 } else l) }

end Sys2Proof.Machine
end

