-- ==== Sys2Proof/Machine/Rings.lean ====
section
/-! DEFINITION. Rings: the doorbell record, the steps of an entry, retirement and the advance of RETIRED, ring errors, and the
settling of what a signal or a retirement releases (10 R408 to R440; 11 R458). -/
namespace Sys2Proof.Machine

/-- The key of ring `i` of partition `p` (10 R408). -/
def rkey (p i : Nat) : Nat :=
  p * 1024 + i

/-- The partition of a ring's key. -/
def rpart (rk : Nat) : Nat :=
  rk / 1024

/-- A device write of one 8-byte word of the doorbell record (10 R426). -/
def dbWrite (s : State) (rk : Nat) (r : Ring) (off v : Nat) : State :=
  emit s (.hostWrite (rpart rk) (r.doorbell + off) (leBytes 8 v))

/-- The ring with entry `wid` replaced by `f` of it. -/
def updEntry (r : Ring) (wid : Nat) (f : Entry → Entry) : Ring :=
  { r with entries := r.entries.map (fun e => if e.wid = wid then f e else e) }

/-- The entry has retired. -/
def isDone (e : Entry) : Bool :=
  match e.step with
  | .done _ => true
  | _ => false

/-- The entry has passed every step of 10 R417. -/
def passed (e : Entry) : Bool :=
  match e.step with
  | .work => true
  | .done _ => true
  | _ => false

/-- The entry has passed step 3, so a stop or a ring error keeps it (10 R433). -/
def past3 (e : Entry) : Bool :=
  match e.step with
  | .start => false
  | .wait => false
  | .barrier => false
  | .payload => false
  | _ => true

/-- The CALL's COUNT (10 R416). -/
def callCount (e : Entry) : Nat :=
  fAt e.bytes 16 12 0

/-- The entry is a CALL. -/
def isCall (e : Entry) : Bool :=
  eKind e.bytes = 0x0D && e.inCall.isNone

/-- A CALL has begun and buffer entries of it have yet to be fetched. -/
def callShort (e : Entry) : Bool :=
  isCall e && e.step = .work && e.bufFetched < callCount e

/-- The first entry that has not passed every step; none while a CALL still fetches what comes next (10 R417, R422). -/
def headFrom (l : List Entry) (open_ : Option Nat) : Option Entry :=
  match l with
  | [] => none
  | e :: r =>
    match open_ with
    | some c => if e.inCall = some c then (if passed e then headFrom r open_ else some e) else none
    | none =>
      if ! passed e then some e
      else headFrom r (if callShort e then some e.count else none)

/-- The entry at the head of the line of a ring. -/
def headEntry (r : Ring) : Option Entry :=
  headFrom r.entries none

/-- The entry counts as in flight: past step 3 and not retired (10 R418, R720). -/
def inFlightEntry (e : Entry) : Bool :=
  past3 e && ! isDone e

/-- A ring has an entry in flight. -/
def ringBusy (r : Ring) : Bool :=
  r.entries.any inFlightEntry

/-- A CALL whose first buffer entry has been dispatched (10 R720). -/
def callStarted (r : Ring) (e : Entry) : Bool :=
  isCall e && r.entries.any (fun b => b.inCall = some e.count && passed b)

/-- The origin of an entry's work, for records (10 R438). -/
def entryOrigin (rk : Nat) (r : Ring) (e : Entry) : Origin :=
  { wid := e.wid, part := rpart rk, ctx := r.ctx, ring := rk % 1024, entry := e.addr }

/-- The sequence number of a ring's count difference: (a − b) mod 2^32. -/
def cdiff (a b : Nat) : Nat :=
  (a + 2 ^ 32 - b) % 2 ^ 32

/-- A TAIL is valid (10 R426). -/
def tailValid (r : Ring) (t : Nat) : Bool :=
  cdiff t r.retired ≤ 2 ^ r.log2

/-- A valid TAIL is ahead of the ring (10 R426). -/
def tailAhead (r : Ring) (t : Nat) : Bool :=
  cdiff r.fetched r.retired < cdiff t r.retired

/-- Drops the references that an entry holds (11 R453). -/
def releaseEntry (s : State) (rk : Nat) (r : Ring) (e : Entry) : State :=
  let p := rpart rk
  let s1 := if e.waitRef && (findFence s p (eWaitFence e.bytes)).isSome then dropFence s (hKey (eWaitFence e.bytes)) else s
  let s2 := if e.sigRef && (findFence s1 p (eSignalFence e.bytes)).isSome then dropFence s1 (hKey (eSignalFence e.bytes))
    else s1
  if e.ctxRef then dropCtx s2 r.ctx else s2

/-- The signal of an entry that retires with a code (10 R419, 11 R458, R467). -/
def entrySignal (s : State) (rk : Nat) (e : Entry) (code : Nat) : State :=
  if eSignalEn e.bytes && (findFence s (rpart rk) (eSignalFence e.bytes)).isSome then
    if code = 0 then signalFence s (hKey (eSignalFence e.bytes)) (eSignalValue e.bytes) Engine.gantry
    else errorFence s (hKey (eSignalFence e.bytes)) code
  else s

/-- The run of retired entries at the front of a ring, popped: how many slots, and which of them send a message. -/
def popRun (l : List Entry) (n : Nat) (intr : Nat) : List Entry × Nat × Nat :=
  match l with
  | [] => ([], n, intr)
  | e :: r =>
    if isDone e then
      if e.inCall.isSome then popRun r n intr
      else popRun r (n + 1) (if eIntr e.bytes then intr + 1 else intr)
    else (e :: r, n, intr)

/-- A CALL with nothing of its buffer left to run completes with the code of 10 R422, R720. -/
def callCode (r : Ring) (e : Entry) : Nat :=
  if e.bufCode ≠ 0 then e.bufCode
  else (r.entries.findSome? (fun b =>
    if b.inCall = some e.count then
      match b.step with
      | .done c => if c ≠ 0 then some c else none
      | _ => none
    else none)).getD 0

/-- CALLs of a ring whose buffer has ended are finished (10 R422). -/
def finishCalls (s : State) (rk : Nat) : State :=
  match mget s.host.rings rk with
  | none => s
  | some r =>
    (r.entries.filter (fun e => isCall e && e.step = .work)).foldl (fun s e =>
      let bs := r.entries.filter (fun b => b.inCall = some e.count)
      let ended := (callCount e ≤ e.bufFetched || e.bufCode ≠ 0 || r.state = .error) && bs.all isDone
      if ended then finish s e.wid (callCode r e) else s) s

/-- RETIRED advances over the oldest unbroken run of retired slots, and is written to the doorbell record; the messages of the
covered entries follow the write (10 R419). -/
def popRetired (s : State) (rk : Nat) : State :=
  match mget s.host.rings rk with
  | none => s
  | some r =>
    let (l, n, k) := popRun r.entries 0 0
    if n = 0 then s
    else
      let r1 := { r with entries := l, retired := (r.retired + n) % 2 ^ 32 }
      let s1 := dbWrite (setRing s rk r1) rk r1 0x10 r1.retired
      foldN k (fun _ s => sendMsix s (rpart rk) r.vector) s1

/-- The code of a ring's state (10 R411). -/
def ringCode (s : State) (rk : Nat) : Nat :=
  match mget s.host.rings rk with
  | none => 0
  | some r => match r.state with
    | .active => 1
    | .idle => 2
    | .stopping => 3
    | .stopped => 4
    | .error => 5

/-- A ring command ends: RING_CMD_STATUS holds the ring's state and the result, BUSY clear (10 R412, R414). -/
def ringResult (s : State) (rk result : Nat) : State :=
  wr s (pkey (rpart rk) Reg.ringCmdStatus) (BitVec.ofNat 64 (ringCode s rk * 2 + result * 256))

/-- A ring is freed: it leaves its index, and its context loses a device reference (10 R410, 11 R453). -/
def freeRing (s : State) (rk : Nat) : State :=
  match mget s.host.rings rk with
  | none => s
  | some r => dropCtx { s with host := { s.host with rings := mdel s.host.rings rk } } r.ctx

/-- A RESUME takes effect (10 R410): zero to the ERROR word, ACTIVE, fetching from RETIRED. -/
def doResume (s : State) (rk : Nat) (r : Ring) : State :=
  dbWrite (setRing s rk { r with
    state := .active, errorWord := 0, fetched := r.retired, lastTail := r.retired, tailSince := s.dtime, entries := [],
    waitFor := none, poll := false, pollFresh := false, d2 := false, d2Fresh := false, wake := false }) rk r 0x18 0

/-- A ring command that waited for entries in flight completes once none is left (10 R410). -/
def checkDrain (s : State) (rk : Nat) : State :=
  match mget s.host.rings rk with
  | none => s
  | some r =>
    if ringBusy r then s
    else match r.waitFor with
      | none => s
      | some .stop =>
        ringResult (setRing s rk { r with state := if r.state = .error then .error else .stopped, waitFor := none }) rk 0
      | some .destroy => ringResult (freeRing s rk) rk 0
      | some .resume =>
        if ctxLive s r.ctx then ringResult (doResume s rk r) rk 0
        else ringResult (setRing s rk { r with waitFor := none }) rk 5

/-- The watchdog of a context restarts (11 R460). -/
def restartWatchdog (s : State) (k : Nat) : State :=
  match mget s.host.ctxs k with
  | some c => setCtx s k { c with wdRestart := some s.dtime, wdHeld := 0, wdSince := c.wdSince.map (fun _ => s.dtime) }
  | none => s

/-- One more job of an account: of the request's for a REQUEST (12 R537, R542), of the context's for any other entry. -/
def countJob (s : State) (r : Ring) (e : Entry) : State :=
  if eKind e.bytes = 0x0B ∧ fAt e.desc 0 3 0 = 6 then chargeAcct s (r.ctx / 65536) (fAt e.desc 0x28 47 40) .jobs 1
  else charge s r.ctx .jobs 1

/-- An entry retires with a code: its signal, its references, its message (of a buffer entry), RETIRED and what waited for it
(10 R419, R422). -/
def retireEntry (s : State) (rk wid code : Nat) : State :=
  match mget s.host.rings rk with
  | none => s
  | some r =>
    match r.entries.find? (fun e => e.wid = wid) with
    | none => s
    | some e =>
      if isDone e then s
      else
        let s1 := setRing s rk (updEntry r wid (fun e => { e with step := .done code, counted := false }))
        let s2 := { s1 with host := { s1.host with finished := mdel s1.host.finished wid } }
        let s3 := restartWatchdog (releaseEntry (countJob (entrySignal s2 rk e code) r e) rk r e) r.ctx
        let s4 := if e.inCall.isSome && eIntr e.bytes then sendMsix s3 (rpart rk) r.vector else s3
        checkDrain (popRetired (finishCalls s4 rk) rk) rk

/-- The fetched entries that have not passed step 3 are discarded, those of a started CALL kept where `keepCall` (10 R433,
R720). -/
def discard (s : State) (rk : Nat) (keepCall : Bool) : State :=
  match mget s.host.rings rk with
  | none => s
  | some r =>
    let started := fun (c : Nat) => r.entries.any (fun e => e.count = c && callStarted r e)
    let keep := fun (e : Entry) =>
      match e.inCall with
      | some c => passed e || (started c && (keepCall || past3 e))
      | none => if isCall e then callStarted r e || isDone e else past3 e
    let s1 := (r.entries.filter (fun e => ! keep e)).foldl (fun s e => releaseEntry s rk r e) s
    match mget s1.host.rings rk with
    | none => s1
    | some r1 => setRing s1 rk { r1 with entries := r1.entries.filter keep, wake := false }

/-- A ring error (10 R439): the ring enters ERROR, its ERROR word is written, and its message is sent. A ring in ERROR stays as its
first error left it. -/
def ringError (s : State) (rk code count : Nat) : State :=
  let s1 := discard s rk false
  match mget s1.host.rings rk with
  | none => s1
  | some r =>
    if r.state = .error then s1 else
    let w := code + count * 2 ^ 32
    let s2 := setRing s1 rk { r with state := .error, errorWord := w, wake := false }
    checkDrain (finishCalls (sendMsix (dbWrite s2 rk r 0x18 w) (rpart rk) r.vector) rk) rk

/-- The detail words of RING_FORMAT (10 R439). -/
def formatDetail (reason source off payload : Nat) : List Byte :=
  leBytes 1 reason ++ leBytes 1 source ++ leBytes 2 off ++ zeroBytes 4 ++ leBytes 8 payload

/-- An entry retires with RING_FORMAT and the ring enters ERROR (10 R439). -/
def formatError (s : State) (rk : Nat) (r : Ring) (e : Entry) (reason source off : Nat) : State :=
  let o := entryOrigin rk r e
  let s1 := appendRec s (workRec s o Cond.ringFormat Engine.gantry 0 0 (formatDetail reason source off (ePayload e.bytes)))
  ringError (retireEntry s1 rk e.wid Cond.ringFormat) rk Cond.ringFormat e.count

/-- A TAIL that breaks R426 stops the ring with no entry (10 R439). -/
def tailError (s : State) (rk : Nat) (r : Ring) : State :=
  let o : Origin := { wid := 0, part := rpart rk, ctx := r.ctx, ring := rk % 1024, entry := 0 }
  ringError (appendRec s (workRec s o Cond.ringFormat Engine.gantry 0 0 (formatDetail 8 0 0 0))) rk Cond.ringFormat r.fetched

/-- How a read failed, for RING_FETCH_ABORT: the failure and the condition code of a translation fault (10 R440). -/
def abortCause (f : XFault) : Nat × Nat :=
  if f.code = Cond.memUncorr then (6, 0)
  else if f.code = Cond.hostWindowAbort then (f.reason, 0)
  else (5, f.code)

/-- The record of RING_FETCH_ABORT (10 R440): its fault address is the address read. -/
def abortRecord (s : State) (rk : Nat) (r : Ring) (entry what failure code addr : Nat) : State :=
  let o : Origin := { wid := 0, part := rpart rk, ctx := r.ctx, ring := rk % 1024, entry := entry }
  appendRec s (workRec s o Cond.ringFetchAbort Engine.gantry 0 addr
    (leBytes 1 what ++ leBytes 1 failure ++ leBytes 2 code ++ zeroBytes 4 ++ leBytes 8 addr))

/-- A failed read of the doorbell record (10 R440). -/
def tailAbort (s : State) (rk : Nat) (r : Ring) (w : ReadFail) : State :=
  ringError (abortRecord s rk r 0 1 (failCode w) 0 (r.doorbell + 2 ^ 63)) rk Cond.ringFetchAbort r.fetched

/-- A failed payload read (10 R440): the entry retires with RING_FETCH_ABORT and the ring enters ERROR. -/
def payloadAbort (s : State) (rk : Nat) (r : Ring) (e : Entry) (f : XFault) : State :=
  let (k, c) := abortCause f
  let s1 := abortRecord s rk r e.addr 4 k c (ePayload e.bytes)
  ringError (retireEntry s1 rk e.wid Cond.ringFetchAbort) rk Cond.ringFetchAbort e.count

/-- An entry that names no live fence (11 R458): a record that kills nothing, and the entry retires; the ring continues. -/
def handleInvalid (s : State) (rk : Nat) (r : Ring) (e : Entry) (h : Nat) : State :=
  retireEntry (appendRec s (workRec s (entryOrigin rk r e) Cond.handleInvalid Engine.gantry 0 0 (leBytes 4 h)))
    rk e.wid Cond.handleInvalid

/-- Every earlier entry of the ring has retired, the entry's own CALL excepted (10 R417 step 2). -/
def earlierDone (r : Ring) (e : Entry) : Bool :=
  (r.entries.takeWhile (fun x => x.wid ≠ e.wid)).all (fun x =>
    isDone x || (x.inCall.isNone && e.inCall = some x.count))

/-- Work of the ring may begin its steps: the ring runs, or stops while a started CALL runs on (10 R411, R720). -/
def mayAdvance (r : Ring) (e : Entry) : Bool :=
  match r.state with
  | .active => true
  | .idle => true
  | .stopping => e.inCall.isSome
  | _ => false

/-- Steps 1 and 2 of 10 R417 for the entry at the head of a ring's line: its wait, then its barrier. -/
def advanceHead (s : State) (rk : Nat) (r : Ring) (e : Entry) : State :=
  let p := rpart rk
  let toBarrier := fun (s : State) (r : Ring) (e : Entry) =>
    if (eBarrier e.bytes || eSerial e.bytes) && ! earlierDone r e then
      setRing s rk (updEntry r e.wid (fun e => { e with step := .barrier }))
    else setRing s rk (updEntry r e.wid (fun e => { e with step := .payload, step2End := s.dtime }))
  let judge := fun (s : State) (r : Ring) (e : Entry) =>
    match findFence s p (eWaitFence e.bytes) with
    | none => handleInvalid s rk r e (eWaitFence e.bytes)
    | some f =>
      if reached f.value (eWaitValue e.bytes) then toBarrier s r e
      else match f.err with
        | some c => retireEntry s rk e.wid c
        | none => setRing s rk (updEntry r e.wid (fun x => { x with step := .wait }))
  match e.step with
  | .start =>
    if ! eWaitEn e.bytes then toBarrier s r e
    else match findFence s p (eWaitFence e.bytes) with
      | none => handleInvalid s rk r e (eWaitFence e.bytes)
      | some _ =>
        let s1 := holdFence s (hKey (eWaitFence e.bytes))
        let r1 := updEntry r e.wid (fun x => { x with waitRef := true, since := s.dtime })
        judge s1 r1 { e with waitRef := true, since := s.dtime }
  | .wait => judge s r e
  | .barrier => if earlierDone r e then toBarrier s r e else s
  | _ => s

/-- One round: the head of every ring's line is looked at once. -/
def settleRound (s : State) : State :=
  s.host.rings.foldl (fun s x =>
    match mget s.host.rings x.1 with
    | none => s
    | some r => match headEntry r with
      | none => s
      | some e => if mayAdvance r e then advanceHead s x.1 r e else s) s

/-- The entries fetched and not retired. -/
def liveEntries (s : State) : Nat :=
  (s.host.rings.map (fun x => x.2.entries.length)).foldl (· + ·) 0

/-- Work that names a module is outstanding: a dispatch that has passed step 3, a job or a render pass (05 R182). -/
def moduleUsed (s : State) (key : Nat) : Bool :=
  let gen := ((mget s.core.modules key).map (fun m => m.gen)).getD 0
  let names := fun (p : Nat) (d : List Byte) =>
    p * 4096 + fAt d 0 11 0 = key && fAt d 0 31 17 = gen
  s.core.jobs.any (fun j => j.2.modKey = key) ||
    s.raster.passes.any (fun p => p.2.draws.any (names p.2.org.part)) ||
    s.host.rings.any (fun r => r.2.entries.any (fun e => eKind e.bytes = 0x01 && inFlightEntry e && names (rpart r.1) e.desc))

/-- A waiting UNLOAD frees its module once no work names it, and completes (05 R182). -/
def settleUnloads (s : State) : State :=
  s.core.modUnloads.foldl (fun s u =>
    if moduleUsed s u.2 then s
    else finish { s with core := { s.core with modules := mdel s.core.modules u.2, modUnloads := mdel s.core.modUnloads u.1 } } u.1 0) s

/-- The condition of A1 (15 R611): no ring is ACTIVE, no work is placed or saved, no launch or session is in progress, and no copy,
scrub, retirement or promotion runs. -/
def a1Idle (s : State) : Bool :=
  s.host.rings.all (fun r => r.2.state != .active) && s.core.jobs.isEmpty && s.core.items.isEmpty && s.core.savedRuns.isEmpty &&
    s.core.loads.isEmpty && s.core.cores.all (fun c => c.2.wgs.isEmpty && c.2.tiles.isEmpty) && s.raster.passes.isEmpty &&
    s.sched.launches.isEmpty && ! s.sched.serve.active && s.sched.load.isNone && s.sched.copies.all (fun c => c.2.isEmpty) &&
    s.sched.copyWait.isEmpty && s.sched.crush.isEmpty && s.sched.crushWait.isEmpty && s.mem.retireQ.isEmpty && s.site.drains.isEmpty

/-- Since when the condition of A1 holds (15 R611). -/
def noteIdle (s : State) : State :=
  if a1Idle s then
    match s.power.idleSince with
    | some _ => s
    | none => setPower s { s.power with idleSince := some s.dtime }
  else setPower s { s.power with idleSince := none }

/-! Plans that are unloaded (12 R530). -/

/-- The plan slot that a LAUNCH entry of partition `p` names; none for any other entry (12 R518, R519). -/
def launchSlot (p : Nat) (e : Entry) : Option Nat :=
  if eKind e.bytes = 0x0A && fAt e.desc 0 1 0 = 0 then some (p * 256 + fAt e.desc 8 7 0) else none

/-- The entry has passed step 4 and has not retired. -/
def admitted (e : Entry) : Bool :=
  match e.step with
  | .gate => true
  | .ready => true
  | .work => true
  | _ => false

/-- The model object ends once DESTROY has been and no device reference is left (12 R534). -/
def settleModel (s : State) : State :=
  if s.sched.modelDying && s.sched.modelRefs = 0 then setSched s { s.sched with model := false, modelDying := false } else s

/-- A plan leaves its slot: its references to its context and to the model are dropped (12 R530). -/
def freePlan (s : State) (slot : Nat) : State :=
  match mget s.sched.plans slot with
  | none => s
  | some q =>
    let s1 := setSched s { s.sched with
      plans := mdel s.sched.plans slot, modelRefs := if q.model = 0 then s.sched.modelRefs else s.sched.modelRefs - 1 }
    settleModel (dropCtx s1 q.ctx)

/-- A launch of a plan is in flight, or has passed step 3. -/
def planUsed (s : State) (slot : Nat) : Bool :=
  s.sched.launches.any (fun l => l.2.plan = slot) ||
    s.host.rings.any (fun r => r.2.entries.any (fun e =>
      launchSlot (rpart r.1) e = some slot && past3 e && ! isDone e && e.step != .work))

/-- A waiting UNLOAD frees its plan once the plan's launches have retired, and completes. -/
def settlePlans (s : State) : State :=
  s.sched.unloads.foldl (fun s u =>
    if planUsed s u.2 then s
    else finish (setSched (freePlan s u.2) { (freePlan s u.2).sched with unloads := mdel s.sched.unloads u.1 }) u.1 0) s

/-! Steps 1 and 2 of plan nodes (12 R526, R528). -/

/-- The code with which a node has completed. -/
def doneCode (n : NodeSt) : Option Nat :=
  match n.step with
  | .done c => some c
  | _ => none

/-- The codes of a node's predecessors, lowest index first; none while one of them has not completed. -/
def predCodes (l : Launch) (n : NodeSt) : Option (List Nat) :=
  let idx := (List.range l.nodes.length).filter (fun i => (nodePreds n.node).contains i)
  let codes := idx.map (fun i => (l.nodes[i]?).bind doneCode)
  if codes.all (fun c => c.isSome) then some (codes.filterMap id) else none

/-- The origin of a node's work. -/
def nodeOrigin (l : Launch) (n : NodeSt) : Origin :=
  { l.org with wid := n.wid }

/-- A node names no live fence (11 R458): it fails, with a record that kills nothing. -/
def nodeInvalid (s : State) (l : Launch) (n : NodeSt) (h : Nat) : State :=
  finish (appendRec s (workRec s { l.from_ with wid := n.wid } Cond.handleInvalid Engine.gantry 0 0 (leBytes 4 h))) n.wid Cond.handleInvalid

/-- The fence wait of a node (12 R526 step 2). -/
def judgeNode (s : State) (l : Launch) (n : NodeSt) : State :=
  let pass := updNode s n.wid (fun n => { n with step := .check })
  if ! nWaitEn n.node then pass
  else match findFence s l.org.part (nWaitFence n.node) with
    | none => nodeInvalid s l n (nWaitFence n.node)
    | some f =>
      if reached f.value (nWaitValue n.node) then pass
      else match f.err with
        | some c => finish s n.wid c
        | none => updNode s n.wid (fun n => { n with step := .fence })

/-- A node whose predecessors have completed makes its wait; where one of them failed, it completes without running, with the code of
the lowest-indexed that did (12 R526, R528). -/
def advanceNode (s : State) (l : Launch) (n : NodeSt) : State :=
  if (mget s.host.finished n.wid).isSome then s
  else match n.step with
    | .preds => match predCodes l n with
      | none => s
      | some codes => match codes.find? (fun c => c ≠ 0) with
        | some c => finish s n.wid c
        | none => judgeNode (updNode s n.wid (fun n => { n with since := s.dtime })) l n
    | .fence => judgeNode s l n
    | _ => s

/-- Every node of every launch of a live context is looked at. -/
def settleNodes (s : State) : State :=
  s.sched.launches.foldl (fun s x =>
    if ctxLive s x.2.org.ctx then x.2.nodes.foldl (fun s n => advanceNode s x.2 n) s else s) s

/-- What a signal or a retirement releases proceeds (10 R417, 11 R469): rounds until nothing can move. -/
def settle (s : State) : State :=
  noteIdle (leaveA1 (noteConds (settleNodes (settlePlans (settleUnloads (foldN (2 * liveEntries s + 1) (fun _ s => settleRound s) s))))))

/-- Entries and nodes that count toward the in-flight limits, of one partition or of the device (10 R418). -/
def inFlight (s : State) (p : Option Nat) : Nat :=
  (s.host.rings.map (fun x =>
    if p = none ∨ p = some (rpart x.1) then (x.2.entries.filter (fun e => e.counted)).length else 0)).foldl (· + ·) 0 +
    (s.sched.launches.map (fun x =>
      if p = none ∨ p = some x.2.org.part then (x.2.nodes.filter (fun n => n.counted)).length else 0)).foldl (· + ·) 0

/-- Further dispatch of a context is held (12 R533 L1): its segment table holds a MODEL segment. -/
def swapHeldBack (s : State) (k : Nat) : Bool :=
  s.sched.swapHeld && (((mget s.host.ctxs k).map (fun c => c.segs.any (fun g => g.kind = .model))).getD false)

/-- The entry ready for step 6 at the head of a ring, of one kind, whose partition and context may dispatch (10 R405, R417;
09 R357; 11 R478; 12 R533). -/
def readyEntry (s : State) (p i kind : Nat) : Option (Ring × Entry) :=
  match mget s.host.rings (rkey p i) with
  | none => none
  | some r => match headEntry r with
    | none => none
    | some e =>
      if e.step = .ready ∧ eKind e.bytes = kind ∧ ! (partOf s p).destroying ∧ rdF s Reg.errStatus 1 1 = 0 ∧
          ! swapHeldBack s r.ctx ∧ ((mget s.host.ctxs r.ctx).map (fun c => c.live)).getD false then some (r, e)
      else none

/-- The entry is dispatched: it holds a reference to its context until it retires (11 R453). -/
def dispatched (s : State) (rk : Nat) (r : Ring) (e : Entry) : State :=
  holdCtx (setRing s rk (updEntry r e.wid (fun e => { e with step := .work, ctxRef := true }))) r.ctx

/-- The entry retires at step 6, its work done within the step. -/
def doneAtOnce (s : State) (rk : Nat) (r : Ring) (e : Entry) (code : Nat) : State :=
  settle (retireEntry (dispatched s rk r e) rk e.wid code)

/-- The ring that holds an entry at work. -/
def ringOfWid (s : State) (wid : Nat) : Option Nat :=
  (s.host.rings.find? (fun x => x.2.entries.any (fun e => e.wid = wid && e.step = .work))).map (fun x => x.1)

end Sys2Proof.Machine
end

