-- ==== Sys2Proof/Machine/Copy.lean ====
section
/-! DEFINITION. The copy engines (10 R421, R718; 08 R334 to R338; 09 R364 to R366; 12 R516): placement of copies, cache
operations and scrub passes, one block, line or page at a time, preemption and completion. -/
namespace Sys2Proof.Machine

/-- The operations that copy engine `c` holds. -/
def copiesOf (s : State) (c : Nat) : List CopyOp :=
  mgetD s.sched.copies c []

def setCopies (s : State) (c : Nat) (l : List CopyOp) : State :=
  setSched s { s.sched with copies := msetD s.sched.copies c l [] }

/-- The copy engine in service that holds the fewest operations, the lowest-numbered among equals (10 R718, 11 R490). -/
def leastCopy (s : State) : Nat :=
  match (List.range 4).filter (fun c => engineUp s (Engine.copy c)) with
  | [] => 0
  | a :: r => r.foldl (fun b c => if (copiesOf s c).length < (copiesOf s b).length then c else b) a

/-- The counts of a scrub pass that has decoded nothing (09 R366). -/
def noScrub : ScrubCounts :=
  { pages := 0, corrected := 0, symbols := 0, uncorr := 0, lost := 0, maxSymbols := 0, retires := 0, firstUncorr := none }

/-- A new operation of a copy engine. -/
def newCopy (s : State) (o : Origin) (kind : CopyKind) (src dst bytes compl : Nat) : CopyOp :=
  { org := o, kind := kind, src := src, dst := dst, bytes := bytes, pos := 0, compl := compl, lines := 0, refused := 0,
    scrub := noScrub, start := none, readyAt := s.dtime, placedAt := 0, saved := none }

/-- An operation's time waiting is charged where it is placed first, its time saved where it is placed again (12 R542). -/
def chargePlaced (s : State) (op : CopyOp) : State :=
  match op.saved with
  | some (_, t) => charge s op.org.ctx .preempted (elapsed s t)
  | none => charge s op.org.ctx .queueWait (elapsed s op.readyAt)

/-- The room of an operation in the save pool, given back before a saved one is placed again (12 R504). -/
def freeSaved (s : State) (op : CopyOp) : State :=
  if op.saved.isSome then unreserve s op.org.part 4 else s

/-- The operation can be placed on a copy engine now (10 R718, 12 R500 to R506). -/
def copyFits (s : State) (op : CopyOp) : Bool :=
  (copiesOf s (leastCopy s)).length < 16 && engineUp s (Engine.copy (leastCopy s)) && mayPlace (freeSaved s op) op.org.ctx 4

/-- The stall timers of the units that snoop a ring's copy held their value while the copy was saved, since `t` (13 R571). -/
def holdStall (s : State) (op : CopyOp) (t : Nat) : State :=
  (List.range 8).foldl (fun s i =>
    let a := (rd s (Reg.markAttach (16 + i))).toNat
    if op.kind = .copy && bitsN a 2 0 = 2 && bitsN a 18 9 = op.org.ring && rdF s (Reg.markGrant (16 + i)) 4 0 = op.org.part then
      setMark s (16 + i) { markOf s (16 + i) with byteAt := ((markOf s (16 + i)).byteAt + elapsed s t) % 2 ^ 64 }
    else s) s

/-- Places an operation on the least-loaded engine (10 R718). -/
def putCopy (s : State) (op : CopyOp) : State :=
  let c := leastCopy s
  let s1 := reserve (freeSaved (chargePlaced s op) op) op.org.part 4
  let s2 := match op.saved with
    | some (a, t) => holdStall (restoreUnit s1 op.org (Engine.copy c) a 4096) op t
    | none => s1
  setCopies s2 c (copiesOf s2 c ++ [{ op with saved := none, placedAt := s.dtime }])

/-- An operation is ready: it is placed where its context holds or takes a slot and there is room, and waits otherwise. -/
def addCopy (s : State) (op : CopyOp) : State :=
  let s1 := takeSlot s op.org.ctx
  if copyFits s1 op then putCopy s1 op
  else setSched s1 { s1.sched with copyWait := s1.sched.copyWait ++ [op] }

/-- The operations that wait, in the order of R507. -/
def copyRank (s : State) (op : CopyOp) : List Nat :=
  rankOf s op.org.ctx op.org.wid op.readyAt

/-- Room frees on the copy engines: the first-ranked waiting operation that fits is placed (12 R507). -/
def placeCopy (s : State) : State :=
  let ready := s.sched.copyWait.filter (fun op => copyFits (takeSlot s op.org.ctx) op)
  match bestIdx (copyRank s) ready with
  | none => s
  | some i => match ready[i]? with
    | none => s
    | some op =>
      let s1 := takeSlot s op.org.ctx
      putCopy (setSched s1 { s1.sched with copyWait := s1.sched.copyWait.filter (fun x => x.org.wid ≠ op.org.wid) }) op

/-! Records. -/

/-- A count clipped to `bits` bits, and whether it was. -/
def clip (bits n : Nat) : Nat :=
  min n (2 ^ bits - 1)
def overflows (bits n : Nat) : Nat :=
  b2n (2 ^ bits ≤ n)

/-- The completion record of a cache operation (08 R338). -/
def cacheRecord (s : State) (op : CopyOp) (code : Nat) : List Byte :=
  leBytes 2 code ++ leBytes 2 (overflows 32 op.lines + 2 * overflows 32 op.refused) ++ leBytes 4 (clip 32 op.lines) ++
    leBytes 4 (clip 32 op.refused) ++ zeroBytes 4 ++ leBytes 8 (op.start.getD s.dtime) ++ leBytes 8 s.dtime

/-- The summary record of a scrub pass (09 R366). -/
def scrubRecord (s : State) (op : CopyOp) (code : Nat) : List Byte :=
  let q := op.scrub
  leBytes 2 code ++
    leBytes 2 (overflows 32 q.pages + 2 * overflows 32 q.corrected + 4 * overflows 32 q.symbols + 8 * overflows 32 q.uncorr + 16 * overflows 32 q.lost) ++
    leBytes 4 (clip 32 q.pages) ++ leBytes 4 (clip 32 q.corrected) ++ leBytes 4 (clip 32 q.symbols) ++
    leBytes 4 (clip 32 q.uncorr) ++ leBytes 4 (clip 32 q.lost) ++ leBytes 2 (clip 16 q.maxSymbols) ++
    leBytes 2 (clip 16 q.retires) ++ zeroBytes 4 ++ leBytes 8 (q.firstUncorr.getD (2 ^ 64 - 1)) ++
    leBytes 8 (op.start.getD s.dtime) ++ leBytes 8 s.dtime ++ zeroBytes 8

/-- The record that an operation writes when it ends; a COPY has none (10 R421). -/
def copyRecord (s : State) (op : CopyOp) (code : Nat) : List Byte :=
  match op.kind with
  | .copy => []
  | .modelLoad => []
  | .scrub _ _ => scrubRecord s op code
  | _ => cacheRecord s op code

/-- Writes an operation's record; answers a fault of the write. -/
def writeCompl (s : State) (op : CopyOp) (code : Nat) : State × Option XFault :=
  if op.compl = 0 then (s, none)
  else engineWrite s 8 (.ctx op.org.ctx) .record op.compl (copyRecord s op code)

/-- An operation leaves its engine: its reservation is released. -/
def leaveCopy (s : State) (c : Nat) (op : CopyOp) : State :=
  setCopies (unreserve s op.org.part 4) c ((copiesOf s c).filter (fun x => x.org.wid ≠ op.org.wid))

/-- An operation ends: its record is written, and its work completes; a fault of that write is a memory fault (08 R337). -/
def endCopy (s : State) (c : Nat) (op : CopyOp) : State :=
  match writeCompl (leaveCopy s c op) op 0 with
  | (s1, none) => finish s1 op.org.wid 0
  | (s1, some f) => engineFault s1 op.org (Engine.copy c) f

/-- A fault stops an operation (08 R337): its record carries the code, and the fault is one of the context. -/
def faultCopy (s : State) (c : Nat) (op : CopyOp) (f : XFault) : State :=
  engineFault (writeCompl (leaveCopy s c op) op f.code).1 op.org (Engine.copy c) f

/-! One block, line or page. -/

/-- The bytes that a copy stores at destination offset `pos`: where source and destination overlap, free (10 R421). -/
def overlapped (seed : Nat) (op : CopyOp) (bs : List Byte) : List Byte :=
  let lo := max op.src op.dst
  let hi := min (op.src + op.bytes) (op.dst + op.bytes)
  (bs.zip (List.range bs.length)).map (fun e =>
    let a := op.dst + op.pos + e.2
    if lo ≤ a && a < hi then Config.overlapByte seed a else e.1)

/-- The source of a copy of a ring entry lies in a HOST segment (13 R569). -/
def fromHost (s : State) (op : CopyOp) : Bool :=
  match findSeg (tableOf s (.ctx op.org.ctx)) op.src with
  | some g => g.2.kind = .host && op.org.ring ≠ 0xFFFFFFFF
  | none => false

/-- One 128 B block of a copy; `ext` is what a read of host memory or of a peer returned. -/
def copyBlock (s : State) (op : CopyOp) (ext : HostRead) : State × (XFault ⊕ CopyOp) :=
  let n := min 128 (op.bytes - op.pos)
  match engineRead s 8 (.ctx op.org.ctx) .read (op.src + op.pos) n ext with
  | (s1, .inl f) => (s1, .inl f)
  | (s1, .inr bs) =>
    let (seed, s2) := draw s1
    let s3 := if fromHost s2 op then snoopRing s2 op.org.part op.org.ring (op.pos = 0) (op.bytes ≤ op.pos + n) bs else s2
    match engineWrite s3 8 (.ctx op.org.ctx) .write (op.dst + op.pos) (overlapped seed op bs) with
    | (s4, some f) => (s4, .inl f)
    | (s4, none) => (s4, .inr { op with pos := op.pos + n })

/-- The access that a cache operation makes (08 R316). -/
def cacheAcc (k : CopyKind) : Acc :=
  match k with
  | .zero => .cacheZero
  | _ => .cacheRead

/-- A line of a cache operation at memory line `la` (08 R336). Answers the sector that could not be fetched, and whether a
lock was refused. -/
def cacheLine (s : State) (k : CopyKind) (la p : Nat) : State × Option (Nat × Nat) × Bool :=
  match k with
  | .zero => (zeroLine s la, none, false)
  | .preload => ((preloadLine s la).1, (preloadLine s la).2, false)
  | .preloadLock =>
    match preloadLine s la with
    | (s1, some e) => (s1, some e, false)
    | (s1, none) => ((lockLine s1 la p).1, none, (lockLine s1 la p).2)
  | .unlock => (unlockLine s la p, none, false)
  | .writeback => (writebackLine s la, none, false)
  | _ => (s, none, false)

/-- One line of a cache operation (08 R337). -/
def cacheBlock (s : State) (op : CopyOp) : State × (XFault ⊕ CopyOp) :=
  let va := op.src + op.pos
  match xlate s 8 (.ctx op.org.ctx) (cacheAcc op.kind) va 128 with
  | (s1, .inl f) => (s1, .inl f)
  | (s1, .inr (.mem m _)) =>
    (match cacheLine s1 op.kind (m / 128) op.org.part with
      | (s2, some (bad, o), _) =>
        (s2, .inl { xfault Cond.memUncorr va (.ctx op.org.ctx) (cacheAcc op.kind)
          (findSeg (tableOf s1 (.ctx op.org.ctx)) va) 0 with mem := bad, outcome := o })
      | (s2, none, r) => (s2, .inr { op with pos := op.pos + 128, lines := op.lines + 1, refused := op.refused + b2n r }))
  | (s1, .inr _) => (s1, .inr { op with pos := op.pos + 128, lines := op.lines + 1 })

/-- How many sectors a decode found lost or mismatched. -/
def lostCount (l : List (Nat × SectorData)) : Nat :=
  (l.filter (fun e => ! isBytes e.2)).length

/-- A scrub decode of the page at memory address `mem` (09 R363, R365): counted as any decode, written back where `back`. -/
def scrubPage (s : State) (mem : Nat) (back : Bool) : State × PageRead :=
  let page := mem / 2048
  let t := tOf (strengthOf s mem)
  let s1 := bump64 s Reg.errDramSlowCount Reg.errStatus 3 1
  let (s2, r) := decodeFull s1 (physPage s page) (page * 2048) t (List.range 32) back
  let s3 := if r.symbols = 0 then s2 else countSymbols s2 page t r.symbols
  match firstLost r.sectors with
  | none => (s3, r)
  | some (k, o) => (uncorrNote s3 (page * 2048 + 64 * k) o, r)

/-- The counts of a pass with one more page (09 R366). -/
def scrubAdd (q : ScrubCounts) (r : PageRead) (addr trig : Nat) : ScrubCounts :=
  { pages := q.pages + 1, corrected := q.corrected + b2n (! r.failed && r.symbols ≠ 0), symbols := q.symbols + r.symbols,
    uncorr := q.uncorr + b2n r.failed, lost := q.lost + (if r.failed then 0 else lostCount r.sectors),
    maxSymbols := max q.maxSymbols r.symbols, retires := q.retires + trig,
    firstUncorr := if q.firstUncorr.isNone && (firstLost r.sectors).isSome then some addr else q.firstUncorr }

/-- One page of a scrub pass (09 R365). -/
def scrubBlock (s : State) (op : CopyOp) (byMem reportOnly : Bool) : State × (XFault ⊕ CopyOp) :=
  let a := op.src + op.pos
  let go := fun (s : State) (m : Nat) =>
    let n := s.mem.retireQ.length
    let (s1, r) := scrubPage s m (! reportOnly)
    ((s1, .inr { op with pos := op.pos + 2048, scrub := scrubAdd op.scrub r a (s1.mem.retireQ.length - n) }) :
      State × (XFault ⊕ CopyOp))
  if byMem then go s a
  else match xlate s 8 (.ctx op.org.ctx) .read a 2048 with
    | (s1, .inl f) => (s1, .inl f)
    | (s1, .inr (.mem m _)) => go s1 m
    | (s1, .inr _) => (s1, .inr { op with pos := op.pos + 2048 })

/-- The memory address at an offset of the model claim (12 R533). -/
def modelAddr (s : State) (off : Nat) : Nat :=
  s.mem.modelFirst * 2 ^ 30 + off

/-- One block of a model load that is not crushed (12 R533 L2): bytes of SRC to the model claim. -/
def loadBlock (s : State) (op : CopyOp) (ext : HostRead) : State × (XFault ⊕ CopyOp) :=
  let n := min 128 (op.bytes - op.pos)
  match engineRead s 8 (.ctx op.org.ctx) .read (op.src + op.pos) n ext with
  | (s1, .inl f) => (s1, .inl f)
  | (s1, .inr bs) =>
    let s2 := (memWrite s1 (modelAddr s1 op.pos) bs).1
    (setSched s2 { s2.sched with load := s2.sched.load.map (fun l => { l with written := op.pos + n }) },
      .inr { op with pos := op.pos + n })

/-- The next block, line or page of an operation. -/
def copyUnit (s : State) (op : CopyOp) (ext : HostRead) : State × (XFault ⊕ CopyOp) :=
  match op.kind with
  | .copy => copyBlock s op ext
  | .scrub m r => scrubBlock s op m r
  | .modelLoad => loadBlock s op ext
  | _ => cacheBlock s op

/-- The result record of a model operation, where it has one (12 R531): the model handle, the retirement code and DTIME. Answers the code
of a fault of the write, which is one of the context, or 0. -/
def modelRecord (s : State) (o : Origin) (addr code : Nat) : State × Nat :=
  let h := if s.sched.model then mkHandle tyModel 0 s.sched.modelGen else 0
  if addr = 0 then (s, 0)
  else match engineWrite s 8 (.ctx o.ctx) .record addr (leBytes 4 h ++ leBytes 2 code ++ zeroBytes 2 ++ leBytes 8 s.dtime) with
    | (s1, none) => (s1, 0)
    | (s1, some f) => (raise s1 o f.code Engine.gantry f.va (xdetail s1 f), f.code)

/-- A model load has written its last byte; its entry completes at L3 (12 R533). -/
def endLoadCopy (s : State) (c : Nat) (op : CopyOp) : State :=
  let s1 := leaveCopy s c op
  setSched s1 { s1.sched with load := s1.sched.load.map (fun l => { l with ended := true }) }

/-- A source that cannot be read stops a model load: a memory fault of the context; LIVE stays 0 (12 R533). -/
def failLoadCopy (s : State) (c : Nat) (op : CopyOp) (f : XFault) : State :=
  let s1 := leaveCopy s c op
  engineFault (setSched s1 { s1.sched with load := none }) op.org (Engine.copy c) f

/-- An operation that has no byte left ends. -/
def copyEnd (s : State) (c : Nat) (op : CopyOp) : State :=
  match op.kind with
  | .modelLoad => endLoadCopy s c op
  | _ => endCopy s c op

/-- An operation stops on a fault. -/
def copyFault (s : State) (c : Nat) (op : CopyOp) (f : XFault) : State :=
  match op.kind with
  | .modelLoad => failLoadCopy s c op f
  | _ => faultCopy s c op f

/-- Copy engine `c` performs one unit of an operation it holds, and ends it after its last. -/
def copyStep (s : State) (c : Nat) (op : CopyOp) (ext : HostRead) : State :=
  let op1 := { op with start := some (op.start.getD s.dtime) }
  if op1.bytes ≤ op1.pos then copyEnd s c op1
  else match copyUnit s op1 ext with
    | (s0, .inl f) => copyFault (claimReqs s0 op1.org (Engine.copy c) 0xFFFF 0) c op1 f
    | (s0, .inr op2) =>
      let s1 := claimReqs s0 op1.org (Engine.copy c) 0xFFFF 0
      if op2.bytes ≤ op2.pos then copyEnd s1 c op2
      else setCopies s1 c ((copiesOf s1 c).map (fun x => if x.org.wid = op2.org.wid then op2 else x))

/-- The operation that an engine continues with: the first-ranked it holds (10 R718). -/
def copyNext (s : State) (c : Nat) : Option CopyOp :=
  (bestIdx (copyRank s) (copiesOf s c)).bind (fun i => (copiesOf s c)[i]?)

/-- COPY_ENGINE_BOUNDARY (10 R718): the first-ranked operation passes its next block, line or page. -/
def execCopyEngineBoundary (engine : BitVec 2) (ext : HostRead) (s : State) : Host.Outcome State Fault Refusal :=
  match copyNext s engine.toNat with
  | some op => .next (settle (copyStep s engine.toNat op ext))
  | none => .next s

/-- An operation is preempted at its boundary (12 R509, R516): its position is saved in the pool, and it is ready again. -/
def preemptCopy (s : State) (c : Nat) (op : CopyOp) : State :=
  let s1 := setCopies s c ((copiesOf s c).filter (fun x => x.org.wid ≠ op.org.wid))
  let (s2, a) := saveUnit (countPreempt s1 op.org) op.org (Engine.copy c) 4096
  noteConds (setSched s2 { s2.sched with
    copyWait := s2.sched.copyWait ++ [{ op with saved := some (a, s2.dtime), readyAt := s2.dtime }] })

/-- A preemption that was asked for has been made. -/
def stopMade (s : State) (engine wid : Nat) : State :=
  setSched s { s.sched with stopOps := s.sched.stopOps.filter (fun x => x ≠ (engine, wid)) }

/-- COPY_PREEMPTION (12 R516): an operation whose preemption was asked for stops at its block, line or page. -/
def execCopyPreemption (engine : BitVec 2) (wid : Nat) (s : State) : Host.Outcome State Fault Refusal :=
  match (copiesOf s engine.toNat).find? (fun op => op.org.wid = wid) with
  | some op =>
    if s.sched.stopOps.contains (Engine.copy engine.toNat, wid) || s.sched.stopCtx.contains (Engine.copy engine.toNat, op.org.ctx) then
      .next (preemptCopy (stopMade s (Engine.copy engine.toNat) wid) engine.toNat op)
    else .next s
  | none => .next s

/-! Dispatch at step 6 of 10 R417. -/

/-- The copy that a checked descriptor asks for (10 R421). -/
def copyOf (s : State) (o : Origin) (d : List Byte) : CopyOp :=
  newCopy s o .copy (fAt d 0 47 0) (fAt d 8 47 0) (fAt d 16 31 0) 0

/-- The kind of cache operation of a code (08 R336). -/
def cacheKind (op : Nat) : Option CopyKind :=
  match op with
  | 1 => some .zero
  | 2 => some .preload
  | 3 => some .preloadLock
  | 4 => some .unlock
  | 5 => some .writeback
  | _ => none

/-- The cache operation that a checked descriptor asks for (08 R335). -/
def cacheOf (s : State) (o : Origin) (d : List Byte) : CopyOp :=
  newCopy s o ((cacheKind (fAt d 0 3 0)).getD .zero) (fAt d 8 47 0) 0 (fAt d 16 31 0) (fAt d 24 47 0)

/-- The scrub pass that a checked descriptor asks for (09 R364): of a memory address, only its 37 bits are used. -/
def scrubOf (s : State) (o : Origin) (d : List Byte) : CopyOp :=
  newCopy s o (.scrub (fAt d 0 0 0 = 1) (fAt d 0 1 1 = 1)) (if fAt d 0 0 0 = 1 then fAt d 8 36 0 else fAt d 8 47 0) 0
    (fAt d 16 31 0) (fAt d 24 47 0)

/-- Dispatches the entry at the head of a ring to a copy engine. -/
def dispatchCopy (s : State) (p i : Nat) (r : Ring) (e : Entry) (op : CopyOp) : State :=
  settle (addCopy (dispatched s (rkey p i) r e) op)

/-- COPY (10 R421). -/
def execCopy (p : Part) (ring : BitVec 10) (s : State) : Host.Outcome State Fault Refusal :=
  match readyEntry s p.toNat ring.toNat 0x04 with
  | some (r, e) =>
    .next (dispatchCopy s p.toNat ring.toNat r e (copyOf s (entryOrigin (rkey p.toNat ring.toNat) r e) e.desc))
  | none => .next s

/-- The entry at the head of a ring, ready, a cache operation of code `op`. -/
def readyCache (s : State) (p i op : Nat) : Option (Ring × Entry) :=
  match readyEntry s p i 0x05 with
  | some (r, e) => if fAt e.desc 0 3 0 = op then some (r, e) else none
  | none => none

/-- Dispatches the cache operation at the head of a ring. -/
def dispatchCache (s : State) (p i : Nat) (r : Ring) (e : Entry) : State :=
  dispatchCopy s p i r e (cacheOf s (entryOrigin (rkey p i) r e) e.desc)

/-- ZERO (08 R336). -/
def execZero (p : Part) (ring : BitVec 10) (s : State) : Host.Outcome State Fault Refusal :=
  match readyCache s p.toNat ring.toNat 1 with
  | some (r, e) => .next (dispatchCache s p.toNat ring.toNat r e)
  | none => .next s

/-- PRELOAD (08 R336). -/
def execPreload (p : Part) (ring : BitVec 10) (s : State) : Host.Outcome State Fault Refusal :=
  match readyCache s p.toNat ring.toNat 2 with
  | some (r, e) => .next (dispatchCache s p.toNat ring.toNat r e)
  | none => .next s

/-- PRELOAD_LOCK (08 R336). -/
def execPreloadLock (p : Part) (ring : BitVec 10) (s : State) : Host.Outcome State Fault Refusal :=
  match readyCache s p.toNat ring.toNat 3 with
  | some (r, e) => .next (dispatchCache s p.toNat ring.toNat r e)
  | none => .next s

/-- UNLOCK (08 R336). -/
def execUnlock (p : Part) (ring : BitVec 10) (s : State) : Host.Outcome State Fault Refusal :=
  match readyCache s p.toNat ring.toNat 4 with
  | some (r, e) => .next (dispatchCache s p.toNat ring.toNat r e)
  | none => .next s

/-- WRITEBACK (08 R336). -/
def execWriteback (p : Part) (ring : BitVec 10) (s : State) : Host.Outcome State Fault Refusal :=
  match readyCache s p.toNat ring.toNat 5 with
  | some (r, e) => .next (dispatchCache s p.toNat ring.toNat r e)
  | none => .next s

/-- SCRUB (09 R364). -/
def execScrub (p : Part) (ring : BitVec 10) (s : State) : Host.Outcome State Fault Refusal :=
  match readyEntry s p.toNat ring.toNat 0x06 with
  | some (r, e) =>
    .next (dispatchCopy s p.toNat ring.toNat r e (scrubOf s (entryOrigin (rkey p.toNat ring.toNat) r e) e.desc))
  | none => .next s

end Sys2Proof.Machine
end

