-- ==== Sys2Proof/Machine/Crusher.lean ====
section
/-! DEFINITION. The Crusher engines (13 R549 to R563): the stream format, its decoder and compressor, operations block by block, and
preemption. -/
namespace Sys2Proof.Machine

/-! Tokens (13 R552, R553). -/

/-- A failure of a block (13 R560): its code, reason, the offset of the token in the payload and the bytes decoded. -/
structure CodecFail where
  code : Nat
  reason : Nat
  token : Nat
  decoded : Nat
  deriving DecidableEq, Repr

/-- Copies `n` bytes one at a time from `k` bytes back; the decoded bytes are held last first. -/
def copyBack (n k : Nat) (o : List Byte) : List Byte :=
  match n with
  | 0 => o
  | m + 1 => copyBack m k (lget o (k - 1) 0 :: o)

/-- A token: its bytes after the code byte, its length and its distance (0: a literal run); none for a reserved code. -/
def tokenOf (t : Nat) (rest : List Byte) : Option (Nat × Nat × Nat) :=
  if t < 0x40 then some (t + 1, t + 1, 0)
  else if t < 0x80 then some (1, t / 8 % 8 + 3, t % 8 * 256 + fieldAt rest 0 1 + 1)
  else if t < 0xC0 then some (2, t % 64 + 3, fieldAt rest 0 2 + 1)
  else if t < 0xE0 then some (3, 67 + t % 32 * 256 + fieldAt rest 0 1, fieldAt rest 1 2 + 1)
  else none

/-- Decodes the tokens of a payload from offset `at_`, `o` being the bytes decoded so far, last first (13 R553, R560 step 4). -/
def lzDecode (fuel raw at_ : Nat) (p o : List Byte) : CodecFail ⊕ List Byte :=
  let fail := fun (c r : Nat) => (.inl { code := c, reason := r, token := at_, decoded := o.length } : CodecFail ⊕ List Byte)
  match fuel, p with
  | _, [] => if o.length < raw then .inl { code := Cond.codecLength, reason := 3, token := 0, decoded := o.length } else .inr o.reverse
  | 0, _ => fail Cond.codecLength 1
  | f + 1, t :: rest =>
    match tokenOf t.toNat rest with
    | none => fail Cond.codecIllegal 1
    | some (k, n, d) =>
      if rest.length < k then fail Cond.codecLength 2
      else if o.length < d then fail Cond.codecDistance 1
      else if raw < o.length + n then fail Cond.codecLength 1
      else lzDecode f raw (at_ + 1 + k) (rest.drop k) (if d = 0 then (rest.take n).reverse ++ o else copyBack n d o)

/-! Block headers (13 R550, R551). -/

def bType (h : List Byte) : Nat := fieldAt h 2 1
def bLast (h : List Byte) : Bool := fieldAt h 3 1 % 2 = 1
def bRaw (h : List Byte) : Nat := fieldAt h 4 4
def bPay (h : List Byte) : Nat := fieldAt h 8 4
def bCheck (h : List Byte) : Nat := fieldAt h 12 4

/-- The lowest reason of CODEC_HEADER that a header gives (13 R560). -/
def headerReason (h : List Byte) : Option Nat :=
  if fieldAt h 0 1 ≠ 0xA7 then some 1
  else if fieldAt h 1 1 ≠ 1 then some 2
  else if 2 < bType h then some 3
  else if 1 < fieldAt h 3 1 then some 4
  else if bRaw h = 0 || 65536 < bRaw h then some 5
  else if bRaw h < 65536 && ! bLast h then some 6
  else if (bType h = 0 && (bPay h = 0 || bRaw h ≤ bPay h)) || (bType h = 1 && bPay h ≠ bRaw h) || (bType h = 2 && bPay h ≠ 1) then some 7
  else none

/-- The decoded bytes of a block, judged from its tokens to its CHECK (13 R560 steps 4 to 6). -/
def decodePayload (h p : List Byte) : CodecFail ⊕ List Byte :=
  let d := match bType h with
    | 0 => lzDecode (p.length + 1) (bRaw h) 0 p []
    | 1 => .inr p
    | _ => .inr (List.replicate (bRaw h) (lget p 0 0))
  match d with
  | .inl f => .inl f
  | .inr o => if crcOf crc32c o = bCheck h then .inr o
    else .inl { code := Cond.codecCheck, reason := 1, token := 0, decoded := o.length }

/-! The compressor (13 R554, R555). -/

/-- The tokens of a block: the compressor's, where they decode to it, and literal runs otherwise (log 40). -/
def tokensOf (b : List Byte) : List Byte :=
  let t := Config.lzTokens b
  if lzDecode (t.length + 1) b.length 0 t [] = .inr b then t
  else (piecesN 64 (b.length / 64 + 1) b).flatMap (fun q => BitVec.ofNat 8 (q.length - 1) :: q)
where
  piecesN (n fuel : Nat) (l : List Byte) : List (List Byte) :=
    match fuel with
    | 0 => []
    | f + 1 => if l.isEmpty then [] else l.take n :: piecesN n f (l.drop n)

/-- TYPE and payload of a block (13 R554). -/
def packBlock (b : List Byte) : Nat × List Byte :=
  if b.all (fun x => x = lget b 0 0) then (2, b.take 1)
  else if (tokensOf b).length < b.length then (0, tokensOf b)
  else (1, b)

/-- A block as written: its header and payload. -/
def blockBytes (b : List Byte) (last : Bool) : List Byte :=
  let (ty, p) := packBlock b
  leBytes 1 0xA7 ++ leBytes 1 1 ++ leBytes 1 ty ++ leBytes 1 (b2n last) ++ leBytes 4 b.length ++ leBytes 4 p.length ++
    leBytes 4 (crcOf crc32c b) ++ p

/-! Operations (13 R556 to R558). -/

def setCrush (s : State) (l : List CrushOp) : State :=
  setSched s { s.sched with crush := l }

/-- The operation that a checked descriptor asks for (13 R556). -/
def crushOf (s : State) (o : Origin) (d : List Byte) : CrushOp :=
  { org := o, kind := if fAt d 0 1 0 = 0 then .compress else if fAt d 0 1 0 = 1 then .decompress else .check,
    both := fAt d 0 2 2 = 1, engine := 0, src := fAt d 8 47 0, dst := fAt d 16 47 0, srcBytes := fAt d 24 39 0,
    dstBytes := fAt d 32 39 0, compl := fAt d 40 47 0, block := 0, inPos := 0, outPos := 0, last := false, stored := 0, fill := 0,
    preempts := 0, start := none, readyAt := s.dtime, placedAt := 0, saved := none }

/-- The operations that an engine serves. -/
def crushOn (s : State) (e : Nat) : List CrushOp :=
  s.sched.crush.filter (fun o => o.both || o.engine = e)

/-- An operation's room in the save pool, given back before it is placed again. -/
def freeCrush (s : State) (op : CrushOp) : State :=
  if op.saved.isSome then unreserve s op.org.part 4 else s

/-- The operation can be placed (12 R500 to R506): on an engine in service, or on both (11 R490). -/
def crushFits (s : State) (op : CrushOp) : Bool :=
  let up := fun (e : Nat) => engineUp s (Engine.crush e)
  mayPlace (freeCrush s op) op.org.ctx 4 && (if op.both then up 0 && up 1 else up 0 || up 1)

/-- Places an operation, on the engine that serves the fewest where it takes one. -/
def putCrush (s : State) (op : CrushOp) : State :=
  let e := if ! engineUp s (Engine.crush 0) then 1
    else if engineUp s (Engine.crush 1) && (crushOn s 1).length < (crushOn s 0).length then 1 else 0
  let s0 := match op.saved with
    | some (_, t) => charge s op.org.ctx .preempted (elapsed s t)
    | none => charge s op.org.ctx .queueWait (elapsed s op.readyAt)
  let s1 := reserve (freeCrush s0 op) op.org.part 4
  let s2 := match op.saved with
    | some (a, _) => restoreUnit s1 op.org (Engine.crush e) a 256
    | none => s1
  setCrush s2 (s2.sched.crush ++ [{ op with engine := e, saved := none, placedAt := s.dtime }])

/-- An operation is ready: it is placed where there is room, and waits otherwise. -/
def addCrush (s : State) (op : CrushOp) : State :=
  let s1 := takeSlot s op.org.ctx
  if crushFits s1 op then putCrush s1 op else setSched s1 { s1.sched with crushWait := s1.sched.crushWait ++ [op] }

/-- The rank of an operation (12 R507). -/
def crushRank (s : State) (op : CrushOp) : List Nat :=
  rankOf s op.org.ctx op.org.wid op.readyAt

/-- The first-ranked waiting operation that fits is placed (12 R507). -/
def placeCrush (s : State) : State :=
  let ready := s.sched.crushWait.filter (fun op => crushFits (takeSlot s op.org.ctx) op)
  match (bestIdx (crushRank s) ready).bind (fun i => ready[i]?) with
  | none => s
  | some op =>
    let s1 := takeSlot s op.org.ctx
    putCrush (setSched s1 { s1.sched with crushWait := s1.sched.crushWait.filter (fun x => x.org.wid ≠ op.org.wid) }) op

/-- An operation leaves its engines. -/
def leaveCrush (s : State) (op : CrushOp) : State :=
  setCrush (unreserve s op.org.part 4) (s.sched.crush.filter (fun x => x.org.wid ≠ op.org.wid))

/-- The completion record (13 R562); `fail` is the failing block. -/
def crushRecord (s : State) (op : CrushOp) (code fail : Nat) : List Byte :=
  leBytes 2 code ++
    leBytes 2 (overflows 32 op.block + 2 * overflows 32 op.stored + 4 * overflows 32 op.fill + 8 * overflows 32 op.preempts) ++
    leBytes 4 (clip 32 op.block) ++ leBytes 8 op.inPos ++ leBytes 8 op.outPos ++ leBytes 4 fail ++ leBytes 4 (clip 32 op.stored) ++
    leBytes 4 (clip 32 op.fill) ++ leBytes 4 (clip 32 op.preempts) ++ leBytes 8 (op.start.getD s.dtime) ++ leBytes 8 s.dtime ++
    zeroBytes 8

/-- Writes the completion record, where the operation has one. -/
def writeCrush (s : State) (op : CrushOp) (code fail : Nat) : State × Option XFault :=
  if op.compl = 0 then (s, none) else engineWrite s 8 (.ctx op.org.ctx) .record op.compl (crushRecord s op code fail)

/-- The model load in progress ends without reaching L3 (12 R533). -/
def loadOver (s : State) (op : CrushOp) : State :=
  if op.kind = .modelLoad then setSched s { s.sched with load := none } else s

/-- A memory fault stops an operation (13 R557). -/
def faultCrush (s : State) (e : Nat) (op : CrushOp) (f : XFault) : State :=
  engineFault (writeCrush (loadOver (leaveCrush s op) op) op f.code op.block).1 op.org (Engine.crush e) f

/-- An operation ends: its record is written and its work completes; a model load waits for L3. -/
def endCrush (s : State) (e : Nat) (op : CrushOp) : State :=
  let s1 := leaveCrush s op
  if op.kind = .modelLoad then setSched s1 { s1.sched with load := s1.sched.load.map (fun l => { l with ended := true }) }
  else match writeCrush s1 op 0 0xFFFFFFFF with
    | (s2, none) => finish s2 op.org.wid 0
    | (s2, some f) => engineFault s2 op.org (Engine.crush e) f

/-- The result record of a model load whose stream fails to decode (12 R531, R533). -/
def loadFailed (s : State) (op : CrushOp) (code : Nat) : State :=
  if op.kind = .modelLoad then
    match s.sched.load with
    | some l => (modelRecord s op.org l.result code).1
    | none => s
  else s

/-- After a DECOMPRESS with BOTH fails, blocks above the failing one may have been written by the other engine: how many bytes, and
which, are free (13 R561, log 44). -/
def strayBlocks (s : State) (e : Nat) (op : CrushOp) : State :=
  if op.kind = .decompress && op.both && op.outPos + 65536 < op.dstBytes then
    let (x, s1) := draw s
    let n := x % (op.dstBytes - (op.outPos + 65536) + 1)
    let s2 := if n = 0 then s1
      else (engineWrite s1 8 (.ctx op.org.ctx) .write (op.dst + op.outPos + 65536) (undefBytes s1.fresh (op.dst + op.outPos + 65536) n)).1
    claimReqs s2 op.org (Engine.crush e) 0xFFFF 0
  else s

/-- A codec error retires the operation with its code, its record written and counted; the context lives on (13 R561). -/
def failCrush (s : State) (e : Nat) (op : CrushOp) (f : CodecFail) (fault off : Nat) : State :=
  let d := leBytes 1 f.reason ++ zeroBytes 3 ++ leBytes 4 op.block ++ leBytes 8 off ++ leBytes 4 f.token ++ leBytes 4 f.decoded
  let s1 := appendRec s (workRec s op.org f.code (Engine.crush e) 0 fault d)
  let s2 := if f.code = Cond.codecVerify then bump32 s1 Reg.crushVerifyCount Reg.crushStatus 3 1
    else bump32 s1 Reg.crushErrCount Reg.crushStatus 2 1
  let s3 := strayBlocks s2 e op
  match writeCrush (loadOver (leaveCrush (loadFailed s3 op f.code) op) op) op f.code op.block with
  | (s4, none) => finish s4 op.org.wid f.code
  | (s4, some x) => engineFault s4 op.org (Engine.crush e) x

/-- A codec failure at no token. -/
def plainFail (code reason decoded : Nat) : CodecFail :=
  { code := code, reason := reason, token := 0, decoded := decoded }

/-! One block (13 R558 to R560). -/

/-- What a read returned, without the bytes that pieces of [va, va + n) outside memory took. -/
def afterExt (s : State) (t : TableId) (va n : Nat) (ext : HostRead) : HostRead :=
  let used := ((framePieces va n).map (fun q =>
    match findSeg (tableOf s t) q.1 with
    | some g => if g.2.kind = .host || g.2.kind = .peer then q.2 else 0
    | none => 0)).foldl (· + ·) 0
  match ext with
  | .ok bs => .ok (bs.drop used)
  | .fail w => .fail w

/-- A written block passes an attached Mark unit (13 R569). -/
def snoopCrush (s : State) (e : Nat) (bs : List Byte) : State :=
  snoop s (fun _ a => bitsN a 2 0 = 4 && bitsN a 23 23 = e) { first := true, last := true, bytes := bs }

/-- Where the decoded bytes of a block go; a check writes none (13 R556, R558). -/
def putBlock (s : State) (op : CrushOp) (bs : List Byte) : State × Option XFault :=
  match op.kind with
  | .check => (s, none)
  | .modelLoad =>
    let s1 := (memWrite s (modelAddr s op.outPos) bs).1
    (setSched s1 { s1.sched with load := s1.sched.load.map (fun l => { l with written := op.outPos + bs.length }) }, none)
  | _ => engineWrite s 8 (.ctx op.org.ctx) .write (op.dst + op.outPos) bs

/-- The operation after a block: `n` input bytes, `m` output bytes. -/
def passBlock (op : CrushOp) (ty n m : Nat) (last : Bool) : CrushOp :=
  { op with
    block := op.block + 1, inPos := op.inPos + n, outPos := op.outPos + m, last := last, stored := op.stored + b2n (ty = 1),
    fill := op.fill + b2n (ty = 2) }

/-- The state with an operation replaced. -/
def updCrush (s : State) (op : CrushOp) : State :=
  setCrush s (s.sched.crush.map (fun x => if x.org.wid = op.org.wid then op else x))

/-- A decoded block is written and counted; after the LAST, bytes that remain fail (13 R560). -/
def finishBlock (s : State) (e : Nat) (op : CrushOp) (h bs : List Byte) (size : Nat) : State :=
  let off := op.inPos
  if op.kind = .modelLoad && op.dstBytes < op.outPos + bs.length then
    failCrush s e op (plainFail Cond.codecLength 6 bs.length) (op.src + off) off
  else if op.kind = .decompress && op.dstBytes < op.outPos + bs.length then
    failCrush s e op (plainFail Cond.codecOutput 1 bs.length) (op.dst + op.outPos) off
  else match putBlock s op bs with
    | (s1, some f) => faultCrush (claimReqs s1 op.org (Engine.crush e) 0xFFFF 0) e op f
    | (s1, none) =>
      let s2 := claimReqs s1 op.org (Engine.crush e) 0xFFFF 0
      let s3 := if op.kind = .decompress then snoopCrush s2 e bs else s2
      let op1 := passBlock op (bType h) size bs.length (bLast h)
      let s4 := updCrush (bump64 s3 Reg.crushBlockCount Reg.crushStatus 0 1) op1
      if ! bLast h then s4
      else if op.kind = .modelLoad then
        if op1.outPos < op.dstBytes then failCrush s4 e op1 (plainFail Cond.codecLength 6 0) (op.src + op1.inPos) op1.inPos
        else endCrush s4 e op1
      else if op1.inPos < op.srcBytes then
        failCrush s4 e op1 (plainFail Cond.codecLength 5 0) (op.src + op1.inPos) op1.inPos
      else endCrush s4 e op1

/-- The next block of a stream is read, judged and decoded (13 R560). -/
def decodeStep (s : State) (e : Nat) (op : CrushOp) (ext : HostRead) : State :=
  let t := TableId.ctx op.org.ctx
  let a := op.src + op.inPos
  let bad := fun (s : State) (f : CodecFail) => failCrush s e op f a op.inPos
  if op.srcBytes < op.inPos + 16 then bad s (plainFail Cond.codecLength 4 0)
  else match engineRead s 8 t .read a 16 ext with
    | (s1, .inl f) => faultCrush s1 e op f
    | (s1, .inr h) =>
      match headerReason h with
      | some r => bad s1 (plainFail Cond.codecHeader r 0)
      | none =>
        if op.srcBytes < op.inPos + 16 + bPay h then bad s1 (plainFail Cond.codecLength 4 0)
        else match engineRead s1 8 t .read (a + 16) (bPay h) (afterExt s1 t a 16 ext) with
          | (s2, .inl f) => faultCrush s2 e op f
          | (s2, .inr p) =>
            match decodePayload h p with
            | .inl f => bad s2 f
            | .inr bs => finishBlock s2 e op h bs (16 + bPay h)

/-- The next block of the source is compressed, verified and written; `upset` is a block that the verification found wrong
(13 R554, R555). -/
def compressStep (s : State) (e : Nat) (op : CrushOp) (ext : HostRead) (upset : Bool) : State :=
  let n := min 65536 (op.srcBytes - op.inPos)
  match engineRead s 8 (.ctx op.org.ctx) .read (op.src + op.inPos) n ext with
  | (s1, .inl f) => faultCrush s1 e op f
  | (s1, .inr b) =>
    let last := op.srcBytes ≤ op.inPos + n
    let out := blockBytes b last
    if upset then failCrush s1 e op (plainFail Cond.codecVerify 1 n) (op.src + 65536 * op.block) op.inPos
    else if op.dstBytes < op.outPos + out.length then
      failCrush s1 e op (plainFail Cond.codecOutput 1 0) (op.dst + op.outPos) op.inPos
    else match engineWrite s1 8 (.ctx op.org.ctx) .write (op.dst + op.outPos) out with
      | (s2, some f) => faultCrush (claimReqs s2 op.org (Engine.crush e) 0xFFFF 0) e op f
      | (s2, none) =>
        let s3 := snoopCrush (claimReqs s2 op.org (Engine.crush e) 0xFFFF 0) e out
        let ty := (packBlock b).1
        let s4 := bump64 s3 Reg.crushBlockCount Reg.crushStatus 0 1
        let s5 := if ty = 1 then bump32 s4 Reg.crushStoredCount Reg.crushStatus 1 1 else s4
        let op1 := passBlock op ty n out.length last
        if last then endCrush (updCrush s5 op1) e op1 else updCrush s5 op1

/-- CRUSHER_BLOCK (13 R558): an engine takes the next block of the first-ranked operation that it serves. -/
def execCrusherBlock (engine : BitVec 1) (ext : HostRead) (upset : Bool) (s : State) : Host.Outcome State Fault Refusal :=
  let e := engine.toNat
  match (bestIdx (crushRank s) (crushOn s e)).bind (fun i => (crushOn s e)[i]?) with
  | none => .next s
  | some op0 =>
    let op := { op0 with start := some (op0.start.getD s.dtime) }
    .next (settle (if op.kind = .compress then compressStep (updCrush s op) e op ext upset else decodeStep (updCrush s op) e op ext))

/-- An operation stops between blocks and saves its state (13 R563). -/
def preemptCrush (s : State) (e : Nat) (op : CrushOp) : State :=
  let s1 := setCrush s (s.sched.crush.filter (fun x => x.org.wid ≠ op.org.wid))
  let (s2, a) := saveUnit (countPreempt s1 op.org) op.org (Engine.crush e) 256
  let op1 := { op with saved := some (a, s2.dtime), readyAt := s2.dtime, preempts := op.preempts + 1 }
  noteConds (setSched s2 { s2.sched with crushWait := s2.sched.crushWait ++ [op1] })

/-- CRUSHER_PREEMPTION (13 R563): an operation whose preemption was asked for. -/
def execCrusherPreemption (engine : BitVec 1) (wid : Nat) (s : State) : Host.Outcome State Fault Refusal :=
  let e := engine.toNat
  match (crushOn s e).find? (fun op => op.org.wid = wid) with
  | some op =>
    if s.sched.stopOps.contains (Engine.crush e, wid) || s.sched.stopCtx.contains (Engine.crush e, op.org.ctx) then
      .next (preemptCrush (stopMade s (Engine.crush e) wid) e op)
    else .next s
  | none => .next s

/-! Dispatch at step 6 of 10 R417. -/

/-- The CRUSH entry at the head of a ring, ready, of operation code `op` (13 R556). -/
def readyCrush (s : State) (p i op : Nat) : Option (Ring × Entry) :=
  match readyEntry s p i 0x0C with
  | some (r, e) => if fAt e.desc 0 1 0 = op then some (r, e) else none
  | none => none

/-- Dispatches the CRUSH entry at the head of a ring. -/
def dispatchCrush (s : State) (p i : Nat) (r : Ring) (e : Entry) : State :=
  settle (addCrush (dispatched s (rkey p i) r e) (crushOf s (entryOrigin (rkey p i) r e) e.desc))

/-- COMPRESS (13 R556). -/
def execCompress (p : Part) (ring : BitVec 10) (s : State) : Host.Outcome State Fault Refusal :=
  match readyCrush s p.toNat ring.toNat 0 with
  | some (r, e) => .next (dispatchCrush s p.toNat ring.toNat r e)
  | none => .next s

/-- DECOMPRESS (13 R556). -/
def execDecompress (p : Part) (ring : BitVec 10) (s : State) : Host.Outcome State Fault Refusal :=
  match readyCrush s p.toNat ring.toNat 1 with
  | some (r, e) => .next (dispatchCrush s p.toNat ring.toNat r e)
  | none => .next s

/-- CHECK (13 R556). -/
def execCheck (p : Part) (ring : BitVec 10) (s : State) : Host.Outcome State Fault Refusal :=
  match readyCrush s p.toNat ring.toNat 2 with
  | some (r, e) => .next (dispatchCrush s p.toNat ring.toNat r e)
  | none => .next s

end Sys2Proof.Machine
end

