-- ==== Sys2Proof/Machine/CoreFn.lean ====
section
/-! DEFINITION. What the vector units compute: integers (04 R135), FP32 (02 R37 to R40, R64, R65), conversions (02 R40, 04 R135)
and atomic updates (04 R151 to R153). -/
namespace Sys2Proof.Machine

/-- A signed integer as `w` bits of two's complement. -/
def ofSigned (w : Nat) (i : Int) : Nat :=
  (i % (2 ^ w : Nat)).toNat

/-- The quotient of truncated division. -/
def sdivBits (w a b : Nat) : Nat :=
  if b % 2 ^ w = 0 then 2 ^ w - 1 else ofSigned w (Int.tdiv (sInt w a) (sInt w b))

/-- The remainder with the sign of the dividend. -/
def sremBits (w a b : Nat) : Nat :=
  if b % 2 ^ w = 0 then a % 2 ^ w else ofSigned w (Int.tmod (sInt w a) (sInt w b))

/-- The remainder with the sign of the divisor. -/
def smodBits (w a b : Nat) : Nat :=
  if b % 2 ^ w = 0 then a % 2 ^ w else ofSigned w (Int.fmod (sInt w a) (sInt w b))

/-- A signed shift to the right. -/
def sarBits (w a n : Nat) : Nat :=
  ofSigned w (sInt w a / (2 ^ n : Nat))

/-- The result of an integer operation on `w` bits (04 R135). -/
def intFn (f : IntFn) (w x y : Nat) : Nat :=
  let m := 2 ^ w
  let a := x % m
  let b := y % m
  match f with
  | .add => (a + b) % m
  | .sub => (a + m - b) % m
  | .mul => a * b % m
  | .and => Nat.land a b
  | .or => Nat.lor a b
  | .xor => Nat.xor a b
  | .not => m - 1 - a
  | .neg => (m - a) % m
  | .udiv => if b = 0 then m - 1 else a / b
  | .umod => if b = 0 then a else a % b
  | .sdiv => sdivBits w a b
  | .srem => sremBits w a b
  | .smod => smodBits w a b
  | .shl => a * 2 ^ (b % w) % m
  | .shr => a / 2 ^ (b % w)
  | .sar => sarBits w a (b % w)
  | .umin => min a b
  | .umax => max a b
  | .smin => if sInt w a ≤ sInt w b then a else b
  | .smax => if sInt w a ≤ sInt w b then b else a

/-- An integer comparison on `w` bits. -/
def intCmp (f : IntCmp) (w x y : Nat) : Bool :=
  let a := x % 2 ^ w
  let b := y % 2 ^ w
  match f with
  | .eq => a = b
  | .ne => a ≠ b
  | .ult => a < b
  | .ule => a ≤ b
  | .slt => sInt w a < sInt w b
  | .sle => sInt w a ≤ sInt w b

/-! Floating point. -/

/-- A subnormal value is flushed to zero of its sign where a module asks for it (02 R39). -/
def flushVal (ftz : Bool) (f : FpFmt) (v : Val) : Val :=
  match v with
  | .fin n m e => if ftz && m ≠ 0 && (Nat.log2 m : Int) + e < f.emin then .fin n 0 0 else v
  | x => x

/-- The FP32 value of bits, as the vector units take it. -/
def fpIn (ftz : Bool) (x : Nat) : Val :=
  flushVal ftz fp32 (val32 x)

/-- The bits of a result, rounded once to nearest even (02 R40). -/
def fpOut (ftz : Bool) (v : Val) : Nat :=
  packFp fp32 (flushVal ftz fp32 (rnd32 v))

/-- A quotient with a sticky bit below 64 bits more than FP32 keeps: it rounds as the exact quotient does. -/
def vdiv (a b : Val) : Val :=
  match a, b with
  | .nan, _ => .nan
  | _, .nan => .nan
  | .inf _, .inf _ => .nan
  | .inf n, .fin k _ _ => .inf (n != k)
  | .fin n _ _, .inf k => .fin (n != k) 0 0
  | .fin n m e, .fin k m' e' =>
    if m' = 0 then (if m = 0 then .nan else .inf (n != k))
    else if m = 0 then .fin (n != k) 0 0
    else
      let x := m * 2 ^ 96
      .fin (n != k) (2 * (x / m') + b2n (x % m' ≠ 0)) (e - e' - 97)

/-- A square root with a sticky bit. -/
def vsqrt (a : Val) : Val :=
  match a with
  | .nan => .nan
  | .inf n => if n then .nan else .inf false
  | .fin n m e =>
    if m = 0 then .fin n 0 0
    else if n then .nan
    else
      let sh : Nat := if e % 2 = 0 then 96 else 97
      let x := m * 2 ^ sh
      let q := Nat.sqrt x
      .fin false (2 * q + b2n (q * q ≠ x)) ((e - sh) / 2 - 1)

/-- An FP32 operation (02 R37, R40, R65). Negation and absolute value act on the sign alone. -/
def fpFn (f : FpFn) (ftz : Bool) (x y z : Nat) : Nat :=
  let a := fpIn ftz x
  let b := fpIn ftz y
  let c := fpIn ftz z
  match f with
  | .add => fpOut ftz (vadd a b)
  | .sub => fpOut ftz (vadd a (vneg b))
  | .mul => fpOut ftz (vmul a b)
  | .div => fpOut ftz (vdiv a b)
  | .sqrt => fpOut ftz (vsqrt a)
  | .fma => fpOut ftz (vadd (vmul a b) c)
  | .min => fpOut ftz (vminN a b)
  | .max => fpOut ftz (vmaxN a b)
  | .clamp => fpOut ftz (vminN (vmaxN a b) c)
  | .neg => fpOut ftz (vneg a)
  | .abs => fpOut ftz (vabs a)

/-- A comparison (02 R64). -/
def fpCmp (f : FpCmp) (ftz : Bool) (x y : Nat) : Bool :=
  let c := vcmp (fpIn ftz x) (fpIn ftz y)
  match f with
  | .oeq => c = some .eq
  | .olt => c = some .lt
  | .ole => c = some .lt || c = some .eq
  | .une => c ≠ some .eq
  | .unord => c = none

/-- A value rounded to a format under a SPIR-V rounding mode; overflow away from zero is infinity (02 R40). -/
def rndMode (f : FpFmt) (r : CvtRound) (v : Val) : Val :=
  let up (away : Bool) : Val :=
    match v with
    | .fin n m e =>
      if m = 0 then v
      else
        let u := unitExp f m e
        let t := gridRound .rtz m e u
        let q := if away && t * 2 ^ (u - min u e).toNat ≠ m * 2 ^ (e - min u e).toNat then t + 1 else t
        if magLe q u f.top (f.emax - f.mb) then .fin n q u
        else if away then .inf n else .fin n f.top (f.emax - f.mb)
    | x => x
  let neg := match v with
    | .fin n _ _ => n
    | _ => false
  match r with
  | .rte => rndVal f .rne v
  | .rtz => rndVal f .rtz v
  | .rtp => up (! neg)
  | .rtn => up neg

/-- A conversion of a value to an integer of `w` bits: toward zero, saturating, NaN gives 0 (04 R135). -/
def toIntBits (signed : Bool) (w : Nat) (v : Val) : Nat :=
  if signed then (convInt w .rtz v).bits
  else match v with
    | .nan => 0
    | .inf n => if n then 0 else 2 ^ w - 1
    | .fin n m e => if n then 0 else min (gridRound .rtz m e 0) (2 ^ w - 1)

/-- The bits of a source of a conversion as a value. -/
def cvtFn (f : CvtFn) (ftz : Bool) (x : Nat) : Nat :=
  match f with
  | .toInt signed w => toIntBits signed w (fpIn ftz x)
  | .ofInt signed w => bits32 (ofInt (if signed then sInt w x else (x % 2 ^ w : Nat)))
  | .float src dst r =>
    let fin := fun (c : Nat) (v : Val) => if c = Fmt.FP32 then flushVal ftz fp32 v else v
    match fpOf src, fpOf dst with
    | some a, some b => packFp b (fin dst (rndMode b r (fin src (decodeFp a x))))
    | _, _ => 0

/-- Registers of a conversion's source, and of its result. -/
def cvtWidths (f : CvtFn) : Nat × Nat :=
  match f with
  | .toInt _ w => (1, (w + 31) / 32)
  | .ofInt _ w => ((w + 31) / 32, 1)
  | .float _ _ _ => (1, 1)

/-- The value an atomic update stores over `old` (04 R151, R153); `cmp` is the comparand of a compare-exchange. -/
def atomFn (f : AtomFn) (w old v cmp : Nat) : Nat :=
  match f with
  | .add => intFn .add w old v
  | .sub => intFn .sub w old v
  | .and => intFn .and w old v
  | .or => intFn .or w old v
  | .xor => intFn .xor w old v
  | .umin => intFn .umin w old v
  | .umax => intFn .umax w old v
  | .smin => intFn .smin w old v
  | .smax => intFn .smax w old v
  | .exchange => v % 2 ^ w
  | .compareExchange => if old % 2 ^ w = cmp % 2 ^ w then v % 2 ^ w else old % 2 ^ w
  | .fadd => bits32 (vadd (val32 old) (val32 v))
  | .fmin => bits32 (vminN (val32 old) (val32 v))
  | .fmax => bits32 (vmaxN (val32 old) (val32 v))

/-- Compatibility mode combines the operation (04 R156). -/
def atomCombines (f : AtomFn) : Bool :=
  match f with
  | .compareExchange => false
  | .fadd => false
  | .fmin => false
  | .fmax => false
  | _ => true

end Sys2Proof.Machine
end

