-- ==== Sys2Proof/Machine/Tensor.lean ====
section
/-! DEFINITION. Tensor work items: the descriptor and its check (03 R86 to R94, R105 to R107, R112, R717), tiles, runs and sets
(R74 to R80), operands (R90 to R94; 02 R41 to R47, R67, R68), one K-step (02 R47 to R52), and the epilogue
(03 R97 to R102). -/
namespace Sys2Proof.Machine

/-- The state with cores, modules and arrays replaced. -/
def setCore (s : State) (x : CoreAll) : State :=
  { s with core := x }

/-! Descriptor fields (03 R86). -/
def tOp (d : List Byte) : Nat := fAt d 0 7 0
def tA (d : List Byte) : Nat := fAt d 0 12 8
def tB (d : List Byte) : Nat := fAt d 0 17 13
def tOut (d : List Byte) : Nat := fAt d 0 22 18
def tExp (d : List Byte) : Nat := fAt d 0 27 23
def tGroup (d : List Byte) : Nat := 32 * 2 ^ fAt d 0 33 32
def tBit (d : List Byte) (i : Nat) : Bool := fAt d 0 i i = 1
def tGemm (d : List Byte) : Bool := tOp d = 1
def tHandoff (d : List Byte) : Bool := tBit d 35
def tM (d : List Byte) : Nat := fAt d 8 31 0
def tN (d : List Byte) : Nat := fAt d 8 63 32
def tK (d : List Byte) : Nat := if tGemm d then fAt d 0x10 30 0 else 0
def tDAddr (d : List Byte) : Nat := fAt d 0x40 47 0
def tCompl (d : List Byte) : Nat := fAt d 0x68 47 0
/-- The auxiliary operand is used (03 R717). -/
def tAux (d : List Byte) : Bool := tBit d 38 || tBit d 34

/-- Block-quantised formats. -/
def isQb (f : Nat) : Bool := f = Fmt.QB8I || f = Fmt.QB8F
/-- Weight formats with group tables (02 R44). -/
def isTable (f : Nat) : Bool := f = Fmt.W2C || f = Fmt.W4I || f = Fmt.W4C

/-- The operand pairings of 02 R47. -/
def pairOk (a b : Nat) : Bool :=
  (a = Fmt.BF16 && b = Fmt.BF16) || (a = Fmt.FP16 && b = Fmt.FP16) ||
    ((a = Fmt.E4M3 || a = Fmt.E5M2) && (b = Fmt.E4M3 || b = Fmt.E5M2 || b = Fmt.QB8F || isTable b)) ||
    (a = Fmt.INT8 && (b = Fmt.INT8 || b = Fmt.QB8I || isTable b || b = Fmt.W1 || b = Fmt.W2T)) ||
    (a = Fmt.QB8I && (b = Fmt.QB8I || b = Fmt.INT8)) ||
    (a = Fmt.QB8F && (b = Fmt.QB8F || b = Fmt.E4M3 || b = Fmt.E5M2 || isTable b))

/-- The integer-accumulating modes (02 R47). -/
def intMode (d : List Byte) : Bool :=
  tGemm d && tA d = Fmt.INT8 && tB d ≠ Fmt.QB8I

/-- The block modes (02 R47, R52). -/
def blockMode (d : List Byte) : Bool :=
  isQb (tA d) || isQb (tB d)

/-- The chunk of K that one K-step adds (02 R47, 03 R76). -/
def chunkOf (d : List Byte) : Nat :=
  if tB d = Fmt.W1 || tB d = Fmt.W2T then 128
  else if tA d = Fmt.BF16 || tA d = Fmt.FP16 then 16 else 32

/-- The extent of an activation row, of an output line, and the number of output lines (03 R90). -/
def aExtent (d : List Byte) : Nat := if tGemm d then tK d else tN d
def dExtent (d : List Byte) : Nat := if tBit d 47 then tM d else tN d
def dLines (d : List Byte) : Nat := if tBit d 47 then tN d else tM d

/-- The bytes of one line of `n` elements of a format (03 R93). -/
def lineBytes (n fmt : Nat) : Nat :=
  (n * fmtBits fmt + 7) / 8

/-- The alignment that a format's address and stride need (03 R93). -/
def fmtAlign (fmt : Nat) : Nat :=
  if fmtBits fmt < 8 then 1 else fmtBits fmt / 8

/-- The bytes of scales per line (03 R92). -/
def scalePitch (n : Nat) : Nat :=
  roundUp ((n + 31) / 32) 32

/-! The check (03 R105 to R107). -/

/-- What the check of a descriptor needs besides its bytes: whether HANDOFF is allowed on the path, and the bytes of tile buffer
allocated to the pass. -/
structure TCheck where
  handoffOk : Bool
  tileBytes : Nat
  deriving DecidableEq, Repr

/-- The formats of 03 R87. -/
def aFmtOk (d : List Byte) : Bool :=
  let a := tA d
  if tGemm d then (1 ≤ a && a ≤ 5) || isQb a else a ≤ 8
def bFmtOk (d : List Byte) : Bool :=
  let b := tB d
  ! tGemm d || (1 ≤ b && b ≤ 5) || (7 ≤ b && b ≤ 13)
def auxFmtOk (d : List Byte) : Bool :=
  let x := fAt d 0x58 52 48
  if tBit d 34 then (if intMode d then x = Fmt.INT32 else x ≤ 4) else x ≤ 5

/-- The last byte of the handoff operand's tile-buffer range, plus one (03 R112). -/
def handoffEnd (d : List Byte) : Nat :=
  if tM d = 0 then 0 else fAt d 0x18 47 0 + (tM d - 1) * fAt d 0x20 31 0 + lineBytes (aExtent d) (tA d)

/-- Every error of a descriptor as (word offset, bit, reason), in no order but for two at one place, where a field's own error
comes before a pairing (03 R106). -/
def tErrors (d : List Byte) (c : TCheck) : List (Nat × Nat × Nat) :=
  let e (b : Bool) (off bit reason : Nat) : List (Nat × Nat × Nat) := if b then [(off, bit, reason)] else []
  let res (off lo : Nat) : List (Nat × Nat × Nat) :=
    (List.range (64 - lo)).filterMap (fun i => if bitN (wordAt d off) (lo + i) then some (off, lo + i, 0x0C) else none)
  let table := tGemm d && isTable (tB d)
  let ex := tExp d
  let dUsed := tDAddr d ≠ 0
  let hand := tHandoff d
  let aAlign := fmtAlign (tA d)
  let xFmt := fAt d 0x58 52 48
  e (tOp d ≠ 1 && tOp d ≠ 2) 0 0 1 ++
  e (! aFmtOk d) 0 8 2 ++
  e (hand && ! ((tA d ≤ 5 && tA d ≠ 0) || (tA d = 0 && ! tGemm d))) 0 8 0x0B ++
  e (! bFmtOk d) 0 13 2 ++ e (tGemm d && ! pairOk (tA d) (tB d)) 0 13 3 ++
  e (8 < tOut d) 0 18 2 ++
  e (table && ! (ex = 3 || ex = 4 || ex = 5)) 0 23 2 ++
  e (table && ((ex = 5) != (tA d = Fmt.INT8 : Bool))) 0 23 3 ++
  e (fAt d 0 29 28 = 3) 0 28 4 ++
  e (tBit d 31) 0 31 0x0C ++
  e (tBit d 34 && tOp d = 2) 0 34 7 ++
  e (hand && ! c.handoffOk) 0 35 0x0A ++
  e (tBit d 34 && tBit d 38) 0 38 7 ++
  e (8 ≤ fAt d 0 43 40) 0 40 5 ++
  e (5 ≤ fAt d 0 46 44) 0 44 6 ++
  res 0 49 ++
  e (hand && 1024 < tM d) 8 0 0x0B ++
  e (fAt d 0x10 31 31 = 1) 0x10 31 0x0C ++
  e (hand && (2 ^ 18 ≤ fAt d 0x18 47 0 || c.tileBytes < handoffEnd d)) 0x18 0 0x0B ++
  e (! hand && fAt d 0x18 47 0 % aAlign ≠ 0) 0x18 0 8 ++
  e (! hand && fAt d 0x20 31 0 % aAlign ≠ 0) 0x20 0 8 ++
  e (! hand && fAt d 0x20 31 0 < lineBytes (aExtent d) (tA d)) 0x20 0 9 ++
  e (tGemm d && fAt d 0x20 63 32 % fmtAlign (tB d) ≠ 0) 0x20 32 8 ++
  e (tGemm d && fAt d 0x20 63 32 < lineBytes (tK d) (tB d)) 0x20 32 9 ++
  e (tGemm d && fAt d 0x28 47 0 % fmtAlign (tB d) ≠ 0) 0x28 0 8 ++ res 0x28 48 ++
  e (tGemm d && (tB d = Fmt.W2C || tB d = Fmt.W4I) && fAt d 0x30 47 0 % 4 ≠ 0) 0x30 0 8 ++
  e (tGemm d && tB d = Fmt.W4C && fAt d 0x30 47 0 % 16 ≠ 0) 0x30 0 8 ++ res 0x30 48 ++
  res 0x38 48 ++
  e (dUsed && tDAddr d % fmtAlign (tOut d) ≠ 0) 0x40 0 8 ++ res 0x40 48 ++
  e (dUsed && fAt d 0x48 31 0 % fmtAlign (tOut d) ≠ 0) 0x48 0 8 ++
  e (dUsed && fAt d 0x48 31 0 < lineBytes (dExtent d) (tOut d)) 0x48 0 9 ++
  e (tAux d && fAt d 0x48 63 32 % fmtAlign xFmt ≠ 0) 0x48 32 8 ++
  e (tAux d && fAt d 0x48 63 32 < lineBytes (dExtent d) xFmt) 0x48 32 9 ++
  res 0x50 48 ++
  e (tAux d && fAt d 0x58 47 0 % fmtAlign xFmt ≠ 0) 0x58 0 8 ++
  e (tAux d && ! auxFmtOk d) 0x58 48 2 ++ res 0x58 53 ++
  e ((tBit d 36 || tBit d 37) && fAt d 0x60 47 0 % 8 ≠ 0) 0x60 0 8 ++ res 0x60 48 ++
  e (tCompl d % 64 ≠ 0) 0x68 0 8 ++ res 0x68 56 ++
  e ((fAt d 0 43 40 = 2 || fAt d 0 43 40 = 3) && isNan (val32 (fAt d 0x70 63 32))) 0x70 32 5 ++
  e (fAt d 0 43 40 = 2 && vlt (val32 (fAt d 0x78 31 0)) (val32 (fAt d 0x70 63 32))) 0x70 32 5 ++
  e (fAt d 0 43 40 = 2 && isNan (val32 (fAt d 0x78 31 0))) 0x78 0 5

/-- The first error of a list by offset and bit; of two at one place the earlier in the list. -/
def firstError (l : List (Nat × Nat × Nat)) : Option (Nat × Nat × Nat) :=
  l.foldl (fun m x =>
    match m with
    | none => some x
    | some y => if x.1 < y.1 || (x.1 = y.1 && x.2.1 < y.2.1) then some x else m) none

/-- The error that a TENSOR_DESC record names: its word offset and reason (03 R106, R107). -/
def tFault (d : List Byte) (c : TCheck) : Option (Nat × Nat) :=
  (firstError (tErrors d c)).map (fun x => (x.1, x.2.2))

/-- The detail words of TENSOR_DESC (03 R106). -/
def tDetail (off reason addr : Nat) : List Byte :=
  leBytes 1 reason ++ zeroBytes 1 ++ leBytes 2 off ++ zeroBytes 4 ++ leBytes 8 addr

/-! Tiles, runs and sets (03 R74 to R80). -/

def tileCols (d : List Byte) : Nat := (tN d + 63) / 64
def tileCount (d : List Byte) : Nat := (tM d + 31) / 32 * tileCols d

/-- The first row and column of a tile, and how many of each lie inside the output (03 R74). -/
def tileBox (d : List Byte) (t : Nat) : Nat × Nat × Nat × Nat :=
  let r := t / tileCols d * 32
  let c := t % tileCols d * 64
  (r, c, min 32 (tM d - r), min 64 (tN d - c))

/-- Run `i` of the `s` runs of `n` tiles: first tile and count (03 R77). -/
def runOf (n s i : Nat) : Nat × Nat :=
  (i * (n / s) + min i (n % s), n / s + b2n (i < n % s))

/-- The length of the tile set that starts at tile `t` of a run (03 R78). -/
def setLenAt (d : List Byte) (first count t : Nat) : Nat :=
  let row := t / tileCols d * tileCols d
  let ps := max first row
  let pl := min (first + count) (row + tileCols d) - ps
  let ns := (pl + 7) / 8
  if t - ps < pl % ns * (pl / ns + 1) then pl / ns + 1 else pl / ns

/-! Work items and queues. -/

def itemOf (s : State) (id : Nat) : Option TItem :=
  mget s.core.items id
def setItem (s : State) (id : Nat) (x : TItem) : State :=
  setCore s { s.core with items := mset s.core.items id x }
def queueOf (s : State) (n : Nat) : List TRun :=
  mgetD s.core.queues n []
def setQueue (s : State) (n : Nat) (l : List TRun) : State :=
  setCore s { s.core with queues := msetD s.core.queues n l [] }

/-- A core's state; one that nothing has used is empty. -/
def coreOf (s : State) (n : Nat) : CoreSt :=
  mgetD s.core.cores n { wgs := [], tiles := [], l1 := [], clockAt := 0, clockBase := 0 }
def setCoreOf (s : State) (n : Nat) (c : CoreSt) : State :=
  setCore s { s.core with cores := mset s.core.cores n c }

/-- Logical core `n` is live (01 R21). -/
def coreLive (s : State) (n : Nat) : Bool :=
  n < 64 && (rd s Reg.cfgnetCoreLive).getLsbD n

/-- The translation cache of a core's bench (01 R16, 08 R319). -/
def benchOf (n : Nat) : Nat :=
  n / 8

/-- The tile of a pass on a core. -/
def tileOn (s : State) (core pass tile : Nat) : Option TileSt :=
  (coreOf s core).tiles.find? (fun t => t.pass = pass && t.tile = tile)

/-- `n` bytes of a tile buffer from an offset; bytes that nothing has written are undefined (06 R234). -/
def tileBytes (t : TileSt) (off n : Nat) : List Byte :=
  (List.range n).map (fun i => mgetD t.tb (off + i) (Config.undefByte t.seed (off + i)))

/-! Operand reads. -/

/-- A read that an array makes for an item's context (03 R94). -/
def tRead (alloc : Bool) (s : State) (n : Nat) (it : TItem) (va len : Nat) : State × (XFault ⊕ List Byte) :=
  engineReadBy alloc s (benchOf n) (.ctx it.org.ctx) .tensor va len (.fail .unsupported)

/-- The little-endian codes of `n` elements of a format from packed bytes (02 R41). -/
def unpack (fmt n : Nat) (bs : List Byte) : List Nat :=
  let x := leNat bs
  let b := fmtBits fmt
  (List.range n).map (fun i => x / 2 ^ (b * i) % 2 ^ b)

/-- The activation row `i` from element `k0`, `len` elements: their values, and the block scale (03 R90, R92, R112). -/
def readAct (s : State) (n : Nat) (it : TItem) (i k0 len : Nat) : State × (XFault ⊕ (List Val × Val)) :=
  let d := it.desc
  let size := fmtBits (tA d) / 8
  let off := fAt d 0x18 47 0 + i * fAt d 0x20 31 0 + k0 * size
  let vals := fun (bs : List Byte) => (unpack (tA d) len bs).map (decodeFmt (tA d))
  if tHandoff d then
    match it.path with
    | .pass core pass tile =>
      match tileOn s core pass tile with
      | some t => (s, .inr (vals (tileBytes t off (len * size)), .fin false 1 0))
      | none => (s, .inr (vals (undefBytes s.fresh off (len * size)), .fin false 1 0))
    | .core core _ _ =>
      match (coreOf s core).tiles.find? (fun t => ! t.ended) with
      | some t => (s, .inr (vals (tileBytes t off (len * size)), .fin false 1 0))
      | none => (s, .inr (vals (undefBytes s.fresh off (len * size)), .fin false 1 0))
    | .gantry => (s, .inr (vals (undefBytes s.fresh off (len * size)), .fin false 1 0))
  else
    match tRead true s n it off (len * size) with
    | (s1, .inl f) => (s1, .inl f)
    | (s1, .inr bs) =>
      if isQb (tA d) then
        match tRead true s1 n it (fAt d 0x38 47 0 + i * scalePitch (aExtent d) + k0 / 32) 1 with
        | (s2, .inl f) => (s2, .inl f)
        | (s2, .inr u) => (s2, .inr (vals bs, scaleVal (leNat u)))
      else (s1, .inr (vals bs, .fin false 1 0))

/-- The bytes of a group table entry (02 R44). -/
def entryBytes (fmt : Nat) : Nat :=
  if fmt = Fmt.W4C then 16 else 4

/-- A W4I weight (02 R46): its value as expanded, and whether it counts in EXPAND_SAT_COUNT or NAN_TO_INT_COUNT. -/
def expandW4i (ex : Nat) (tbl : List Byte) (q : Nat) : Val × Bool × Bool :=
  let v := vmul (ofInt ((q : Int) - (fieldAt tbl 2 1 % 16 : Nat))) (decodeFp fp16 (fieldAt tbl 0 2))
  let c := convOut ex .rne false v
  (decodeFmt ex c.bits, c.sat, c.nanInt)

/-- The value of a weight code as it enters the array (02 R42), with its counts: EXPAND_SAT, NAN_TO_INT, W2T_INVALID. -/
def weightVal (d : List Byte) (tbl : List Byte) (q : Nat) : Val × Bool × Bool × Bool :=
  match tB d with
  | 9 => (ofInt (if q = 1 then 1 else -1), false, false, false)
  | 10 => (ofInt (if q = 1 then 1 else if q = 3 then -1 else 0), false, false, q = 2)
  | 11 => (decodeFmt (tExp d) (fieldAt tbl q 1), false, false, false)
  | 13 => (decodeFmt (tExp d) (fieldAt tbl q 1), false, false, false)
  | 12 => match expandW4i (tExp d) tbl q with
    | (v, a, b) => (v, a, b, false)
  | f => (decodeFmt f q, false, false, false)

/-- Counts that a list of weights adds (02 R63). -/
def weightCounts (c : TCounts) (l : List (Val × Bool × Bool × Bool)) : TCounts :=
  { c with expandSat := c.expandSat + (l.filter (fun x => x.2.1)).length,
           nanInt := c.nanInt + (l.filter (fun x => x.2.2.1)).length,
           w2t := c.w2t + (l.filter (fun x => x.2.2.2)).length }

/-- Column `c` of the weight operand from element `k0`, `len` elements: values with their counts, and the block scale
(03 R90 to R92; 02 R43, R44). -/
def readWeights (s : State) (n : Nat) (it : TItem) (c k0 len : Nat) :
    State × (XFault ⊕ (List (Val × Bool × Bool × Bool) × Val)) :=
  let d := it.desc
  let f := tB d
  let alloc := ! (tBit d 48 || rdF s Reg.tensorCfg 8 8 = 1)
  match tRead alloc s n it (fAt d 0x28 47 0 + c * fAt d 0x20 63 32 + k0 * fmtBits f / 8) (lineBytes len f) with
  | (s1, .inl e) => (s1, .inl e)
  | (s1, .inr bs) =>
    if isTable f then
      let g := tGroup d
      match tRead true s1 n it (fAt d 0x30 47 0 + (c * ((tK d + g - 1) / g) + k0 / g) * entryBytes f) (entryBytes f) with
      | (s2, .inl e) => (s2, .inl e)
      | (s2, .inr tbl) => (s2, .inr ((unpack f len bs).map (weightVal d tbl), .fin false 1 0))
    else if isQb f then
      match tRead true s1 n it (fAt d 0x30 47 0 + c * scalePitch (tK d) + k0 / 32) 1 with
      | (s2, .inl e) => (s2, .inl e)
      | (s2, .inr u) => (s2, .inr ((unpack f len bs).map (weightVal d []), scaleVal (leNat u)))
    else (s1, .inr ((unpack f len bs).map (weightVal d []), .fin false 1 0))

/-- Runs a read over the numbers below `n`, in order; the first fault ends it. -/
def readAll {α : Type} (n : Nat) (f : State → Nat → State × (XFault ⊕ α)) (s : State) : State × (XFault ⊕ List α) :=
  (List.range n).foldl (fun acc i =>
    match acc with
    | (s, .inl e) => (s, .inl e)
    | (s, .inr l) => match f s i with
      | (s1, .inl e) => (s1, .inl e)
      | (s1, .inr a) => (s1, .inr (l ++ [a]))) (s, .inr [])

/-- The auxiliary elements of the lines of a tile, as a list of rows (03 R90). -/
def readAux (s : State) (n : Nat) (it : TItem) (t : Nat) : State × (XFault ⊕ List (List Val)) :=
  let d := it.desc
  let f := fAt d 0x58 52 48
  let size := fmtBits f / 8
  let at_ := fun (line pos : Nat) => fAt d 0x58 47 0 + line * fAt d 0x48 63 32 + pos * size
  match tileBox d t with
  | (r0, c0, nr, nc) =>
    if tBit d 47 then
      match readAll nc (fun s j => tRead true s n it (at_ (c0 + j) r0) (nr * size)) s with
      | (s1, .inl e) => (s1, .inl e)
      | (s1, .inr cols) =>
        let vs := cols.map (fun bs => (unpack f nr bs).map (decodeFmt f))
        (s1, .inr ((List.range nr).map (fun i => vs.map (fun col => lget col i .nan))))
    else
      match readAll nr (fun s i => tRead true s n it (at_ (r0 + i) c0) (nc * size)) s with
      | (s1, .inl e) => (s1, .inl e)
      | (s1, .inr rows) => (s1, .inr (rows.map (fun bs => (unpack f nc bs).map (decodeFmt f))))

/-! One K-step (02 R47 to R52). -/

/-- A zero integer accumulator has no sign. -/
def intNorm (v : Val) : Val :=
  if isZero v then .fin false 0 0 else v

/-- An accumulator with one chunk added: activation values and scale, weight values and scale (02 R48, R49, R52). -/
def accumulate (d : List Byte) (acc : Val) (a : List Val × Val) (w : List Val × Val) : Val :=
  let sum := vsum ((a.1.zip w.1).map (fun x => vmul x.1 x.2))
  if intMode d then intNorm (vadd acc sum)
  else if blockMode d then rnd32 (vadd acc (vmul (vmul a.2 w.2) sum))
  else rnd32 (vadd acc sum)

/-- The accumulators of a tile before its first chunk: +0, or the auxiliary operand (03 R89; 02 R49). -/
def startAcc (s : State) (n : Nat) (it : TItem) (t : Nat) : State × (XFault ⊕ List Val) :=
  match tileBox it.desc t with
  | (_, _, nr, nc) =>
    if tBit it.desc 34 then
      match readAux s n it t with
      | (s1, .inl e) => (s1, .inl e)
      | (s1, .inr rows) => (s1, .inr rows.flatten)
    else (s, .inr (List.replicate (nr * nc) (.fin false 0 0)))

/-- A GEMM chunk added to every accumulator of tile `t`; weights count at their read by a tile of row block 0 (02 R63). -/
def gemmStep (s : State) (n : Nat) (it : TItem) (t k : Nat) (acc : List Val) : State × (XFault ⊕ (List Val × TCounts)) :=
  let d := it.desc
  let k0 := k * chunkOf d
  let len := min (chunkOf d) (tK d - k0)
  match tileBox d t with
  | (r0, c0, nr, nc) =>
    match readAll nr (fun s i => readAct s n it (r0 + i) k0 len) s with
    | (s1, .inl e) => (s1, .inl e)
    | (s1, .inr rows) =>
      match readAll nc (fun s j => readWeights s n it (c0 + j) k0 len) s1 with
      | (s2, .inl e) => (s2, .inl e)
      | (s2, .inr cols) =>
        let ws := cols.map (fun w => (w.1.map (fun x => x.1), w.2))
        let pairs := rows.flatMap (fun a => ws.map (fun w => (a, w)))
        (s2, .inr ((acc.zip pairs).map (fun x => accumulate d x.1 x.2.1 x.2.2),
          if r0 = 0 then weightCounts it.counts (cols.flatMap (fun w => w.1)) else it.counts))

/-- The decoded elements of tile `t` of an EWISE item, held exactly (03 R88). -/
def ewiseStep (s : State) (n : Nat) (it : TItem) (t : Nat) : State × (XFault ⊕ List Val) :=
  match tileBox it.desc t with
  | (r0, c0, nr, nc) =>
    match readAll nr (fun s i =>
      match readAct s n it (r0 + i) c0 (min nc 32) with
      | (s1, .inl e) => (s1, .inl e)
      | (s1, .inr a) =>
        if nc ≤ 32 then (s1, .inr (a.1.map (vmul a.2)))
        else match readAct s1 n it (r0 + i) (c0 + 32) (nc - 32) with
          | (s2, .inl e) => (s2, .inl e)
          | (s2, .inr b) => (s2, .inr (a.1.map (vmul a.2) ++ b.1.map (vmul b.2)))) s with
    | (s1, .inl e) => (s1, .inl e)
    | (s1, .inr rows) => (s1, .inr rows.flatten)

/-! The epilogue (03 R97 to R102). -/

/-- An FP32 field of the per-column vector; one whose enable bit is 0 is not read (03 R91). -/
def readVecField (s : State) (n : Nat) (it : TItem) (on : Bool) (va : Nat) : State × (XFault ⊕ Val) :=
  if on then
    match tRead true s n it va 4 with
    | (s1, .inl e) => (s1, .inl e)
    | (s1, .inr bs) => (s1, .inr (val32 (leNat bs)))
  else (s, .inr (.fin false 1 0))

/-- The per-column scale and bias of column `c` (03 R91). -/
def readVec (s : State) (n : Nat) (it : TItem) (c : Nat) : State × (XFault ⊕ (Val × Val)) :=
  let a := fAt it.desc 0x60 47 0 + 8 * c
  match readVecField s n it (tBit it.desc 36) a with
  | (s1, .inl e) => (s1, .inl e)
  | (s1, .inr x) => match readVecField s1 n it (tBit it.desc 37) (a + 4) with
    | (s2, .inl e) => (s2, .inl e)
    | (s2, .inr y) => (s2, .inr (x, y))

/-- Steps 1 to 6 for one element: accumulator, column scale and bias, auxiliary element (03 R97). -/
def epiElem (d : List Byte) (a : Val) (v : Val × Val) (aux : Val) : Val :=
  let y1 := rnd32 (vmul (val32 (fAt d 0x70 31 0)) a)
  let y2 := if tBit d 36 then mul32 y1 v.1 else y1
  let y3 := if tBit d 37 then add32 y2 v.2 else y2
  let y4 := if tBit d 38 then add32 y3 (if tBit d 39 then vneg aux else aux) else y3
  let y5 := activate (fAt d 0 43 40) (val32 (fAt d 0x70 63 32)) (val32 (fAt d 0x78 31 0)) y4
  mul32 y5 (val32 (fAt d 0x78 63 32))

/-- A tile's partial of the reduction (03 R101, R102). -/
def partialOf (code : Nat) (l : List Val) : Val :=
  match code with
  | 1 => rnd32 (vsum l)
  | 2 => rnd32 (vsum (l.map (fun v => vmul v v)))
  | 3 => rnd32 (vsum (l.map vabs))
  | 4 => (l.map vabs).foldl vmaxP (.fin false 0 0)
  | _ => .fin false 0 0

/-- REDUCE_VALUE: the partials in increasing tile number, from +0 (03 R102). -/
def reduceAll (code : Nat) (m : Map Val) : Val :=
  m.foldl (fun a e => if code = 4 then vmaxP a e.2 else add32 a e.2) (.fin false 0 0)

/-- Splits a list into pieces of `n`, with fuel. -/
def piecesOf {α : Type} (n : Nat) (fuel : Nat) (l : List α) : List (List α) :=
  match fuel with
  | 0 => []
  | k + 1 => if l.isEmpty then [] else l.take n :: piecesOf n k (l.drop n)

/-- A line's bytes and scale bytes in the output format, with the counts it adds: `l` are its elements with their rounding
(02 R54 to R59, R69 to R73). -/
def convLine (d : List Byte) (c : TCounts) (l : List (Val × Rnd)) : List Byte × List Byte × TCounts :=
  let f := tOut d
  if isQb f then
    let qs := (piecesOf 32 l.length l).map (blockQuant f)
    ((qs.flatMap (fun q => q.elems)).map (BitVec.ofNat 8), qs.map (fun q => BitVec.ofNat 8 q.scale),
      { c with flush := c.flush + (qs.map (fun q => q.flush)).foldl (· + ·) 0,
               nanBlock := c.nanBlock + (qs.map (fun q => q.nan)).foldl (· + ·) 0 })
  else
    let cs := l.map (fun x => convOut f x.2 (tBit d 30) x.1)
    (cs.flatMap (fun x => leBytes (fmtBits f / 8) x.bits), [],
      { c with sat := c.sat + (cs.filter (fun x => x.sat)).length, nanInt := c.nanInt + (cs.filter (fun x => x.nanInt)).length })

/-! Output that overlaps an operand (03 R95): what is written there is free. -/

/-- A range of lines in memory: the first line's address, the distance between lines, their number, and the bytes of each. -/
structure Area where
  base : Nat
  stride : Nat
  lines : Nat
  bytes : Nat
  deriving DecidableEq, Repr

/-- The `n` bytes at `va` meet a line of the area: of the lines that begin before their end, the last. -/
def areaHits (va n : Nat) (a : Area) : Bool :=
  n ≠ 0 && a.lines ≠ 0 && a.bytes ≠ 0 && a.base < va + n &&
    va < a.base + min (a.lines - 1) ((va + n - 1 - a.base) / a.stride) * a.stride + a.bytes

/-- The operands, tables, scales and vector that an item reads from memory (03 R90 to R92, R717). An auxiliary operand that lies
as the output does is not one of them (03 R95). -/
def operandAreas (d : List Byte) : List Area :=
  let on (b : Bool) (x : Area) : List Area := if b then [x] else []
  let groups := (tK d + tGroup d - 1) / tGroup d
  let inPlace := fAt d 0x58 47 0 = tDAddr d && fAt d 0x48 63 32 = fAt d 0x48 31 0 && fAt d 0x58 52 48 = tOut d
  on (! tHandoff d) { base := fAt d 0x18 47 0, stride := fAt d 0x20 31 0, lines := tM d, bytes := lineBytes (aExtent d) (tA d) } ++
  on (isQb (tA d)) { base := fAt d 0x38 47 0, stride := scalePitch (aExtent d), lines := tM d, bytes := (aExtent d + 31) / 32 } ++
  on (tGemm d) { base := fAt d 0x28 47 0, stride := fAt d 0x20 63 32, lines := tN d, bytes := lineBytes (tK d) (tB d) } ++
  on (tGemm d && isTable (tB d)) { base := fAt d 0x30 47 0, stride := 0, lines := 1, bytes := tN d * groups * entryBytes (tB d) } ++
  on (tGemm d && isQb (tB d)) { base := fAt d 0x30 47 0, stride := scalePitch (tK d), lines := tN d, bytes := (tK d + 31) / 32 } ++
  on (tAux d && ! inPlace)
    { base := fAt d 0x58 47 0, stride := fAt d 0x48 63 32, lines := dLines d, bytes := lineBytes (dExtent d) (fAt d 0x58 52 48) } ++
  on (tBit d 36 || tBit d 37) { base := fAt d 0x60 47 0, stride := 8, lines := tN d, bytes := 8 }

/-- The output's own elements, and its own scales (03 R90, R92). -/
def outArea (d : List Byte) : Area :=
  { base := tDAddr d, stride := fAt d 0x48 31 0, lines := dLines d, bytes := lineBytes (dExtent d) (tOut d) }
def outScaleArea (d : List Byte) : Area :=
  { base := fAt d 0x50 47 0, stride := scalePitch (dExtent d), lines := if isQb (tOut d) then dLines d else 0, bytes := (dExtent d + 31) / 32 }

/-- Bytes of elements of `size` bytes to be written at `va`: those of an element that meets an area are free (03 R95, log 13). -/
def freeWhere (seed : Nat) (areas : List Area) (va size : Nat) (bs : List Byte) : List Byte :=
  (bs.zip (List.range bs.length)).map (fun e =>
    if areas.any (areaHits (va + e.2 / size * size) size) then Config.overlapByte seed (va + e.2) else e.1)

/-- A write that an array makes for an item's context (03 R94), free where it meets an area (03 R95). -/
def tWrite (s : State) (n : Nat) (it : TItem) (areas : List Area) (size va : Nat) (bs : List Byte) : State × Option XFault :=
  if bs.isEmpty then (s, none)
  else if areas.any (areaHits va bs.length) then
    engineWrite (draw s).2 (benchOf n) (.ctx it.org.ctx) .tensorOut va (freeWhere (draw s).1 areas va size bs)
  else engineWrite s (benchOf n) (.ctx it.org.ctx) .tensorOut va bs

/-- Writes one output line piece: line `line`, from position `pos` along the contiguous axis (03 R90, R92). -/
def writeLine (s : State) (n : Nat) (it : TItem) (line pos : Nat) (l : List (Val × Rnd)) :
    State × (XFault ⊕ TItem) :=
  let d := it.desc
  let size := fmtBits (tOut d) / 8
  match convLine d it.counts l with
  | (bs, sc, c) =>
    match tWrite s n it (outScaleArea d :: operandAreas d) size (tDAddr d + line * fAt d 0x48 31 0 + pos * size) bs with
    | (s1, some f) => (s1, .inl f)
    | (s1, none) =>
      match tWrite s1 n it (outArea d :: operandAreas d) 1 (fAt d 0x50 47 0 + line * scalePitch (dExtent d) + pos / 32) sc with
      | (s2, some f) => (s2, .inl f)
      | (s2, none) => (s2, .inr { it with counts := c })

/-- Writes the lines of a tile of results `y`, a list of rows. -/
def writeTile (s : State) (n : Nat) (it : TItem) (t : Nat) (y : List (List Val)) : State × (XFault ⊕ TItem) :=
  let d := it.desc
  let seed := fAt d 0x10 63 32
  let rnd := fun (m c : Nat) => rndOf (fAt d 0 29 28) seed m c
  match tileBox d t with
  | (r0, c0, nr, nc) =>
    let line := fun (j : Nat) =>
      if tBit d 47 then (c0 + j, r0, (List.range nr).map (fun i => (lget (lget y i []) j .nan, rnd (r0 + i) (c0 + j))))
      else (r0 + j, c0, (List.range nc).map (fun c => (lget (lget y j []) c .nan, rnd (r0 + j) (c0 + c))))
    (List.range (if tBit d 47 then nc else nr)).foldl (fun acc j =>
      match acc with
      | (s, .inl e) => (s, .inl e)
      | (s, .inr it) => match line j with
        | (ln, pos, l) => writeLine s n it ln pos l) ((s, .inr it) : State × (XFault ⊕ TItem))

/-- The epilogue of one tile (03 R97). -/
def epilogue (s : State) (n : Nat) (it : TItem) (t : Nat) (acc : List Val) : State × (XFault ⊕ TItem) :=
  let d := it.desc
  match tileBox d t with
  | (_, c0, nr, nc) =>
    match readAll nc (fun s j => readVec s n it (c0 + j)) s with
    | (s1, .inl e) => (s1, .inl e)
    | (s1, .inr vec) =>
      match (if tBit d 38 then readAux s1 n it t else (s1, .inr (List.replicate nr (List.replicate nc (.fin false 0 0))))) with
      | (s2, .inl e) => (s2, .inl e)
      | (s2, .inr aux) =>
        let y := (List.range nr).map (fun i => (List.range nc).map (fun j =>
          epiElem d (lget acc (i * nc + j) .nan) (lget vec j (.nan, .nan)) (lget (lget aux i []) j .nan)))
        let red := fAt d 0 46 44
        let it1 := { it with partials := if red = 0 then it.partials else mset it.partials t (partialOf red y.flatten) }
        match (if tDAddr d = 0 then (s2, .inr it1) else writeTile s2 n it1 t y) with
        | (s3, .inl e) => (s3, .inl e)
        | (s3, .inr it2) => (s3, .inr { it2 with counts := { it2.counts with tiles := it2.counts.tiles + 1 } })

/-! The advance of a run. -/

/-- The K-steps of each tile of an item: an EWISE tile counts as one (03 R75, R88, R117). -/
def kSteps (d : List Byte) : Nat :=
  if tGemm d then (tK d + chunkOf d - 1) / chunkOf d else 1

/-- A run at the start of a set: its tiles' accumulators before their first chunk (03 R78). -/
def openSet (s : State) (n : Nat) (it : TItem) (r : TRun) : State × (XFault ⊕ TRun) :=
  if r.setLen ≠ 0 then (s, .inr r)
  else
    let len := setLenAt it.desc r.first r.count r.set
    match readAll len (fun s i => startAcc s n it (r.set + i)) s with
    | (s1, .inl e) => (s1, .inl e)
    | (s1, .inr accs) => (s1, .inr { r with setLen := len, tile := 0, k := 0, acc := accs })

/-- What one advance of a run gave: the item, and the run or none when it has ended; how many K-steps it made. -/
structure Advance where
  item : TItem
  run : Option TRun
  steps : Nat
  deriving DecidableEq, Repr

/-- The epilogues of a set, tile by tile; after them the run goes on with its next set (03 R81). -/
def endSet (s : State) (n : Nat) (it : TItem) (r : TRun) (steps : Nat) : State × (XFault ⊕ Advance) :=
  match (List.range r.setLen).foldl (fun acc i =>
      match acc with
      | (s, .inl e) => (s, .inl e)
      | (s, .inr it) => epilogue s n it (r.set + i) (lget r.acc i [])) ((s, .inr it) : State × (XFault ⊕ TItem)) with
  | (s1, .inl e) => (s1, .inl e)
  | (s1, .inr it1) =>
    let next := r.set + r.setLen
    (s1, .inr { item := { it1 with lastOut := s1.dtime },
                run := if next < r.first + r.count then some { r with set := next, setLen := 0, tile := 0, k := 0, acc := [] }
                  else none,
                steps := steps })

/-- One K-step of a run that has its set open: chunk `k` of its tile, then the next tile, then the next chunk (03 R78). -/
def stepRun (s : State) (n : Nat) (it : TItem) (r : TRun) : State × (XFault ⊕ Advance) :=
  let d := it.desc
  if kSteps d = 0 then endSet s n it r 0
  else
    match (if tGemm d then gemmStep s n it (r.set + r.tile) r.k (lget r.acc r.tile [])
      else match ewiseStep s n it (r.set + r.tile) with
        | (s1, .inl e) => (s1, .inl e)
        | (s1, .inr a) => (s1, .inr (a, it.counts))) with
    | (s1, .inl e) => (s1, .inl e)
    | (s1, .inr (acc, c)) =>
      let it1 := { it with counts := c }
      let r1 := { r with acc := lset r.acc r.tile acc, tile := r.tile + 1 }
      let r2 := if r1.tile < r.setLen then r1 else { r1 with tile := 0, k := r.k + 1 }
      if r2.k < kSteps d then (s1, .inr { item := it1, run := some r2, steps := 1 }) else endSet s1 n it1 r2 1

/-- The next advance of a run on core `n`: the item has started, and the core has run part of it. -/
def advanceRun (s : State) (n : Nat) (it : TItem) (r : TRun) : State × (XFault ⊕ Advance) :=
  let it1 := { it with start := some (it.start.getD s.dtime), cores := if it.cores.contains n then it.cores else it.cores ++ [n] }
  match openSet s n it1 r with
  | (s1, .inl e) => (s1, .inl e)
  | (s1, .inr r1) => stepRun s1 n it1 r1

end Sys2Proof.Machine
end

