-- ==== Sys2Proof/Machine/Surface.lean ====
section
/-! DEFINITION. Surface formats (06 R242, R243), their elements as a program sees them, and Xoelle surface compression
(06 R249 to R253). -/
namespace Sys2Proof.Machine

/-- How a component of an element is held. -/
inductive ChanKind where
  | unorm | snorm | uint | sint | float | srgb | ufloat
  deriving DecidableEq, Repr

/-- A component of an element: red, green, blue, alpha as 0 to 3; its first bit, its bits and its kind. -/
structure Chan where
  comp : Nat
  lo : Nat
  bits : Nat
  kind : ChanKind
  deriving DecidableEq, Repr

/-- `n` components of `w` bits from red on, red at the lowest byte. -/
def plainChans (n w : Nat) (k : ChanKind) : List Chan :=
  (List.range n).map (fun i => { comp := i, lo := w * i, bits := w, kind := k })

/-- The kinds of the 8-bit and 16-bit rows of R242, in the order of their codes. -/
def normKind (i : Nat) : ChanKind :=
  match i with
  | 0 => .unorm
  | 1 => .snorm
  | 2 => .uint
  | 3 => .sint
  | _ => .float

/-- The components of an 8-bit format of four. -/
def bgra (k : ChanKind) : List Chan :=
  [{ comp := 2, lo := 0, bits := 8, kind := k }, { comp := 1, lo := 8, bits := 8, kind := k },
   { comp := 0, lo := 16, bits := 8, kind := k }, { comp := 3, lo := 24, bits := 8, kind := .unorm }]

/-- The components of an uncompressed format (06 R242); none for a code that is not one. RGB9E5 has its own reading. -/
def surfChans (c : Nat) : Option (List Chan) :=
  if 1 ≤ c && c ≤ 0x0C then some (plainChans (2 ^ ((c - 1) / 4)) 8 (normKind ((c - 1) % 4)))
  else if c = 0x0D then some (plainChans 3 8 .srgb ++ [{ comp := 3, lo := 24, bits := 8, kind := .unorm }])
  else if c = 0x0E then some (bgra .unorm)
  else if c = 0x0F then some (bgra .srgb)
  else if 0x10 ≤ c && c ≤ 0x1E then some (plainChans (2 ^ ((c - 0x10) / 5)) 16 (normKind ((c - 0x10) % 5)))
  else if 0x1F ≤ c && c ≤ 0x27 then some (plainChans (2 ^ ((c - 0x1F) / 3)) 32 (normKind (2 + (c - 0x1F) % 3)))
  else if c = 0x28 || c = 0x29 then
    let k := if c = 0x28 then ChanKind.unorm else .uint
    some (plainChans 3 10 k ++ [{ comp := 3, lo := 30, bits := 2, kind := k }])
  else if c = 0x2A then
    some [{ comp := 0, lo := 0, bits := 11, kind := .ufloat }, { comp := 1, lo := 11, bits := 11, kind := .ufloat },
      { comp := 2, lo := 22, bits := 10, kind := .ufloat }]
  else if c = 0x2B then some []
  else if c = 0x2C then
    some [{ comp := 2, lo := 0, bits := 5, kind := .unorm }, { comp := 1, lo := 5, bits := 6, kind := .unorm },
      { comp := 0, lo := 11, bits := 5, kind := .unorm }]
  else if c = 0x30 then some (plainChans 1 32 .float)
  else if c = 0x31 then some (plainChans 1 16 .unorm)
  else none

/-- The bytes of an element; 0 for a code that is not an uncompressed format. -/
def surfBytes (c : Nat) : Nat :=
  if c = 0x2B then 4
  else match surfChans c with
    | some l => (l.map (fun x => x.lo + x.bits)).foldl max 0 / 8
    | none => 0

/-- The codes of R242: uncompressed, BC, ETC2 and EAC, ASTC. -/
def surfCode (c : Nat) : Bool :=
  (surfChans c).isSome || (0x40 ≤ c && c ≤ 0x4D) || (0x50 ≤ c && c ≤ 0x59) || (0x60 ≤ c && c ≤ 0x6D) ||
    (0x70 ≤ c && c ≤ 0x7D) || (0x80 ≤ c && c ≤ 0x8D)

/-- Codes that planes accept (06 R243). -/
def planeFmt (c : Nat) : Bool :=
  (1 ≤ c && c ≤ 0x2A && (surfChans c).isSome) || c = 0x2C || c = 0x30 || c = 0x31

/-- Codes to which Xoelle compression applies (06 R243). -/
def xoelleFmt (c : Nat) : Bool :=
  (surfChans c).isSome && surfBytes c ≤ 8 && c ≠ 0x2B && c ≠ 0x30 && c ≠ 0x31

/-- A depth format. -/
def depthFmt (c : Nat) : Bool :=
  c = 0x30 || c = 0x31

/-- Integer formats, whose RESOLVE takes sample 0 (06 R255). -/
def intFmt (c : Nat) : Bool :=
  match surfChans c with
  | some l => l.any (fun x => x.kind = .uint || x.kind = .sint)
  | none => false

/-! Components. -/

/-- The quotient of two numbers as a value that rounds to FP32 as the quotient does: 300 bits, and a bit for the rest. -/
def quot (neg : Bool) (p q : Nat) : Val :=
  if q = 0 then .nan
  else
    let x := p * 2 ^ 300
    .fin neg (2 * (x / q) + b2n (x % q ≠ 0)) (-301)

/-- The nearest integer, ties to even, of a finite value. -/
def nearInt (v : Val) : Int :=
  match v with
  | .fin n m e =>
    let r : Nat := if 0 ≤ e then m * 2 ^ e.toNat else shiftRound .rne m (-e).toNat
    if n then -(r : Int) else r
  | _ => 0

/-- A value limited to a range; a NaN becomes 0. -/
def limitVal (lo hi v : Val) : Val :=
  if isNan v then .fin false 0 0 else if vlt v lo then lo else if vlt hi v then hi else v

/-- The unsigned small floats of R242: 11 bits and 10 bits. -/
def smallFloat (bits : Nat) : FpFmt :=
  { mb := bits - 5, eb := 5, emin := -14, emax := 15, inf := true, top := 2 ^ (bits - 4) - 1 }

/-- A component as a program sees it: FP32 bits, or an integer. -/
def decodeChan (k : Chan) (x : Nat) : Nat :=
  match k.kind with
  | .unorm => bits32 (rnd32 (quot false x (2 ^ k.bits - 1)))
  | .snorm =>
    let i := max (sInt k.bits x) (-(2 ^ (k.bits - 1) - 1 : Nat) : Int)
    bits32 (rnd32 (quot (i < 0) i.natAbs (2 ^ (k.bits - 1) - 1)))
  | .uint => x
  | .sint => (BitVec.ofInt 32 (sInt k.bits x)).toNat
  | .float => if k.bits = 32 then x else bits32 (decodeFp fp16 x)
  | .srgb => Config.surfFree 0 k.bits x
  | .ufloat => bits32 (decodeFp (smallFloat k.bits) x)

/-- A program's component in a format: normalised and float formats round to nearest even (06 R255, DEDUCED: log 30). -/
def encodeChan (k : Chan) (w : Nat) : Nat :=
  let v := val32 w
  match k.kind with
  | .unorm => (nearInt (vmul (limitVal (.fin false 0 0) (.fin false 1 0) v) (.fin false (2 ^ k.bits - 1) 0))).toNat
  | .snorm =>
    (BitVec.ofInt k.bits (nearInt (vmul (limitVal (.fin true 1 0) (.fin false 1 0) v) (.fin false (2 ^ (k.bits - 1) - 1) 0)))).toNat
  | .uint => if w < 2 ^ k.bits then w else Config.surfFree 2 k.bits w % 2 ^ k.bits
  | .sint =>
    let i := sInt 32 w
    if -(2 ^ (k.bits - 1) : Nat) ≤ i && i < (2 ^ (k.bits - 1) : Nat) then (BitVec.ofInt k.bits i).toNat
    else Config.surfFree 2 k.bits w % 2 ^ k.bits
  | .float => if k.bits = 32 then w else (convFp fp16 .rne true v).bits
  | .srgb => Config.surfFree 1 k.bits w % 2 ^ k.bits
  | .ufloat => if isNan v then (convFp (smallFloat k.bits) .rne true v).bits
    else (convFp (smallFloat k.bits) .rne true (if vlt v (.fin false 0 0) then .fin false 0 0 else v)).bits % 2 ^ k.bits

/-- Red, green, blue and alpha of an element; components that a format lacks are 0, and alpha 1 (PRESUMED: log 30). -/
def decodeElem (c : Nat) (bs : List Byte) : List Nat :=
  let x := leNat bs
  let one := if intFmt c then 1 else 0x3F800000
  if c = 0x2B then
    (List.range 3).map (fun i => bits32 (rnd32 (.fin false (bitsN x (9 * i + 8) (9 * i)) ((bitsN x 31 27 : Int) - 24)))) ++ [one]
  else
    let l := (surfChans c).getD []
    (List.range 4).map (fun i =>
      match l.find? (fun k => k.comp = i) with
      | some k => decodeChan k (bitsN x (k.lo + k.bits - 1) k.lo)
      | none => if i = 3 then one else 0)

/-- The bytes of an element of a format from a program's components. -/
def encodeElem (c : Nat) (w : List Nat) : List Byte :=
  leBytes (surfBytes c) (((surfChans c).getD []).foldl (fun a k => a + encodeChan k (lget w k.comp 0) % 2 ^ k.bits * 2 ^ k.lo) 0)

/-! Xoelle (06 R249 to R253). -/

/-- A field of a bit stream, the least significant bit of each byte first. -/
def streamBits (x lo n : Nat) : Nat :=
  x / 2 ^ lo % 2 ^ n

/-- The byte planes of a packed stream from bit `pos`: the bytes of 64 elements, plane by plane; none where a width is above 8 or
the stream ends (06 R251, R253). -/
def unpackPlanes (fuel x pos limit : Nat) : Option (List (List Nat)) :=
  match fuel with
  | 0 => some []
  | n + 1 =>
    let base := streamBits x pos 8
    let w := streamBits x (pos + 8) 4
    let next := pos + 12 + 64 * w
    if 8 < w || limit < next then none
    else (unpackPlanes n x next limit).map (fun r =>
      ((List.range 64).map (fun i => (base + streamBits x (pos + 12 + w * i) w) % 256)) :: r)

/-- The payload bytes of a metadata code (06 R250). -/
def payloadBytes (code b : Nat) : Nat :=
  if code = 0 then 0 else if code = 1 then 32 else if code = 15 then 64 * b else (code - 1) * 32

/-- The 64 elements of a block, and whether its decode failed (06 R250, R253). -/
def decodeBlock (code b : Nat) (clear payload : List Byte) : List (List Byte) × Bool :=
  if code = 0 then (List.replicate 64 (clear.take b), false)
  else if code = 1 then (List.replicate 64 (payload.take b), false)
  else if code = 15 then ((List.range 64).map (fun i => slice payload (b * i) b), false)
  else match unpackPlanes b (leNat payload) 0 (8 * payload.length) with
    | some planes => ((List.range 64).map (fun i => planes.map (fun p => BitVec.ofNat 8 (lget p i 0))), false)
    | none => (List.replicate 64 (zeroBytes b), true)

/-- The fewest bits that hold a number below 256. -/
def bitWidth (n : Nat) : Nat :=
  ((List.range 9).find? (fun w => n < 2 ^ w)).getD 8

/-- A packed stream as a number and its bits: planes of present elements (06 R251, R252). -/
def packPlanes (l : List (Option (List Byte))) (b : Nat) : Nat × Nat :=
  (List.range b).foldl (fun a j =>
    let bytes := l.map (fun e => e.map (fun x => (lget x j 0).toNat))
    let present := bytes.filterMap id
    let base := present.foldl min 255
    let w := bitWidth (present.foldl max 0 - base)
    let res := (bytes.zip (List.range 64)).foldl (fun r e => r + (e.1.getD base - base) * 2 ^ (w * e.2)) 0
    (a.1 + (base + w * 256 + res * 4096) * 2 ^ a.2, a.2 + 12 + 64 * w)) (0, 0)

/-- The code and payload of a block: elements outside the surface are absent (06 R252). -/
def encodeBlock (l : List (Option (List Byte))) (b : Nat) (clear : List Byte) : Nat × List Byte :=
  let present := l.filterMap id
  if present.all (fun e => e = clear.take b) then (0, [])
  else if present.all (fun e => some e = present.head?) then (1, padTo 32 (present.headD []))
  else
    let q := packPlanes l b
    let bytes := (q.2 + 7) / 8
    let n := roundUp bytes 32
    if bytes ≤ 416 && bytes < 64 * b then (n / 32 + 1, leBytes n q.1)
    else (15, l.flatMap (fun e => e.getD (zeroBytes b)))

/-- Where a compressed surface lies: address, metadata address, bytes per element, elements per row, rows and clear value
(06 R249). -/
structure XSurf where
  addr : Nat
  meta_ : Nat
  b : Nat
  w : Nat
  h : Nat
  clear : List Byte
  deriving DecidableEq, Repr

/-- The metadata code of block `k` (06 R249). -/
def readCode (s : State) (cache : Nat) (t : TableId) (x : XSurf) (k : Nat) : State × (XFault ⊕ Nat) :=
  match engineRead s cache t .read (x.meta_ + k / 2) 1 (.fail .unsupported) with
  | (s1, .inl f) => (s1, .inl f)
  | (s1, .inr bs) => (s1, .inr (leNat bs / 16 ^ (k % 2) % 16))

/-- A block that could not be decoded is counted (06 R253). -/
def countDecodeErr (s : State) (bad : Bool) : State :=
  if bad then bump32 s Reg.surfDecodeErrCount Reg.rasterStatus 3 1 else s

/-- The elements of block `k`, and whether its decode failed, which is counted where `count`. -/
def readBlockBy (count : Bool) (s : State) (cache : Nat) (t : TableId) (x : XSurf) (k : Nat) :
    State × (XFault ⊕ (List (List Byte) × Bool)) :=
  match readCode s cache t x k with
  | (s1, .inl f) => (s1, .inl f)
  | (s1, .inr code) =>
    match (if payloadBytes code x.b = 0 then (s1, .inr [])
      else engineRead s1 cache t .read (x.addr + 64 * x.b * k) (payloadBytes code x.b) (.fail .unsupported)) with
    | (s2, .inl f) => (s2, .inl f)
    | (s2, .inr bs) =>
      let r := decodeBlock code x.b x.clear bs
      (countDecodeErr s2 (count && r.2), .inr r)

/-- The elements of block `k`, and whether its decode failed. -/
def readBlock (s : State) (cache : Nat) (t : TableId) (x : XSurf) (k : Nat) : State × (XFault ⊕ (List (List Byte) × Bool)) :=
  readBlockBy true s cache t x k

/-- Writes block `k` in the encoding of R252, with its metadata code. -/
def writeBlock (s : State) (cache : Nat) (t : TableId) (x : XSurf) (k : Nat) (l : List (Option (List Byte))) :
    State × Option XFault :=
  let q := encodeBlock l x.b x.clear
  match (if q.2.isEmpty then (s, none) else engineWrite s cache t .write (x.addr + 64 * x.b * k) q.2) with
  | (s1, some f) => (s1, some f)
  | (s1, none) =>
    match engineRead s1 cache t .read (x.meta_ + k / 2) 1 (.fail .unsupported) with
    | (s2, .inl f) => (s2, some f)
    | (s2, .inr old) =>
      let o := leNat old
      let n := if k % 2 = 0 then o / 16 * 16 + q.1 else o % 16 + q.1 * 16
      engineWrite s2 cache t .write (x.meta_ + k / 2) (leBytes 1 n)

end Sys2Proof.Machine
end

