-- ==== Sys2Proof/Machine/CoreOps.lean ====
section
/-! DEFINITION. What the instructions of core programs share: convergence sets (04 R125 to R128), registers and outstanding reads,
issue (R124, R127), faults (R159 to R161), the local store (R136, R137), the register file (R121), and jobs (10 R420). -/
namespace Sys2Proof.Machine

/-! Groups and their sets. -/

/-- The threads of a mask, lowest first. -/
def threadsOf (mask : Nat) : List Nat :=
  (List.range 64).filter (bitN mask)

/-- The mask of a list of threads. -/
def maskOf (l : List Nat) : Nat :=
  l.foldl (fun a t => if bitN a t then a else a + 2 ^ t) 0

/-- Every set of a group that has threads. -/
def setsOf (g : Group) : List CSet :=
  (g.cur :: g.others).filter (fun c => c.mask ≠ 0)

/-- The unexited threads of a group. -/
def unexited (g : Group) : Nat :=
  (setsOf g).foldl (fun a c => a + c.mask) 0

/-- A set is eligible (04 R127). -/
def eligible (c : CSet) : Bool :=
  c.mask ≠ 0 && c.wait = .run

/-- A set joins a list of sets: running sets of equal program counters merge (04 R125). -/
def joinSet (l : List CSet) (c : CSet) : List CSet :=
  match l with
  | [] => if c.mask = 0 then [] else [c]
  | d :: r =>
    if eligible c && eligible d && d.pc = c.pc then { d with mask := Nat.lor d.mask c.mask } :: r else d :: joinSet r c

/-- Sets of equal program counters merge; where the current set merges, the merged set is current and counts from 0 (04 R125,
R127). -/
def mergeSets (g : Group) : Group :=
  let rest := g.others.foldl joinSet []
  match rest.find? (fun c => eligible c && eligible g.cur && c.pc = g.cur.pc) with
  | some c =>
    { g with cur := { g.cur with mask := Nat.lor g.cur.mask c.mask }, others := rest.filter (fun d => d ≠ c), count := 0 }
  | none => { g with others := rest }

/-- The set of lowest program counter. -/
def lowest (l : List CSet) : Option CSet :=
  l.foldl (fun m c => match m with
    | none => some c
    | some d => if c.pc < d.pc then some c else some d) none

/-- The next current set after one at `pc` (04 R127). -/
def nextSet (l : List CSet) (pc : Nat) : Option CSet :=
  match lowest (l.filter (fun c => eligible c && pc < c.pc)) with
  | some c => some c
  | none => lowest (l.filter eligible)

/-- A switch point: the group's current set gives way to the next eligible one, its count from 0; with none eligible it stays
(04 R127). -/
def switchSet (g : Group) : Group :=
  match nextSet (setsOf g) g.cur.pc with
  | some c => { g with cur := c, others := (setsOf g).filter (fun d => d ≠ c), count := 0 }
  | none => { g with others := g.others.filter (fun c => c.mask ≠ 0) }

/-- A group whose current set is not eligible switches as soon as another is. -/
def wakeSet (g : Group) : Group :=
  if eligible g.cur then g else switchSet g

/-- The current set waits where it stands (04 R127, R132). -/
def waitSet (g : Group) (w : SetWait) : Group :=
  switchSet { g with cur := { g.cur with wait := w } }

/-- Sets that wait for `p` wait no longer. -/
def wakeWhere (g : Group) (p : SetWait → Bool) : Group :=
  let f := fun (c : CSet) => if p c.wait then { c with wait := .run } else c
  mergeSets { g with cur := f g.cur, others := g.others.map f }

/-- The current set goes on to the next instruction (04 R125). -/
def stepSet (g : Group) : Group :=
  mergeSets { g with cur := { g.cur with pc := g.cur.pc + 1 } }

/-- The threads of the current set go to their targets: one set for each target, the lowest current (04 R126). -/
def branchSet (g : Group) (target : Nat → Nat) : Group :=
  let ts := threadsOf g.cur.mask
  let parts := ts.foldl (fun l t => joinSet l { pc := target t, mask := 2 ^ t, wait := .run }) []
  match lowest parts with
  | some c => mergeSets { g with cur := c, others := parts.filter (fun d => d ≠ c) ++ g.others }
  | none => g

/-- Threads of the current set exit; with none left, the group switches (04 R127). -/
def exitThreads (g : Group) (mask : Nat) : Group :=
  let left := maskOf ((threadsOf g.cur.mask).filter (fun t => ! bitN mask t))
  if left = 0 then switchSet { g with cur := { g.cur with mask := 0 } } else { g with cur := { g.cur with mask := left } }

/-! Registers and outstanding reads. -/

/-- Register `r` of thread `t`; one that nothing has written is undefined. -/
def regRd (g : Group) (t r : Nat) : Word32 :=
  mgetD g.regs (t * 128 + r) (Config.undefReg g.seed (t * 128 + r))

def regWr (g : Group) (t r : Nat) (v : Word32) : Group :=
  { g with regs := mset g.regs (t * 128 + r) v }

/-- A 64-bit value of two registers, the low word first. -/
def regRd64 (g : Group) (t r : Nat) : Nat :=
  (regRd g t r).toNat + (regRd g t (r + 1)).toNat * 2 ^ 32

/-- Writes a natural number into `n` registers from `r`, the low word first. -/
def regWrN (g : Group) (t r n x : Nat) : Group :=
  (List.range n).foldl (fun g i => regWr g t (r + i) (BitVec.ofNat 32 (x / 2 ^ (32 * i)))) g

/-- The same value for every thread of a mask. -/
def regAll (g : Group) (mask r n x : Nat) : Group :=
  (threadsOf mask).foldl (fun g t => regWrN g t r n x) g

/-- Registers that an access of `size` bytes takes (04 R147). -/
def regsOfSize (size : Nat) : Nat :=
  (size + 3) / 4

/-- An outstanding read will write one of the registers `uses` of a thread of the mask; a read of no bytes holds every instruction of
its threads (04 R145, R166). -/
def readsHold (g : Group) (mask : Nat) (uses : List Nat) : Bool :=
  g.reads.any (fun r => bitN mask r.thread &&
    (r.size = 0 || uses.any (fun u => r.dest ≤ u && u < r.dest + regsOfSize r.size)))

/-! Workgroups and groups on cores. -/

/-- A group by its identifier, with its workgroup, on a core. -/
def findGroup (s : State) (core gid : Nat) : Option (WG × Group) :=
  (coreOf s core).wgs.findSome? (fun w => (w.groups.find? (fun g => g.gid = gid)).map (fun g => (w, g)))

/-- The state with a workgroup of a core replaced. -/
def setWG (s : State) (core : Nat) (w : WG) : State :=
  let c := coreOf s core
  setCoreOf s core { c with wgs := c.wgs.map (fun x => if x.wgid = w.wgid then w else x) }

/-- A workgroup with one of its groups replaced. -/
def putGroup (w : WG) (g : Group) : WG :=
  { w with groups := w.groups.map (fun x => if x.gid = g.gid then g else x) }

/-- The state with a group of a core replaced. -/
def setGroup (s : State) (core : Nat) (w : WG) (g : Group) : State :=
  setWG s core (putGroup w g)

/-- ROTATE_LIMIT (04 R130). -/
def rotateLimit (s : State) : Nat :=
  16 * 2 ^ rdF s Reg.coreSchedCfg 1 0

/-- A group of a core that can issue an instruction that uses the registers `uses` (04 R124, R127, R164; 11 R478): the core is live,
its context LIVE, it neither sleeps nor stops, its set is eligible with its count below ROTATE_LIMIT, and its operands are there. -/
def readyGroup (s : State) (core gid : Nat) (uses : List Nat) : Option (WG × Group) :=
  match findGroup s core gid with
  | none => none
  | some (w, g0) =>
    let g := wakeSet g0
    if coreLive s core && ctxLive s w.org.ctx && ! g.stopping && g.sleep.isNone && eligible g.cur &&
        g.count < rotateLimit s && ! readsHold g g.cur.mask uses then some (w, g) else none

/-- One more instruction counts toward ROTATE_LIMIT. -/
def countIssue (g : Group) : Group :=
  { g with count := g.count + 1 }

/-- The group's set passes to its next instruction: the usual end of an instruction. -/
def nextInstr (s : State) (core : Nat) (w : WG) (g : Group) : State :=
  setGroup s core w (stepSet (countIssue g))

/-- A module's handle (05 R177). -/
def moduleHandle (s : State) (key : Nat) : Nat :=
  key % 4096 + key / 4096 * 4096 + ((mget s.core.modules key).map (fun m => m.gen)).getD 0 * 2 ^ 17

/-- The detail words of a core (04 R161): the word offset is the translated program's, which the spec does not give (log 3). -/
def coreDetail (s : State) (w : WG) (g : Group) (mask what trap offset : Nat) : List Byte :=
  leBytes 4 (moduleHandle s w.modKey) ++ leBytes 4 offset ++ leBytes 8 mask ++ leBytes 2 w.index ++ leBytes 1 g.idx ++
    leBytes 1 what ++ leBytes 4 trap

/-- A fault of threads of a group (04 R159 to R162): one record, which kills the context; the work fails with the code. -/
def coreFaultAt (s : State) (core : Nat) (w : WG) (g : Group) (code fault mask what trap : Nat) : State :=
  let (off, s1) := draw s
  failWork s1 w.org code (Engine.core core) fault (coreDetail s1 w g mask what trap off)

/-- A fault whose detail words have no more. -/
def coreFault (s : State) (core : Nat) (w : WG) (g : Group) (code fault mask : Nat) : State :=
  coreFaultAt s core w g code fault mask 0 0

/-- A memory fault of threads of a group (04 R160). -/
def coreXFault (s : State) (core : Nat) (w : WG) (g : Group) (f : XFault) (mask : Nat) : State :=
  coreFault s core w g f.code f.va mask

/-! The local store (04 R136, R137), in granules of 1 KiB. -/

/-- The ranges of granules that a core's workgroups and tiles hold: first and count. -/
def heldRanges (c : CoreSt) : List (Nat × Nat) :=
  c.wgs.map (fun w => (w.sharedAt, w.sharedKib)) ++ c.tiles.map (fun t => (t.bank * 32, t.banks * 32))

/-- A range of granules meets none that is held. -/
def rangeFree (l : List (Nat × Nat)) (a n : Nat) : Bool :=
  l.all (fun r => r.2 = 0 || n = 0 || a + n ≤ r.1 || r.1 + r.2 ≤ a)

/-- The banks of which ranges hold a part. -/
def heldBanks (l : List (Nat × Nat)) : List Nat :=
  (List.range 16).filter (fun b => ! rangeFree l (b * 32) 32)

/-- L1_MIN_BANKS (04 R141). -/
def l1Min (s : State) : Nat :=
  rdF s Reg.coreLsCfg 3 0

/-- Where an allocation of `n` granules fits, in steps of `step`, L1 keeping its minimum; and no tile buffer beyond 8 banks. -/
def fitRange (s : State) (c : CoreSt) (n step : Nat) : Option Nat :=
  (List.range (512 / step)).map (· * step) |>.find? (fun a =>
    a + n ≤ 512 && rangeFree (heldRanges c) a n &&
      (heldBanks ((a, n) :: heldRanges c)).length + l1Min s ≤ 16)

/-- Banks held as tile buffer and as shared memory (04 R142). -/
def tileBanks (c : CoreSt) : Nat :=
  (c.tiles.map (fun t => t.banks)).foldl (· + ·) 0
def sharedBanks (c : CoreSt) : Nat :=
  (heldBanks (c.wgs.map (fun w => (w.sharedAt, w.sharedKib)))).length

/-- Banks that a new allocation takes from L1 are counted, and the lines they hold are invalidated (04 R137, R143). -/
def takeBanks (s : State) (core a n : Nat) : State :=
  let c := coreOf s core
  let had := heldBanks (heldRanges c)
  let new := (heldBanks [(a, n)]).filter (fun b => ! had.contains b)
  let s1 := setCoreOf s core { c with l1 := c.l1.filter (fun l => ! new.contains l.bank) }
  if new.isEmpty then s1 else bump32 s1 Reg.coreLsRepartCount Reg.coreStatus 2 new.length

/-- The sector of a memory address that a core's L1 holds. -/
def l1Find (c : CoreSt) (sector : Nat) : Option L1Line :=
  c.l1.find? (fun l => l.sector = sector)

/-- Banks of L1 (04 R136, R137). -/
def l1Banks (c : CoreSt) : List Nat :=
  (List.range 16).filter (fun b => ! (heldBanks (heldRanges c)).contains b)

/-- A sector enters L1: a bank, and what it displaces there, are open (log 26). -/
def l1Put (s : State) (core sector : Nat) (bs : List Byte) : State :=
  let c := coreOf s core
  let banks := l1Banks c
  let (x, s1) := draw s
  let bank := lget banks (x % banks.length) 0
  let inBank := c.l1.filter (fun l => l.bank = bank)
  let drop := if inBank.length < 512 then none else inBank[x / 16 % 512]?
  let keep := c.l1.filter (fun l => some l ≠ drop && l.sector ≠ sector)
  if banks.isEmpty then s else setCoreOf s1 core { c with l1 := { sector := sector, bank := bank, bytes := bs } :: keep }

/-- A store updates the copies that the core's L1 holds (04 R144). -/
def l1Store (c : CoreSt) (mem : Nat) (bs : List Byte) : CoreSt :=
  { c with l1 := c.l1.map (fun l =>
      { l with bytes := (l.bytes.zip (List.range 64)).map (fun e =>
          let a := l.sector * 64 + e.2
          if mem ≤ a then (bs[a - mem]?).getD e.1 else e.1) }) }

/-- The acquire action of the Device scope (04 R145): the core's L1 is invalidated. -/
def l1Clear (s : State) (core : Nat) : State :=
  setCoreOf s core { coreOf s core with l1 := [] }

/-! The register file (04 R121, R124). -/

/-- Groups and registers that an issue path of a core holds. -/
def pathUse (c : CoreSt) (path : Nat) : Nat × Nat :=
  c.wgs.foldl (fun a w => (w.groups.filter (fun g => g.path = path)).foldl (fun a _ => (a.1 + 1, a.2 + w.regs)) a) (0, 0)

/-- The issue path that a further group of `r` registers takes, given the use of each: the one with the fewest registers held that has
room (the choice is the Gantry's and is not observable, 04 R124). -/
def choosePath (use : List (Nat × Nat)) (r : Nat) : Option Nat :=
  ((List.range 4).filter (fun p => (lget use p (0, 0)).1 < 12 && (lget use p (0, 0)).2 + r ≤ 256)).foldl
    (fun m p => match m with
      | none => some p
      | some q => if (lget use p (0, 0)).2 < (lget use q (0, 0)).2 then some p else some q) none

/-- The issue paths of `n` groups of `r` registers, if they fit. -/
def choosePaths (use : List (Nat × Nat)) (r n : Nat) : Option (List Nat) :=
  match n with
  | 0 => some []
  | k + 1 =>
    match choosePath use r with
    | none => none
    | some p => (choosePaths (lupd use p (fun x => (x.1 + 1, x.2 + r))) r k).map (fun l => p :: l)

def pathsFor (c : CoreSt) (r n : Nat) : Option (List Nat) :=
  choosePaths ((List.range 4).map (pathUse c)) r n

/-! Jobs. -/

def jobOf (s : State) (id : Nat) : Option Job :=
  mget s.core.jobs id
def setJob (s : State) (id : Nat) (j : Job) : State :=
  setCore s { s.core with jobs := mset s.core.jobs id j }
def delJob (s : State) (id : Nat) : State :=
  setCore s { s.core with jobs := mdel s.core.jobs id }

/-- The items that core programs of a piece of work have issued and that have not completed (05 R199). -/
def itemsOpen (s : State) (wid : Nat) : Bool :=
  s.core.items.any (fun i => i.2.org.wid = wid && i.2.path ≠ .gantry)

/-- A compute dispatch completes once every workgroup has ended and every tensor work item that they issued has completed
(10 R420, 05 R199). -/
def settleJob (s : State) (id : Nat) : State :=
  match jobOf s id with
  | some j =>
    if j.stage = .compute && j.done = j.total && ! itemsOpen s j.org.wid then finish (delJob s id) j.org.wid 0 else s
  | none => s

/-- The work's time waiting, or saved, is charged where it is placed (12 R542). -/
def chargeStart (s : State) (ctx readyAt : Nat) (saved : Option (Nat × Nat)) : State :=
  match saved with
  | some (_, t) => charge s ctx .preempted (elapsed s t)
  | none => charge s ctx .queueWait (elapsed s readyAt)

/-- The bytes of a workgroup's save area (12 R504): 64 B, 512 + 256 R for each group, and its shared memory. -/
def wgSaveBytes (w : WG) : Nat :=
  64 + w.groups.length * (512 + 256 * w.regs) + w.sharedKib * 1024

/-- The TCLK count of a core (05 R189). -/
def coreClock (s : State) (core : Nat) : Nat :=
  let c := coreOf s core
  (c.clockBase + elapsed s c.clockAt * s.core.tclk / 1000) % 2 ^ 64

/-- A workgroup leaves its core: its registers, shared memory and reservation are released. -/
def leaveWG (s : State) (core : Nat) (w : WG) : State :=
  let c := coreOf s core
  unreserve (setCoreOf s core { c with wgs := c.wgs.filter (fun x => x.wgid ≠ w.wgid) }) w.org.part (saveKib (wgSaveBytes w))

/-- Every thread of a workgroup has exited, and none of its reads or copies is outstanding. -/
def wgOver (w : WG) : Bool :=
  w.groups.all (fun g => unexited g = 0 && g.reads.isEmpty && g.copies.isEmpty)

end Sys2Proof.Machine
end

