-- ==== Sys2Proof/Machine/TensorCmds.lean ====
section
/-! DEFINITION. Tensor work items on arrays (03 R82 to R85, R103 to R111): dispatch, placement, K-steps, completion, faults and
preemption. -/
namespace Sys2Proof.Machine

/-- A count of nothing. -/
def noCounts : TCounts :=
  { sat := 0, nanInt := 0, expandSat := 0, w2t := 0, flush := 0, nanBlock := 0, preempts := 0, tiles := 0 }

/-- A new work item (03 R82). -/
def newItem (s : State) (o : Origin) (path : TPath) (desc : List Byte) (addr spread : Nat) : TItem :=
  { org := o, path := path, desc := desc, descAddr := addr, spread := spread, runsLeft := spread, counts := noCounts,
    partials := [], start := none, lastOut := s.dtime, cores := [], open_ := 0, fault := none, readyAt := s.dtime }

/-- A run that no array has begun. -/
def newRun (id : Nat) (r : Nat × Nat) : TRun :=
  { item := id, first := r.1, count := r.2, set := r.1, setLen := 0, tile := 0, k := 0, acc := [], placedAt := 0, saved := none }

/-- The live logical cores. -/
def liveCores (s : State) : List Nat :=
  (List.range 64).filter (coreLive s)

/-- The cores that a limit allows: SPREAD of 03 R83. -/
def spreadOf (s : State) (limit : Nat) : Nat :=
  if limit = 0 || 64 < limit then (liveCores s).length else min limit (liveCores s).length

/-- The runs of an item join those that wait for placement (03 R77, R83, R84). -/
def addItem (s : State) (id : Nat) (it : TItem) : State :=
  let n := tileCount it.desc
  let k := min it.spread n
  let s1 := setItem s id { it with runsLeft := k }
  setCore s1 { s1.core with savedRuns := s1.core.savedRuns ++ (List.range k).map (fun i => newRun id (runOf n k i)) }

/-- Dispatches a checked descriptor of the ring or plan path (03 R82): its item's identifier is its work's. -/
def startTensor (s : State) (o : Origin) (desc : List Byte) (addr : Nat) : State :=
  let s1 := takeSlot s o.ctx
  addItem s1 o.wid (newItem s1 o .gantry desc addr (spreadOf s1 (fAt desc 0x68 55 48)))

/-- TENSOR (03 R86, 10 R416): the entry at the head of a ring becomes a work item. -/
def execTensor (p : Part) (ring : BitVec 10) (s : State) : Host.Outcome State Fault Refusal :=
  match readyEntry s p.toNat ring.toNat 0x02 with
  | some (r, e) =>
    let o := entryOrigin (rkey p.toNat ring.toNat) r e
    .next (settle (startTensor (dispatched s (rkey p.toNat ring.toNat) r e) o e.desc (ePayload e.bytes)))
  | none => .next s

/-! Placement (03 R84, 12 R507). -/

/-- An array has given this core a run of an item already (03 R83). -/
def ranOn (s : State) (n id : Nat) (it : TItem) : Bool :=
  it.cores.contains n || (queueOf s n).any (fun r => r.item = id)

/-- A waiting run may go to the array of core `n` (03 R83, R111, R114). -/
def runFits (s : State) (n : Nat) (r : TRun) : Bool :=
  match itemOf s r.item with
  | none => false
  | some it =>
    let home := match it.path with
      | .gantry => r.saved.isSome || ! ranOn s n r.item it
      | .core c _ _ => if tHandoff it.desc then c = n else true
      | .pass c pass tile => if tHandoff it.desc then (tileOn s n pass tile).isSome else r.saved.isSome || c = n
    let s1 := if r.saved.isSome then unreserve s it.org.part 100 else s
    it.fault.isNone && coreLive s n && engineUp s (Engine.tensor n) && home && (queueOf s n).length < rdF s Reg.tensorCfg 3 0 + 1 && mayPlace s1 it.org.ctx 100

/-- The place of a waiting run in the order of R507. -/
def runRank (s : State) (r : TRun) : List Nat :=
  match itemOf s r.item with
  | some it => rankOf s it.org.ctx it.org.wid it.readyAt ++ [r.first]
  | none => []

/-- Places a run on the array of core `n`; a saved one has its accumulators restored (03 R111). -/
def putRun (s : State) (n : Nat) (r : TRun) (it : TItem) : State :=
  let s1 := if it.open_ = 0 || r.saved.isSome then chargeStart s it.org.ctx it.readyAt r.saved else s
  let s2 := reserve (if r.saved.isSome then unreserve s1 it.org.part 100 else s1) it.org.part 100
  let s3 := match r.saved with
    | some (a, _) => restoreUnit s2 it.org (Engine.tensor n) a 98560
    | none => s2
  let s4 := setItem s3 r.item { it with open_ := it.open_ + 1 }
  setQueue s4 n (queueOf s4 n ++ [{ r with saved := none, placedAt := s.dtime }])

/-- Room frees on the array of core `n`: the first-ranked waiting run that fits, among those that `p` admits, is placed. -/
def placeRun (s : State) (n : Nat) (p : TRun → Bool) : State :=
  let fits := s.core.savedRuns.filter (fun r => p r && runFits s n r)
  match bestIdx (runRank s) fits with
  | none => s
  | some i => match fits[i]? with
    | none => s
    | some r => match itemOf s r.item with
      | none => s
      | some it => putRun (setCore s { s.core with savedRuns := s.core.savedRuns.erase r }) n r it

/-- TENSOR_RESUME (03 R111): a preempted run resumes on core `n`. -/
def execTensorResume (core : CoreId) (s : State) : Host.Outcome State Fault Refusal :=
  .next (noteConds (placeRun s core.toNat (fun r => r.saved.isSome)))

/-! K-steps (03 R75 to R81). -/

/-- A run of an item has ended on core `n`: its reservation is released. -/
def endRun (s : State) (n : Nat) (r : TRun) (it : TItem) : State :=
  let s1 := unreserve s it.org.part 100
  setItem (setQueue s1 n ((queueOf s1 n).drop 1)) r.item { it with runsLeft := it.runsLeft - 1 }

/-- The next advance of the run at the head of an array's queue; a faulting one changes nothing here. -/
def arrayStep (s : State) (n : Nat) : State :=
  match queueOf s n with
  | [] => s
  | r :: rest =>
    match itemOf s r.item with
    | none => s
    | some it =>
      match advanceRun s n it r with
      | (_, .inl _) => s
      | (s1, .inr a) =>
        let s2 := claimReqs s1 it.org (Engine.tensor n) 0xFFFF 0
        let s3 := if a.steps = 0 then s2 else bump64 s2 Reg.tensorKstepCount Reg.tensorStatus 0 a.steps
        match a.run with
        | some r1 => setQueue (setItem s3 r.item a.item) n (r1 :: rest)
        | none => endRun s3 n r a.item

/-- The context of the run at the head of an array's queue is LIVE. -/
def headLive (s : State) (n : Nat) : Bool :=
  match queueOf s n with
  | [] => false
  | r :: _ => match itemOf s r.item with
    | some it => ctxLive s it.org.ctx && it.fault.isNone
    | none => false

/-- K_STEP (03 R75, R78): the array of a core adds one chunk, or performs one EWISE tile; after the last chunk of a set, its epilogue
follows (R81). -/
def execKStep (core : CoreId) (s : State) : Host.Outcome State Fault Refusal :=
  if coreLive s core.toNat && headLive s core.toNat then .next (arrayStep s core.toNat) else .next s

/-! Completion (03 R85, R103, R104). -/

/-- Every workgroup, wherever it is, after `f`. -/
def mapWGs (s : State) (f : WG → WG) : State :=
  let s1 := setCore s { s.core with
    cores := mmap s.core.cores (fun _ c => { c with wgs := c.wgs.map f }),
    jobs := mmap s.core.jobs (fun _ j => { j with saved := j.saved.map f }) }
  { s1 with raster := { s1.raster with
      passes := mmap s1.raster.passes (fun _ p => { p with savedTiles := p.savedTiles.map (fun t => (t.1, t.2.map f)) }) } }

/-- Ticket `t` has completed once the workgroup's completed count has reached it (05 R197, R198). -/
def ticketDone (w : WG) (t : Nat) : Bool :=
  (w.ended + 2 ^ 32 - t) % 2 ^ 32 < 2 ^ 31

/-- Sets that wait for a completed ticket go on (05 R198). -/
def wakeTickets (w : WG) : WG :=
  { w with groups := w.groups.map (fun g => wakeWhere g (fun x => match x with
      | .ticket t => ticketDone w t
      | _ => false)) }

/-- Ticket `t` of a workgroup completes. -/
def endTicket (s : State) (wgid t : Nat) : State :=
  mapWGs s (fun w => if w.wgid = wgid then wakeTickets { w with ended := t } else w)

/-- The flags of a completion record (03 R103, R104). -/
def tFlags (c : TCounts) (faulted : Bool) (all : Bool) : Nat :=
  b2n (c.preempts ≠ 0) + 2 * b2n (faulted && ! all) + 4 * overflows 32 c.sat + 8 * overflows 32 c.nanInt + 16 * overflows 32 c.expandSat +
    32 * overflows 32 c.w2t + 64 * overflows 32 c.flush + 128 * overflows 32 c.nanBlock + 256 * overflows 32 c.preempts + 512 * overflows 32 c.tiles

/-- The engine that a completion record names (03 R103). -/
def tEngine (it : TItem) : Nat :=
  match it.fault with
  | some (_, e, _) => e
  | none =>
    match it.cores.foldl (fun m c => match m with
        | none => some c
        | some d => some (min c d)) none with
    | some c => Engine.tensor c
    | none => match it.path with
      | .gantry => Engine.gantry
      | .core c _ _ => Engine.tensor c
      | .pass c _ _ => Engine.tensor c

/-- The completion record of a work item (03 R103). -/
def tRecord (s : State) (it : TItem) : List Byte :=
  let c := it.counts
  let code := match it.fault with
    | some (_, _, k) => k
    | none => 0
  let n := tileCount it.desc
  leBytes 2 code ++ leBytes 2 (tEngine it) ++ leBytes 2 it.cores.length ++ leBytes 2 (tFlags c it.fault.isSome (c.tiles = n)) ++
    leBytes 2 (fAt it.desc 0x18 63 48) ++ zeroBytes 2 ++ leBytes 4 (clip 32 c.preempts) ++
    leBytes 8 (it.start.getD s.dtime) ++ leBytes 8 (if n = 0 then s.dtime else it.lastOut) ++ leBytes 4 (clip 32 c.sat) ++
    leBytes 4 (clip 32 c.nanInt) ++ leBytes 4 (clip 32 c.expandSat) ++ leBytes 4 (clip 32 c.w2t) ++ leBytes 4 (clip 32 c.flush) ++
    leBytes 4 (clip 32 c.nanBlock) ++ leBytes 4 (bits32 (reduceAll (fAt it.desc 0 46 44) it.partials)) ++ leBytes 4 (clip 32 c.tiles)

/-- Writes an item's completion record, where it has one. -/
def tComplete (s : State) (it : TItem) : State × Option XFault :=
  if tCompl it.desc = 0 then (s, none)
  else engineWrite s (match it.path with
    | .gantry => 8
    | .core c _ _ => benchOf c
    | .pass c _ _ => benchOf c) (.ctx it.org.ctx) .record (tCompl it.desc) (tRecord s it)

/-- Earlier items of one workgroup, or of one tile, complete first (05 R197). -/
def itemFirst (s : State) (id : Nat) (it : TItem) : Bool :=
  match it.path with
  | .core _ w t => s.core.items.all (fun i => match i.2.path with
      | .core _ w' t' => i.1 = id || w' ≠ w || ! ((t + 2 ^ 32 - t') % 2 ^ 32 < 2 ^ 31)
      | _ => true)
  | _ => true

/-- An item leaves the machine: its entry, node, ticket or pass sees it complete (03 R82, R85). -/
def dropItem (s : State) (id : Nat) (it : TItem) (code : Nat) : State :=
  let s1 := setCore s { s.core with items := mdel s.core.items id }
  match it.path with
  | .gantry => finish s1 it.org.wid code
  | .core _ w t =>
    let s2 := endTicket s1 w t
    (s2.core.jobs.filter (fun j => j.2.org.wid = it.org.wid)).foldl (fun s j => settleJob s j.1) s2
  | .pass _ _ _ => s1

/-- A work item ends: its record is written, and then its completion is reported; a fault of that write is an error record alone
(03 R108). -/
def endItem (s : State) (id : Nat) (it : TItem) : State :=
  let code := match it.fault with
    | some (_, _, k) => k
    | none => 0
  match tComplete s it with
  | (s1, none) => dropItem (claimReqs s1 it.org (tEngine it) 0xFFFF 0) id it code
  | (s1, some f) =>
    let s2 := raise s1 it.org f.code (tEngine it) f.va (xdetail s1 f)
    dropItem s2 id it (if code = 0 then f.code else code)

/-- TENSOR_COMPLETION (03 R85, R103): an item none of whose runs is left. -/
def execTensorCompletion (item : Nat) (s : State) : Host.Outcome State Fault Refusal :=
  match itemOf s item with
  | some it => if it.runsLeft = 0 && itemFirst s item it then .next (settle (endItem s item it)) else .next s
  | none => .next s

/-! Faults (03 R108). -/

/-- The fault that the next advance of an array of an item would meet, if any; `s` is the state in which it met it. -/
def arrayFault (s : State) (n id : Nat) : Option (State × XFault) :=
  match queueOf s n with
  | [] => none
  | r :: _ =>
    if r.item ≠ id then none
    else match itemOf s id with
      | none => none
      | some it => match advanceRun s n it r with
        | (s1, .inl f) => some (s1, f)
        | (_, .inr _) => none

/-- Every run of an item leaves its array, or the runs that wait (03 R108). -/
def stopItem (s : State) (id : Nat) (it : TItem) : State :=
  let held := (s.core.queues.map (fun q => (q.2.filter (fun r => r.item = id)).length)).foldl (· + ·) 0
  let saved := (s.core.savedRuns.filter (fun r => r.item = id && r.saved.isSome)).length
  let s1 := setCore s { s.core with
    queues := (mmap s.core.queues (fun _ l => l.filter (fun r => r.item ≠ id))).filter (fun q => q.2 ≠ []),
    savedRuns := s.core.savedRuns.filter (fun r => r.item ≠ id) }
  unreserve s1 it.org.part ((held + saved) * 100)

/-- An array records the fault that its item meets on it. -/
def arrayRecord (s : State) (n id : Nat) : State :=
  match arrayFault s n id, itemOf s id with
  | some (s1, f), some it =>
    let it1 := { it with fault := some (it.fault.getD (s.dtime, Engine.tensor n, f.code)), runsLeft := 0 }
    setItem (raise s1 it.org f.code (Engine.tensor n) f.va (xdetail s1 f)) id it1
  | _, _ => s

/-- The arrays whose head run belongs to an item and whose next advance faults, lowest first. -/
def faultingArrays (s : State) (id : Nat) : List Nat :=
  (List.range 64).filter (fun n => (arrayFault s n id).isSome)

/-- TENSOR_FAULT (03 R108): the array of a core meets a fault; every array that runs the item and meets one writes its own record, and
the item stops on all of them. -/
def execTensorFault (core : CoreId) (s : State) : Host.Outcome State Fault Refusal :=
  match queueOf s core.toNat with
  | [] => .next s
  | r :: _ =>
    if ! headLive s core.toNat || (arrayFault s core.toNat r.item).isNone then .next s
    else
      let s1 := (faultingArrays s r.item).foldl (fun s n => arrayRecord s n r.item) s
      match itemOf s1 r.item with
      | some it => .next (noteConds (stopItem s1 r.item it))
      | none => .next s1

/-! Preemption (03 R109, R114). -/

/-- A preemption of an array's run was asked for: of its item, or of its context on the array (12 R509). -/
def arrayAsked (s : State) (n id : Nat) (it : TItem) : Bool :=
  s.sched.stopOps.contains (Engine.tensor n, id) || s.sched.stopCtx.contains (Engine.tensor n, it.org.ctx)

/-- A run of an item stops between K-steps and is saved. -/
def saveRun (s : State) (n : Nat) (r : TRun) (it : TItem) : State :=
  let s1 := setQueue s n ((queueOf s n).erase r)
  let it1 := { it with counts := { it.counts with preempts := it.counts.preempts + 1 }, readyAt := s.dtime }
  let s2 := countPreempt (setItem s1 r.item it1) it.org
  let q := saveUnit s2 it.org (Engine.tensor n) 98560
  setCore q.1 { q.1.core with savedRuns := q.1.core.savedRuns ++ [{ r with saved := some (q.2, q.1.dtime) }] }

/-- TENSOR_PREEMPTION (03 R109): asked for, the array of a core stops an item's run at a K-step boundary and saves it. -/
def execTensorPreemption (core : CoreId) (item : Nat) (s : State) : Host.Outcome State Fault Refusal :=
  match (queueOf s core.toNat).find? (fun r => r.item = item), itemOf s item with
  | some r, some it =>
    if arrayAsked s core.toNat item it then
      .next (noteConds (stopMade (saveRun s core.toNat r it) (Engine.tensor core.toNat) item))
    else .next s
  | _, _ => .next s

end Sys2Proof.Machine
end

