-- ==== Sys2Proof/Machine/Setup.lean ====
section
/-! DEFINITION. Primitive set-up (06 R219, R220) and the tessellator's edges (R221, R222), in exact arithmetic up to the rounding
that a rule names. -/
namespace Sys2Proof.Machine

/-! Exact fractions: a numerator and a denominator above 0. -/

abbrev Frac := Int × Nat

def fOf (i : Int) : Frac := (i, 1)
/-- A finite value as a fraction; 0 for one that is not finite. -/
def fVal (v : Val) : Frac :=
  match v with
  | .fin n m e =>
    let x : Int := if n then -(m : Int) else m
    if 0 ≤ e then (x * 2 ^ e.toNat, 1) else (x, 2 ^ (-e).toNat)
  | _ => (0, 1)
def fNorm (a : Frac) : Frac :=
  let g := Nat.gcd a.1.natAbs a.2
  if g ≤ 1 then a else (a.1 / g, a.2 / g)
def fAdd (a b : Frac) : Frac := fNorm (a.1 * b.2 + b.1 * a.2, a.2 * b.2)
def fNeg (a : Frac) : Frac := (-a.1, a.2)
def fSub (a b : Frac) : Frac := fAdd a (fNeg b)
def fMul (a b : Frac) : Frac := fNorm (a.1 * b.1, a.2 * b.2)
/-- A quotient; 0 where the divisor is 0. -/
def fDiv (a b : Frac) : Frac :=
  if b.1 = 0 then (0, 1) else fNorm (a.1 * b.2 * b.1.sign, a.2 * b.1.natAbs)
def fLt (a b : Frac) : Bool := a.1 * b.2 < b.1 * a.2
/-- The nearest integer, ties to even. -/
def fNear (a : Frac) : Int :=
  let q := a.1 / a.2
  let r := a.1 % a.2
  if 2 * r < a.2 then q else if (a.2 : Int) < 2 * r then q + 1 else if q % 2 = 0 then q else q + 1
/-- The FP32 bits of a fraction, rounded to nearest even. -/
def fBits (a : Frac) : Nat :=
  bits32 (rnd32 (quot (a.1 < 0) a.1.natAbs a.2))

/-! The tessellator's factors and edges (06 R221, R222). -/

/-- The spacings: equal, fractional even, fractional odd. -/
def clampFactor (spacing : Nat) (f : Val) : Val :=
  match spacing with
  | 0 => limitVal (.fin false 1 0) (.fin false 64 0) f
  | 1 => limitVal (.fin false 2 0) (.fin false 64 0) f
  | _ => limitVal (.fin false 1 0) (.fin false 63 0) f

/-- The segment count of a clamped factor (06 R221). -/
def segCount (spacing : Nat) (f : Val) : Nat :=
  let q := fVal f
  let c := ((q.1 + q.2 - 1) / q.2).toNat
  match spacing with
  | 0 => c
  | 1 => if c % 2 = 0 then c else c + 1
  | _ => if c % 2 = 1 then c else c + 1

/-- The length along an edge of `i` segments from its end, `i ≤ n / 2`: the two shorter segments of fractional spacing stand next to
the centre (DEDUCED: log 31). -/
def fromEnd (spacing : Nat) (f : Val) (n i : Nat) : Frac :=
  if spacing = 0 then (i, n)
  else
    let inv := fDiv (fOf 1) (fVal f)
    let short := fDiv (fSub (fOf 1) (fMul (fOf (n - 2 : Nat)) inv)) (fOf 2)
    let long := if n % 2 = 0 then n / 2 - 1 else (n - 3) / 2
    if i ≤ long then fMul (fOf i) inv else fAdd (fMul (fOf long) inv) short

/-- The FP32 bits of the coordinate of point `i` of an edge (06 R222). -/
def edgePoint (spacing : Nat) (f : Val) (n i : Nat) : Nat :=
  if 2 * i ≤ n then fBits (fromEnd spacing f n i)
  else bits32 (add32 (.fin false 1 0) (vneg (val32 (fBits (fromEnd spacing f n (n - i))))))

/-- The points of an edge. -/
def edgePoints (spacing : Nat) (f : Val) : List Nat :=
  let g := clampFactor spacing f
  let n := segCount spacing g
  (List.range (n + 1)).map (edgePoint spacing g n)

/-- The outer factors that a domain uses: triangles, quads, isolines (06 R221). -/
def outerUsed (domain : Nat) : Nat :=
  match domain with
  | 0 => 3
  | 1 => 4
  | _ => 2

/-- A patch is discarded: a used outer factor is NaN or not above 0 (06 R221). -/
def patchGone (domain : Nat) (outer : List Nat) : Bool :=
  (outer.take (outerUsed domain)).any (fun x => ! vlt (.fin false 0 0) (val32 x))

abbrev one32 : Nat := 0x3F800000

/-- The points of a patch's outer edges, as (u, v, w), which the factors fix (06 R222); for isolines, all points. -/
def outerPoints (domain spacing : Nat) (outer : List Nat) : List (Nat × Nat × Nat) :=
  let e := fun (i : Nat) => edgePoints spacing (val32 (lget outer i 0))
  let inv := fun (x : Nat) => bits32 (add32 (.fin false 1 0) (vneg (val32 x)))
  match domain with
  | 0 => (e 0).map (fun x => (0, x, inv x)) ++ (e 1).map (fun x => (inv x, 0, x)) ++ (e 2).map (fun x => (x, inv x, 0))
  | 1 => (e 0).map (fun x => (0, x, 0)) ++ (e 1).map (fun x => (x, 0, 0)) ++ (e 2).map (fun x => (one32, x, 0)) ++
      (e 3).map (fun x => (x, one32, 0))
  | _ =>
    let lines := (edgePoints 0 (val32 (lget outer 0 0))).dropLast
    lines.flatMap (fun v => (e 1).map (fun u => (u, v, 0)))

/-! Clipping (06 R220). -/

/-- A vertex in clip space with its clip distances. -/
structure ClipVert where
  x : Frac
  y : Frac
  z : Frac
  w : Frac
  dist : List Frac
  deriving DecidableEq, Repr

/-- The point at which an edge meets a plane, the distances of its ends from it being `da` and `db`. -/
def mixVert (a b : ClipVert) (da db : Frac) : ClipVert :=
  let t := fDiv da (fSub da db)
  let m := fun (p q : Frac) => fAdd p (fMul t (fSub q p))
  { x := m a.x b.x, y := m a.y b.y, z := m a.z b.z, w := m a.w b.w, dist := (a.dist.zip b.dist).map (fun e => m e.1 e.2) }

/-- A polygon (closed) or a line (open) cut by the half space where `d` is not negative. -/
def clipBy (closed : Bool) (d : ClipVert → Frac) (l : List ClipVert) : List ClipVert :=
  let inside := fun (v : ClipVert) => ! fLt (d v) (fOf 0)
  let edges := if closed then l.zip (l.drop 1 ++ l.take 1) else l.zip (l.drop 1)
  let cut := edges.flatMap (fun e =>
    (if inside e.1 then [e.1] else []) ++ (if inside e.1 = inside e.2 then [] else [mixVert e.1 e.2 (d e.1) (d e.2)]))
  if closed then cut
  else match l.getLast? with
    | some v => if inside v then cut ++ [v] else cut
    | none => cut

/-- A viewport (06 R213): origin, extent and depth range. -/
structure Viewport where
  x : Frac
  y : Frac
  w : Frac
  h : Frac
  zmin : Frac
  zmax : Frac
  deriving DecidableEq, Repr

/-- The viewport of a draw record. -/
def viewportOf (d : List Byte) : Viewport :=
  let f := fun (off lo : Nat) => fVal (val32 (fAt d off (lo + 31) lo))
  { x := f 0x38 0, y := f 0x38 32, w := f 0x40 0, h := f 0x40 32, zmin := f 0x48 0, zmax := f 0x48 32 }

/-- Clips a primitive against 0 ≤ z ≤ w, the guard band of ±32,768 pixels around the viewport origin, and its clip distances. -/
def clipPrim (closed : Bool) (vp : Viewport) (l : List ClipVert) : List ClipVert :=
  let band := fun (c : ClipVert → Frac) (ext : Frac) (pos : Bool) (v : ClipVert) =>
    let reach := fMul (fAdd (c v) v.w) ext
    let lim := fMul (fOf 65536) v.w
    if pos then fSub lim reach else fAdd lim reach
  let l1 := clipBy closed (fun v => v.z) l
  let l2 := clipBy closed (fun v => fSub v.w v.z) l1
  let l3 := clipBy closed (band (fun v => v.x) vp.w true) (clipBy closed (band (fun v => v.x) vp.w false) l2)
  let l4 := clipBy closed (band (fun v => v.y) vp.h true) (clipBy closed (band (fun v => v.y) vp.h false) l3)
  (List.range ((l.map (fun v => v.dist.length)).foldl max 0)).foldl
    (fun m i => clipBy closed (fun v => lget v.dist i (fOf 0)) m) l4

/-- A vertex in the window: snapped to 1/256 pixel, with its depth as FP32 bits (06 R220; the transform is Vulkan's, log 31). -/
def toWindow (vp : Viewport) (v : ClipVert) : Int × Int × Nat :=
  let n := fun (c o e : Frac) => fAdd o (fDiv (fMul (fAdd (fDiv c v.w) (fOf 1)) e) (fOf 2))
  (fNear (fMul (fOf 256) (n v.x vp.x vp.w)), fNear (fMul (fOf 256) (n v.y vp.y vp.h)),
    fBits (fAdd vp.zmin (fMul (fDiv v.z v.w) (fSub vp.zmax vp.zmin))))

/-- Twice the area of a polygon, above 0 where it runs clockwise in the window, whose y grows downwards. -/
def area2 (l : List (Int × Int × Nat)) : Int :=
  (l.zip (l.drop 1 ++ l.take 1)).foldl (fun a e => a + (e.1.1 * e.2.2.1 - e.2.1 * e.1.2.1)) 0

/-- The corners of a line of width 1.0: a parallelogram (06 R220, PRESUMED: log 31). -/
def lineQuad (a b : Int × Int × Nat) : List (Int × Int × Nat) :=
  let (dx, dy) := if (b.2.1 - a.2.1).natAbs ≤ (b.1 - a.1).natAbs then ((0 : Int), (128 : Int)) else (128, 0)
  [(a.1 - dx, a.2.1 - dy, a.2.2), (b.1 - dx, b.2.1 - dy, b.2.2), (b.1 + dx, b.2.1 + dy, b.2.2), (a.1 + dx, a.2.1 + dy, a.2.2)]

/-- The corners of a point: a square of its size clamped to 1 to 256 pixels (06 R220). -/
def pointQuad (p : Int × Int × Nat) (size : Val) : List (Int × Int × Nat) :=
  let r := fNear (fMul (fVal (limitVal (.fin false 1 0) (.fin false 256 0) size)) (fOf 128))
  [(p.1 - r, p.2.1 - r, p.2.2), (p.1 + r, p.2.1 - r, p.2.2), (p.1 + r, p.2.1 + r, p.2.2), (p.1 - r, p.2.1 + r, p.2.2)]

/-! Coverage (06 R220). -/

/-- A sample lies strictly inside the edge from `a` to `b` of a clockwise triangle, or on it where it is a top or left edge. -/
def edgeIn (a b : Int × Int × Nat) (x y : Int) : Bool :=
  let dx := b.1 - a.1
  let dy := b.2.1 - a.2.1
  let e := dx * (y - a.2.1) - dy * (x - a.1)
  0 < e || (e = 0 && (dy < 0 || (dy = 0 && 0 < dx)))

/-- A triangle covers a sample. -/
def triIn (a b c : Int × Int × Nat) (x y : Int) : Bool :=
  if 0 < area2 [a, b, c] then edgeIn a b x y && edgeIn b c x y && edgeIn c a x y
  else if area2 [a, b, c] < 0 then edgeIn a c x y && edgeIn c b x y && edgeIn b a x y
  else false

/-- The triangles of a polygon. -/
def fanOf (l : List (Int × Int × Nat)) : List ((Int × Int × Nat) × (Int × Int × Nat) × (Int × Int × Nat)) :=
  match l with
  | [] => []
  | a :: r => (r.zip (r.drop 1)).map (fun e => (a, e.1, e.2))

/-- The triangle of a polygon that covers a sample. -/
def triAt (l : List (Int × Int × Nat)) (x y : Int) : Option ((Int × Int × Nat) × (Int × Int × Nat) × (Int × Int × Nat)) :=
  (fanOf l).find? (fun t => triIn t.1 t.2.1 t.2.2 x y)

/-- The offsets of a pixel's samples in 1/256 pixel (06 R220). -/
def sampleAt (msaa : Bool) (s : Nat) : Int × Int :=
  if msaa then lget [(96, 32), (224, 96), (32, 160), (160, 224)] s (128, 128) else (128, 128)

/-- The depth of a triangle at a sample: linear over the snapped corners, clamped to the depth range (06 R220). -/
def depthAt (vp : Viewport) (t : (Int × Int × Nat) × (Int × Int × Nat) × (Int × Int × Nat)) (x y : Int) : Nat :=
  let p : Int × Int × Nat := (x, y, 0)
  let d := fun (c : Int × Int × Nat) => fVal (val32 c.2.2)
  let a := area2 [t.1, t.2.1, t.2.2]
  let z := fAdd (fMul (fDiv (fOf (area2 [p, t.2.1, t.2.2])) (fOf a)) (d t.1))
    (fAdd (fMul (fDiv (fOf (area2 [t.1, p, t.2.2])) (fOf a)) (d t.2.1))
      (fMul (fDiv (fOf (area2 [t.1, t.2.1, p])) (fOf a)) (d t.2.2)))
  let lo := if fLt vp.zmax vp.zmin then vp.zmax else vp.zmin
  let hi := if fLt vp.zmax vp.zmin then vp.zmin else vp.zmax
  fBits (if fLt z lo then lo else if fLt hi z then hi else z)

end Sys2Proof.Machine
end

