-- ==== Sys2Proof/Machine/Geometry.lean ====
section
/-! DEFINITION. The geometry phase of a render pass (06 R210 to R229, R257, R259): descriptor, plane and draw checks, batches and
their programs, set-up and binning, bin memory and growth. -/
namespace Sys2Proof.Machine

def setRaster (s : State) (x : RasterSt) : State :=
  { s with raster := x }
def passOf (s : State) (id : Nat) : Option RPass :=
  mget s.raster.passes id
def setPass (s : State) (id : Nat) (p : RPass) : State :=
  setRaster s { s.raster with passes := mset s.raster.passes id p }

/-! Descriptor fields (06 R211). -/
def pWidth (d : List Byte) : Nat := fAt d 0 15 0
def pHeight (d : List Byte) : Nat := fAt d 0 31 16
def pMsaa (d : List Byte) : Bool := tBit d 32
def pSamples (d : List Byte) : Nat := if pMsaa d then 4 else 1
def pBanks (d : List Byte) : Nat := fAt d 0 36 33
def pPlanes (d : List Byte) : Nat := fAt d 0 40 37
def pDepthEn (d : List Byte) : Bool := tBit d 41
def pDepthPlane (d : List Byte) : Nat := fAt d 0 48 46
def pBinAddr (d : List Byte) : Nat := fAt d 8 47 0
def pBinMax (d : List Byte) : Nat := fAt d 0x10 63 32
def pDrawCount (d : List Byte) : Nat := fAt d 0x20 31 0
def pHandoff (d : List Byte) : Nat := fAt d 0x30 47 0
def pResult (d : List Byte) : Nat := fAt d 0x48 47 0
def tilesWide (d : List Byte) : Nat := (pWidth d + 31) / 32
def passTiles (d : List Byte) : Nat := tilesWide d * ((pHeight d + 31) / 32)
/-- The bytes of tile headers (06 R223). -/
def headerBytes (d : List Byte) : Nat := roundUp (128 * passTiles d) 4096

/-- The offset of the first word of a pass descriptor that breaks R211 (06 R215). -/
def passFault (d : List Byte) : Option Nat :=
  let bad : List (Bool × Nat) := [
    (pWidth d = 0 || 16384 < pWidth d || pHeight d = 0 || 16384 < pHeight d || 8 < pBanks d || 8 < pPlanes d ||
      (pDepthEn d && pPlanes d ≤ pDepthPlane d) || fAt d 0 63 57 ≠ 0, 0),
    (pBinAddr d % 4096 ≠ 0 || fAt d 8 63 48 ≠ 0, 8),
    (fAt d 0x10 31 0 % 4096 ≠ 0 || pBinMax d % 4096 ≠ 0, 0x10),
    (fAt d 0x18 47 0 % 128 ≠ 0 || fAt d 0x18 63 48 ≠ 0, 0x18),
    (fAt d 0x20 63 32 ≠ 0, 0x20),
    (fAt d 0x28 47 0 % 32 ≠ 0 || fAt d 0x28 63 48 ≠ 0, 0x28),
    (pHandoff d % 64 ≠ 0 || fAt d 0x30 63 48 ≠ 0, 0x30),
    (pResult d % 64 ≠ 0 || fAt d 0x48 63 48 ≠ 0, 0x48)] ++
    (List.range 6).map (fun i => ((wordAt d (0x50 + 8 * i) != 0 : Bool), 0x50 + 8 * i))
  (bad.find? (fun x => x.1)).map (fun x => x.2)

/-! Planes (06 R212, R233). -/
def plFormat (e : List Byte) : Nat := fAt e 0 55 48
def plLoad (e : List Byte) : Nat := fAt e 0 57 56
def plStore (e : List Byte) : Nat := fAt e 0 59 58
def plPacked (e : List Byte) : Bool := tBit e 60
def plAddr (e : List Byte) : Nat := fAt e 0 47 0
def plOffset (e : List Byte) : Nat := fAt e 8 17 0
def plStride (e : List Byte) : Nat := fAt e 8 26 18
def plPitch (e : List Byte) : Nat := fAt e 8 63 32
def plBytes (e : List Byte) : Nat := surfBytes (plFormat e)

/-- The offset of the first word of a plane table entry that breaks R212; `limit` is the tile buffer's size. -/
def planeFault (e : List Byte) (n limit : Nat) : Option Nat :=
  let b := plBytes e
  if ! planeFmt (plFormat e) || plLoad e = 3 || plStore e = 3 || (plPacked e && ! xoelleFmt (plFormat e)) ||
      fAt e 0 63 61 ≠ 0 then some 0
  else if limit < plOffset e + (n - 1) * plStride e + b || plStride e < b || 256 < plStride e || fAt e 8 31 27 ≠ 0 then some 8
  else if fAt e 0x10 63 48 ≠ 0 then some 0x10
  else if (slice e (0x18 + b) (8 - b)).any (fun x => x ≠ 0) then some 0x18
  else none

/-- Two planes of `n` elements have a byte in common. -/
def planesMeet (a b : List Byte) (n : Nat) : Bool :=
  (List.range n).any (fun i =>
    let lo := plOffset a + i * plStride a
    let k := (lo - plOffset b) / plStride b
    [k - 1, k, k + 1].any (fun j =>
      let o := plOffset b + j * plStride b
      j < n && lo < o + plBytes b && o < lo + plBytes a))

/-- The offset within the plane table of the first word that breaks R215. -/
def tableBad (d : List Byte) (l : List (List Byte)) : Option Nat :=
  let n := 1024 * pSamples d
  (l.zip (List.range l.length)).findSome? (fun e =>
    match planeFault e.1 n (pBanks d * 32768) with
    | some w => some (32 * e.2 + w)
    | none =>
      if pDepthEn d && e.2 = pDepthPlane d && ! depthFmt (plFormat e.1) then some (32 * e.2)
      else if (l.take e.2).any (fun x => planesMeet x e.1 n) then some (32 * e.2 + 8) else none)

/-! Modules (05 R177, R182). -/

/-- The module of partition `p` that a handle names. -/
def findModule (s : State) (p h : Nat) : Option (Nat × Module) :=
  let k := p * 4096 + bitsN h 11 0
  match mget s.core.modules k with
  | some m => if bitsN h 16 12 = p && bitsN h 31 17 = m.gen then some (k, m) else none
  | none => none

/-- Entry point `i` of a module. -/
def entryOf (s : State) (key i : Nat) : Option EntryPt :=
  (mget s.core.modules key).bind (fun m => m.entries[i]?)

/-- The execution models of SPIR-V (05 R184). -/
abbrev modelVertex : Nat := 0
abbrev modelControl : Nat := 1
abbrev modelEval : Nat := 2
abbrev modelFragment : Nat := 4
abbrev modelCompute : Nat := 5
abbrev modelKernel : Nat := 6

/-! Draw records (06 R213). -/
def dVs (d : List Byte) : Nat := fAt d 0 39 32
def dTcs (d : List Byte) : Nat := fAt d 0 47 40
def dTes (d : List Byte) : Nat := fAt d 0 55 48
def dFs (d : List Byte) : Nat := fAt d 0 63 56
def dTopo (d : List Byte) : Nat := fAt d 8 3 0
def dPatch (d : List Byte) : Nat := fAt d 8 9 4
def dIndexed (d : List Byte) : Bool := fAt d 8 10 10 = 1
def dWide (d : List Byte) : Bool := fAt d 8 11 11 = 1
def dRestart (d : List Byte) : Bool := fAt d 8 12 12 = 1
def dCount (d : List Byte) : Nat := fAt d 0x10 31 0
def dInst (d : List Byte) : Nat := fAt d 0x10 63 32
def dFirst (d : List Byte) : Nat := fAt d 0x18 31 0
def dFirstInst (d : List Byte) : Nat := fAt d 0x18 63 32
/-- Tessellation is in use. -/
def dTess (d : List Byte) : Bool := dTopo d = 6

/-- An optional entry point has the model of its field. -/
def entryFits (m : Module) (i model : Nat) (opt : Bool) : Bool :=
  (opt && i = 0xFF) || ((m.entries[i]?).map (fun e => e.model == model)).getD false

/-- The offset of the first word of a draw record that breaks R213 or R215. -/
def drawFault (s : State) (part : Nat) (d : List Byte) : Option Nat :=
  match findModule s part (fAt d 0 31 0) with
  | none => some 0
  | some (_, m) =>
    let bad : List (Bool × Nat) := [
      (! (entryFits m (dVs d) modelVertex false && entryFits m (dTcs d) modelControl true && entryFits m (dTes d) modelEval true &&
        entryFits m (dFs d) modelFragment true), 0),
      (6 < dTopo d || dPatch d = 0 || 32 < dPatch d || fAt d 8 63 16 ≠ 0, 8),
      ((dIndexed d && fAt d 0x20 47 0 % (if dWide d then 4 else 2) ≠ 0) || fAt d 0x20 63 48 ≠ 0, 0x20),
      (fAt d 0x28 47 0 % 32 ≠ 0 || fAt d 0x28 63 48 ≠ 0, 0x28), (fAt d 0x30 47 0 % 16 ≠ 0 || fAt d 0x30 63 48 ≠ 0, 0x30),
      (fAt d 0x58 63 32 ≠ 0, 0x58),
      (fAt d 0x60 47 0 % 16 ≠ 0 || 32 < fAt d 0x60 53 48 || fAt d 0x60 63 54 ≠ 0, 0x60),
      (wordAt d 0x68 ≠ 0, 0x68), (wordAt d 0x70 ≠ 0, 0x70), (wordAt d 0x78 ≠ 0, 0x78)]
    (bad.find? (fun x => x.1)).map (fun x => x.2)

/-! The end of a pass (06 R227, R256, R259). -/

/-- The pass result record (06 R259). -/
def passRecord (s : State) (p : RPass) (code : Nat) : List Byte :=
  leBytes 2 code ++
    leBytes 2 (overflows 32 p.stored + 2 * overflows 32 p.binned + 4 * overflows 32 p.culled + 8 * overflows 32 p.growths + 16 * overflows 32 p.preempts +
      32 * overflows 32 p.decodeErrs) ++
    leBytes 4 (clip 32 p.stored) ++ leBytes 8 p.used ++ leBytes 4 (clip 32 p.binned) ++ leBytes 4 (clip 32 p.culled) ++
    leBytes 4 (clip 32 p.growths) ++ leBytes 4 (clip 32 p.preempts) ++ leBytes 8 (p.start.getD s.dtime) ++ leBytes 8 p.binnedAt ++
    leBytes 8 s.dtime ++ leBytes 4 (clip 32 p.decodeErrs) ++ zeroBytes 4

/-- Writes the pass result record, where the pass has one. -/
def writeResult (s : State) (p : RPass) (code : Nat) : State × Option XFault :=
  if pResult p.desc = 0 then (s, none)
  else engineWrite s 8 (.ctx p.org.ctx) .record (pResult p.desc) (passRecord s p code)

/-- KiB of save pool that a geometry unit's share, and a tile, reserve (12 R504). -/
abbrev geomKib : Nat := 4
def tileKib (d : List Byte) : Nat := saveKib (pBanks d * 32768 + 256)

/-- Everything of a pass leaves the engines: units, program runs, tiles with their groups, and growth requests. -/
def dropPass (s : State) (id : Nat) (p : RPass) : State :=
  let mine := s.core.jobs.filter (fun j => j.2.org.wid = id)
  let isMine := fun (w : WG) => w.org.wid = id
  let wgs := s.core.cores.flatMap (fun c => c.2.wgs.filter isMine) ++ mine.flatMap (fun j => j.2.saved) ++
    p.savedTiles.flatMap (fun t => t.2)
  let tiles := (s.core.cores.map (fun c => (c.2.tiles.filter (fun t => t.pass = id)).length)).foldl (· + ·) 0 + p.savedTiles.length
  let kib := (wgs.map (fun w => saveKib (wgSaveBytes w))).foldl (· + ·) 0 + tiles * tileKib p.desc + p.units.length * geomKib
  let s1 := setCore s { s.core with
    cores := mmap s.core.cores (fun _ c =>
      { c with wgs := c.wgs.filter (fun w => ! isMine w), tiles := c.tiles.filter (fun t => t.pass ≠ id) }),
    jobs := s.core.jobs.filter (fun j => j.2.org.wid ≠ id) }
  let s2 := unreserve s1 p.org.part kib
  setRaster s2 { s2.raster with passes := mdel s2.raster.passes id }

/-- The register pair that posts a growth request (06 R262). -/
def showRequest (s : State) (part : Nat) (p : RPass) (need : Nat) : State :=
  let s1 := wr s (pkey part Reg.geomBinReq) (BitVec.ofNat 64 (pBinAddr p.desc + 2 ^ 63))
  wr s1 (pkey part Reg.geomBinNeed) (BitVec.ofNat 64 (p.commit + need * 2 ^ 32))

/-- NEED of an allocation that would end at `e` (06 R224): the smallest multiple of 64 KiB above it. -/
def needOf (e : Nat) : Nat :=
  (e / 65536 + 1) * 65536

/-- The largest NEED of a pass's stalled units. -/
def passNeed (p : RPass) : Nat :=
  (p.stalls.map (fun x => needOf x.2)).foldl max 0

/-- The request of the first pass in a partition's line is posted, with its message (06 R224, R225). -/
def postGrowth (s : State) (part : Nat) : State :=
  match (mgetD s.raster.growth part []).head? with
  | none => wr (wrF s (pkey part Reg.geomBinReq) 63 63 0) (pkey part Reg.geomBinNeed) (rd s (pkey part Reg.geomBinNeed))
  | some id => match passOf s id with
    | none => s
    | some p =>
      let s1 := setRaster (showRequest s part p (passNeed p)) { s.raster with postedAt := mset s.raster.postedAt part s.dtime }
      sendMsix s1 part (rdF s1 (pkey part Reg.geomBinCtl) 10 0)

/-- A pass leaves its partition's line of requests; the next is posted if it was the pending one (06 R225, R229). -/
def leaveGrowth (s : State) (part id : Nat) : State :=
  let l := mgetD s.raster.growth part []
  let s1 := setRaster s { s.raster with growth := msetD s.raster.growth part (l.filter (· ≠ id)) [] }
  if l.head? = some id then postGrowth s1 part else s1

/-- A pass is abandoned with a code, its record written by the caller: the result record follows (06 R227, R259). -/
def endPass (s : State) (id : Nat) (p : RPass) (code : Nat) : State :=
  let s1 := dropPass (leaveGrowth s p.org.part id) id p
  match writeResult s1 p code with
  | (s2, none) => s2
  | (s2, some f) => raise s2 p.org f.code Engine.gantry f.va (xdetail s2 f)

/-- The ring and entry that a piece of work belongs to. -/
def entryOfWork (s : State) (wid : Nat) : Option (Nat × Ring × Entry) :=
  (ringOfWid s wid).bind (fun rk => (mget s.host.rings rk).bind (fun r =>
    (r.entries.find? (fun e => e.wid = wid)).map (fun e => (rk, r, e))))

/-- A node's descriptor fails its check (12 R528): a record of RING_FORMAT for the PLAN entry's ring, the node's index at offset 44;
the ring continues. -/
def nodeFormat (s : State) (wid reason off : Nat) : State :=
  match findNode s wid with
  | none => s
  | some (_, l, _) =>
    let i := (l.nodes.map (fun n => n.wid)).findIdx (fun w => w = wid)
    finish (appendRec s (workRec s { l.from_ with wid := wid } Cond.ringFormat Engine.gantry 0 0
      (leBytes 1 reason ++ leBytes 1 1 ++ leBytes 2 off ++ leBytes 2 i ++ zeroBytes 2 ++ leBytes 8 l.payload))) wid Cond.ringFormat

/-- A structure that work names breaks its chapter's rules: RING_FORMAT with reason DESCRIPTOR, on its ring where it has one
(10 R439, 06 R215). -/
def workFormat (s : State) (o : Origin) (off : Nat) : State :=
  match entryOfWork s o.wid with
  | some (rk, r, e) => formatError s rk r e 7 1 off
  | none => nodeFormat s o.wid 7 off

/-- A denial, a timeout, or a NEED beyond BIN_MAX abandons a pass (06 R227). -/
def denyPass (s : State) (id : Nat) (p : RPass) (reason need : Nat) : State :=
  let rec_ := workRec s p.org Cond.binGrowthDenied Engine.gantry 0 (pBinAddr p.desc + p.commit)
    (leBytes 1 reason ++ zeroBytes 7 ++ leBytes 4 p.commit ++ leBytes 4 need ++ leBytes 8 (pBinAddr p.desc))
  let s1 := bump32 (appendRec s rec_) Reg.geomBinDenyCount Reg.rasterStatus 2 1
  finish (endPass s1 id p Cond.binGrowthDenied) p.org.wid Cond.binGrowthDenied

/-! The start of a pass (06 R210, R211, R215). -/

/-- A new pass. -/
def newPass (s : State) (o : Origin) (d : List Byte) (planes : List (List Byte)) : RPass :=
  { org := o, desc := d, planes := planes, draws := [], step := .geometry, nextBatch := 0, at_ := (0, 0, 0), units := [],
    savedUnits := [], prims := [], used := headerBytes d, commit := fAt d 0x10 31 0, lists := [], stalls := [], nextTile := 0,
    savedTiles := [], finished := 0, stored := 0, binned := 0, culled := 0, growths := 0, preempts := 0, decodeErrs := 0,
    start := none, binnedAt := 0, readyAt := s.dtime, cores := [] }

/-- The entries of a table read. -/
def entries32 (n : Nat) (b : List Byte) : List (List Byte) :=
  (List.range n).map (fun i => slice b (32 * i) 32)

/-- A checked pass descriptor starts: its plane table is read and checked first (06 R215). -/
def startPass (s : State) (o : Origin) (d : List Byte) : State :=
  match engineRead s 8 (.ctx o.ctx) .read (fAt d 0x28 47 0) (32 * pPlanes d) (.fail .unsupported) with
  | (s1, .inl f) => engineFault s1 o Engine.gantry f
  | (s1, .inr b) =>
    let planes := entries32 (pPlanes d) b
    match tableBad d planes with
    | some w => workFormat s1 o w
    | none => setPass (takeSlot s1 o.ctx) o.wid (newPass s1 o d planes)

/-- RENDER (06 R211, 10 R416). -/
def execRender (p : Part) (ring : BitVec 10) (s : State) : Host.Outcome State Fault Refusal :=
  match readyEntry s p.toNat ring.toNat 0x03 with
  | some (r, e) =>
    .next (settle (startPass (dispatched s (rkey p.toNat ring.toNat) r e) (entryOrigin (rkey p.toNat ring.toNat) r e) e.desc))
  | none => .next s

/-- The cores that a pass may use (06 R230; 03 R83): the lowest-numbered live ones, as many as CORES allows. -/
def passCores (s : State) (p : RPass) : List Nat :=
  (liveCores s).take (spreadOf s (fAt p.desc 0 56 49))

/-- The geometry units that a pass uses, in increasing bench order (06 R217). -/
def passUnits (s : State) (p : RPass) : List Nat :=
  (List.range 8).filter (fun b => (passCores s p).any (fun c => c / 8 = b))

/-- DRAW_RECORD_FETCH (06 R215): the next draw record arrives and is checked; a failure abandons the pass. -/
def execDrawRecordFetch (pass : Nat) (s : State) : Host.Outcome State Fault Refusal :=
  match passOf s pass with
  | none => .next s
  | some p =>
    if p.step ≠ .geometry || pDrawCount p.desc ≤ p.draws.length || ! ctxLive s p.org.ctx then .next s
    else
      match engineRead s 8 (.ctx p.org.ctx) .read (fAt p.desc 0x18 47 0 + 128 * p.draws.length) 128 (.fail .unsupported) with
      | (s1, .inl f) => .next (engineFault s1 p.org Engine.gantry f)
      | (s1, .inr d) =>
        match drawFault s1 p.org.part d with
        | some w => .next (settle (workFormat (endPass s1 pass p Cond.ringFormat) p.org w))
        | none => .next (setPass s1 pass { p with draws := p.draws ++ [d] })

/-! Input primitives (06 R216, R217). -/

/-- The vertices of the stream, cut where the all-ones index restarts it (06 R213). -/
def cutRuns (restart : Bool) (ones : Nat) (l : List Nat) : List (List Nat) :=
  if restart then
    (l.foldl (fun (acc : List (List Nat) × List Nat) x =>
      if x = ones then (acc.1 ++ [acc.2], []) else (acc.1, acc.2 ++ [x])) ([], [])) |> (fun a => a.1 ++ [a.2])
  else [l]

/-- The primitives of a run of vertices (06 R213): strips alternate so that every triangle keeps the facing of the first. -/
def assemble (topo patch : Nat) (l : List Nat) : List (List Nat) :=
  let at_ := fun (i : Nat) => lget l i 0
  let n := l.length
  match topo with
  | 0 => l.map (fun v => [v])
  | 1 => (List.range (n / 2)).map (fun i => [at_ (2 * i), at_ (2 * i + 1)])
  | 2 => (List.range (n - 1)).map (fun i => [at_ i, at_ (i + 1)])
  | 3 => (List.range (n / 3)).map (fun i => [at_ (3 * i), at_ (3 * i + 1), at_ (3 * i + 2)])
  | 4 => (List.range (n - 2)).map (fun i =>
      if i % 2 = 0 then [at_ i, at_ (i + 1), at_ (i + 2)] else [at_ i, at_ (i + 2), at_ (i + 1)])
  | 5 => (List.range (n - 2)).map (fun i => [at_ (i + 1), at_ (i + 2), at_ 0])
  | _ => (List.range (n / patch)).map (fun i => (List.range patch).map (fun j => at_ (patch * i + j)))

/-- The vertex numbers of a draw in stream order, and the all-ones index: from the index buffer, or in sequence (06 R213, R214). -/
def drawStream (s : State) (b : Nat) (p : RPass) (d : List Byte) : State × (XFault ⊕ List Nat) :=
  if dIndexed d then
    let w := if dWide d then 4 else 2
    match engineRead s b (.ctx p.org.ctx) .read (fAt d 0x20 47 0 + w * dFirst d) (w * dCount d) (.fail .unsupported) with
    | (s1, .inl f) => (s1, .inl f)
    | (s1, .inr bs) => (s1, .inr ((List.range (dCount d)).map (fun i => fieldAt bs (w * i) w)))
  else (s, .inr ((List.range (dCount d)).map (fun i => dFirst d + i)))

/-- The input primitives of one instance of a draw, by vertex number: an index has VERTEX_OFFSET added (06 R214). -/
def drawPrims (s : State) (b : Nat) (p : RPass) (d : List Byte) : State × (XFault ⊕ List (List Nat)) :=
  match drawStream s b p d with
  | (s1, .inl f) => (s1, .inl f)
  | (s1, .inr l) =>
    let ones := if dWide d then 0xFFFFFFFF else 0xFFFF
    let runs := cutRuns (dRestart d && dIndexed d) ones l
    let off := fun (v : Nat) => if dIndexed d then (v + fAt d 0x58 31 0) % 2 ^ 32 else v
    (s1, .inr ((runs.flatMap (assemble (dTopo d) (dPatch d))).map (fun q => q.map off)))

/-- A batch as it fills: its primitives as (draw, instance, vertices), and the place in the stream; `fuel` bounds the draws and
instances passed. -/
def fillBatch (fuel : Nat) (s : State) (b : Nat) (p : RPass) (acc : List (Nat × Nat × List Nat)) (at_ : Nat × Nat × Nat) :
    State × (XFault ⊕ (List (Nat × Nat × List Nat) × (Nat × Nat × Nat))) :=
  match fuel with
  | 0 => (s, .inr (acc, at_))
  | n + 1 =>
    if 256 ≤ acc.length then (s, .inr (acc, at_))
    else match p.draws[at_.1]? with
      | none => (s, .inr (acc, at_))
      | some d =>
        if dInst d ≤ at_.2.1 then fillBatch n s b p acc (at_.1 + 1, 0, 0)
        else match drawPrims s b p d with
          | (s1, .inl f) => (s1, .inl f)
          | (s1, .inr l) =>
            let take := (l.drop at_.2.2).take (256 - acc.length)
            let acc1 := acc ++ take.map (fun q => (at_.1, at_.2.1, q))
            let pos := at_.2.2 + take.length
            if pos < l.length then fillBatch n s1 b p acc1 (at_.1, at_.2.1, pos)
            else fillBatch n s1 b p acc1 (at_.1, at_.2.1 + 1, 0)

/-- The place of a vertex in a batch's list, which a new pair joins; vertices of a draw without indices are always distinct
(06 R218). -/
def placeVert (l : List (Nat × Nat × Nat)) (distinct : Bool) (v : Nat × Nat × Nat) : List (Nat × Nat × Nat) × Nat :=
  match (if distinct then none else (l.zip (List.range l.length)).find? (fun e => e.1 = v)) with
  | some e => (l, e.2)
  | none => (l ++ [v], l.length)

/-- A batch from its primitives: vertices are (draw, vertex, instance). -/
def makeBatch (p : RPass) (index : Nat) (l : List (Nat × Nat × List Nat)) : Batch :=
  let r := l.foldl (fun (a : List (Nat × Nat × Nat) × List InPrim) q =>
    let distinct := match p.draws[q.1]? with
      | some d => ! dIndexed d
      | none => true
    let v := q.2.2.foldl (fun (c : List (Nat × Nat × Nat) × List Nat) x =>
      let m := placeVert c.1 distinct (q.1, x, q.2.1)
      (m.1, c.2 ++ [m.2])) (a.1, [])
    (v.1, a.2 ++ [{ draw := q.1, inst := q.2.1, verts := v.2 }])) ([], [])
  { index := index, prims := r.2, verts := r.1, step := .vertex, job := 0, outs := [], points := [], gen := [], pos := 0, made := 0,
    paged := false }

/-! The programs of a batch (06 R217). -/

/-- The draws of a batch's primitives, each once, in order. -/
def batchDraws (b : Batch) : List Nat :=
  (b.prims.map (fun q => q.draw)).eraseDups

/-- A module's dispatches run their atomics in compatibility mode: its declaration, or the device's default (04 R154, 05 R194). -/
def atomicCompat (s : State) (key : Nat) : Bool :=
  ((mget s.core.modules key).bind (fun m => m.atomicMode)).getD (rdF s Reg.coreSchedCfg 8 8 = 1)

/-- A job of `n` invocations of an entry point on the cores of a bench. -/
def geomJob (s : State) (p : RPass) (bench : Nat) (stage : Stage) (key entry n : Nat) (d : List Byte) : Job :=
  { org := p.org, stage := stage, modKey := key, entry := entry, cores := 0, bench := some bench, total := (n + 63) / 64, next := 0,
    done := 0, dims := (n, 1), threads := 64, bind := fAt d 0x28 47 0, push := fAt d 0x30 47 0, compat := atomicCompat s key, draw := 0,
    saved := [], readyAt := s.dtime, start := none, used := [], outs := [] }

/-- The draw whose programs a batch runs next: batches run the programs of each of their draws, of the first draw's module here
where a batch spans several draws with one pipeline; `i` is the draw. -/
def drawAt (p : RPass) (i : Nat) : List Byte :=
  lget p.draws i []

/-- The key of a draw's module. -/
def drawModule (s : State) (p : RPass) (d : List Byte) : Nat :=
  match findModule s p.org.part (fAt d 0 31 0) with
  | some (k, _) => k
  | none => 0

/-- The jobs of a batch's stage: one for each of its draws that has the stage's entry point; invocations keep the batch's numbering.
Answers the state and the identifier of the first. -/
def startJobs (s : State) (p : RPass) (bench : Nat) (b : Batch) (stage : Stage) (entry : List Byte → Nat) (n : Nat) : State × Nat :=
  let ds := (batchDraws b).filter (fun i => entry (drawAt p i) ≠ 0xFF)
  let first := s.host.nextWid
  (ds.foldl (fun s i =>
    let d := drawAt p i
    let id := s.host.nextWid
    let s1 := { s with host := { s.host with nextWid := id + 1 } }
    setJob s1 id { geomJob s1 p bench stage (drawModule s1 p d) (entry d) n d with draw := i }) s, first)

/-- The jobs of a batch's programs that run: those of its pass on its bench. -/
def batchJobs (s : State) (p : RPass) (bench : Nat) : Map Job :=
  s.core.jobs.filter (fun j => j.2.org.wid = p.org.wid && j.2.bench = some bench)

/-- Every job of a batch has ended. -/
def jobsOver (l : Map Job) : Bool :=
  l.all (fun j => j.2.done = j.2.total)

/-- Where the invocations of TessellationControl and TessellationEvaluation programs stand among a batch's outputs. -/
abbrev controlBase : Nat := 2 ^ 20
abbrev evalBase : Nat := 2 ^ 21

/-- The outputs of ended jobs join those of a batch, their invocations from `base`; and the state without the jobs. -/
def takeOuts (s : State) (l : Map Job) (base : Nat) (m : Map Word32) : State × Map Word32 :=
  (l.foldl (fun s j => delJob s j.1) s,
    l.foldl (fun m j => j.2.outs.foldl (fun m e => mset m (e.1 + base * 256) e.2) m) m)

/-- Output `slot` of invocation `i`. -/
def outAt (m : Map Word32) (i slot : Nat) : Option Nat :=
  (mget m (i * 256 + slot)).map (fun x => x.toNat)

/-! The tessellator (06 R221, R222). What its factors do not fix is an operand of the command (log 32). -/

/-- The output control points of a patch. -/
def patchOut (s : State) (p : RPass) (d : List Byte) : Nat :=
  ((entryOf s (drawModule s p d) (dTcs d)).map (fun e => e.patchVerts)).getD 1

/-- The factors that the invocations of patch `i` wrote: the first invocation that wrote each. -/
def patchFactors (m : Map Word32) (i n slot count : Nat) : List Nat :=
  (List.range count).map (fun k =>
    (((List.range n).map (fun j => outAt m (controlBase + i * n + j) (slot + k))).findSome? id).getD 0)

/-- The largest count of output control points of a batch's patches: its control invocations stand at that pitch. -/
def controlPitch (s : State) (p : RPass) (b : Batch) : Nat :=
  ((batchDraws b).map (fun i => patchOut s p (drawAt p i))).foldl max 1

/-- The tessellator declares its modes in the TessellationEvaluation program of the draw (06 R221). -/
def evalEntry (s : State) (p : RPass) (draw_ : Nat) : Option EntryPt :=
  entryOf s (drawModule s p (drawAt p draw_)) (dTes (drawAt p draw_))

/-- A patch that is not discarded, by its place in the batch: its domain, spacing and factors (06 R221). -/
def livePatch (s : State) (p : RPass) (b : Batch) (n : Nat) (e : InPrim × Nat) : Option (EntryPt × List Nat) :=
  match evalEntry s p e.1.draw with
  | some t =>
    let f := patchFactors b.outs e.2 n slotOuter 4
    if patchGone t.domain f then none else some (t, f)
  | none => none

/-- The points and primitives of a batch after the tessellator, in primitive order: a primitive of a draw without tessellation stays
as it is; a patch that is not discarded takes its points and its primitives from the next element of the operand, whose points begin
with those of the outer edges. None where the operand does not fit. -/
def tessellate (s : State) (p : RPass) (b : Batch) (tess : List (List (Nat × Nat × Nat) × List (List Nat))) :
    Option (List (Nat × Nat × Nat × Nat) × List (Nat × List Nat)) :=
  let r := (b.prims.zip (List.range b.prims.length)).foldl
    (fun (a : Option (List (Nat × Nat × Nat × Nat) × List (Nat × List Nat) × List (List (Nat × Nat × Nat) × List (List Nat)))) e =>
      match a with
      | none => none
      | some (pts, gen, rest) =>
        if ! dTess (drawAt p e.1.draw) then some (pts, gen ++ [(e.1.draw, e.1.verts)], rest)
        else match livePatch s p b (controlPitch s p b) e with
          | none => some (pts, gen, rest)
          | some (t, f) => match rest with
            | [] => none
            | q :: more =>
              if (outerPoints t.domain t.spacing f).isPrefixOf q.1 && q.2.all (fun l => l.all (fun i => i < q.1.length)) then
                some (pts ++ q.1.map (fun x => (e.2, x.1, x.2.1, x.2.2)),
                  gen ++ q.2.map (fun l => (e.1.draw, l.map (fun i => evalBase + pts.length + i))), more)
              else none) (some ([], [], tess))
  match r with
  | some (pts, gen, []) => some (pts, gen)
  | _ => none

/-! Bin memory (06 R223, R224). -/

/-- The output locations of the stage that feeds the rasteriser. -/
def outLocs (s : State) (p : RPass) (d : List Byte) : Nat :=
  let e := if dTess d && dTes d ≠ 0xFF then dTes d else dVs d
  ((entryOf s (drawModule s p d) e).map (fun x => x.outLocs)).getD 0

/-- The vertex pages of a batch (06 R223): ceil(V (16 + 16 L) / 4,096) pages. -/
def vertexPages (s : State) (p : RPass) (b : Batch) : Nat :=
  let v := if b.points.isEmpty then b.verts.length else b.verts.length + b.points.length
  let l := ((batchDraws b).map (fun i => outLocs s p (drawAt p i))).foldl max 0
  (v * (16 + 16 * l) + 4095) / 4096

/-- Bin memory between two offsets is written: content that is not described (06 R223). A fault is one of the geometry unit. -/
def writeBin (s : State) (unit : Nat) (p : RPass) (lo n : Nat) : State × Option XFault :=
  let (seed, s1) := draw s
  engineWrite s1 unit (.ctx p.org.ctx) .write (pBinAddr p.desc + lo) (undefBytes seed lo n)

/-- A unit's allocation would end beyond the commit: it stalls, and the request is posted or joins the line; beyond BIN_MAX the pass
is denied at once (06 R224, R225). -/
def stallUnit (s : State) (id unit : Nat) (p : RPass) (e : Nat) : State :=
  if pBinMax p.desc < needOf e then denyPass s id p 3 (needOf e)
  else
    let p1 := { p with stalls := mset p.stalls unit e }
    let l := mgetD s.raster.growth p.org.part []
    let s1 := setPass s id p1
    if l.contains id then s1
    else
      let s2 := setRaster s1 { s1.raster with growth := mset s1.raster.growth p.org.part (l ++ [id]) }
      if l.isEmpty then postGrowth s2 p.org.part else s2

/-- A fault of a geometry unit kills the context (08 R318). -/
def geomFault (s : State) (unit : Nat) (p : RPass) (f : XFault) : State :=
  engineFault s p.org (Engine.geom unit) f

/-! BATCH. -/

/-- The state with a unit's batch replaced. -/
def setBatch (s : State) (id : Nat) (p : RPass) (unit : Nat) (b : Batch) : State :=
  setPass s id { p with units := mset p.units unit b }

/-- The unit is saved after a preemption. -/
def unitSaved (p : RPass) (unit : Nat) : Bool :=
  p.savedUnits.any (fun x => x.1 = unit)

/-- A unit takes the next batch, which is its own in turn, and its vertex programs start (06 R217). -/
def takeBatch (s : State) (id unit : Nat) (p : RPass) : State :=
  let units := passUnits s p
  if lget units (p.nextBatch % units.length) 8 ≠ unit || p.draws.length < pDrawCount p.desc || ! mayPlace s p.org.ctx geomKib ||
      (p.savedUnits ≠ []) then s
  else match fillBatch (2 ^ 16) s unit p [] p.at_ with
    | (s1, .inl f) => geomFault s1 unit p f
    | (s1, .inr (l, at_)) =>
      if l.isEmpty then setPass s1 id { p with at_ := at_ }
      else
        let b := makeBatch p p.nextBatch l
        let s2 := if p.start.isNone then chargeStart s1 p.org.ctx p.readyAt none else s1
        let (s3, j) := startJobs (reserve s2 p.org.part geomKib) p unit b .vertex dVs b.verts.length
        setBatch s3 id { p with nextBatch := p.nextBatch + 1, at_ := at_, start := some (p.start.getD s.dtime) } unit { b with job := j }

/-- The vertex pages of a batch are allocated once its vertices are shaded (06 R223, R224). -/
def pageBatch (s : State) (id unit : Nat) (p : RPass) (b : Batch) : State :=
  let n := vertexPages s p b * 4096
  if b.paged then s
  else if p.commit < p.used + n then stallUnit s id unit p (p.used + n)
  else match writeBin s unit p p.used n with
    | (s1, some f) => geomFault s1 unit p f
    | (s1, none) => setBatch s1 id { p with used := p.used + n } unit { b with paged := true }

/-- A batch's programs have ended: the next stage starts, or set-up (06 R217). -/
def nextStage (s : State) (id unit : Nat) (p : RPass) (b : Batch) (jobs : Map Job)
    (tess : List (List (Nat × Nat × Nat) × List (List Nat))) : State :=
  match b.step with
  | .vertex =>
    let (s1, m) := takeOuts s jobs 0 b.outs
    if (batchDraws b).any (fun i => dTess (drawAt p i)) then
      let (s2, j) := startJobs s1 p unit b .control dTcs (b.prims.length * controlPitch s1 p b)
      setBatch s2 id p unit { b with outs := m, step := .control, job := j }
    else setBatch s1 id p unit { b with outs := m, step := .setup, gen := b.prims.map (fun q => (q.draw, q.verts)) }
  | .control =>
    let (s1, m) := takeOuts s jobs controlBase b.outs
    let b1 := { b with outs := m }
    match tessellate s1 p b1 tess with
    | none => s
    | some (pts, gen) =>
      let (s2, j) := startJobs s1 p unit b1 .eval dTes pts.length
      setBatch s2 id p unit { b1 with points := pts, gen := gen, step := .eval, job := j }
  | .eval =>
    let (s1, m) := takeOuts s jobs evalBase b.outs
    setBatch s1 id p unit { b with outs := m, step := .setup }
  | .setup => pageBatch s id unit p b

/-- BATCH (06 R217): a geometry unit takes its next batch, or its batch's programs having ended goes on to the next; `tess` is what
the tessellator makes of its patches beyond what their factors fix (log 32). -/
def execBatch (pass : Nat) (unit : BitVec 3) (tess : List (List (Nat × Nat × Nat) × List (List Nat))) (s : State) :
    Host.Outcome State Fault Refusal :=
  match passOf s pass with
  | none => .next s
  | some p =>
    if p.step ≠ .geometry || ! ctxLive s p.org.ctx || ! engineUp s (Engine.geom unit.toNat) || unitSaved p unit.toNat || (mget p.stalls unit.toNat).isSome then .next s
    else match mget p.units unit.toNat with
      | none => .next (noteConds (takeBatch s pass unit.toNat p))
      | some b =>
        let jobs := batchJobs s p unit.toNat
        if b.step = .setup || jobsOver jobs then .next (settle (nextStage s pass unit.toNat p b jobs tess)) else .next s

/-! PRIMITIVE (06 R219, R220). -/

/-- The vertices of a generated primitive, in clip space; none where a position is not finite (log 31). -/
def primVerts (b : Batch) (l : List Nat) : Option (List (ClipVert × Val)) :=
  let one := fun (i : Nat) =>
    let c := (List.range 4).map (fun k => val32 ((outAt b.outs i (slotPosition + k)).getD 0))
    let fin := c.all (fun v => match v with
      | .fin _ _ _ => true
      | _ => false)
    let f := fun (k : Nat) => fVal (lget c k (.fin false 0 0))
    let dist := (List.range 8).filterMap (fun k => (outAt b.outs i (slotClip + k)).map (fun x => fVal (val32 x)))
    if fin then
      some (({ x := f 0, y := f 1, z := f 2, w := f 3, dist := dist } : ClipVert),
        val32 ((outAt b.outs i slotPointSize).getD 0x3F800000))
    else none
  let vs := l.map one
  if vs.all (fun v => v.isSome) then some (vs.filterMap id) else none

/-- Some cull distance is negative at every vertex of the primitive. -/
def culledByDistance (b : Batch) (l : List Nat) : Bool :=
  (List.range 8).any (fun k => ! l.isEmpty && l.all (fun i =>
    match outAt b.outs i (slotCull + k) with
    | some x => vlt (val32 x) (.fin false 0 0)
    | none => false))

/-- Corners and facing of a primitive after clipping, transform and snapping; none where nothing is left or it has no area. -/
def setupPrim (d : List Byte) (kind : Nat) (l : List (ClipVert × Val)) : Option (List (Int × Int × Nat) × Bool) :=
  let vp := viewportOf d
  let vs := clipPrim (kind = 3) vp (l.map (fun v => v.1))
  if vs.any (fun v => ! fLt (fOf 0) v.w) then none
  else
    let pts := vs.map (toWindow vp)
    match kind with
    | 3 =>
      let a := area2 pts
      if a = 0 then none else some (pts, (0 < a) = (fAt d 8 15 15 = 1))
    | 2 => match pts with
      | [a, b] => if (a.1, a.2.1) = (b.1, b.2.1) then none else some (lineQuad a b, true)
      | _ => none
    | _ => match pts, l with
      | [a], (_, size) :: _ => some (pointQuad a size, true)
      | _, _ => none

/-- The pixels that the bounding box of a primitive meets inside the scissor and the frame: x0, y0, x1, y1, the last two
exclusive. -/
def pixelBox (p : RPass) (d : List Byte) (pts : List (Int × Int × Nat)) : Nat × Nat × Nat × Nat :=
  let xs := pts.map (fun q => q.1)
  let ys := pts.map (fun q => q.2.1)
  let lo := fun (l : List Int) => (l.foldl min (l.headD 0)) / 256
  let hi := fun (l : List Int) => (l.foldl max (l.headD 0)) / 256 + 1
  let w := min (pWidth p.desc) (fAt d 0x50 47 32)
  let h := min (pHeight p.desc) (fAt d 0x50 63 48)
  (max (lo xs).toNat (fAt d 0x50 15 0), max (lo ys).toNat (fAt d 0x50 31 16), min (hi xs).toNat w, min (hi ys).toNat h)

/-- The tiles that list a primitive: those its bounding box meets (06 R219; which others are listed is open, log 33). -/
def listTiles (p : RPass) (q : Nat × Nat × Nat × Nat) : List Nat :=
  match q with
  | (x0, y0, x1, y1) =>
    if x1 ≤ x0 || y1 ≤ y0 then []
    else (List.range ((y1 - 1) / 32 - y0 / 32 + 1)).flatMap (fun j => (List.range ((x1 - 1) / 32 - x0 / 32 + 1)).map (fun i =>
      (y0 / 32 + j) * tilesWide p.desc + x0 / 32 + i))

/-- The triangle is culled by its face (06 R213). -/
def faceCulled (d : List Byte) (kind : Nat) (front : Bool) : Bool :=
  kind = 3 && (if front then fAt d 8 13 13 = 1 else fAt d 8 14 14 = 1)

/-- The lists of tiles with a primitive of a unit added: the offsets of the chunks of 128 B that they take, one for every 30 listings
of a tile and unit (06 R223). -/
def addLists (m : Map Nat) (used unit : Nat) (tiles : List Nat) : Map Nat × Nat :=
  tiles.foldl (fun a t =>
    let n := mgetD a.1 (t * 8 + unit) 0
    (mset a.1 (t * 8 + unit) (n + 1), if n % 30 = 0 then a.2 + 128 else a.2)) (m, used)

/-- The offset at which the first chunk that does not fit would end. -/
def firstOver (used commit n : Nat) : Nat :=
  used + 128 * ((List.range n).find? (fun i => commit < used + 128 * (i + 1))).getD 0 + 128

/-- A batch whose primitives are all set up leaves its unit (06 R217). -/
def endBatch (s : State) (id unit : Nat) (p : RPass) (b : Batch) : State :=
  if b.pos < b.gen.length then setBatch s id p unit b
  else unreserve (setPass s id { p with units := mdel p.units unit }) p.org.part geomKib

/-- Sets up and bins one primitive of a unit's batch, or culls it. -/
def binPrim (s : State) (id unit : Nat) (p : RPass) (b : Batch) (draw_ : Nat) (verts : List Nat) : State :=
  let d := drawAt p draw_
  let kind := min verts.length 3
  let b1 := { b with pos := b.pos + 1, made := b.made + 1 }
  let cull := endBatch s id unit { p with culled := p.culled + 1 } b1
  if culledByDistance b verts then cull
  else match (primVerts b verts).bind (setupPrim d kind) with
    | none => cull
    | some (pts, front) =>
      let tiles := listTiles p (pixelBox p d pts)
      if faceCulled d kind front || tiles.isEmpty then cull
      else
        let (m, used) := addLists p.lists p.used unit tiles
        if p.commit < used then stallUnit s id unit p (firstOver p.used p.commit ((used - p.used) / 128))
        else match writeBin s unit p p.used (used - p.used) with
          | (s1, some f) => geomFault s1 unit p f
          | (s1, none) =>
            let q : Prim := { batch := b.index, seq := b.made, draw := draw_, kind := kind, pts := pts, front := front }
            endBatch s1 id unit { p with lists := m, used := used, prims := q :: p.prims, binned := p.binned + 1 } b1

/-- The geometry phase is over: every record is fetched, every primitive set up (06 R210). -/
def settleGeometry (s : State) (id : Nat) : State :=
  match passOf s id with
  | none => s
  | some p =>
    let rest := p.draws.drop p.at_.1
    if p.step = .geometry && p.draws.length = pDrawCount p.desc && p.units.isEmpty && (p.draws.length ≤ p.at_.1 || rest.isEmpty) then
      setPass s id { p with step := .tiles, binnedAt := s.dtime, start := some (p.start.getD s.dtime), readyAt := s.dtime }
    else s

/-- With no batch on any unit and no input primitive left, the geometry phase ends (06 R210). -/
def closeGeometry (s : State) (id : Nat) : State :=
  match passOf s id with
  | none => s
  | some p =>
    if p.step ≠ .geometry || ! p.units.isEmpty || p.draws.length < pDrawCount p.desc then s
    else match fillBatch (2 ^ 16) s 8 p [] p.at_ with
      | (s1, .inr ([], at_)) => settleGeometry (setPass s1 id { p with at_ := at_ }) id
      | _ => s

/-- PRIMITIVE (06 R219): a geometry unit sets up and bins the next primitive of its batch, or culls it. -/
def execPrimitive (pass : Nat) (unit : BitVec 3) (s : State) : Host.Outcome State Fault Refusal :=
  match passOf s pass with
  | none => .next s
  | some p =>
    if p.step ≠ .geometry || ! ctxLive s p.org.ctx || unitSaved p unit.toNat || (mget p.stalls unit.toNat).isSome then .next s
    else match mget p.units unit.toNat with
      | none =>
        .next (closeGeometry s pass)
      | some b =>
        if b.step ≠ .setup || ! b.paged then .next s
        else match b.gen[b.pos]? with
          | none => .next (settleGeometry (endBatch s pass unit.toNat p b) pass)
          | some (i, verts) => .next (settle (settleGeometry (binPrim s pass unit.toNat p b i verts) pass))

/-! Growth (06 R224 to R229). -/

/-- The pass whose request is pending. -/
def pendingPass (s : State) (part : Nat) : Option (Nat × RPass) :=
  (mgetD s.raster.growth part []).head?.bind (fun id => (passOf s id).map (fun p => (id, p)))

/-- A grant raises the commit: the stalled units retry, and the next request of the line is posted; a unit that still does not fit
raises a new request, ahead of those of other passes (06 R226). -/
def grantPass (s : State) (id : Nat) (p : RPass) (c : Nat) : State :=
  let still := p.stalls.filter (fun x => c < x.2)
  let p1 := { p with commit := c, growths := p.growths + 1, stalls := still }
  let s1 := bump32 (setPass s id p1) Reg.geomBinGrowCount Reg.rasterStatus 1 1
  let s2 := wrF s1 (pkey p.org.part Reg.geomBinReq) 63 63 0
  if still.isEmpty then leaveGrowth s2 p.org.part id
  else if pBinMax p.desc < passNeed p1 then denyPass s2 id p1 3 (passNeed p1) else postGrowth s2 p.org.part

/-- GEOM_BIN_GRANT (06 R226): a write settles the partition's pending request. -/
def execGeomBinGrant (p : Part) (value : Word32) (s : State) : Host.Outcome State Fault Refusal :=
  if s.sec.recovery then .next (hostTouch s) else
  let s := hostTouch s
  match pendingPass s p.toNat with
  | none => .next s
  | some (id, q) =>
    let c := roundDown value.toNat 4096
    if q.commit < c && c ≤ pBinMax q.desc then .next (settle (grantPass s id q c))
    else .next (settle (denyPass s id q 1 (passNeed q)))

/-- BIN_GROWTH_TIMEOUT (06 R225, R227): the pending request of a partition has waited BIN_TIMEOUT_MS. -/
def execBinGrowthTimeout (p : Part) (s : State) : Host.Outcome State Fault Refusal :=
  match pendingPass s p.toNat with
  | none => .next s
  | some (id, q) =>
    if due s (mgetD s.raster.postedAt p.toNat 0) (rdF s Reg.geomCfg 9 0 * 1000000) then
      .next (settle (denyPass s id q 2 (passNeed q)))
    else .next s

/-! Preemption (06 R257). -/

/-- A preemption of a geometry unit's pass was asked for. -/
def unitAsked (s : State) (unit id : Nat) (p : RPass) : Bool :=
  s.sched.stopOps.contains (Engine.geom unit, id) || s.sched.stopCtx.contains (Engine.geom unit, p.org.ctx)

/-- GEOMETRY_PREEMPTION (06 R257): asked for, a geometry unit stops after its primitive and saves its position. -/
def execGeometryPreemption (pass : Nat) (unit : BitVec 3) (s : State) : Host.Outcome State Fault Refusal :=
  match passOf s pass with
  | none => .next s
  | some p =>
    if unitAsked s unit.toNat pass p && (mget p.units unit.toNat).isSome && ! unitSaved p unit.toNat then
      let s1 := countPreempt s p.org
      let (s2, a) := saveUnit s1 p.org (Engine.geom unit.toNat) 2048
      .next (noteConds (stopMade (setPass s2 pass { p with
        preempts := p.preempts + 1, savedUnits := p.savedUnits ++ [(unit.toNat, a, s2.dtime)] }) (Engine.geom unit.toNat) pass))
    else .next s

/-- A saved geometry unit's share is placed again (12 R507). -/
def resumeUnit (s : State) (id unit : Nat) (p : RPass) : State :=
  match p.savedUnits.find? (fun x => x.1 = unit) with
  | none => s
  | some (_, a, t) =>
    let s1 := unreserve s p.org.part geomKib
    if ! mayPlace s1 p.org.ctx geomKib then s
    else
      let s2 := restoreUnit (reserve (chargeStart s1 p.org.ctx p.readyAt (some (a, t))) p.org.part geomKib) p.org (Engine.geom unit) a 2048
      setPass s2 id { p with savedUnits := p.savedUnits.filter (fun x => x.1 ≠ unit) }

end Sys2Proof.Machine
end

