-- ==== Sys2Proof/Machine/Tiles.lean ====
section
/-! DEFINITION. The tile phase of a render pass (06 R230 to R240, R254 to R258): tiles on cores, fragments, the depth test and
retirement in primitive order, the end of a tile, and preemption. -/
namespace Sys2Proof.Machine

/-- Replaces the tile of a pass on a core. -/
def setTile (s : State) (core : Nat) (t : TileSt) : State :=
  let c := coreOf s core
  setCoreOf s core { c with tiles := c.tiles.map (fun x => if x.pass = t.pass && x.tile = t.tile then t else x) }

/-- The first pixel of a tile (06 R211). -/
def tileAt (d : List Byte) (t : Nat) : Nat × Nat :=
  (t % tilesWide d * 32, t / tilesWide d * 32)

/-- A fault of a core's plane load or store: no group is concerned (04 R161). -/
def tileFault (s : State) (core : Nat) (p : RPass) (f : XFault) : State :=
  failWork s p.org f.code (Engine.core core) f.va (zeroBytes 24)

/-! Planes in memory (06 R234, R255). -/

/-- A plane's compressed surface (06 R249). -/
def planeSurf (p : RPass) (e : List Byte) : XSurf :=
  { addr := plAddr e, meta_ := fAt e 0x10 47 0, b := plBytes e, w := pSamples p.desc * pWidth p.desc, h := pHeight p.desc,
    clear := slice e 0x18 (plBytes e) }

/-- The blocks of a compressed surface that a tile covers: block column and row. -/
def tileBlocks (p : RPass) (x : XSurf) (t : Nat) : List (Nat × Nat) :=
  let (x0, y0) := tileAt p.desc t
  let n := pSamples p.desc
  let cols := (List.range (4 * n)).map (fun i => x0 * n / 8 + i)
  (List.range 4).flatMap (fun j => cols.map (fun c => (c, y0 / 8 + j))) |>.filter (fun q => q.1 * 8 < x.w && q.2 * 8 < x.h)

/-- Element `e` of a tile lies in the frame at this column (sample by sample) and row. -/
def elemPlace (p : RPass) (t e : Nat) : Option (Nat × Nat) :=
  let n := pSamples p.desc
  let (x0, y0) := tileAt p.desc t
  let x := x0 + e / n % 32
  let y := y0 + e / n / 32
  if x < pWidth p.desc && y < pHeight p.desc then some (x * n + e % n, y) else none

/-- The rows of a tile inside the frame, as the frame's y. -/
def tileRows (p : RPass) (t : Nat) : List Nat :=
  let (_, y0) := tileAt p.desc t
  (List.range (min 32 (pHeight p.desc - y0))).map (y0 + ·)

/-- How many pixels of each row of a tile lie inside the frame. -/
def tileCount32 (p : RPass) (t : Nat) : Nat :=
  min 32 (pWidth p.desc - (tileAt p.desc t).1)

/-- The elements of a plane's surface for a tile, keyed by row × 2^20 + column. -/
def loadPlane (s : State) (core : Nat) (p : RPass) (e : List Byte) (t : Nat) : State × (XFault ⊕ Map (List Byte)) :=
  let tbl := TableId.ctx p.org.ctx
  let n := pSamples p.desc
  let b := plBytes e
  let x0 := (tileAt p.desc t).1
  let put := fun (m : Map (List Byte)) (y x : Nat) (bs : List Byte) => mset m (y * 2 ^ 20 + x) bs
  if plPacked e then
    let x := planeSurf p e
    (tileBlocks p x t).foldl (fun acc q =>
      match acc with
      | (s, .inl f) => (s, .inl f)
      | (s, .inr m) =>
        match readBlock s (benchOf core) tbl x (q.2 * ((x.w + 7) / 8) + q.1) with
        | (s1, .inl f) => (s1, .inl f)
        | (s1, .inr (l, bad)) =>
          let s2 := if bad then
            match passOf s1 p.org.wid with
            | some p1 => setPass s1 p.org.wid { p1 with decodeErrs := p1.decodeErrs + 1 }
            | none => s1
            else s1
          (s2, .inr ((l.zip (List.range 64)).foldl (fun m i => put m (q.2 * 8 + i.2 / 8) (q.1 * 8 + i.2 % 8) i.1) m)))
      ((s, .inr []) : State × (XFault ⊕ Map (List Byte)))
  else
    (tileRows p t).foldl (fun acc y =>
      match acc with
      | (s, .inl f) => (s, .inl f)
      | (s, .inr m) =>
        let k := n * tileCount32 p t
        match engineRead s (benchOf core) tbl .read (plAddr e + y * plPitch e + n * x0 * b) (k * b) (.fail .unsupported) with
        | (s1, .inl f) => (s1, .inl f)
        | (s1, .inr bs) =>
          (s1, .inr ((List.range k).foldl (fun m i => put m y (n * x0 + i) (slice bs (b * i) b)) m)))
      ((s, .inr []) : State × (XFault ⊕ Map (List Byte)))

/-- The elements that each plane holds at the start of a tile: none for undefined content (06 R234). -/
def startPlane (s : State) (core : Nat) (p : RPass) (i : Nat) (e : List Byte) (t : Nat) :
    State × (XFault ⊕ (Nat → Option (List Byte))) :=
  let b := plBytes e
  match plLoad e with
  | 1 =>
    let v := if pDepthEn p.desc && i = pDepthPlane p.desc then encodeElem (plFormat e) [fAt p.desc 0x40 63 32]
      else slice e 0x18 b
    (s, .inr (fun _ => some v))
  | 2 =>
    if plAddr e = 0 then (s, .inr (fun _ => none))
    else match loadPlane s core p e t with
      | (s1, .inl f) => (s1, .inl f)
      | (s1, .inr m) => (s1, .inr (fun k =>
          match elemPlace p t k with
          | some (x, y) => some (mgetD m (y * 2 ^ 20 + x) (zeroBytes b))
          | none => some (zeroBytes b)))
  | _ => (s, .inr (fun _ => none))

/-- The bytes that a plane's start puts into a tile buffer. -/
def planeCells (p : RPass) (e : List Byte) (f : Nat → Option (List Byte)) : List (Nat × Byte) :=
  (List.range (1024 * pSamples p.desc)).flatMap (fun k =>
    match f k with
    | some bs => (bs.zip (List.range bs.length)).map (fun x => (plOffset e + k * plStride e + x.2, x.1))
    | none => [])

/-- The tile buffer at the start of a tile (06 R234). -/
def startTile (s : State) (core : Nat) (p : RPass) (t : Nat) : State × (XFault ⊕ Map Byte) :=
  (p.planes.zip (List.range p.planes.length)).foldl (fun acc e =>
    match acc with
    | (s, .inl f) => (s, .inl f)
    | (s, .inr m) => match startPlane s core p e.2 e.1 t with
      | (s1, .inl f) => (s1, .inl f)
      | (s1, .inr g) => (s1, .inr ((planeCells p e.1 g).foldl (fun m x => mset m x.1 x.2) m)))
    ((s, .inr []) : State × (XFault ⊕ Map Byte))

/-- Element `k` of a plane in a tile buffer. -/
def elemBytes (t : TileSt) (e : List Byte) (k : Nat) : List Byte :=
  tileBytes t (plOffset e + k * plStride e) (plBytes e)

/-- The tile buffer with element `k` of a plane replaced. -/
def putElem (t : TileSt) (e : List Byte) (k : Nat) (bs : List Byte) : TileSt :=
  { t with tb := (bs.zip (List.range bs.length)).foldl (fun m x => mset m (plOffset e + k * plStride e + x.2) x.1) t.tb }

/-! Handing out tiles (06 R230). -/

/-- Tiles of a pass that a core holds. -/
def tilesOn (s : State) (core pass : Nat) : Nat :=
  ((coreOf s core).tiles.filter (fun t => t.pass = pass)).length

/-- A core has a free tile slot for a pass: two with at most 4 banks a tile, one otherwise. -/
def tileSlot (s : State) (core : Nat) (p : RPass) : Bool :=
  tilesOn s core p.org.wid < (if pBanks p.desc ≤ 4 then 2 else 1)

/-- Where a tile's banks fit on a core; at most 8 banks are tile buffer (04 R136, R137). -/
def tilePlace (s : State) (core : Nat) (p : RPass) : Option Nat :=
  let c := coreOf s core
  if 8 < tileBanks c + pBanks p.desc then none
  else if pBanks p.desc = 0 then some 0
  else (fitRange s c (pBanks p.desc * 32) 32).map (· / 32)

/-- TILE_HANDOUT (06 R230, R234): the next tile goes to a participating core with a free slot, and its planes take their start
content. -/
def execTileHandout (pass : Nat) (core : CoreId) (s : State) : Host.Outcome State Fault Refusal :=
  let n := core.toNat
  let s0 := closeGeometry s pass
  match passOf s0 pass with
  | none => .next s0
  | some p =>
    if p.step ≠ .tiles || passTiles p.desc ≤ p.nextTile || ! (passCores s0 p).contains n || ! tileSlot s0 n p ||
        ! engineUp s0 (Engine.core n) || ! mayPlace s0 p.org.ctx (tileKib p.desc) then .next s0
    else match tilePlace s0 n p with
      | none => .next s0
      | some bank =>
        match startTile s0 n p p.nextTile with
        | (s1, .inl f) => .next (settle (tileFault s1 n p f))
        | (s1, .inr tb) =>
          let (seed, s2) := draw (takeBanks s1 n (bank * 32) (pBanks p.desc * 32))
          let t : TileSt :=
            { pass := pass, tile := p.nextTile, bank := bank, banks := pBanks p.desc, tb := tb, seed := seed, pos := 0, frags := [],
              handoffs := [], ended := false, stored := false, items := [], placedAt := s.dtime, saved := none }
          let c := coreOf s2 n
          let s3 := reserve (setCoreOf s2 n { c with tiles := c.tiles ++ [t] }) p.org.part (tileKib p.desc)
          match passOf s3 pass with
          | some p1 => .next (noteConds (setPass s3 pass { p1 with nextTile := p.nextTile + 1 }))
          | none => .next s3

/-! Fragments (06 R231, R232). -/

/-- Primitive order. -/
def primLt (a b : Prim) : Bool :=
  a.batch < b.batch || (a.batch = b.batch && a.seq < b.seq)

/-- A primitive put in its place in a list in primitive order. -/
def insertPrim (l : List Prim) (q : Prim) : List Prim :=
  match l with
  | [] => [q]
  | a :: r => if primLt q a then q :: a :: r else a :: insertPrim r q

/-- The primitives listed in a tile, in primitive order. -/
def tilePrims (p : RPass) (t : Nat) : List Prim :=
  (p.prims.filter (fun q => (listTiles p (pixelBox p (drawAt p q.draw) q.pts)).contains t)).foldl insertPrim []

/-- The samples of a pixel that a primitive covers, as a mask: inside the scissor and the frame (06 R220). -/
def coverOf (p : RPass) (q : Prim) (x y : Nat) : Nat :=
  match pixelBox p (drawAt p q.draw) q.pts with
  | (x0, y0, x1, y1) =>
    if x < x0 || y < y0 || x1 ≤ x || y1 ≤ y then 0
    else maskOf ((List.range (pSamples p.desc)).filter (fun s =>
      let o := sampleAt (pMsaa p.desc) s
      (triAt q.pts (256 * x + o.1) (256 * y + o.2)).isSome))

/-- The depth of a primitive at a sample of a pixel. -/
def sampleDepth (p : RPass) (q : Prim) (x y s : Nat) : Nat :=
  let o := sampleAt (pMsaa p.desc) s
  match triAt q.pts (256 * x + o.1) (256 * y + o.2) with
  | some t => depthAt (viewportOf (drawAt p q.draw)) t (256 * x + o.1) (256 * y + o.2)
  | none => 0

/-- The fragment program of a draw. -/
def fragEntry (s : State) (p : RPass) (draw_ : Nat) : Option EntryPt :=
  if dFs (drawAt p draw_) = 0xFF then none else entryOf s (drawModule s p (drawAt p draw_)) (dFs (drawAt p draw_))

/-- The sample masks that a quad is shaded for: one for each sample under sample-rate shading. -/
def shadeMasks (s : State) (p : RPass) (draw_ : Nat) : List Nat :=
  match fragEntry s p draw_ with
  | some e => if e.sampleRate then (List.range (pSamples p.desc)).map (fun i => 2 ^ i) else [2 ^ pSamples p.desc - 1]
  | none => [2 ^ pSamples p.desc - 1]

/-- The quads of a tile with a covered sample, in primitive order: primitive, quad column and row in the tile, and sample mask. -/
def tileQuads (s : State) (p : RPass) (t : Nat) : List (Prim × Nat × Nat × Nat) :=
  let (x0, y0) := tileAt p.desc t
  (tilePrims p t).flatMap (fun q => (List.range 256).flatMap (fun k =>
    (shadeMasks s p q.draw).filterMap (fun m =>
      if [0, 1, 2, 3].any (fun i =>
          Nat.land (coverOf p q (x0 + k % 16 * 2 + i % 2) (y0 + k / 16 * 2 + i / 2)) m ≠ 0) then
        some (q, k % 16, k / 16, m)
      else none)))

/-- The depth comparisons of 06 R236. -/
def depthPasses (func : Nat) (a b : Val) : Bool :=
  match func with
  | 0 => false
  | 1 => vlt a b
  | 2 => vcmp a b = some .eq
  | 3 => vle a b
  | 4 => vlt b a
  | 5 => vcmp a b ≠ some .eq
  | 6 => vle b a
  | _ => true

/-- The depth plane of a pass. -/
def depthPlane (p : RPass) : List Byte :=
  lget p.planes (pDepthPlane p.desc) []

/-- The element of pixel (x, y) of the tile and sample s (06 R233). -/
def elemOf (p : RPass) (x y s : Nat) : Nat :=
  (32 * y + x) * pSamples p.desc + s

/-- One sample's depth test against the tile buffer: whether it passes, and the buffer with its depth written where `write`. The
fragment's depth is taken in the plane's format (log 34). -/
def depthSample (p : RPass) (t : TileSt) (x y s depth : Nat) (write : Bool) : Bool × TileSt :=
  let e := depthPlane p
  let k := elemOf p x y s
  let bs := encodeElem (plFormat e) [depth]
  let of := fun (b : List Byte) => val32 (lget (decodeElem (plFormat e) b) 0 0)
  let ok := depthPasses (fAt p.desc 0 44 42) (of bs) (of (elemBytes t e k))
  (ok, if ok && write && tBit p.desc 45 then putElem t e k bs else t)

/-- The test of a fragment's samples: the mask that passes, and the tile buffer. -/
def depthTest (p : RPass) (t : TileSt) (f : Frag) (write : Bool) : Nat × TileSt :=
  if ! pDepthEn p.desc then (f.cover, t)
  else (List.range (pSamples p.desc)).foldl (fun a s =>
    if bitN f.cover s then
      match depthSample p a.2 f.x f.y s (lget f.depth s 0) write with
      | (ok, t1) => (if ok then a.1 + 2 ^ s else a.1, t1)
    else a) (0, t)

/-- A program's depth is written when its fragment retires, or tested then (06 R237). -/
def lateDepth (e : Option EntryPt) : Bool :=
  match e with
  | some x => x.writesDepth || (x.kills && ! x.earlyTests)
  | none => false

/-- The four fragments of a quad: a pixel that no sample of the primitive covers is a helper (06 R232). -/
def quadFrags (p : RPass) (tile order : Nat) (q : Prim × Nat × Nat × Nat) : List Frag :=
  match q with
  | (r, qx, qy, m) =>
    let (x0, y0) := tileAt p.desc tile
    [0, 1, 2, 3].map (fun i =>
      let x := qx * 2 + i % 2
      let y := qy * 2 + i / 2
      let c := Nat.land (coverOf p r (x0 + x) (y0 + y)) m
      { order := order, draw := r.draw, x := x, y := y, cover := c,
        depth := (List.range (pSamples p.desc)).map (fun s => if bitN c s then sampleDepth p r (x0 + x) (y0 + y) s else 0),
        gid := 0, thread := 0, helper := c = 0, killed := false, step := .running, outs := [] })

/-- Two fragments cover a common sample. -/
def fragsMeet (a b : Frag) : Bool :=
  a.x = b.x && a.y = b.y && Nat.land a.cover b.cover ≠ 0

/-- A quad must wait for earlier fragments that may still write the depth it is tested against (06 R237). -/
def quadBlocked (s : State) (p : RPass) (t : TileSt) (l : List Frag) : Bool :=
  pDepthEn p.desc && l.any (fun f => t.frags.any (fun g => fragsMeet f g && lateDepth (fragEntry s p g.draw)))

/-- The early test of a quad (06 R237): its fragments with what is left of their cover, and the tile buffer. -/
def earlyTest (s : State) (p : RPass) (t : TileSt) (l : List Frag) : List Frag × TileSt :=
  match l with
  | [] => ([], t)
  | f :: r =>
    let e := fragEntry s p f.draw
    let early := match e with
      | some x => ! x.writesDepth
      | none => true
    if ! early then
      match earlyTest s p t r with
      | (r1, t1) => (f :: r1, t1)
    else
      match depthTest p t f (! lateDepth e) with
      | (m, t1) => match earlyTest s p t1 r with
        | (r1, t2) => ({ f with cover := m, helper := m = 0 } :: r1, t2)

/-- The quads that a thread group takes: from consecutive primitives of one draw, at most 16 (06 R232); those with no sample left
after the early test are dropped. Answers how many were passed, the quads, and the tile. -/
def packQuads (s : State) (p : RPass) (draw_ : Nat) (l : List (Prim × Nat × Nat × Nat)) (t : TileSt) (n : Nat)
    (acc : List (List Frag)) : Nat × List (List Frag) × TileSt :=
  match l with
  | [] => (n, acc, t)
  | q :: r =>
    if q.1.draw ≠ draw_ || 16 ≤ acc.length then (n, acc, t)
    else
      let fs := quadFrags p t.tile (t.pos + n) q
      let waiting := acc.flatten
      if quadBlocked s p { t with frags := t.frags ++ waiting } fs then (n, acc, t)
      else match earlyTest s p t fs with
        | (fs1, t1) =>
          if fs1.all (fun f => f.cover = 0) then packQuads s p draw_ r t1 (n + 1) acc
          else packQuads s p draw_ r t1 (n + 1) (acc ++ [fs1])

/-! Retirement (06 R231, R235, R237). -/

/-- Outputs of a fragment that retires: Location p writes plane p at its covered samples. -/
def writeOuts (p : RPass) (t : TileSt) (f : Frag) (cover : Nat) : TileSt :=
  (p.planes.zip (List.range p.planes.length)).foldl (fun t e =>
    let at_ := fun (c : Nat) => (mget f.outs (4 * e.2 + c)).map (fun x => x.toNat)
    if (pDepthEn p.desc && e.2 = pDepthPlane p.desc) || ! [0, 1, 2, 3].any (fun c => (at_ c).isSome) then t
    else
      let bs := encodeElem (plFormat e.1) ([0, 1, 2, 3].map (fun c => (at_ c).getD 0))
      (List.range (pSamples p.desc)).foldl (fun t s =>
        if bitN cover s then putElem t e.1 (elemOf p f.x f.y s) bs else t) t) t

/-- A fragment retires: the late depth test and write, then its outputs; one that was discarded writes nothing. -/
def retireFrag (s : State) (p : RPass) (t : TileSt) (f : Frag) : TileSt :=
  if f.killed || f.helper then t
  else
    let e := fragEntry s p f.draw
    let g := match e with
      | some x => if x.writesDepth then
          { f with depth := f.depth.map (fun d => ((mget f.outs slotDepth).map (fun v => v.toNat)).getD d) } else f
      | none => f
    let late := lateDepth e
    if late then
      match depthTest p t g true with
      | (m, t1) => writeOuts p t1 g m
    else writeOuts p t g g.cover

/-- A fragment may retire: it has ended, and every earlier one that covers a sample of it has retired (06 R231). -/
def mayRetire (l : List Frag) (f : Frag) : Bool :=
  f.step = .exited && l.all (fun g => ! (g.order < f.order && fragsMeet f g))

/-- Fragments retire in primitive order until none can. -/
def retireAll (fuel : Nat) (s : State) (p : RPass) (t : TileSt) : TileSt :=
  match fuel with
  | 0 => t
  | n + 1 =>
    match t.frags.find? (mayRetire t.frags) with
    | none => t
    | some f => retireAll n s p { retireFrag s p t f with frags := t.frags.erase f }

/-- Fragments of a tile on a core retire, and sets that wait at the interlock look again (06 R238, R240). -/
def retireTile (s : State) (core pass tile : Nat) : State :=
  match passOf s pass, tileOn s core pass tile with
  | some p, some t =>
    let s1 := setTile s core (retireAll t.frags.length s p t)
    let c := coreOf s1 core
    setCoreOf s1 core { c with wgs := c.wgs.map (fun w =>
      if w.stage = .fragment && w.job = pass && w.index = tile then
        { w with groups := w.groups.map (fun g => wakeWhere g (fun x => x = .interlock)) }
      else w) }
  | _, _ => s

/-- The fragment that a thread of a group shades. -/
def fragOf (t : TileSt) (gid thread : Nat) : Option Frag :=
  t.frags.find? (fun f => f.gid = gid && f.thread = thread)

/-- The tile that a fragment group shades. -/
def tileOfWG (s : State) (core : Nat) (w : WG) : Option TileSt :=
  if w.stage = .fragment then tileOn s core w.job w.index else none

/-- Fragments of some threads of a group, after `f`. -/
def updFrags (s : State) (core : Nat) (w : WG) (gid mask : Nat) (f : Frag → Frag) : State :=
  match tileOfWG s core w with
  | some t => setTile s core { t with frags := t.frags.map (fun x => if x.gid = gid && bitN mask x.thread then f x else x) }
  | none => s

/-! Fragment groups on a core (06 R232). -/

/-- A new thread group of `threads` threads. -/
def newGroup (gid idx path mask seed : Nat) : Group :=
  { gid := gid, idx := idx, path := path, cur := { pc := 0, mask := mask, wait := .run }, others := [], count := 0, regs := [],
    seed := seed, reads := [], sleep := none, copyIssued := 0, copies := [], stopping := false }

/-- The registers per thread that a group holds (04 R121). -/
def roundRegs (r : Nat) : Nat :=
  roundUp (max r 8) 8

/-- Takes the next work identifier. -/
def takeWid (s : State) : Nat × State :=
  (s.host.nextWid, { s with host := { s.host with nextWid := s.host.nextWid + 1 } })

/-- A fragment group is formed and placed on the core that holds its tile, if its registers fit (04 R122; 06 R231, R232). A draw
without a fragment program has its fragments retire at once. -/
def placeFrags (s : State) (core pass tile : Nat) : State :=
  match passOf s pass, tileOn s core pass tile with
  | some p, some t =>
    match (tileQuads s p tile).drop t.pos with
    | [] => s
    | q :: r =>
      let quads := q :: r
      match fragEntry s p q.1.draw with
      | none =>
        match packQuads s p q.1.draw quads t 0 [] with
        | (n, fs, t1) =>
          retireTile (setTile s core { t1 with pos := t.pos + n,
                                               frags := t.frags ++ (fs.flatten.map (fun f => { f with step := .exited })) }) core pass tile
      | some e =>
        let w0 : WG :=
          { wgid := 0, org := p.org, job := pass, index := tile, stage := .fragment, modKey := drawModule s p (drawAt p q.1.draw),
            entry := dFs (drawAt p q.1.draw), regs := roundRegs e.regs, sharedKib := 0, sharedAt := 0, groups := [], shared := [],
            seed := 0, issued := 0, ended := 0, placedAt := s.dtime, saved := none }
        let kib := saveKib (64 + 512 + 256 * w0.regs)
        match pathsFor (coreOf s core) w0.regs 1 with
        | some (path :: _) =>
          if ! mayPlace s p.org.ctx kib || 48 ≤ (coreOf s core).wgs.length then s
          else match packQuads s p q.1.draw quads t 0 [] with
            | (n, fs, t1) =>
              let (gid, s1) := takeWid s
              let (seed, s2) := draw s1
              let placed := (fs.zip (List.range fs.length)).flatMap (fun a => (a.1.zip (List.range 4)).map (fun b =>
                { b.1 with gid := gid, thread := 4 * a.2 + b.2 }))
              let s3 := setTile s2 core { t1 with pos := t.pos + n, frags := t.frags ++ placed }
              if fs.isEmpty then s3
              else
                let w := { w0 with wgid := gid, groups := [newGroup gid 0 path (2 ^ (4 * fs.length) - 1) seed], seed := seed }
                let c := coreOf s3 core
                reserve (setCoreOf s3 core { c with wgs := c.wgs ++ [w] }) p.org.part kib
        | _ => s
  | _, _ => s

/-! The end of a tile (06 R254 to R256). -/

/-- A descriptor with the 64-bit word at an offset replaced. -/
def putWord (d : List Byte) (off v : Nat) : List Byte :=
  d.take off ++ leBytes 8 v ++ d.drop (off + 8)

/-- The pass's own handoff descriptor as tile `t` uses it (06 R254). -/
def patchHandoff (p : RPass) (d : List Byte) (t : Nat) : List Byte :=
  let add := fun (d : List Byte) (off step : Nat) =>
    putWord d off (wordAt d off / 2 ^ 48 * 2 ^ 48 + (fAt d off 47 0 + t * step) % 2 ^ 48)
  let d1 := if tDAddr d ≠ 0 then add d 0x40 (fAt p.desc 0x38 31 0) else d
  let d2 := if tAux d then add d1 0x58 (fAt p.desc 0x38 63 32) else d1
  let d3 := if tCompl d ≠ 0 then add d2 0x68 (fAt p.desc 0x40 31 0) else d2
  putWord d3 0x18 (fAt d3 0x18 47 0 + t % 2 ^ 16 * 2 ^ 48)

/-- The array of a core accepts a work item, or its check fails: a TENSOR_DESC record of the array, and the completion record where
its address is valid and aligned (03 R105). -/
def acceptItem (s : State) (core : Nat) (o : Origin) (path : TPath) (d : List Byte) (addr tileSize : Nat) : State :=
  let (id, s1) := takeWid s
  let it := newItem s1 o path d addr 1
  let bad := if addr % 64 ≠ 0 then some (0, 8) else tFault d { handoffOk := tileSize ≠ 0, tileBytes := tileSize }
  match bad with
  | none => addItem s1 id it
  | some (off, reason) =>
    let s2 := bump32 s1 Reg.tensorDescCount Reg.tensorStatus 1 1
    let it1 := { it with fault := some (s.dtime, Engine.tensor core, Cond.tensorDesc), runsLeft := 0, start := some s.dtime }
    let s3 := if tCompl d % 64 = 0 then (tComplete s2 it1).1 else s2
    failWork s3 o Cond.tensorDesc (Engine.tensor core) 0 (tDetail off reason (if tHandoff d then fAt d 0x18 47 0 else addr))

/-- A core issues a descriptor at an address of its context to its own array (05 R196, R200; 03 R105). -/
def issueItem (s : State) (core : Nat) (o : Origin) (path : TPath) (addr tileSize : Nat) (patch : List Byte → List Byte) : State :=
  match engineRead s (benchOf core) (.ctx o.ctx) .tensor addr 128 (.fail .unsupported) with
  | (s1, .inl f) => engineFault s1 o (Engine.tensor core) f
  | (s1, .inr d) => acceptItem s1 core o path (patch d) addr tileSize

/-- The tensor work of a tile that ends (06 R254). -/
def issueTile (s : State) (core : Nat) (p : RPass) (t : TileSt) : State :=
  let size := pBanks p.desc * 32768
  let path := TPath.pass core t.pass t.tile
  let s1 := t.handoffs.foldl (fun s a => if ctxLive s p.org.ctx then issueItem s core p.org path a size id else s) s
  if pHandoff p.desc = 0 || ! ctxLive s1 p.org.ctx then s1
  else issueItem s1 core p.org path (pHandoff p.desc) size (fun d => patchHandoff p d t.tile)

/-- The resolved element of four samples (06 R255). -/
def resolveElem (fmt : Nat) (l : List (List Byte)) : List Byte :=
  if intFmt fmt then l.headD []
  else
    let cs := l.map (decodeElem fmt)
    encodeElem fmt ((List.range 4).map (fun c =>
      bits32 (rnd32 (vscale (vsum (cs.map (fun x => val32 (lget x c 0)))) (-2)))))

/-- The stores of a tile's plane (06 R255). -/
def storePlane (s : State) (core : Nat) (p : RPass) (t : TileSt) (e : List Byte) : State × Option XFault :=
  let tbl := TableId.ctx p.org.ctx
  let n := pSamples p.desc
  let (x0, y0) := tileAt p.desc t.tile
  let b := plBytes e
  let el := fun (x y s : Nat) => elemBytes t e (elemOf p x y s)
  let fold := fun {α : Type} (l : List α) (f : State → α → State × Option XFault) =>
    l.foldl (fun acc a => match acc with
      | (s, some x) => (s, some x)
      | (s, none) => f s a) ((s, none) : State × Option XFault)
  if plAddr e = 0 || plStore e = 0 then (s, none)
  else if plStore e = 2 && n = 4 then
    fold (tileRows p t.tile) (fun s y =>
      engineWrite s (benchOf core) tbl .write (plAddr e + y * plPitch e + x0 * b)
        ((List.range (tileCount32 p t.tile)).flatMap (fun x => resolveElem (plFormat e) ([0, 1, 2, 3].map (el x (y - y0))))))
  else if plPacked e then
    let xs := planeSurf p e
    fold (tileBlocks p xs t.tile) (fun s q =>
      writeBlock s (benchOf core) tbl xs (q.2 * ((xs.w + 7) / 8) + q.1) ((List.range 64).map (fun i =>
        let c := q.1 * 8 + i % 8
        let y := q.2 * 8 + i / 8
        if c < xs.w && y < xs.h then some (el (c / n - x0) (y - y0) (c % n)) else none)))
  else
    fold (tileRows p t.tile) (fun s y =>
      engineWrite s (benchOf core) tbl .write (plAddr e + y * plPitch e + n * x0 * b)
        ((List.range (tileCount32 p t.tile)).flatMap (fun x => (List.range n).flatMap (fun k => el x (y - y0) k))))

/-- Every plane of a tile is stored. -/
def storePlanes (s : State) (core : Nat) (p : RPass) (t : TileSt) : State × Option XFault :=
  p.planes.foldl (fun acc e => match acc with
    | (s, some x) => (s, some x)
    | (s, none) => storePlane s core p t e) ((s, none) : State × Option XFault)

/-- A group of a tile is on its core. -/
def tileBusy (s : State) (core : Nat) (t : TileSt) : Bool :=
  (coreOf s core).wgs.any (fun w => w.stage = .fragment && w.job = t.pass && w.index = t.tile)

/-- TILE_END (06 R254, R255): the tile's last fragment has retired; its tensor work is issued, and then its planes are stored. -/
def execTileEnd (pass : Nat) (core : CoreId) (tile : Nat) (s : State) : Host.Outcome State Fault Refusal :=
  let n := core.toNat
  match passOf s pass, tileOn s n pass tile with
  | some p, some t =>
    if t.ended || ! t.frags.isEmpty || t.pos < (tileQuads s p tile).length || tileBusy s n t || ! ctxLive s p.org.ctx then .next s
    else
      let s1 := issueTile (setTile s n { t with ended := true }) n p t
      if ! ctxLive s1 p.org.ctx then .next (settle s1)
      else match storePlanes s1 n p t with
        | (s2, some f) => .next (settle (tileFault s2 n p f))
        | (s2, none) =>
          let s3 := bump64 (setTile s2 n { t with ended := true, stored := true }) Reg.rasterTileCount Reg.rasterStatus 0 1
          match passOf s3 pass with
          | some p1 => .next (setPass (claimReqs s3 p.org n 0xFFFF 0) pass { p1 with stored := p1.stored + 1 })
          | none => .next s3
  | _, _ => .next s

/-- A handoff item of a tile has yet to read the tile buffer (03 R113). -/
def tileRead (s : State) (t : TileSt) : Bool :=
  s.core.items.any (fun i => match i.2.path with
    | .pass _ p k => p = t.pass && k = t.tile && tHandoff i.2.desc
    | _ => false)

/-- TILE_BANK_RELEASE (06 R255): a tile's stores and handoff reads have finished, and its banks are released. -/
def execTileBankRelease (pass : Nat) (core : CoreId) (tile : Nat) (s : State) : Host.Outcome State Fault Refusal :=
  let n := core.toNat
  match passOf s pass, tileOn s n pass tile with
  | some p, some t =>
    if ! t.stored || tileRead s t then .next s
    else
      let c := coreOf s n
      let s1 := setCoreOf s n { c with tiles := c.tiles.filter (fun x => ! (x.pass = pass && x.tile = tile)) }
      .next (noteConds (unreserve (setPass s1 pass { p with finished := p.finished + 1 }) p.org.part (tileKib p.desc)))
  | _, _ => .next s

/-- RENDER_PASS_COMPLETE (06 R256): every tile has stored its planes and every tensor work item of the pass has completed; the result
record is written, and the pass ends. -/
def execRenderPassComplete (pass : Nat) (s : State) : Host.Outcome State Fault Refusal :=
  match passOf s pass with
  | none => .next s
  | some p =>
    if p.step ≠ .tiles || p.finished < passTiles p.desc || itemsOpen s p.org.wid || ! ctxLive s p.org.ctx then .next s
    else match writeResult s p Cond.ok with
      | (s1, none) => .next (settle (finish (dropPass s1 pass p) p.org.wid 0))
      | (s1, some f) => .next (settle (engineFault s1 p.org Engine.gantry f))

/-! Preemption (06 R258). -/

/-- A preemption of a pass's tiles on a core was asked for. -/
def tileAsked (s : State) (core pass : Nat) (p : RPass) : Bool :=
  s.sched.stopOps.contains (Engine.core core, pass) || s.sched.stopCtx.contains (Engine.core core, p.org.ctx)

/-- No read of a group that stays inside the device is outstanding, and no copy (04 R165, 05 R205). -/
def drained (g : Group) : Bool :=
  g.copies.isEmpty && g.reads.all (fun r => r.host || r.peer)

/-- A tile and its groups leave the core for the save pool (06 R258). -/
def saveTile (s : State) (core : Nat) (p : RPass) (t : TileSt) : State :=
  let mine := fun (w : WG) => w.stage = .fragment && w.job = t.pass && w.index = t.tile
  let c := coreOf s core
  let ws := c.wgs.filter mine
  let s1 := setCoreOf s core { c with wgs := c.wgs.filter (fun w => ! mine w),
                                      tiles := c.tiles.filter (fun x => ! (x.pass = t.pass && x.tile = t.tile)) }
  let s2 := countPreempt s1 p.org
  let (s3, a) := saveUnit s2 p.org (Engine.core core) (pBanks p.desc * 32768 + 256)
  match passOf s3 t.pass with
  | some p1 => setPass s3 t.pass { p1 with
      preempts := p1.preempts + 1, readyAt := s3.dtime, savedTiles := p1.savedTiles ++ [({ t with saved := some (a, s3.dtime) }, ws)] }
  | none => s3

/-- TILE_PHASE_PREEMPTION (06 R258): asked for, a core hands out no more fragments of a pass; once the groups' reads inside the device
have drained, each tile in progress is saved whole. -/
def execTilePhasePreemption (pass : Nat) (core : CoreId) (s : State) : Host.Outcome State Fault Refusal :=
  let n := core.toNat
  match passOf s pass with
  | none => .next s
  | some p =>
    let tiles := (coreOf s n).tiles.filter (fun t => t.pass = pass && ! t.ended)
    let gs := (coreOf s n).wgs.filter (fun w => w.stage = .fragment && w.job = pass) |>.flatMap (fun w => w.groups)
    if tileAsked s n pass p && gs.all drained then
      .next (noteConds (stopMade (tiles.foldl (fun s t => saveTile s n p t) s) (Engine.core n) pass))
    else .next s

/-- A saved tile resumes on a core that has a slot, banks and registers for it (06 R258). -/
def resumeTile (s : State) (core pass tile : Nat) : State :=
  match passOf s pass with
  | none => s
  | some p =>
    match p.savedTiles.find? (fun x => x.1.tile = tile) with
    | none => s
    | some (t, ws) =>
      let kib := tileKib p.desc + (ws.map (fun w => saveKib (wgSaveBytes w))).foldl (· + ·) 0
      let s0 := unreserve s p.org.part kib
      let use := (List.range 4).map (pathUse (coreOf s core))
      let paths := ws.foldl (fun (a : Option (List (Nat × Nat) × List WG)) w =>
        a.bind (fun x => (choosePath x.1 w.regs).map (fun q =>
          (lupd x.1 q (fun y => (y.1 + 1, y.2 + w.regs)),
            x.2 ++ [{ w with placedAt := s.dtime, groups := w.groups.map (fun g => { g with path := q, stopping := false }) }]))))
        (some (use, []))
      match tilePlace s core p, paths with
      | some bank, some (_, ws1) =>
        if ! mayPlace s0 p.org.ctx kib || ! tileSlot s core p || ! coreLive s core then s
        else
          let s1 := takeBanks (reserve (chargeStart s0 p.org.ctx p.readyAt t.saved) p.org.part kib) core (bank * 32) (t.banks * 32)
          let s2 := match t.saved with
            | some (a, _) => restoreUnit s1 p.org (Engine.core core) a (pBanks p.desc * 32768 + 256)
            | none => s1
          let c := coreOf s2 core
          let s3 := setCoreOf s2 core { c with
            tiles := c.tiles ++ [{ t with bank := bank, placedAt := s.dtime, saved := none }], wgs := c.wgs ++ ws1 }
          match passOf s3 pass with
          | some p1 => setPass s3 pass { p1 with savedTiles := p1.savedTiles.filter (fun x => x.1.tile ≠ tile) }
          | none => s3
      | _, _ => s

end Sys2Proof.Machine
end

