-- ==== Sys2Proof/Machine/CoreMem.lean ====
section
/-! DEFINITION. The memory accesses of core programs: pointers (05 R187, R190, R191), the checks of an instruction (04 R140, R159;
08 R315 to R317), reads on their way (04 R144, R148; 08 R321, R330) and their delivery (04 R159, R166). -/
namespace Sys2Proof.Machine

/-! The end of a workgroup. -/

/-- A workgroup that is over leaves its core; its job counts it (10 R420, 04 R122). -/
def settleWG (s : State) (core wgid : Nat) : State :=
  match (coreOf s core).wgs.find? (fun w => w.wgid = wgid) with
  | none => s
  | some w =>
    if ! wgOver w then s
    else
      let s1 := leaveWG s core w
      if w.stage = .fragment then s1
      else match jobOf s1 w.job with
        | some j => settleJob (setJob s1 w.job { j with done := j.done + 1 }) w.job
        | none => s1

/-- Every workgroup of a core that is over leaves it. -/
def settleCore (s : State) (core : Nat) : State :=
  (coreOf s core).wgs.foldl (fun s w => settleWG s core w.wgid) s

/-! Sources and pointers. -/

/-- The 32-bit value of a source for a thread. -/
def srcVal (g : Group) (t : Nat) (a : Src) : Nat :=
  match a with
  | .reg r => (regRd g t r).toNat
  | .lit v => v % 2 ^ 32

/-- The value of a source of `w` bits. -/
def srcWide (g : Group) (t w : Nat) (a : Src) : Nat :=
  match a with
  | .reg r => if w ≤ 32 then (regRd g t r).toNat % 2 ^ w else regRd64 g t r
  | .lit v => v % 2 ^ w

/-- The registers that a source of `w` bits takes. -/
def srcUses (w : Nat) (a : Src) : List Nat :=
  match a with
  | .reg r => if w ≤ 32 then [r] else [r, r + 1]
  | .lit _ => []

/-- The registers of a pointer. -/
def ptrUses (p : MemPtr) : List Nat :=
  match p with
  | .va r => [r, r + 1]
  | .buffer _ _ off => srcUses 32 off
  | .shared off => srcUses 32 off
  | .tile off => srcUses 32 off

def sizeOf (z : MemSize) : Nat :=
  match z with
  | .b1 => 1
  | .b2 => 2
  | .b4 => 4
  | .b8 => 8
  | .b16 => 16

/-- The draw of a fragment group. -/
def drawOfGroup (s : State) (core : Nat) (w : WG) (gid : Nat) : List Byte :=
  match passOf s w.job, tileOfWG s core w with
  | some p, some t => match t.frags.find? (fun f => f.gid = gid) with
    | some f => drawAt p f.draw
    | none => []
  | _, _ => []

/-- The binding table and the push constants of a workgroup (05 R190; 06 R213, 10 R420). -/
def bindOf (s : State) (core : Nat) (w : WG) (gid : Nat) : Nat × Nat :=
  if w.stage = .fragment then (fAt (drawOfGroup s core w gid) 0x28 47 0, fAt (drawOfGroup s core w gid) 0x30 47 0)
  else match jobOf s w.job with
    | some j => (j.bind, j.push)
    | none => (0, 0)

/-- The entry of a binding in the table (05 R190). -/
def bindEntry (s : State) (core : Nat) (w : WG) (gid set binding : Nat) : Nat :=
  (bindOf s core w gid).1 + 32 * (64 * set + binding)

/-- Reads bytes of a table of the context for a core, as one access of the group. -/
def coreRead (s : State) (core : Nat) (w : WG) (va n : Nat) : State × (XFault ⊕ List Byte) :=
  engineRead s (benchOf core) (.ctx w.org.ctx) .read va n (.fail .unsupported)

/-- What a pointer adds to: the address and size of a buffer binding (05 R190); nothing for the others. -/
def ptrBase (s : State) (core : Nat) (w : WG) (gid : Nat) (p : MemPtr) : State × (XFault ⊕ (Nat × Nat)) :=
  match p with
  | .buffer set binding _ =>
    match coreRead s core w (bindEntry s core w gid set binding) 32 with
    | (s1, .inl f) => (s1, .inl f)
    | (s1, .inr b) => (s1, .inr (fAt b 0 47 0, fAt b 8 31 0))
  | _ => (s, .inr (0, 0))

/-- Where an access of a thread goes: beyond its binding's size, a device virtual address, or a byte of the local store. -/
inductive Target where
  | beyond
  | dev (va : Nat)
  | share (off : Nat)
  | tileAt (off : Nat)
  deriving DecidableEq, Repr

/-- The target of `n` bytes at a pointer of a thread (05 R191). -/
def targetOf (g : Group) (t n : Nat) (p : MemPtr) (base : Nat × Nat) : Target :=
  match p with
  | .va r => .dev (regRd64 g t r % 2 ^ 48)
  | .buffer _ _ off => if srcVal g t off + n ≤ base.2 then .dev ((base.1 + srcVal g t off) % 2 ^ 48) else .beyond
  | .shared off => .share (srcVal g t off)
  | .tile off => .tileAt (srcVal g t off)

/-- Threads of the current set with their targets. -/
def targetsOf (g : Group) (n : Nat) (p : MemPtr) (base : Nat × Nat) : List (Nat × Target) :=
  (threadsOf g.cur.mask).map (fun t => (t, targetOf g t n p base))

/-! The checks of an access. -/

/-- Why a thread's access faults: the condition code, the fault address and byte 59 of the record (04 R160, R161). -/
structure TFault where
  code : Nat
  fault : Nat
  what : Nat
  deriving DecidableEq, Repr

/-- The bytes of the tile buffer allocated to a fragment group's pass (04 R140). -/
def tileLimit (s : State) (core : Nat) (w : WG) : Nat :=
  match tileOfWG s core w with
  | some t => t.banks * 32768
  | none => 0

/-- The check of one access before its translation: steps 1 to 3 of 08 R315, the allocations of 04 R140, and a route to a peer. -/
def accessFault (s : State) (core : Nat) (w : WG) (a : Acc) (n : Nat) (x : Target) : Option TFault :=
  match x with
  | .beyond => none
  | .share off => if w.sharedKib * 1024 < off + n then some { code := Cond.localBound, fault := off, what := 0 } else none
  | .tileAt off => if tileLimit s core w < off + n then some { code := Cond.localBound, fault := off, what := 1 } else none
  | .dev va =>
    match segStep s (.ctx w.org.ctx) a va with
    | .inl f => some { code := f.code, fault := va, what := 0 }
    | .inr (_, g) =>
      if va % n ≠ 0 then some { code := Cond.segAlign, fault := va, what := 0 }
      else match g.kind with
        | .peer => if (routeOf s g.device).isNone then some { code := Cond.linkDown, fault := va, what := 0 } else none
        | .model => match xlate s (benchOf core) (.ctx w.org.ctx) a va n with
          | (_, .inl f) => some { code := f.code, fault := va, what := 0 }
          | (_, .inr _) => none
        | _ => none

/-- The faults of the threads of an instruction, lowest thread first. -/
def accessFaults (s : State) (core : Nat) (w : WG) (a : Acc) (n : Nat) (l : List (Nat × Target)) : List (Nat × TFault) :=
  l.filterMap (fun e => (accessFault s core w a n e.2).map (fun f => (e.1, f)))

/-- One record for the faulting threads: the code and address are the lowest thread's (04 R159, log 35). -/
def raiseFaults (s : State) (core : Nat) (w : WG) (g : Group) (l : List (Nat × TFault)) : State :=
  match l with
  | [] => s
  | (_, f) :: _ => coreFaultAt s core w g f.code f.fault (maskOf (l.map (fun e => e.1))) f.what 0

/-! Delivery. -/

/-- Bytes of a read as registers: the value zero-extended to whole registers. -/
def writeRead (g : Group) (r : PendRead) : Group :=
  regWrN g r.thread r.dest (regsOfSize r.size) (leNat (r.got.getD []))

/-- The reads of an instruction are written to their registers once every one of them has arrived (04 R159). -/
def finishReads (g : Group) (tag : Nat) : Group :=
  let mine := g.reads.filter (fun r => r.tag = tag)
  if mine.all (fun r => r.got.isSome) then
    mine.foldl writeRead { g with reads := g.reads.filter (fun r => r.tag ≠ tag) }
  else g

/-- Data of a thread's read arrives at its group. -/
def takeRead (g : Group) (tag thread : Nat) (bs : List Byte) : Group :=
  finishReads { g with reads := g.reads.map (fun r =>
    if r.tag = tag && r.thread = thread && r.got.isNone then { r with got := some (bs.take r.size) } else r) } tag

/-- A workgroup with one of its groups, if it has it, after `f`. -/
def inGroup (gid : Nat) (f : Group → Group) (w : WG) : WG :=
  { w with groups := w.groups.map (fun g => if g.gid = gid then f g else g) }

/-- Data of a read arrives at its group, on its core or saved (04 R166). -/
def deliverRead (s : State) (core gid tag thread : Nat) (bs : List Byte) : State :=
  settleCore (mapWGs s (inGroup gid (fun g => takeRead g tag thread bs))) core

/-- Every workgroup, on a core or saved. -/
def everyWG (s : State) : List WG :=
  s.core.cores.flatMap (fun c => c.2.wgs) ++ s.core.jobs.flatMap (fun j => j.2.saved) ++
    s.raster.passes.flatMap (fun p => p.2.savedTiles.flatMap (fun t => t.2))

/-- A group wherever it is. -/
def groupOf (s : State) (gid : Nat) : Option (WG × Group) :=
  (everyWG s).findSome? (fun w => (w.groups.find? (fun g => g.gid = gid)).map (fun g => (w, g)))

/-- Reads fault at delivery (04 R159, R163): one record for each group, which names its threads; a group already stopped by a kill
writes none (R162). -/
def faultReads (s : State) (l : List (Waiter × XFault)) : State :=
  ((l.map (fun e => e.1.group)).eraseDups).foldl (fun t gid =>
    let mine := l.filter (fun e => e.1.group = gid)
    match mine, groupOf s gid with
    | (w0, f0) :: _, some (w, g) =>
      if ctxLive s w.org.ctx then
        settle (coreFault t w0.core w g f0.code w0.va (maskOf (mine.map (fun e => e.1.thread))))
      else t
    | _, _ => t) s

/-! Reads on their way to a slice (04 R144, R148; 08 R330). -/

def missOf (s : State) (sl : Nat) : List MissReg :=
  mgetD s.mem.miss sl []
def setMiss (s : State) (sl : Nat) (l : List MissReg) : State :=
  setMem s { s.mem with miss := msetD s.mem.miss sl l [] }
def inputOf (s : State) (sl : Nat) : List Waiter :=
  mgetD s.mem.input sl []
def setInput (s : State) (sl : Nat) (l : List Waiter) : State :=
  setMem s { s.mem with input := msetD s.mem.input sl l [] }

/-- A sector serves a read: L1 takes it where the read allocates there, and the bytes go to the thread. -/
def serveRead (s : State) (w : Waiter) (sec : List Byte) : State :=
  let s1 := if w.allocL1 && (groupOf s w.group).isSome then l1Put s w.core (w.mem / 64) sec else s
  deliverRead s1 w.core w.group w.tag w.thread (slice sec (w.mem % 64) w.size)

/-- A read that neither L1 nor its slice can serve joins the miss register of its line, takes a free one, or waits at the slice's
input (08 R330). -/
def missRead (s : State) (w : Waiter) : State :=
  let sl := homeSlice w.mem
  let line := w.mem / 128
  let h := w.mem / 64 % 2
  let l := missOf s sl
  match l.find? (fun m => m.line = line) with
  | some m =>
    if m.waiters.length < 17 then
      setMiss s sl (l.map (fun x => if x.line = line then { x with want := lset x.want h true, waiters := x.waiters ++ [w] } else x))
    else setInput s sl (inputOf s sl ++ [w])
  | none =>
    if l.length < 64 then setMiss s sl (l ++ [{ line := line, want := lset [false, false] h true, waiters := [w] }])
    else setInput s sl (inputOf s sl ++ [w])

/-- A translated read is served by L1, by its slice or its eviction buffer, or misses (04 R144, R148; 08 R330). -/
def issueRead (s : State) (w : Waiter) : State :=
  match (if w.useL1 then l1Find (coreOf s w.core) (w.mem / 64) else none) with
  | some l => deliverRead s w.core w.group w.tag w.thread (slice l.bytes (w.mem % 64) w.size)
  | none =>
    match cachedSector s w.mem with
    | some sec =>
      let s1 := match findWay s (w.mem / 128) with
        | some i => touch s (setIdx (w.mem / 128)) i
        | none => s
      serveRead s1 w sec
    | none =>
      match evSector s w.mem with
      | some sec => serveRead (countEvHit s) w sec
      | none => missRead s w

/-! Walks (08 R321). -/

def walksOf (s : State) (cache : Nat) : List Walk :=
  mgetD s.mem.walks cache []
def setWalks (s : State) (cache : Nat) (l : List Walk) : State :=
  setMem s { s.mem with walks := msetD s.mem.walks cache l [] }

/-- A read waits for the walk of its frame, which starts where none is outstanding. -/
def joinWalk (s : State) (cache : Nat) (w : Waiter) : State :=
  let vf := w.va / 2 ^ 21
  let l := walksOf s cache
  if l.any (fun k => k.table = w.table && k.vframe = vf) then
    setWalks s cache (l.map (fun k => if k.table = w.table && k.vframe = vf then { k with waiters := k.waiters ++ [w] } else k))
  else setWalks s cache (l ++ [{ table := w.table, vframe := vf, waiters := [w] }])

/-- The frames of CLAIM segments that device targets name. -/
def claimFrames (s : State) (w : WG) (l : List (Nat × Target)) : List Nat :=
  (l.filterMap (fun e => match e.2 with
    | .dev va => match segStep s (.ctx w.org.ctx) .read va with
      | .inr (_, g) => if g.kind = .claim then some (va / 2 ^ 21) else none
      | .inl _ => none
    | _ => none)).eraseDups

/-- A walker is free for every further frame that the reads of an instruction miss (08 R321). -/
def walkersFree (s : State) (core : Nat) (w : WG) (l : List (Nat × Target)) : Bool :=
  let b := benchOf core
  let t := TableId.ctx w.org.ctx
  let new := (claimFrames s w l).filter (fun f =>
    (xfind s b t f).isNone && ! (walksOf s b).any (fun k => k.table = t && k.vframe = f))
  (walksOf s b).length + new.length ≤ 16

/-! The reads of an instruction. -/

/-- A tag that no outstanding read of the group has. -/
def newTag (g : Group) : Nat :=
  (g.reads.map (fun r => r.tag + 1)).foldl max 0

/-- The bytes of a workgroup's shared memory; those that nothing wrote are undefined (04 R138). -/
def sharedBytes (w : WG) (off n : Nat) : List Byte :=
  (List.range n).map (fun i => mgetD w.shared (off + i) (Config.undefByte w.seed (off + i)))

/-- The workgroup with bytes of its shared memory written. -/
def putShared (w : WG) (off : Nat) (bs : List Byte) : WG :=
  { w with shared := (bs.zip (List.range bs.length)).foldl (fun m e => mset m (off + e.2) e.1) w.shared }

/-- The bytes of a read that leaves nothing outstanding. -/
def localRead (s : State) (core : Nat) (w : WG) (n : Nat) (x : Target) : Option (List Byte) :=
  match x with
  | .beyond => some (zeroBytes n)
  | .share off => some (sharedBytes w off n)
  | .tileAt off => (tileOfWG s core w).map (fun t => tileBytes t off n)
  | .dev _ => none

/-- A translated read is issued, unless it meets a feed page, which diverts it (13 R567). -/
def sendRead (s : State) (w : Waiter) : State :=
  match landAt s w.table .read w.va w.size w.mem with
  | .inl f => faultReads s [(w, f)]
  | .inr _ => issueRead s w

/-- The kind of the segment at an address. -/
def kindAt (s : State) (w : WG) (va : Nat) : SegKind :=
  match findSeg (tableOf s (.ctx w.org.ctx)) va with
  | some (_, g) => g.kind
  | none => .none

/-- The record of a thread's read. -/
def pendRead (s : State) (core : Nat) (w : WG) (tag dest n : Nat) (e : Nat × Target) : PendRead :=
  { tag := tag, thread := e.1, dest := dest, size := n, va := match e.2 with
      | .dev va => va
      | _ => 0,
    host := match e.2 with
      | .dev va => kindAt s w va = .host
      | _ => false,
    peer := match e.2 with
      | .dev va => kindAt s w va = .peer
      | _ => false,
    got := localRead s core w n e.2 }

/-- A device read starts: it is issued where its frame's translation is cached, waits for a walk, leaves through a host window, or
leaves for a peer. -/
def startRead (s : State) (core : Nat) (w : WG) (gid tag n : Nat) (vol nt : Bool) (e : Nat × Target) : State :=
  match e.2 with
  | .dev va =>
    let t := TableId.ctx w.org.ctx
    let b := benchOf core
    let q : Waiter := { table := t, core := core, group := gid, tag := tag, thread := e.1, size := n, va := va, mem := 0,
                        useL1 := ! vol, allocL1 := ! vol && ! nt }
    match findSeg (tableOf s t) va with
    | none => s
    | some (_, g) => match g.kind with
      | .none => s
      | .host => emit s (.hostRead w.org.part (g.target + (va - g.base)) n)
      | .peer => (sendReq s opRead { newReq (.coreRead core gid tag e.1) w.org core g.device (g.target + (va - g.base)) va n with
          core := core, gid := gid } (n - 1) []).getD s
      | .claim => match xfind s b t (va / 2 ^ 21) with
        | some x => sendRead (xput s b x) { q with mem := x.frame + va % 2 ^ 21 }
        | none => joinWalk s b q
      | .model => match xlate s b t .read va n with
        | (s1, .inr (.mem a _)) => issueRead s1 { q with mem := a }
        | (s1, _) => s1
  | _ => s

end Sys2Proof.Machine
end

