-- ==== Sys2Proof/Machine/CoreCmds.lean ====
section
/-! DEFINITION. Memory instructions, barriers and group operations of core programs (04 R125 to R158; 05 R189; 06 R238), and the
returns of walks, fills and replies (04 R166; 08 R321, R330). -/
namespace Sys2Proof.Machine

/-! Reads. -/

/-- The reads of an instruction whose faults are none. -/
def startLoads (s : State) (n : Nat) (w : WG) (g : Group) (size dst : Nat) (vol nt : Bool) (l : List (Nat × Target)) : State :=
  let tag := newTag g
  let g1 := stepSet (countIssue { g with reads := g.reads ++ l.map (pendRead s n w tag dst size) })
  let s1 := setGroup s n w (finishReads g1 tag)
  l.foldl (fun s e => startRead s n w g.gid tag size vol nt e) s1

/-- LOAD (04 R144, R147, R148, R159, R166; 08 R321): every thread of the current set reads; `vol` is a Volatile load or one at a scope
above Workgroup with MakeVisible, `nt` a Nontemporal one. -/
def execLoad (core : CoreId) (group : Nat) (ptr : MemPtr) (size : MemSize) (dst : Nat) (vol nt : Bool) (s : State) :
    Host.Outcome State Fault Refusal :=
  let n := core.toNat
  let z := sizeOf size
  match readyGroup s n group (ptrUses ptr ++ (List.range (regsOfSize z)).map (dst + ·)) with
  | none => .next s
  | some (w, g) =>
    match ptrBase s n w group ptr with
    | (s1, .inl f) => .next (settle (coreXFault s1 n w g f g.cur.mask))
    | (s1, .inr base) =>
      let l := targetsOf g z ptr base
      match accessFaults s1 n w .read z l with
      | [] => if walkersFree s1 n w l then .next (startLoads s1 n w g z dst vol nt l) else .next s
      | fs => .next (settle (raiseFaults s1 n w g fs))

/-- The reads of a walk that succeeded go on to their slices; those of a walk that failed fault (08 R321). -/
def endWalk (s : State) (cache : Nat) (k : Walk) : State :=
  match findSeg (tableOf s k.table) (k.vframe * 2 ^ 21) with
  | none => faultReads s (k.waiters.map (fun w => (w, xfault Cond.segMiss w.va k.table .read none 0)))
  | some (_, g) =>
    match walkFrame s cache k.table g k.vframe with
    | (s1, .inl f) => faultReads s1 (k.waiters.map (fun w => (w, { f with va := w.va })))
    | (s1, .inr f) => k.waiters.foldl (fun s w => sendRead s { w with mem := f + w.va % 2 ^ 21 }) s1

/-- TRANSLATION_WALK (08 R321): the frame map read of the walk `i` of a translation cache returns. -/
def execTranslationWalk (cache : BitVec 4) (i : Nat) (s : State) : Host.Outcome State Fault Refusal :=
  match (walksOf s cache.toNat)[i]? with
  | some k => .next (endWalk (setWalks s cache.toNat ((walksOf s cache.toNat).eraseIdx i)) cache.toNat k)
  | none => .next s

/-- The sectors that a miss register wants have all been read. -/
def fillReady (s : State) (m : MissReg) : Bool :=
  [0, 1].all (fun h => ! lget m.want h false || (mget s.mem.filled (2 * m.line + h)).isSome)

/-- A sector that a fill has read enters the bench cache, unless a write has put it there meanwhile. -/
def installFill (s : State) (sector : Nat) : State :=
  match mget s.mem.filled sector with
  | some (.bytes bs) =>
    if (cachedSector s (sector * 64)).isSome || (evSector s (sector * 64)).isSome then s
    else installSector s (sector / 2) (sector % 2) bs false
  | _ => s

/-- What a fill gives a request that waits on it: data, or the fault of its sector (09 R354). -/
def fillFault (m : Map SectorData) (w : Waiter) : Option XFault :=
  match mget m (w.mem / 64) with
  | some (.lostTo o) => some { xfault Cond.memUncorr w.va w.table .read none 0 with mem := w.mem / 64 * 64, outcome := o }
  | _ => none

/-- The sector that serves a waiting request. -/
def fillBytes (s : State) (m : Map SectorData) (w : Waiter) : List Byte :=
  match cachedSector s w.mem with
  | some bs => bs
  | none => match evSector s w.mem with
    | some bs => bs
    | none => match mget m (w.mem / 64) with
      | some (.bytes bs) => bs
      | _ => zeroBytes 64

/-- A fill ends: its sectors are installed, the requests that wait on it are served or fault, and the requests at the slice's input
are taken again (08 R330). -/
def endFill (s : State) (sl : Nat) (m : MissReg) : State :=
  let got := s.mem.filled
  let s1 := (List.range 2).foldl (fun s h => if lget m.want h false then installFill s (2 * m.line + h) else s) s
  let s2 := setMiss s1 sl ((missOf s1 sl).filter (fun x => x.line ≠ m.line))
  let s3 := setMem s2 { s2.mem with filled := mkeep s2.mem.filled (fun k _ => k / 2 ≠ m.line) }
  let s4 := (m.waiters.filter (fun w => (fillFault got w).isNone)).foldl (fun s w => serveRead s w (fillBytes s got w)) s3
  let s5 := faultReads s4 (m.waiters.filterMap (fun w => (fillFault got w).map (fun f => (w, f))))
  (inputOf s5 sl).foldl issueRead (setInput s5 sl [])

/-- LINE_FILL (08 R330): the fill of a line returns to its miss register. -/
def execLineFill (slice : BitVec 5) (line : BitVec 30) (s : State) : Host.Outcome State Fault Refusal :=
  match (missOf s slice.toNat).find? (fun m => m.line = line.toNat) with
  | some m => if fillReady s m then .next (endFill s slice.toNat m) else .next s
  | none => .next s

/-- The read of a group through a host window that a reply answers. -/
def hostPend (s : State) (gid tag thread : Nat) : Option (WG × Group × PendRead) :=
  match groupOf s gid with
  | some (w, g) => (g.reads.find? (fun r => r.tag = tag && r.thread = thread && r.host && r.got.isNone)).map (fun r => (w, g, r))
  | none => none

/-- A reply of the host to a group's read, on its core or saved (04 R163, R166; 08 R326). -/
def hostReply (s : State) (core gid tag thread : Nat) (reply : HostRead) : State :=
  match hostPend s gid tag thread with
  | none => s
  | some (w, g, r) =>
    match reply with
    | .ok bs => deliverRead s core gid tag thread (padTo r.size bs)
    | .fail _ =>
      if ctxLive s w.org.ctx then settle (coreFault s core w g Cond.hostWindowAbort r.va (2 ^ thread)) else s

/-- REPLY_DELIVERY (04 R163, R166). -/
def execReplyDelivery (core : CoreId) (group tag thread : Nat) (reply : HostRead) (s : State) : Host.Outcome State Fault Refusal :=
  .next (hostReply s core.toNat group tag thread reply)

/-! Stores and atomics. -/

/-- The translations of the device targets of an instruction, and their faults (08 R315). -/
def xlateTargets (s : State) (core : Nat) (w : WG) (a : Acc) (n : Nat) (l : List (Nat × Target)) :
    State × List (Nat × TFault) × List (Nat × Target × Loc) :=
  l.foldl (fun acc e =>
    match e.2 with
    | .dev va => match xlate acc.1 (benchOf core) (.ctx w.org.ctx) a va n with
      | (s1, .inl f) => (s1, acc.2.1 ++ [(e.1, { code := f.code, fault := va, what := 0 })], acc.2.2)
      | (s1, .inr x) => (s1, acc.2.1, acc.2.2 ++ [(e.1, e.2, x)])
    | _ => (acc.1, acc.2.1, acc.2.2 ++ [(e.1, e.2, .mem 0 0)])) (s, [], [])

/-- The sector that an access will need is fetched first, so that an instruction that faults writes nothing (04 R159). -/
def fetchFirst (s : State) (l : List (Nat × Target × Loc)) : State × List (Nat × TFault) :=
  l.foldl (fun acc e =>
    match e.2.1, e.2.2 with
    | .dev va, .mem a _ => match sectorIn acc.1 a with
      | (s1, .bytes _) => (s1, acc.2)
      | (s1, .lostTo _) => (s1, acc.2 ++ [(e.1, { code := Cond.memUncorr, fault := va, what := 0 })])
    | _, _ => acc) (s, [])

/-- The checks and translations of a store or atomic: its faults, or where each thread's bytes go. -/
def prepare (s : State) (core : Nat) (w : WG) (a : Acc) (n : Nat) (l : List (Nat × Target)) :
    State × List (Nat × TFault) × List (Nat × Target × Loc) :=
  match accessFaults s core w a n l with
  | f :: r => (s, f :: r, [])
  | [] =>
    match xlateTargets s core w a n l with
    | (s1, f :: r, _) => (s1, f :: r, [])
    | (s1, [], x) => match fetchFirst s1 x with
      | (s2, fs) => (s2, fs, x)

/-- Bytes written to the tile buffer of a fragment group's tile. -/
def putTile (s : State) (core : Nat) (w : WG) (off : Nat) (bs : List Byte) : State :=
  match tileOfWG s core w with
  | some t => setTile s core { t with tb := (bs.zip (List.range bs.length)).foldl (fun m e => mset m (off + e.2) e.1) t.tb }
  | none => s

/-- Bytes written to device memory by a core: its L1 copy is updated in the same instruction (04 R144). -/
def coreWrite (s : State) (core mem : Nat) (bs : List Byte) : State :=
  let (s1, _) := memWrite s mem bs
  setCoreOf s1 core (l1Store (coreOf s1 core) mem bs)

/-- The bytes of one thread's store; those for a peer leave together afterwards. -/
def storeOne (s : State) (core : Nat) (wgid : Nat) (e : Target × Loc) (bs : List Byte) : State :=
  match (coreOf s core).wgs.find? (fun w => w.wgid = wgid) with
  | none => s
  | some w =>
    match e.1 with
    | .beyond => s
    | .share off => setWG s core (putShared w off bs)
    | .tileAt off => putTile s core w off bs
    | .dev _ => match e.2 with
      | .mem a _ => coreWrite s core a bs
      | .host a _ => emit s (.hostWrite w.org.part a bs)
      | .peer _ _ _ => s

/-- The bytes for a peer's line, run by run: the stores of one instruction to one line form one WRITE where they adjoin
(14 R592, log 36). -/
def joinRuns (l : List (Nat × Nat × Nat × List Byte)) : List (Nat × Nat × Nat × List Byte) :=
  l.foldl (fun acc e =>
    match acc.getLast? with
    | some (d, a, va, bs) =>
      if d = e.1 && a + bs.length = e.2.1 && a / 128 = (e.2.1 + e.2.2.2.length - 1) / 128 then
        acc.dropLast ++ [(d, a, va, bs ++ e.2.2.2)]
      else acc ++ [e]
    | none => [e]) []

/-- Writes to peers leave, as requests of the group (14 R592). -/
def sendPeers (s : State) (core gid : Nat) (o : Origin) (l : List (Nat × Nat × Nat × List Byte)) : State :=
  claimReqs ((joinRuns l).foldl (fun s e => (peerWrite s 4 o.part o.ctx e.1 e.2.1 e.2.2.1 e.2.2.2).getD s) s) o
    (Engine.core core) core gid

/-- STORE (04 R144, R147, R150, R159, R191; 14 R592): the register `src` and those after it hold the data. -/
def execStore (core : CoreId) (group : Nat) (ptr : MemPtr) (size : MemSize) (src : Nat) (s : State) : Host.Outcome State Fault Refusal :=
  let n := core.toNat
  let z := sizeOf size
  match readyGroup s n group (ptrUses ptr ++ (List.range (regsOfSize z)).map (src + ·)) with
  | none => .next s
  | some (w, g) =>
    match ptrBase s n w group ptr with
    | (s1, .inl f) => .next (settle (coreXFault s1 n w g f g.cur.mask))
    | (s1, .inr base) =>
      match prepare s1 n w .write z (targetsOf g z ptr base) with
      | (s2, f :: r, _) => .next (settle (raiseFaults s2 n w g (f :: r)))
      | (s2, [], l) =>
        let data := fun (t : Nat) => (((List.range (regsOfSize z)).flatMap (fun i => leBytes 4 (regRd g t (src + i)).toNat))).take z
        let s3 := l.foldl (fun s e => storeOne s n w.wgid e.2 (data e.1)) (nextInstr s2 n w g)
        .next (sendPeers s3 n group w.org (l.filterMap (fun e => match e.2 with
          | (.dev va, .peer d a _) => some (d, a, va, data e.1)
          | _ => none)))

/-- The old value of a word that an atomic updates. -/
def atomOld (s : State) (core wgid : Nat) (e : Target × Loc) (n : Nat) : State × Nat :=
  match e.1, e.2 with
  | .dev _, .mem a _ => match memRead s a n with
    | (s1, .ok bs) => (s1, leNat bs)
    | (s1, .bad _ _) => (s1, 0)
  | .share off, _ => match (coreOf s core).wgs.find? (fun w => w.wgid = wgid) with
    | some w => (s, leNat (sharedBytes w off n))
    | none => (s, 0)
  | _, _ => (s, 0)

/-- The group's registers with a result of an instruction written at once. -/
def writeReg (s : State) (core gid t dst n x : Nat) : State :=
  match findGroup s core gid with
  | some (w, g) => setGroup s core w (regWrN g t dst n x)
  | none => s

/-- One update of an atomic instruction: the thread receives what the word held immediately before it (04 R152). -/
def atomStep (s : State) (core wgid gid : Nat) (f : AtomFn) (bits dst : Nat) (e : Nat × Target × Loc) (v c : Nat) : State :=
  match e.2.1 with
  | .beyond => writeReg s core gid e.1 dst (bits / 32) 0
  | _ =>
    let (s1, old) := atomOld s core wgid e.2 (bits / 8)
    let s2 := storeOne s1 core wgid e.2 (leBytes (bits / 8) (atomFn f bits old v c))
    writeReg s2 core gid e.1 dst (bits / 32) old

/-- The largest number of times that one element stands in a list. -/
def mostEqual (l : List Nat) : Nat :=
  (l.map (fun a => l.count a)).foldl max 0

/-- Passes beyond the first for each sector of device memory, and for each quarter of 16 threads of shared memory (04 R155 to R158). -/
def extraPasses (combined : Bool) (bytes : Nat) (l : List (Nat × Target × Loc)) : Nat :=
  if combined then 0
  else
    let dev := l.filterMap (fun e => match e.2 with
      | (.dev _, .mem a _) => some a
      | _ => none)
    let sh := l.filterMap (fun e => match e.2.1 with
      | .share off => some (e.1 / 16, off / bytes)
      | _ => none)
    (((dev.map (· / 32)).eraseDups).map (fun q => mostEqual (dev.filter (fun a => a / 32 = q)) - 1)).foldl (· + ·) 0 +
      ([0, 1, 2, 3].map (fun q => mostEqual ((sh.filter (fun e => e.1 = q)).map (fun e => e.2)) - 1)).foldl (· + ·) 0

/-- The atomics of a workgroup run in compatibility mode (04 R154). -/
def compatOf (s : State) (w : WG) : Bool :=
  match w.stage, jobOf s w.job with
  | .fragment, _ => atomicCompat s w.modKey
  | _, some j => j.compat
  | _, none => false

/-- ATOMIC (04 R151 to R158, R191): `val` and `cmp` are the registers of the operand and of a comparand; 64 bits where `wide`. -/
def execAtomic (core : CoreId) (group : Nat) (ptr : MemPtr) (f : AtomFn) (wide : Bool) (dst val cmp : Nat) (s : State) :
    Host.Outcome State Fault Refusal :=
  let n := core.toNat
  let bits := if wide then 64 else 32
  let rs := fun (r : Nat) => (List.range (bits / 32)).map (r + ·)
  match readyGroup s n group (ptrUses ptr ++ rs dst ++ rs val ++ rs cmp) with
  | none => .next s
  | some (w, g) =>
    match ptrBase s n w group ptr with
    | (s1, .inl x) => .next (settle (coreXFault s1 n w g x g.cur.mask))
    | (s1, .inr base) =>
      match prepare s1 n w .atomic (bits / 8) (targetsOf g (bits / 8) ptr base) with
      | (s2, x :: r, _) => .next (settle (raiseFaults s2 n w g (x :: r)))
      | (s2, [], l) =>
        let k := extraPasses (compatOf s w && atomCombines f) (bits / 8) l
        let s3 := if k = 0 then s2 else bump64 s2 Reg.coreAtomicSerialCount Reg.coreStatus 1 k
        .next (l.foldl (fun s e => atomStep s n w.wgid group f bits dst e (srcWide g e.1 bits (.reg val)) (srcWide g e.1 bits (.reg cmp)))
          (nextInstr s3 n w g))

/-! The memory model (04 R145, R146). -/

/-- The scope's action reaches L1. -/
def scopeDevice (sc : MemScope) : Bool :=
  match sc with
  | .queueFamily => true
  | .device => true
  | .crossDevice => true
  | _ => false

/-- The zero-length read of a CrossDevice release, which holds the threads until it returns (04 R146). -/
def zeroRead (s : State) (n : Nat) (w : WG) (g : Group) : State :=
  let tag := newTag g
  let t := (threadsOf g.cur.mask).headD 0
  let r : PendRead := { tag := tag, thread := t, dest := 0, size := 0, va := 0, host := true, peer := false, got := none }
  emit (setGroup s n w { g with reads := g.reads ++ [r] }) (.hostRead w.org.part 0 0)

/-- MEMORY_BARRIER (04 R145, R146, R149): stores and atomics of a core have reached their home slices when they are made, so a release
at Device scope waits for nothing; one at CrossDevice scope waits for the acknowledgements of writes to peers, and then for the
zero-length read. -/
def execMemoryBarrier (core : CoreId) (group : Nat) (release acquire : Bool) (scope : MemScope) (s : State) :
    Host.Outcome State Fault Refusal :=
  let n := core.toNat
  match readyGroup s n group [] with
  | none => .next s
  | some (w, g) =>
    if release && scope = .crossDevice && awaitsAck s n group then .next s
    else
      let g1 := countIssue g
      let s1 := if release && scope = .crossDevice then zeroRead s n w (stepSet g1) else setGroup s n w (stepSet g1)
      .next (if acquire && scopeDevice scope then l1Clear s1 n else s1)

/-- OP_READ_CLOCK_KHR (05 R189): DTIME at Device scope, the core's TCLK count at Subgroup scope. -/
def execOpReadClockKhr (core : CoreId) (group : Nat) (device : Bool) (dst : Nat) (s : State) : Host.Outcome State Fault Refusal :=
  let n := core.toNat
  match readyGroup s n group [dst, dst + 1] with
  | none => .next s
  | some (w, g) => .next (nextInstr s n w (regAll g g.cur.mask dst 2 (if device then s.dtime else coreClock s n)))

/-! Barriers (04 R132, R133). -/

/-- Every unexited thread of a workgroup waits at the barrier. -/
def barrierMet (w : WG) : Bool :=
  w.groups.all (fun g => (setsOf g).all (fun c => c.wait = .barrier))

/-- The threads of a group that wait at the barrier form one set, which goes on (04 R132). -/
def openBarrier (g : Group) : Group :=
  match lowest (setsOf g) with
  | some c => { g with cur := { pc := c.pc + 1, mask := unexited g, wait := .run }, others := [], count := 0 }
  | none => g

/-- A workgroup after an arrival or an exit: its barrier completes once every unexited thread waits at it. -/
def settleBarrier (w : WG) : WG :=
  if barrierMet w then { w with groups := w.groups.map openBarrier } else w

/-- Every unexited thread of a group waits at a Subgroup barrier: they are one set again, where they stand (04 R133). -/
def openSubgroup (g : Group) : Group :=
  let l := setsOf g
  if ! l.isEmpty && l.all (fun c => c.wait = .subgroup) then
    match lowest l with
    | some c => { g with cur := { pc := c.pc, mask := unexited g, wait := .run }, others := [], count := 0 }
    | none => g
  else g

/-- WORKGROUP_BARRIER (04 R132). -/
def execWorkgroupBarrier (core : CoreId) (group : Nat) (s : State) : Host.Outcome State Fault Refusal :=
  let n := core.toNat
  match readyGroup s n group [] with
  | none => .next s
  | some (w, g) => .next (setWG s n (settleBarrier (putGroup w (waitSet (countIssue g) .barrier))))

/-- The current set holds every unexited thread of its group, others of which may wait at the same Subgroup barrier: the group with them
joined (04 R133, R134). -/
def joinSubgroup (g : Group) : Option Group :=
  if g.others.all (fun c => c.mask = 0 || c.wait = .subgroup) then
    some { g with cur := { g.cur with mask := unexited g }, others := [] }
  else none

/-- SUBGROUP_BARRIER (04 R133). -/
def execSubgroupBarrier (core : CoreId) (group : Nat) (s : State) : Host.Outcome State Fault Refusal :=
  let n := core.toNat
  match readyGroup s n group [] with
  | none => .next s
  | some (w, g) =>
    match joinSubgroup g with
    | some g1 => .next (nextInstr s n w g1)
    | none => .next (setGroup s n w (waitSet (countIssue g) .subgroup))

/-! Group operations (04 R134). -/

/-- The starting value of a reduction. -/
def unitOf (f : IntFn) : Nat :=
  match f with
  | .mul => 1
  | .and => 2 ^ 32 - 1
  | .umin => 2 ^ 32 - 1
  | .smin => 2 ^ 31 - 1
  | .smax => 2 ^ 31
  | _ => 0

/-- A reduction over threads in thread order. -/
def reduceOver (f : IntFn) (g : Group) (a : Src) (l : List Nat) : Nat :=
  l.foldl (fun x t => intFn f 32 x (srcVal g t a)) (unitOf f)

/-- Ballot bits: thread i in bit i (04 R134). -/
def ballotOf (g : Group) (a : Src) : Nat :=
  maskOf ((threadsOf g.cur.mask).filter (fun t => srcVal g t a ≠ 0))

/-- The results of a group operation for the threads of the current set; a thread that none of them defines is free. -/
def groupResult (f : GroupFn) (g : Group) (a b : Src) (free : Nat) (t : Nat) : Nat :=
  let ts := threadsOf g.cur.mask
  match f with
  | .elect => b2n (ts.headD 64 = t)
  | .ballot => ballotOf g a
  | .all => b2n (ts.all (fun x => srcVal g x a ≠ 0))
  | .any => b2n (ts.any (fun x => srcVal g x a ≠ 0))
  | .broadcast lane => if ts.contains lane then srcVal g lane a else free
  | .shuffle => if ts.contains (srcVal g t b) then srcVal g (srcVal g t b) a else free
  | .reduce op => reduceOver op g a ts
  | .scan op excl => reduceOver op g a (ts.filter (fun x => x < t || (x = t && ! excl)))
  | .other _ => free

/-- Result registers of a group operation: a ballot fills four, bits 64 to 127 zero. -/
def groupRegs (f : GroupFn) : Nat :=
  match f with
  | .ballot => 4
  | .other n => n
  | _ => 1

/-- GROUP_OPERATION (04 R134): a non-uniform one acts on the threads of the current set; a uniform one waits as at a Subgroup barrier
until one set holds every unexited thread. -/
def execGroupOperation (core : CoreId) (group : Nat) (f : GroupFn) (uniform : Bool) (dst : Nat) (a b : Src) (s : State) :
    Host.Outcome State Fault Refusal :=
  let n := core.toNat
  match readyGroup s n group (srcUses 32 a ++ srcUses 32 b ++ (List.range (groupRegs f)).map (dst + ·)) with
  | none => .next s
  | some (w, g) =>
    match (if uniform then joinSubgroup g else some g) with
    | none => .next (setGroup s n w (waitSet (countIssue g) .subgroup))
    | some g1 =>
      let (x, s1) := draw s
      .next (nextInstr s1 n w ((threadsOf g1.cur.mask).foldl (fun h t =>
        regWrN h t dst (groupRegs f) (groupResult f g1 a b (Config.freeNat (x + t)) t)) g1))

/-! Turns (04 R127). -/

/-- ROTATION (04 R127, R131): the current set has issued ROTATE_LIMIT instructions; the next eligible set becomes current. A switch
to another set is counted. -/
def execRotation (core : CoreId) (group : Nat) (s : State) : Host.Outcome State Fault Refusal :=
  match findGroup s core.toNat group with
  | none => .next s
  | some (w, g) =>
    if g.count < rotateLimit s then .next s
    else
      let g1 := switchSet g
      let s1 := setGroup s core.toNat w { g1 with count := 0 }
      .next (if g1.cur = g.cur then s1 else bump64 s1 Reg.coreRotateCount Reg.coreStatus 0 1)

/-! The raster-order interlock (06 R238, R240). -/

/-- A thread may enter its critical section: every earlier fragment that covers the same pixel, or a sample of it, has retired. -/
def mayEnter (t : TileSt) (mode gid thread : Nat) : Bool :=
  match fragOf t gid thread with
  | none => true
  | some f => f.helper || t.frags.all (fun g =>
      ! (g.order < f.order && g.x = f.x && g.y = f.y && ! g.helper && (mode = 1 || Nat.land g.cover f.cover ≠ 0)))

/-- BEGIN_INVOCATION_INTERLOCK (06 R238, R240): threads that may enter go on; the others form a set that waits. -/
def execBeginInvocationInterlock (core : CoreId) (group : Nat) (s : State) : Host.Outcome State Fault Refusal :=
  let n := core.toNat
  match readyGroup s n group [] with
  | none => .next s
  | some (w, g) =>
    match tileOfWG s n w, entryOf s w.modKey w.entry with
    | some t, some e =>
      let go := (threadsOf g.cur.mask).filter (mayEnter t e.interlock group)
      let stay := (threadsOf g.cur.mask).filter (fun x => ! go.contains x)
      let g1 := countIssue g
      if e.interlock = 0 || stay.isEmpty then .next (nextInstr s n w g)
      else if go.isEmpty then .next (setGroup s n w (waitSet g1 .interlock))
      else .next (setGroup s n w (mergeSets { g1 with
        cur := { g1.cur with pc := g1.cur.pc + 1, mask := maskOf go },
        others := g1.others ++ [{ pc := g1.cur.pc, mask := maskOf stay, wait := .interlock }] }))
    | _, _ => .next s

end Sys2Proof.Machine
end

