-- ==== Sys2Proof/Machine/HaulBase.lean ====
section
/-! DEFINITION. The ends of firmware operations (16 R666) and the requests of the firmware haul (16 R670, 14 R604). -/
namespace Sys2Proof.Machine

/-- The state with Keystone replaced. -/
def setSec (s : State) (x : SecSt) : State :=
  { s with sec := x }

/-- FW_STATUS.CODE names the last failure. -/
def setCode (s : State) (code : Nat) : State :=
  wrF s Reg.fwStatus 31 16 code

/-- An operation ends with a result, and CODE (16 R666, R674). -/
def fwEnd (s : State) (result code : Nat) : State :=
  let s1 := wrF (wrF s Reg.fwStatus 0 0 0) Reg.fwStatus 15 8 result
  if result = 0 then s1 else setCode s1 code

def haulOn (s : State) : Bool := rdF s Reg.fwHaul 0 0 = 1
def parentPort (s : State) : Nat := rdF s Reg.fwHaul 3 2
def setHaulState (s : State) (n : Nat) : State := wrF s Reg.fwHaul 6 4 n
/-- The bytes of a haul block. -/
abbrev haulBlock : Nat := 65536

/-- HAUL_REQ for a block goes to the parent, where its port is UP. -/
def askBlock (s : State) (h : Haul) : State :=
  let s1 := setSec s { s.sec with haul := some { h with at_ := s.dtime } }
  if portState s1 (parentPort s1) = portUp then
    sendOn s1 (parentPort s1) 2 (msgHeader s1 opHaulReq (rdF s1 (Reg.linkPortStatus (parentPort s1)) 4 2) 0 0 0 h.block 0)
  else s1

/-- The haul ends with a result: ENABLE clears (16 R670). -/
def haulEnd (s : State) (result code : Nat) : State :=
  fwEnd (setSec (setHaulState (wrF s Reg.fwHaul 0 0 0) (if result = 0 then 4 else 5)) { s.sec with haul := none }) result code

/-- A write of 0 to ENABLE ends a haul, with no result (16 R670). -/
def haulOff (s : State) : State :=
  if haulOn s then setSec (setHaulState (wrF s Reg.fwHaul 0 0 0) 0) { s.sec with haul := none } else s

/-- A block is asked for again; after 8 attempts the haul fails (14 R604), and has no condition code to record (log 48). -/
def retryBlock (s : State) (h : Haul) : State :=
  if 7 ≤ h.tries then
    haulEnd s 9 0
  else askBlock s { h with tries := h.tries + 1 }

end Sys2Proof.Machine
end

