-- ==== Sys2Proof/Machine/LinkCmds.lean ====
section
/-! DEFINITION. Commands of the Baphor Link (14 R583 to R601): flits and their acknowledgement, lanes, training, messages at their
target and at their requester, timeouts and stalls. -/
namespace Sys2Proof.Machine

/-! Ports that go down, and requests that fail (14 R597, R601). -/

/-- The detail words of a request that failed for an engine other than a core (14 R597). -/
def reqDetail (r : LinkReq) (reason : Nat) : List Byte :=
  leBytes 1 reason ++ leBytes 1 r.device ++ leBytes 1 (r.port.getD 0xFF) ++ leBytes 1 r.attempts ++ zeroBytes 4 ++ leBytes 8 r.mem

/-- The reason that a REMOTE_FAULT carries, 0 for another failure (14 R597). -/
def refusal (w : ReadFail) : Nat :=
  match w with
  | .refused n => n
  | _ => 0

/-- A request is over. -/
def delReq (s : State) (tag : Nat) : State :=
  setLink s { s.link with reqs := mdel s.link.reqs tag }

/-- A request fails (14 R594, R597, R598): a read faults its thread, a write its context; an import has no effect. -/
def failReq (s : State) (tag : Nat) (r : LinkReq) (w : ReadFail) : State :=
  let s1 := delReq s tag
  if ! ctxLive s1 r.org.ctx then s1
  else match r.kind with
    | .imp => s1
    | .coreRead core gid t thread =>
      match groupOf s1 gid with
      | some (wg, g) =>
        if g.reads.any (fun q => q.tag = t && q.thread = thread && q.got.isNone) then
          settle (coreFault s1 core wg g (peerCond w) r.va (2 ^ thread))
        else s1
      | none => s1
    | .write =>
      if r.engine < 64 then
        match groupOf s1 r.gid with
        | some (wg, g) => settle (coreFault s1 r.engine wg g (peerCond w) r.va 0)
        | none => settle (raise s1 r.org (peerCond w) r.engine r.va [])
      else settle (failWork s1 r.org (peerCond w) r.engine r.va (reqDetail r (refusal w)))

/-- Every request that left on a port fails with LINK_DOWN (14 R601). -/
def failPort (s : State) (p : Nat) : State :=
  (s.link.reqs.filter (fun r => r.2.port = some p)).foldl (fun s r =>
    match mget s.link.reqs r.1 with
    | some q => failReq s r.1 q .linkDown
    | none => s) s

/-- A port enters a state; outside UP its width and neighbour read 0 (14 R607). One that leaves DOWN aborts an entry (15 R616). -/
def setPortState (s : State) (p st : Nat) : State :=
  let s0 := if portState s p = portDownCode && st != portDownCode then abortEntry s 3 else s
  let s1 := wrF s0 (Reg.linkPortStatus p) 1 0 st
  if st = portUp then s1 else wrF (wrF s1 (Reg.linkPortStatus p) 4 2 0) (Reg.linkPortStatus p) 13 10 0

/-- A port enters DOWN (14 R601): it is counted, its record is written, and what waits on it is lost. -/
def portDown (s : State) (p : Nat) : State :=
  let s1 := wrF (setPortState s p portDownCode) (Reg.linkPortCtl p) 1 1 0
  let s2 := setPort s1 p { portOf s1 p with want := false, step := .none, unacked := [], wait := [], rounds := 0, bursts := [] }
  let s3 := appendRec (bump32 s2 Reg.linkDownCount Reg.linkStatus 7 1) (plainRec s2 Cond.linkDown (Engine.link p) 0 flagInfo 0 [])
  failPort s3 p

/-! Acknowledgement and retransmission (14 R585). -/

/-- Flits up to the acknowledged one are dropped; an advance restarts the retry timer. -/
def takeAck (s : State) (p ack : Nat) : State :=
  let q := portOf s p
  if q.unacked.any (fun f => f.seq = ack) then
    pump (setPort s p { q with unacked := (q.unacked.dropWhile (fun f => f.seq ≠ ack)).drop 1, rounds := 0, ackAt := s.dtime }) p
  else s

/-- A retransmission round; after 16 without an advance the port retrains. -/
def resend (s : State) (p : Nat) : State :=
  let q := portOf s p
  if q.unacked.isEmpty then s
  else if 16 ≤ q.rounds then setPort s p { q with want := true, rounds := 0 }
  else
    let s1 := bump64 (setPort s p { q with rounds := q.rounds + 1, ackAt := s.dtime }) Reg.linkRetryCount Reg.linkStatus 0 1
    q.unacked.foldl (fun s f => emitFlit s p f) s1

/-- RETRY_TIMEOUT (14 R585). -/
def execRetryTimeout (port : BitVec 2) (s : State) : Host.Outcome State Fault Refusal :=
  let q := portOf s port.toNat
  if portState s port.toNat = portUp && ! q.unacked.isEmpty && due s q.ackAt (rdF s Reg.linkCfg 9 0) then
    .next (resend s port.toNat)
  else .next s

/-! Messages. -/

def mOp (m : List Byte) : Nat := fieldAt m 0 1
def mDest (m : List Byte) : Nat := fieldAt m 1 1
def mSrc (m : List Byte) : Nat := fieldAt m 2 1
def mHops (m : List Byte) : Nat := fieldAt m 3 1
def mPart (m : List Byte) : Nat := fieldAt m 4 1
def mStatus (m : List Byte) : Nat := fieldAt m 5 1
def mLen (m : List Byte) : Nat := fieldAt m 6 2 + 1
def mAddr (m : List Byte) : Nat := fAt m 8 36 0
def mTag (m : List Byte) : Nat := fieldAt m 16 4
def mEpoch (m : List Byte) : Nat := fieldAt m 20 4
def mData (m : List Byte) : List Byte := m.drop 32

/-- A message of at least a header. -/
def wholeMsg (m : List Byte) : Bool :=
  32 ≤ m.length

/-- A device passes on a message for another, by its own routes; the fourth forward, and one without a route, is dropped
(14 R589, log 39). -/
def forward (s : State) (m : List Byte) : State :=
  match routeOf s (mDest m), decide (mHops m < 3) with
  | some p, true => sendOn s p (vcOf (mOp m)) (m.take 3 ++ leBytes 1 (mHops m + 1) ++ m.drop 4)
  | _, _ => bump32 s Reg.linkHopDropCount Reg.linkStatus 6 1

/-- The reply to a message: its requester, partition, address and tag (14 R591). -/
def reply (s : State) (m : List Byte) (op status len : Nat) (data : List Byte) : State :=
  sendTo s (mSrc m) op (leBytes 1 op ++ leBytes 1 (mSrc m) ++ leBytes 1 (ownId s) ++ leBytes 1 0 ++ leBytes 1 (mPart m) ++
    leBytes 1 status ++ leBytes 2 len ++ slice m 8 8 ++ slice m 16 4 ++ zeroBytes 12 ++ data)

/-- A refused request is counted (14 R593). -/
def refuse (s : State) (m : List Byte) (op reason : Nat) : State :=
  reply (bump32 s Reg.linkRefuseCount Reg.linkStatus 3 1) m op reason 0 []

/-- A whole message has arrived (14 R593): one whose OP the target does not accept on channel 0 is refused here; others wait for
their command. -/
def takeWhole (s : State) (p vc : Nat) (m : List Byte) : State :=
  let s1 := snoopLink s p vc 0 m
  if ! wholeMsg m || 4 ≤ vc then s1
  else if vc = 0 && mOp m ≠ opRead && mOp m ≠ opWrite && mOp m ≠ opImport && mOp m ≠ opRelease then
    if mDest m = ownId s1 then refuse s1 m opReadReply 5 else forward s1 m
  else if vcOf (mOp m) ≠ vc then s1
  else setPort s1 p { portOf s1 p with inbox := (portOf s1 p).inbox ++ [(vc, m)] }

/-! Flits (14 R583 to R585, R600). -/

/-- The open bursts after a data flit, and the message it ends, if it ends one: the flit continues the latest burst of its
channel. -/
def joinBurst (s : State) (l : List Burst) (vc flags : Nat) (payload : List Byte) : List Burst × Option (List Byte) :=
  let first := flags % 2 = 1
  let last := flags / 2 % 2 = 1
  if first then
    if last then (l, some payload)
    else
      let full := 16 ≤ (l.filter (fun b => b.vc = vc && ! b.dead)).length
      ({ vc := vc, bytes := payload, since := s.dtime, dead := full } :: l.filter (fun b => ! (b.vc = vc && b.dead)), none)
  else
    match l.find? (fun b => b.vc = vc) with
    | none => (l, none)
    | some b =>
      let i := l.findIdx (fun b => b.vc = vc)
      if b.dead then (if last then l.eraseIdx i else l, none)
      else if last then (l.eraseIdx i, some (b.bytes ++ payload))
      else (lset l i { b with bytes := b.bytes ++ payload, since := s.dtime }, none)

/-- A data flit that is next in order is accepted and acknowledged (14 R585). -/
def acceptFlit (s : State) (p : Nat) (b : List Byte) : State :=
  let q := portOf s p
  let s1 := takeAck (setPort s p { q with rxNext := (q.rxNext + 1) % 4096 }) p (fieldAt b 2 2 % 4096)
  let vc := fieldAt b 4 1 % 8
  let (l, m) := joinBurst s1 (portOf s1 p).bursts vc (fieldAt b 5 1) (slice b 8 (min 240 (fieldAt b 6 2)))
  let s2 := emitAck (setPort s1 p { portOf s1 p with bursts := l }) p
  match m with
  | some m => takeWhole s2 p vc m
  | none => s2

/-- FLIT (14 R583 to R585): 256 bytes received on an UP port. -/
def execFlit (port : BitVec 2) (bytes : List Byte) (s : State) : Host.Outcome State Fault Refusal :=
  let p := port.toNat
  let b := padTo 256 bytes
  let kind := fieldAt b 0 2 / 4096
  if portState s p ≠ portUp then .next s
  else if crcOf crcFlit (b.take 248) ≠ fieldAt b 248 8 then .next (emitNak s p)
  else if kind = 0 then
    if fieldAt b 0 2 % 4096 = (portOf s p).rxNext then .next (acceptFlit s p b) else .next (emitNak s p)
  else if kind = 1 then .next (takeAck s p (fieldAt b 2 2 % 4096))
  else if kind = 2 then .next (resend (takeAck s p ((fieldAt b 2 2 + 4095) % 4096)) p)
  else .next (emitNak s p)

/-! Lanes (14 R586, R587). -/

/-- The lanes that carry data: the lowest `width` good lanes (14 R587). -/
def dataLanes (s : State) (p : Nat) : List Nat :=
  ((List.range 9).filter (fun i => bitN (portOf s p).good i)).take (rdF s (Reg.linkPortStatus p) 13 10)

/-- A lane leaves service; the lanes above it move up into the spare (14 R586). -/
def swapLane (s : State) (p lane : Nat) : State :=
  let q := portOf s p
  let s1 := setPort s p { q with good := q.good - (if bitN q.good lane then 2 ^ lane else 0) }
  let s2 := wrF (wrF s1 (Reg.linkPortStatus p) 5 5 1) (Reg.linkPortStatus p) 9 6 lane
  bump32 s2 Reg.linkLaneSwapCount Reg.linkStatus 1 1

/-- The lanes that reached the threshold in a window, one after the other. -/
def judgeLanes (s : State) (p : Nat) (l : List Nat) : State :=
  l.foldl (fun s lane =>
    if rdF s (Reg.linkPortStatus p) 5 5 = 0 then swapLane s p lane
    else setPort s p { portOf s p with want := true }) s

/-- SYMBOL_ERROR_WINDOW (14 R586): `errs` holds the symbol errors of each lane in the window. -/
def execSymbolErrorWindow (port : BitVec 2) (errs : List Nat) (s : State) : Host.Outcome State Fault Refusal :=
  let p := port.toNat
  let q := portOf s p
  if portState s p = portUp && due s q.winAt 1000000 then
    .next (judgeLanes (setPort s p { q with winAt := s.dtime }) p
      ((dataLanes s p).filter (fun i => rdF s Reg.linkCfg 41 34 ≤ lget errs i 0)))
  else .next s

/-! Training (14 R587). -/

/-- TRAINING (T1). -/
def execTraining (port : BitVec 2) (s : State) : Host.Outcome State Fault Refusal :=
  let p := port.toNat
  let q := portOf s p
  if q.want && rdF s (Reg.linkPortCtl p) 0 0 = 1 then
    .next (setPortState (setPort s p { q with
      want := false, again := portState s p = portUp, step := .t1, trainAt := s.dtime }) p portTraining)
  else .next s

/-- PRBS31_TEST (T2): `good` is the lanes without errors, as a mask. -/
def execPrbs31Test (port : BitVec 2) (good : BitVec 9) (s : State) : Host.Outcome State Fault Refusal :=
  let p := port.toNat
  let q := portOf s p
  if portState s p ≠ portTraining || q.step ≠ .t1 then .next s
  else if ((List.range 9).filter (fun i => good.getLsbD i)).length < 4 then .next (portDown s p)
  else .next (setPort s p { q with step := .t2, good := good.toNat })

/-- DEVICE_ID_EXCHANGE (T3). -/
def execDeviceIdExchange (port : BitVec 2) (id : BitVec 3) (s : State) : Host.Outcome State Fault Refusal :=
  let p := port.toNat
  let q := portOf s p
  if portState s p ≠ portTraining || q.step ≠ .t2 then .next s
  else if id.toNat = ownId s then .next (setPortState (setPort s p { q with step := .none }) p portConflict)
  else .next (setPort s p { q with step := .t3, ident := id.toNat })

/-- The status of a port that has trained: neighbour, spare, failed lane and width (14 R587, R607). -/
def trainedStatus (s : State) (p : Nat) : State :=
  let q := portOf s p
  let lanes := (List.range 9).filter (fun i => bitN q.good i)
  let w := if 8 ≤ lanes.length then 8 else 4
  let spare := (lanes.take w).contains 8
  let bad := ((List.range 9).filter (fun i => ! bitN q.good i)).head?
  let k := Reg.linkPortStatus p
  wrF (wrF (wrF (wrF (setPortState s p portUp) k 4 2 q.ident) k 5 5 (b2n spare)) k 9 6
    (if spare then bad.getD 0xF else 0xF)) k 13 10 w

/-- TRAINING_DONE (T4): `last` is the sequence number of the last flit that the other end accepted. -/
def execTrainingDone (port : BitVec 2) (last : BitVec 12) (s : State) : Host.Outcome State Fault Refusal :=
  let p := port.toNat
  let q := portOf s p
  if portState s p ≠ portTraining || q.step ≠ .t3 then .next s
  else
    let rest := if q.unacked.any (fun f => f.seq = last.toNat) then (q.unacked.dropWhile (fun f => f.seq ≠ last.toNat)).drop 1
      else q.unacked
    let s1 := wrF (trainedStatus s p) (Reg.linkPortCtl p) 1 1 0
    let s2 := setPort s1 p { q with
      step := .none, again := false, unacked := rest, rounds := 0, ackAt := s.dtime, winAt := s.dtime,
      txSeq := if rest.isEmpty then (last.toNat + 1) % 4096 else q.txSeq }
    .next (pump (rest.foldl (fun s f => emitFlit s p f) s2) p)

/-- TRAINING_TIMEOUT (14 R587): a retrain that has not reached T4 within 10 ms. -/
def execTrainingTimeout (port : BitVec 2) (s : State) : Host.Outcome State Fault Refusal :=
  let q := portOf s port.toNat
  if portState s port.toNat = portTraining && q.again && due s q.trainAt 10000000 then .next (portDown s port.toNat) else .next s

/-- A port is disabled or loses its clock: it enters DOWN, where it is not DOWN already. -/
def dropPort (s : State) (p : Nat) : State :=
  if portState s p = portDownCode then setPort s p { portOf s p with want := false } else portDown s p

/-- PORT_DISABLE (14 R607): a write of 0 to ENABLE. -/
def execPortDisable (port : BitVec 2) (s : State) : Host.Outcome State Fault Refusal :=
  if s.sec.recovery then .next (hostTouch s) else
  let s := hostTouch s
  .next (dropPort (wrF s (Reg.linkPortCtl port.toNat) 0 0 0) port.toNat)

/-- BL_REFCLK_LOSS (17 R692): every enabled port enters DOWN. -/
def execBlRefclkLoss (s : State) : Host.Outcome State Fault Refusal :=
  .next ([0, 1, 2, 3].foldl (fun s p =>
    if rdF s (Reg.linkPortCtl p) 0 0 = 1 && portState s p ≠ portDownCode then portDown s p else s) s)

/-! Messages at their target (14 R593 to R596). -/

/-- The next message of a channel of a port, where it has this OP, and the state without it. -/
def nextMsg (s : State) (p op : Nat) : Option (List Byte × State) :=
  let q := portOf s p
  match q.inbox.find? (fun e => e.1 = vcOf op) with
  | some (_, m) =>
    if mOp m = op then
      some (m, setPort s p { q with inbox := q.inbox.eraseIdx (q.inbox.findIdx (fun e => e.1 = vcOf op)) })
    else none
  | none => none

/-- A message is passed on or taken by `f`. -/
def onMsg (s : State) (p op : Nat) (f : List Byte → State → State) : State :=
  match nextMsg s p op with
  | none => s
  | some (m, s1) => if mDest m = ownId s1 then f m s1 else forward s1 m

/-- A byte of the range lies in the fence window (14 R595). -/
def inWindow (a n : Nat) : Bool :=
  fenceWindow < a + n && a < fenceWindow + 0x4000000

/-- A live memory object covers every byte of a range (14 R593). -/
def objectCovers (s : State) (a n : Nat) : Bool :=
  s.host.memObjs.any (fun m => m.2.mem ≤ a && a + n ≤ m.2.mem + m.2.frames * 2 ^ 21)

/-- The claim of a range is SHARED with a device (14 R593). -/
def sharedWith (s : State) (a src : Nat) : Bool :=
  (claimOf s (a / 2 ^ 30)).kind = .shared && bitN (claimOf s (a / 2 ^ 30)).peerMask src

/-- The first check of R593 that a request of memory fails; 0 for none. -/
def requestReason (s : State) (m : List Byte) : Nat :=
  let a := mAddr m
  let n := mLen m
  if inWindow a n then 4
  else if ! objectCovers s a n then 1
  else if ! (sharedWith s a (mSrc m) && sharedWith s (a + n - 1) (mSrc m)) then 2
  else 0

/-- A READ is served (14 R592, R593). -/
def serveReadMsg (m : List Byte) (s : State) : State :=
  match requestReason s m with
  | 0 =>
    match memReadBy false s (mAddr m) (mLen m) with
    | (s1, .ok bs) => reply s1 m opReadReply 0 (mLen m - 1) bs
    | (s1, .bad _ _) => refuse s1 m opReadReply 3
  | r => refuse s m opReadReply r

/-- READ (14 R592). -/
def execRead (port : BitVec 2) (s : State) : Host.Outcome State Fault Refusal :=
  .next (onMsg s port.toNat opRead serveReadMsg)

/-- The codes that a fence signal may carry (11 R485). -/
def condListed (c : Nat) : Bool :=
  c = 0 || (0x0101 ≤ c && c ≤ 0x0108) || (0x0201 ≤ c && c ≤ 0x0205) || (0x0207 ≤ c && c ≤ 0x0209) || (0x0301 ≤ c && c ≤ 0x0306) ||
    (0x0401 ≤ c && c ≤ 0x0407) || (0x0501 ≤ c && c ≤ 0x0504) || (0x0601 ≤ c && c ≤ 0x0607) || (0x0701 ≤ c && c ≤ 0x0705) ||
    (0x0801 ≤ c && c ≤ 0x0803) || (0x0901 ≤ c && c ≤ 0x0903)

/-- The partition holds a claim SHARED with a device. -/
def sharesWith (s : State) (p src : Nat) : Bool :=
  s.mem.claims.any (fun c => c.2.owner = p && c.2.kind = .shared && bitN c.2.peerMask src)

/-- The fence, value and code of a signal through the fence window, where R595 admits it. -/
def windowSignal (s : State) (m : List Byte) : Option (Nat × Word × Nat) :=
  let a := mAddr m - fenceWindow
  let p := a / 2 ^ 21
  let d := padTo 16 (mData m)
  let h := fieldAt d 8 4
  if a % 32 ≠ 0 || mLen m ≠ 16 || fieldAt d 14 2 ≠ 0 || ! condListed (fieldAt d 12 2) || hKey h ≠ okey p (a % 2 ^ 21 / 32) then none
  else match findFence s p h with
    | some f => if f.exported && sharesWith s p (mSrc m) then some (hKey h, BitVec.ofNat 64 (fieldAt d 0 8), fieldAt d 12 2) else none
    | none => none

/-- A WRITE is served: a signal of a fence, or bytes of memory (14 R593 to R595). -/
def serveWriteMsg (port : Nat) (m : List Byte) (s : State) : State :=
  if inWindow (mAddr m) (mLen m) then
    match (if mAddr m < fenceWindow then none else windowSignal s m) with
    | some (k, v, 0) => reply (settle (signalFence s k v (Engine.link port))) m opWriteAck 0 0 []
    | some (k, _, c) => reply (settle (errorFence s k c)) m opWriteAck 0 0 []
    | none => refuse s m opWriteAck 4
  else
    match requestReason s m with
    | 0 =>
      match memWrite s (mAddr m) (padTo (mLen m) (mData m)) with
      | (s1, none) => reply s1 m opWriteAck 0 0 []
      | (s1, some _) => refuse s1 m opWriteAck 3
    | r => refuse s m opWriteAck r

/-- WRITE (14 R594, R595). -/
def execWrite (port : BitVec 2) (s : State) : Host.Outcome State Fault Refusal :=
  .next (onMsg s port.toNat opWrite (serveWriteMsg port.toNat))

/-! Imports (14 R596). -/

/-- Drops a device reference to a memory object, and frees it when none is left. -/
def dropMem (s : State) (k : Nat) : State :=
  match mget s.host.memObjs k with
  | some m => freeMemObj (setMemObj s k { m with refs := refsDrop m.refs }) k
  | none => s

/-- Takes a device reference to a memory object. -/
def holdMem (s : State) (k : Nat) : State :=
  match mget s.host.memObjs k with
  | some m => setMemObj s k { m with refs := refsTake m.refs }
  | none => s

/-- The references of an import are dropped. -/
def dropImport (s : State) (m : Import) : State :=
  m.fences.foldl dropFence (m.mems.foldl dropMem s)

/-- Every import that `q` picks is released. -/
def releaseImports (s : State) (q : Import → Bool) : State :=
  (s.link.imports.filter q).foldl dropImport
    (setLink s { s.link with imports := s.link.imports.filter (fun m => ! q m) })

/-- An IMPORT is taken: references on what its range holds, or a refusal (14 R596). -/
def serveImport (m : List Byte) (s : State) : State :=
  let base := mAddr m
  let s1 := releaseImports s (fun i => i.src = mSrc m && i.epoch ≠ mEpoch m)
  let mems := (s1.host.memObjs.filter (fun o => o.2.mem < base + mLen m * 2 ^ 21 && base < o.2.mem + o.2.frames * 2 ^ 21)).map (fun o => o.1)
  let i : Import := { src := mSrc m, part := mPart m, base := base, frames := mLen m, epoch := mEpoch m, mems := mems, fences := [] }
  let fences := (s1.host.fences.filter (fun f => f.2.exported && importCovers i (fenceSlot f.1) 16)).map (fun f => f.1)
  if 256 ≤ s1.link.imports.length || (mems.isEmpty && fences.isEmpty) then refuse s1 m opImportReply 1
  else
    let s2 := fences.foldl holdFence (mems.foldl holdMem s1)
    reply (setLink s2 { s2.link with imports := s2.link.imports ++ [{ i with fences := fences }] }) m opImportReply 0 0 []

/-- IMPORT (14 R596). -/
def execImportMsg (port : BitVec 2) (s : State) : Host.Outcome State Fault Refusal :=
  .next (onMsg s port.toNat opImport serveImport)

/-- A RELEASE drops one import of its source, partition and range. -/
def serveRelease (m : List Byte) (s : State) : State :=
  let q := fun (i : Import) => i.src = mSrc m && i.part = mPart m && i.base = mAddr m && i.frames = mLen m
  match s.link.imports.find? q with
  | some i => dropImport (setLink s { s.link with imports := s.link.imports.eraseIdx (s.link.imports.findIdx q) }) i
  | none => s

/-- RELEASE_MESSAGE (14 R596). -/
def execReleaseMessage (port : BitVec 2) (s : State) : Host.Outcome State Fault Refusal :=
  .next (onMsg s port.toNat opRelease serveRelease)

/-- LINK_IMPORT_DROP (14 R596, R606): releases every import from a device. -/
def execLinkImportDrop (value : Word32) (s : State) : Host.Outcome State Fault Refusal :=
  if s.sec.recovery then .next (hostTouch s) else
  let s := hostTouch s
  .next (releaseImports s (fun i => i.src = value.toNat % 8))

/-! Replies at their requester (14 R594, R598, R600). -/

/-- A reply finds its request, whose context still lives, or is late (14 R598). -/
def onReply (m : List Byte) (s : State) (f : Nat → LinkReq → State) : State :=
  let late := fun (s : State) => bump32 s Reg.linkLateReplyCount Reg.linkStatus 5 1
  match mget s.link.reqs (mTag m) with
  | none => late s
  | some r => if r.kind = .imp || ctxLive s r.org.ctx then f (mTag m) r else late (delReq s (mTag m))

/-- READ_REPLY (14 R592). -/
def execReadReply (port : BitVec 2) (s : State) : Host.Outcome State Fault Refusal :=
  .next (onMsg s port.toNat opReadReply (fun m s => onReply m s (fun tag r =>
    if mStatus m ≠ 0 then failReq s tag r (.refused (mStatus m))
    else match r.kind with
      | .coreRead core gid t thread => deliverRead (delReq s tag) core gid t thread (padTo r.n (mData m))
      | _ => delReq s tag)))

/-- WRITE_ACK (14 R594). -/
def execWriteAck (port : BitVec 2) (s : State) : Host.Outcome State Fault Refusal :=
  .next (onMsg s port.toNat opWriteAck (fun m s => onReply m s (fun tag r =>
    if mStatus m ≠ 0 then failReq s tag r (.refused (mStatus m)) else delReq s tag)))

/-- IMPORT_REPLY (14 R596): the segment has taken effect either way. -/
def execImportReply (port : BitVec 2) (s : State) : Host.Outcome State Fault Refusal :=
  .next (onMsg s port.toNat opImportReply (fun m s => onReply m s (fun tag _ => delReq s tag)))

/-- A request whose burst or reply stalled is sent again; the third stall fails it (14 R600). -/
def resendReq (s : State) (tag : Nat) (r : LinkReq) : State :=
  if 2 ≤ r.stalls then failReq s tag r .burstStall
  else match routeOf s r.device with
    | none => failReq s tag r .linkDown
    | some p =>
      let r1 := { r with stalls := r.stalls + 1, attempts := r.attempts + 1, port := some p }
      sendOn (setLink s { s.link with reqs := mset s.link.reqs tag r1 }) p (vcOf (mOp r.msg)) r.msg

/-- STALLED (14 R600). -/
def execStalled (port : BitVec 2) (s : State) : Host.Outcome State Fault Refusal :=
  .next (onMsg s port.toNat opStalled (fun m s => onReply m s (fun tag r => resendReq s tag r)))

/-- REMOTE_TIMEOUT (14 R598). -/
def execRemoteTimeout (tag : Word32) (s : State) : Host.Outcome State Fault Refusal :=
  match mget s.link.reqs tag.toNat with
  | some r =>
    if due s r.sentAt (rdF s Reg.linkCfg 33 20 * 100000) then
      .next (failReq (bump32 s Reg.linkTimeoutCount Reg.linkStatus 4 1) tag.toNat r .remoteTimeout)
    else .next s
  | none => .next s

/-- What the discarded bytes of a burst call for (14 R600): a request is answered with STALLED; a read whose reply stalled is issued
again, and a haul block requested again (R604). -/
def answerStall (s : State) (m : List Byte) : State :=
  if ! wholeMsg m then s
  else if mDest m ≠ ownId s then s
  else if mOp m = opReadReply then
    match mget s.link.reqs (mTag m) with
    | some r => resendReq s (mTag m) r
    | none => s
  else if mOp m = opHaulBlock then
    match s.sec.haul with
    | some h => if haulOn s && h.block = fAt m 8 31 0 then retryBlock s h else s
    | none => s
  else if vcOf (mOp m) = 0 then reply s m opStalled 0 0 []
  else s

/-- BURST_STALL (14 R600): the open burst of a channel whose stall timer has expired is discarded. -/
def execBurstStall (port : BitVec 2) (vc : BitVec 3) (s : State) : Host.Outcome State Fault Refusal :=
  let p := port.toNat
  let q := portOf s p
  let old := fun (b : Burst) => b.vc = vc.toNat && ! b.dead && due s b.since (rdF s Reg.linkCfg 19 10 * 1000)
  match q.bursts.find? old with
  | none => .next s
  | some b =>
    let s1 := setPort s p { q with bursts := lset q.bursts (q.bursts.findIdx old) { b with dead := true, bytes := [] } }
    let s2 := appendRec (bump32 s1 Reg.linkStallCount Reg.linkStatus 2 1) (plainRec s1 Cond.burstStall (Engine.link p) 0 flagInfo 0 [])
    .next (answerStall s2 b.bytes)

end Sys2Proof.Machine
end

