-- ==== Sys2Proof/Machine/Reset.lean ====
section
/-! DEFINITION. What is lost when the die loses power or is reset as a whole, and the beginning of a start-up (15 R610, R614;
16 R657; 17 R686 to R689; 18 R716). -/
namespace Sys2Proof.Machine

/-- TCLK stands at `mhz`; the TCLK count of each core goes on from where it is (01 R27, 05 R189). -/
def setTclk (s : State) (mhz : Nat) : State :=
  setCore s { s.core with
    cores := mmap s.core.cores (fun n c => { c with clockBase := coreClock s n, clockAt := s.dtime }), tclk := mhz }

/-- TCLK when no throttle holds it (01 R26). -/
abbrev tclkFull : Nat := 1400
/-- The floor of the throttle (15 R621). -/
abbrev tclkFloor : Nat := 700

/-- The registers that a fundamental reset keeps: the WB block, and LAST_EXIT (18 R716). -/
def keptRegs (s : State) : Map Word :=
  let m := mkeep s.regs (fun k _ => decide (0x1E0000 ≤ k) && decide (k < 0x1F0000))
  msetD m Reg.pwrStatus (wput 0 28 27 (rdF s Reg.pwrStatus 28 27)) 0

/-- What Keystone keeps over a reset: the flash and the replay-protected region, and the pins (16 R642 to R644). -/
def coldSec (x : SecSt) : SecSt :=
  { resetSec with
    slots := x.slots, recs := x.recs, floor := x.floor, revoked := x.revoked, cfgGen := x.cfgGen, nextQ := x.nextQ, pwrgd := x.pwrgd, factory := x.factory,
    perst := x.perst, perstAt := x.perstAt, boots := x.boots, repairs := x.repairs, staged := x.staged, haulImage := x.haulImage,
    reports := x.reports, digests := x.digests, lmsLow := x.lmsLow, lmsOut := x.lmsOut, step := 0 }

/-- Everything outside the Weighbridge island, DTIME and the flash is lost (15 R614, 17 R689): no engine saves anything. -/
def loseAll (s : State) : State :=
  { State.reset with
    pending := s.pending, fresh := s.fresh, dtime := s.dtime, out := s.out, regs := keptRegs s, wb := s.wb, sec := coldSec s.sec,
    power := { resetPower with tripped := s.power.tripped, wakePin := s.power.wakePin, wake := s.power.wake, deferred := s.power.deferred } }

/-- A start-up begins at P1 (16 R657), in A0 (18 R716). -/
def beginBoot (s : State) (cause : BootCause) : State :=
  let s1 := if s.power.tripped then emit (loseAll s) (.pin pinThermtrip true) else loseAll s
  setPower (setSec s1 { s1.sec with cause := cause, bootAt := s.dtime, step := 1, boots := s.sec.boots + 1, trial := s.sec.trial })
    { s1.power with wake := none, deferred := false, tripped := false }

/-- The device enters A3 with nothing saved (15 R610, R625). -/
def enterA3 (s : State) (lastExit : Nat) : State :=
  setPwrState (wrF (loseAll s) Reg.pwrStatus 28 27 lastExit) 3

end Sys2Proof.Machine
end

