-- ==== Sys2Proof/Machine/PowerCmds.lean ====
section
/-! DEFINITION. The commands of 15 R610 to R625: requests for a power state, wakes, the power limit, heat and coolant. -/
namespace Sys2Proof.Machine

/-! Requests (15 R616 to R618). -/

/-- A ring entry, launch or serving session is unretired, or work is saved (15 R616, party GANTRY). -/
def workLeft (s : State) : Bool :=
  s.host.rings.any (fun r => ! r.2.entries.isEmpty) || ! s.sched.launches.isEmpty || s.sched.serve.active || ! s.core.savedRuns.isEmpty ||
    s.core.jobs.any (fun j => ! j.2.saved.isEmpty) || s.sched.copyWait.any (fun o => o.saved.isSome) ||
    s.sched.crushWait.any (fun o => o.saved.isSome) ||
    s.raster.passes.any (fun p => ! p.2.savedUnits.isEmpty || ! p.2.savedTiles.isEmpty)

/-- The parties that refuse a request before commit (15 R616). -/
def refusers (s : State) : List Nat :=
  (if workLeft s then [1] else []) ++
  (if s.heads.any (fun h => h.enabled) then [2] else []) ++
  (if (List.range 4).any (fun p => portState s p = portUp) then [3] else []) ++
  (if s.sec.op.isSome || s.sec.hand.isSome || s.sec.window.isSome || s.sec.haul.isSome || ! s.sec.repairs.isEmpty then [4] else []) ++
  (if ! s.mem.retireQ.isEmpty || ! s.site.drains.isEmpty || ! s.mem.fillQ.isEmpty then [5] else []) ++
  (if s.wb.latched ≠ 0 then [7] else []) ++
  (if ! s.sched.gates.isEmpty then [8] else [])

/-- A refusal is counted for each party, and the result names the lowest (15 R617). -/
def refuseEntry (s : State) (l : List Nat) : State :=
  l.foldl (fun s k => bump32 s (Reg.pwrRefuseCount k) Reg.pwrCountStatus k 1)
    (pwrResult (setPower s { s.power with req := none }) 2 (l.headD 0) ((l.map (fun k => 2 ^ k)).foldl (· + ·) 0))

/-- FORCE kills the work in progress (15 R616): every context that has some. -/
def killWork (s : State) : State :=
  (s.host.ctxs.filter (fun c => c.2.live && (c.2.cond != .idle || s.sched.launches.any (fun l => l.2.org.ctx = c.1) ||
    (s.sched.serve.active && s.sched.serve.ctx = c.1)))).foldl (fun s c => killCtx s c.1 (some Cond.contextKilled) []) s

/-- A write of PWR_CTL with REQ = 1 and a target (15 R616, R618 E1). REQ finds a request in progress set, and starts nothing. -/
def requestState (s : State) (target : Nat) (force : Bool) : State :=
  if s.power.req.isSome || 2 ≤ pwrState s then s
  else
    let s1 := wrF (wrF (leaveA1 s) Reg.pwrCtl 2 0 target) Reg.pwrCtl 3 3 (b2n force)
    let l := (refusers s1).filter (fun k => ! force || k = 4)
    if l.isEmpty then
      let s2 := wrF (pwrResult (setPower s1 { s1.power with req := some { target := target, at_ := s1.dtime, commitAt := none } }) 1 0 0)
        Reg.pwrCtl 31 31 1
      if force then killWork s2 else s2
    else refuseEntry s1 l

/-- A2_REQUEST (15 R616). -/
def execA2Request (force : Bool) (s : State) : Host.Outcome State Fault Refusal :=
  if s.sec.recovery then .next (hostTouch s) else
  let s := hostTouch s
  .next (requestState s 2 force)

/-- A3_REQUEST (15 R616). -/
def execA3Request (force : Bool) (s : State) : Host.Outcome State Fault Refusal :=
  if s.sec.recovery then .next (hostTouch s) else
  let s := hostTouch s
  .next (requestState s 3 force)

/-- A4_REQUEST (15 R616). -/
def execA4Request (force : Bool) (s : State) : Host.Outcome State Fault Refusal :=
  if s.sec.recovery then .next (hostTouch s) else
  let s := hostTouch s
  .next (requestState s 4 force)

/-- Every dirty line of the bench caches and the eviction buffers is written back (15 R618 E4). -/
def flushDirty (s : State) : State :=
  let s1 := s.mem.lines.foldl (fun s l => writebackLine s l.2.addr) s
  s.mem.evb.foldl (fun s e => e.2.foldl (fun s _ => drainEv s e.1 0) s) s1

/-- PME_TO_ACK (15 R618 E3, E4): the handshake is complete. A function that is not in D3hot makes the party HOST refuse; else the device
commits. -/
def execPmeToAck (d3hot : Bool) (s : State) : Host.Outcome State Fault Refusal :=
  match s.power.req with
  | none => .next s
  | some r =>
    if r.commitAt.isSome then .next s
    else if ! d3hot then .next (refuseEntry s [6])
    else
      let s1 := pwrResult (flushDirty s) 1 0 0
      .next (setPower s1 { s1.power with req := some { r with commitAt := some s.dtime } })

/-- HANDSHAKE_TIMEOUT (15 R616): the handshake is not complete within 1 s. -/
def execHandshakeTimeout (s : State) : Host.Outcome State Fault Refusal :=
  match s.power.req with
  | some r => if r.commitAt.isNone && due s r.at_ 1000000000 then .next (abortEntry s 6) else .next s
  | none => .next s

/-- Bit `i` of PWR_RETAIN: segment `i` is retained (15 R612). -/
def retained (s : State) (i : Nat) : Bool :=
  rdF s (Reg.pwrRetain (i / 32)) (i % 32) (i % 32) = 1

/-- A line that stays locked through A2 (15 R613): its content lies in DRAM too. -/
def keepsLock (s : State) (l : Line) : Bool :=
  l.lock.isSome && retained s (l.addr / 2 ^ 23)

/-- In A2 nothing runs: the content of cores, arrays, engines and caches is lost, and what the device-reserved region holds stays
(15 R610, R613). -/
def enterA2 (s : State) : State :=
  let s1 := (List.range 4).foldl (fun s p => setPort (setPortState s p portDownCode) p resetPort) s
  let s2 := setCore s1 { s1.core with cores := [], tclk := 0, jobs := [], items := [], queues := [], savedRuns := [], loads := [] }
  let s3 := setSched s2 { s2.sched with cadence := resetSched.cadence, gates := [], copies := [], copyWait := [], crush := [], crushWait := [],
                                        stopOps := [], stopCtx := [], resetting := [] }
  let s4 := setMem s3 { s3.mem with lines := mkeep s3.mem.lines (fun _ l => keepsLock s l), plru := [], miss := [], input := [], evb := [],
                                    filled := [], slowQ := [], xsets := [], walks := [] }
  let off := fun (s : State) (h : Nat) => wrF s (Reg.dressHeadCtl h) 0 0 0
  setPwrState (wrF { off (off s4 0) 1 with
    heads := [noHead, noHead], marks := [], raster := resetRaster } Reg.pwrStatus 28 27 0) 2

/-- A4: every block is off (15 R610, R618). -/
def enterA4 (s : State) : State :=
  let s1 := loseAll s
  setPwrState { s1 with wb := resetWb, power := resetPower } 4

/-- TARGET_STATE_ENTRY (15 R618 E5): STATE := TARGET. -/
def execTargetStateEntry (s : State) : Host.Outcome State Fault Refusal :=
  match s.power.req with
  | none => .next s
  | some r =>
    if r.commitAt.isNone then .next s
    else
      let s1 := setPower s { s.power with req := none }
      .next (if r.target = 2 then enterA2 s1 else if r.target = 3 then enterA3 s1 0 else enterA4 s1)

/-- A1_ENTRY (15 R611): the idle condition has held for A1_IDLE_US. -/
def execA1Entry (s : State) : Host.Outcome State Fault Refusal :=
  let s1 := noteIdle s
  match s1.power.idleSince with
  | some t =>
    if pwrState s1 = 0 && s1.power.req.isNone && due s1 t (rdF s1 Reg.pwrCfg 44 35 * 1000) then .next (setPwrState s1 1) else .next s1
  | none => .next s1

/-! Exits (15 R619, R620, R625). -/

/-- A2_EXIT (15 R619, R620 W1, W2): a wake event starts the exit. -/
def execA2Exit (s : State) : Host.Outcome State Fault Refusal :=
  if pwrState s = 2 && s.power.wake.isSome && s.power.exit = 0 then
    .next (setPower s { s.power with exit := 1, wake := none })
  else .next s

/-- RETAINED_DIGEST_CHECK (15 R620 W3): on a mismatch the full start-up runs instead; else the clocks move off FIC (W4). -/
def execRetainedDigestCheck (good : Bool) (s : State) : Host.Outcome State Fault Refusal :=
  if s.power.exit = 1 then
    if good then
      let s1 := setTclk s tclkFull
      .next (setPower s1 { s1.power with exit := 2, stepAt := s.dtime })
    else .next (beginBoot s .fundamental)
  else .next s

/-- The claims that A2 did not retain (15 R613): assigned ones whose segment's bit is 0. -/
def unretained (s : State) : List Nat :=
  (List.range 95).filter (fun n => (claimOf s n).kind != .free && ! retained s n)

/-- A3_EXIT (15 R614, R619, R625): a wake event starts the start-up, or is deferred while the junction exceeds 95 °C. -/
def execA3Exit (junction : BitVec 8) (s : State) : Host.Outcome State Fault Refusal :=
  if pwrState s = 3 && s.power.wake.isSome then
    if 95 < junction.toNat then .next (setPower s { s.power with deferred := true })
    else .next (beginBoot s .exitA3)
  else .next s

/-- DEFERRED_WAKE_RELEASE (15 R625): the junction has fallen to 95 °C. -/
def execDeferredWakeRelease (junction : BitVec 8) (s : State) : Host.Outcome State Fault Refusal :=
  if pwrState s = 3 && s.power.deferred && junction.toNat ≤ 95 then .next (beginBoot s .exitA3) else .next s

/-! The power limit (15 R621, R622). -/

/-- The effective limit in watts (15 R621). -/
def effLimit (s : State) : Nat :=
  let l := rdF s Reg.pwrCfg 8 0
  if rdF s Reg.pwrStatus 25 25 = 1 then min l (rdF s Reg.pwrCfg 16 9) else l

def wattsNow (s : State) : Nat := rdF s Reg.pwrReading 9 0
def junctionNow (s : State) : Nat := rdF s Reg.pwrReading 17 10
def tjLimit (s : State) : Nat := rdF s Reg.pwrCfg 23 17

/-- Since when the mean exceeds the limit at the floor, and since when it is below 95 % of the limit (15 R622). -/
def judgePower (s : State) : State :=
  let above := s.core.tclk ≤ tclkFloor && effLimit s < wattsNow s
  let under := wattsNow s * 100 < effLimit s * 95
  setPower s { s.power with
    overSince := if above then some (s.power.overSince.getD s.dtime) else none,
    underSince := if under then some (s.power.underSince.getD s.dtime) else none }

/-- PWR_READING.TCLK_MHZ follows TCLK (15 R636). -/
def showTclk (s : State) : State :=
  wrF s Reg.pwrReading 28 18 s.core.tclk

/-- POWER_MEAN (15 R621): a 1 ms mean, with the hottest junction, is read and judged. -/
def execPowerMean (watts : BitVec 10) (junction : BitVec 8) (s : State) : Host.Outcome State Fault Refusal :=
  if 2 ≤ pwrState s then .next s
  else .next (judgePower (showTclk (wrF (wrF s Reg.pwrReading 9 0 watts.toNat) Reg.pwrReading 17 10 junction.toNat)))

/-- The mean exceeds the effective limit, or the hottest junction TJ_LIMIT (15 R621). -/
def overLimit (s : State) : Bool :=
  effLimit s < wattsNow s || tjLimit s < junctionNow s

/-- TCLK takes a new value (15 R621). -/
def moveTclk (s : State) (mhz : Nat) : State :=
  let s1 := setTclk s mhz
  judgePower (showTclk (setPower s1 { s1.power with stepAt := s.dtime }))

/-- TCLK_THROTTLE_STEP (15 R621): 25 MHz less every 10 µs, down to 700 MHz. -/
def execTclkThrottleStep (s : State) : Host.Outcome State Fault Refusal :=
  if pwrState s < 2 && overLimit s && tclkFloor < s.core.tclk && due s s.power.stepAt 10000 then
    .next (moveTclk s (max tclkFloor (s.core.tclk - 25)))
  else .next s

/-- TCLK_RAISE_STEP (15 R621): 25 MHz more every 100 µs, below 97 % of the limit and 2 °C under TJ_LIMIT. -/
def execTclkRaiseStep (s : State) : Host.Outcome State Fault Refusal :=
  if pwrState s < 2 && wattsNow s * 100 < effLimit s * 97 && junctionNow s < tjLimit s - 2 && s.core.tclk ≠ 0 &&
      s.core.tclk < tclkFull && due s s.power.stepAt 100000 then
    .next (moveTclk s (min tclkFull (s.core.tclk + 25)))
  else .next s

/-- A preemption of everything that a context holds is asked for (12 R509). -/
def askCtx (s : State) (k : Nat) : State :=
  (workEngines.filter (fun e => engineHolds s e k)).foldl (fun s e => askStop s e k) s

/-- A preemption of all NORMAL work is asked for (15 R622). -/
def askNormal (s : State) : State :=
  (s.host.ctxs.filter (fun c => ! bitN c.2.sched 0)).foldl (fun s c => askCtx s c.1) s

/-- POWER_LIMIT_ABORT (15 R622): 10 ms above the limit at 700 MHz. -/
def execPowerLimitAbort (s : State) : Host.Outcome State Fault Refusal :=
  match s.power.overSince with
  | some t =>
    if due s t 10000000 && ! s.sched.held then
      let s1 := askNormal (setSched s { s.sched with held := true })
      let s2 := wrF s1 Reg.pwrStatus 26 26 1
      let s3 := appendRec s2 (plainRec s2 Cond.powerAbort Engine.gantry 0 flagInfo 0 (leBytes 2 (wattsNow s) ++ leBytes 2 (effLimit s)))
      .next (sendMsix s3 0 (rdF s3 Reg.errCtl 10 0))
    else .next s
  | none => .next s

/-- NORMAL_PLACEMENT_RESUME (15 R622): 10 ms below 95 % of the limit. -/
def execNormalPlacementResume (s : State) : Host.Outcome State Fault Refusal :=
  match s.power.underSince with
  | some t =>
    if due s t 10000000 && s.sched.held then
      .next (settle (wrF (setSched s { s.sched with held := false }) Reg.pwrStatus 26 26 0))
    else .next s
  | none => .next s

/-! Coolant (15 R624). -/

/-- A timer that runs while a condition holds. -/
def runTimer (s : State) (b : Bool) (t : Option Nat) : Option Nat :=
  if b then some (t.getD s.dtime) else none

/-- PWR_COOLANT (15 R623, R624): a report of inlet temperature and flow. -/
def execPwrCoolant (value : Word32) (s : State) : Host.Outcome State Fault Refusal :=
  if s.sec.recovery then .next (hostTouch s) else
  let s := hostTouch s
  let s1 := wr s Reg.pwrCoolant (BitVec.ofNat 64 (bitsN value.toNat 23 0))
  let inlet := 720 < bitsN value.toNat 11 0
  let flow := bitsN value.toNat 23 12 < 100
  .next (setPower s1 { s1.power with
    coolAt := s.dtime, inletBad := runTimer s inlet s.power.inletBad, flowBad := runTimer s flow s.power.flowBad,
    coolGood := runTimer s (! inlet && ! flow) s.power.coolGood })

def coolantOn (s : State) : Bool :=
  rdF s Reg.pwrCfg 24 24 = 1

/-- Coolant loss begins with a reason (15 R624). -/
def beginLoss (s : State) (reason : Nat) : State :=
  let s1 := judgePower (wrF s Reg.pwrStatus 25 25 1)
  let s2 := appendRec s1 (plainRec s1 Cond.coolantLoss Engine.gantry 0 flagInfo 0 (leBytes 1 reason))
  sendMsix s2 0 (rdF s2 Reg.errCtl 10 0)

/-- A timer of COOLANT_HOLD_MS has expired. -/
def holdExpired (s : State) (t : Option Nat) : Bool :=
  match t with
  | some t => due s t (rdF s Reg.pwrCfg 34 25 * 1000000)
  | none => false

/-- COOLANT_LOSS (15 R624): a reading has been out of its limit for COOLANT_HOLD_MS. -/
def execCoolantLoss (s : State) : Host.Outcome State Fault Refusal :=
  if coolantOn s && rdF s Reg.pwrStatus 25 25 = 0 then
    if holdExpired s s.power.inletBad then .next (beginLoss s 1)
    else if holdExpired s s.power.flowBad then .next (beginLoss s 2)
    else .next s
  else .next s

/-- COOLANT_REPORT_MISSING (15 R624): no PWR_COOLANT write for 1 s. -/
def execCoolantReportMissing (s : State) : Host.Outcome State Fault Refusal :=
  if coolantOn s && due s s.power.coolAt 1000000000 then
    let s1 := setPower s { s.power with coolGood := none }
    if rdF s Reg.pwrStatus 25 25 = 0 then .next (beginLoss s1 3) else .next s1
  else .next s

/-- COOLANT_LOSS_END (15 R624): every reading has been within limits for 5 s. -/
def execCoolantLossEnd (s : State) : Host.Outcome State Fault Refusal :=
  match s.power.coolGood with
  | some t =>
    if rdF s Reg.pwrStatus 25 25 = 1 && due s t 5000000000 then .next (judgePower (wrF s Reg.pwrStatus 25 25 0)) else .next s
  | none => .next s

/-- THERMAL_TRIP (15 R625, 17 R697): every engine stops, saving nothing, and the device enters A3; THERMTRIP# goes low. -/
def execThermalTrip (s : State) : Host.Outcome State Fault Refusal :=
  if pwrState s < 2 then
    let s1 := enterA3 s 1
    .next (emit (setPower s1 { s1.power with tripped := true, wake := none }) (.pin pinThermtrip false))
  else .next s

end Sys2Proof.Machine
end

