-- ==== Sys2Proof/Machine/Weigh.lean ====
section
/-! DEFINITION. The Weighbridge (15 R627 to R633): sensor streams, records, the filter program and its classes. -/
namespace Sys2Proof.Machine

/-- The state with the Weighbridge replaced. -/
def setWb (s : State) (x : WbSt) : State :=
  { s with wb := x }

def streamOf (s : State) (i : Nat) : WbStream :=
  mgetD s.wb.streams i noStream

def setStream (s : State) (i : Nat) (x : WbStream) : State :=
  setWb s { s.wb with streams := mset s.wb.streams i x }

/-! Fields of WB_STREAM (15 R639). -/
def sOn (s : State) (i : Nat) : Bool := rdF s (Reg.wbStream i) 0 0 = 1
def sGpio (s : State) (i : Nat) : Bool := rdF s (Reg.wbStream i) 10 10 = 1
def sCmd (s : State) (i : Nat) : Nat := rdF s (Reg.wbStream i) 21 14
def sBytes (s : State) (i : Nat) : Nat := rdF s (Reg.wbStream i) 29 22
def sOwner (s : State) (i : Nat) : Nat := rdF s (Reg.wbStream i) 34 30
def sPeriod (s : State) (i : Nat) : Nat := rdF s (Reg.wbStream i) 50 35

/-- The Weighbridge core runs: in every state but A4, and not in a reset of its own (15 R632, R633). -/
def wbRuns (s : State) : Bool :=
  pwrState s ≠ 4 && s.wb.resetAt.isNone

/-- Snooping units attached to a stream (13 R569, R577: KIND 3, STREAM [22:19]). -/
def snoopSensor (s : State) (i : Nat) (q : MarkPiece) : State :=
  snoop s (fun _ a => bitsN a 2 0 = 3 && bitsN a 22 19 = i) q

/-- The eight header bytes of a record (15 R627). -/
def wbHeader (alive i flags t : Nat) : List Byte :=
  leBytes 1 alive ++ leBytes 1 i ++ leBytes 1 flags ++ leBytes 1 0 ++ leBytes 4 t

/-- SAMPLE (15 R627): a period has passed, or the data-ready pin has risen; one read of the target begins. -/
def execSample (stream : BitVec 4) (s : State) : Host.Outcome State Fault Refusal :=
  let i := stream.toNat
  let x := streamOf s i
  let ready := sGpio s i || (match x.last with
    | some t => due s t (sPeriod s i * 1000)
    | none => true)
  if wbRuns s && sOn s i && x.reading.isNone && ready then
    let s1 := setStream s i { x with alive := (x.alive + 1) % 256, reading := some (s.dtime, x.alive), last := some s.dtime }
    .next (snoopSensor (emit s1 (.bus i (sCmd s i))) i { first := true, last := false, bytes := wbHeader x.alive i 0 s.dtime })
  else .next s

/-! Records (15 R628). -/

/-- One record is copied to slot HEAD mod 256 of the owner's ring (15 R628). A fault of the write leaves it undelivered. -/
def deliverRec (s : State) (i : Nat) (r : WbRec) : State × WbRec :=
  let p := sOwner s i
  let a := rdF s (pkey p (Reg.wbSampleAddr i)) 47 14 * 16384
  if r.delivered || a = 0 then (s, r)
  else
    let c := rdF s (pkey p (Reg.wbSampleHead i)) 31 0
    match engineWrite s 8 (.part p) .write (a + c % 256 * 64) r.bytes with
    | (s1, none) => (wr s1 (pkey p (Reg.wbSampleHead i)) (BitVec.ofNat 64 ((c + 1) % 2 ^ 32)), { r with delivered := true })
    | (s1, some _) => (s1, r)

/-- The records that a stream holds are copied, oldest first (15 R628). -/
def deliverList (s : State) (i : Nat) (l : List WbRec) : State × List WbRec :=
  match l with
  | [] => (s, [])
  | r :: t =>
    let (s1, r1) := deliverRec s i r
    let (s2, t2) := deliverList s1 i t
    (s2, r1 :: t2)

/-- In A0 and A1 the Gantry copies every complete record of a stream (15 R628). -/
def deliverStream (s : State) (i : Nat) : State :=
  if pwrState s < 2 then
    let (s1, l) := deliverList s i (streamOf s i).held
    setStream s1 i { streamOf s1 i with held := l }
  else s

/-- On exit to A0 held records are delivered (15 R628). -/
def deliverHeld (s : State) : State :=
  s.wb.streams.foldl (fun s x => deliverStream s x.1) s

/-- The Weighbridge holds the last 64 records of a stream; a replaced undelivered one is counted (15 R628). -/
def holdRec (s : State) (i : Nat) (bs : List Byte) : State :=
  let x := streamOf s i
  let all := x.held ++ [WbRec.mk bs false]
  let s1 := setStream s i { x with reading := none, held := all.drop (all.length - 64) }
  if 64 ≤ x.held.length && (x.held.head?.map (fun r => r.delivered)) = some false then
    bump32 s1 Reg.wbDropCount Reg.wbStatus 10 1
  else s1

/-- A2_REFILL_END (15 R613, R620 W7): unretained claims hold zeros, and the device is in A0. -/
def execA2RefillEnd (s : State) : Host.Outcome State Fault Refusal :=
  if s.power.exit = 2 then
    let s1 := (unretained s).foldl (fun s n => fillClaim s n (claimOf s n).strength) s
    .next (settle (deliverHeld (setPower (setPwrState s1 0) { s1.power with exit := 0, idleSince := none })))
  else .next s

/-! The filter engine (15 R630). -/

/-- An INT8. -/
def int8 (b : Byte) : Int := b.toInt

/-- The quotient by 2^k, ties to even (15 R630). -/
def rneDiv (x : Int) (k : Nat) : Int :=
  let q := x / 2 ^ k
  let r := x % 2 ^ k
  if r * 2 < 2 ^ k then q else if 2 ^ k < r * 2 then q + 1 else if q % 2 = 0 then q else q + 1

/-- Saturation to INT8. -/
def sat8 (x : Int) : Byte :=
  BitVec.ofInt 8 (max (-128) (min 127 x))

/-- The value that an input selector names, or none where it is reserved (15 R630). A byte past the record's end is free (log 45). -/
def wbInput (seed : Nat) (bs v prev : List Byte) (sel : Nat) : Option Byte :=
  let k := sel % 64
  match sel / 64 with
  | 0 => some ((bs[8 + k]?).getD (Config.undefByte seed k))
  | 1 => some (lget v k 0)
  | 2 => some (lget prev k 0)
  | _ => if k = 0 then some 0 else none

/-- One output of a stage: the exact sum, the shift, ReLU and saturation (15 R630). -/
def wbOut (st : List Byte) (x : List Byte) (i : Nat) : Byte :=
  let w := fun (j : Nat) => int8 (lget st (8 * i + j) 0)
  let b := (BitVec.ofNat 16 (fieldAt st (64 + 2 * i) 2)).toInt
  let sum := ((List.range 8).map (fun j => w j * int8 (lget x j 0))).foldl (· + ·) b
  let y := rneDiv sum (fieldAt st 88 1 % 32)
  sat8 (if fieldAt st 89 1 % 2 = 1 then max 0 y else y)

/-- How a program ended: at a reserved selector, at the stage with LAST with its outputs, or without one. -/
inductive WbEnd where
  | bad
  | scores (l : List Byte)
  | noLast
  deriving DecidableEq, Repr

/-- The stages from `k` on (`fuel` of the 64 left): the scratch vector, and how the program ends (15 R630, R631). -/
def wbRun (mbox : Nat → Byte) (seed : Nat) (bs prev : List Byte) (fuel k : Nat) (v : List Byte) : List Byte × WbEnd :=
  match fuel with
  | 0 => (v, .noLast)
  | f + 1 =>
    let st := (List.range 96).map (fun i => mbox (96 * k + i))
    match (List.range 8).mapM (fun i => wbInput seed bs v prev (fieldAt st (80 + i) 1)) with
    | none => (v, .bad)
    | some x =>
      let y := (List.range 8).map (wbOut st x)
      let v1 := (List.range 8).foldl (fun v i => lset v (8 * (k % 8) + i) (lget y i 0)) v
      if fieldAt st 89 1 / 2 % 2 = 1 then (v1, .scores y) else wbRun mbox seed bs prev f (k + 1) v1

/-! Classes (15 R632). -/

/-- A wake event: in A2 and A3 it starts the exit; it aborts an entry (15 R616, R619). -/
def wakeEvent (s : State) : State :=
  let s1 := abortEntry s 7
  if pwrState s1 = 2 || pwrState s1 = 3 then
    match s1.power.wake with
    | some _ => s1
    | none => if s1.power.exit = 0 then setPower s1 { s1.power with wake := some s1.dtime } else s1
  else s1

/-- The actions of class `c` (15 R632). -/
def fireClass (s : State) (c : Nat) : State :=
  let a := rd s (Reg.wbAction c)
  let act := wbits a 15 12
  let pin := wbits a 18 16
  let level := wbits a 19 19 = 1
  let s1 := if bitN act 0 then wakeEvent (setWb s { s.wb with latched := if bitN s.wb.latched c then s.wb.latched else s.wb.latched + 2 ^ c })
    else s
  let s2 := if bitN act 0 && bitN act 1 && (pwrState s1 = 2 || pwrState s1 = 3) then
      emit (setPower s1 { s1.power with wakePin := true }) (.pin pinWake false)
    else s1
  let s3 := if bitN act 2 then
      let t := setWb s2 { s2.wb with forced := mset s2.wb.forced pin level }
      if bitN (rdF t Reg.wbGpio 7 0) pin then emit t (.pin (pinGpio pin) level) else t
    else s2
  if bitN act 3 && pwrState s3 < 2 then
    sendMsix (wrF (leaveA1 s3) Reg.wbStatus c c 1) 0 (rdF s3 Reg.errCtl 10 0)
  else s3

/-- Class `c` is judged on its score (15 R632). -/
def judgeClass (s : State) (c : Nat) (score : Byte) : State :=
  let a := rd s (Reg.wbAction c)
  let n := if decide (int8 score < int8 (BitVec.ofNat 8 (wbits a 7 0))) then 0 else min 15 (mgetD s.wb.hold c 0 + 1)
  let was := mgetD s.wb.fired c false
  let fire := wbits a 11 8 ≠ 0 && wbits a 11 8 ≤ n && ! was
  let s1 := setWb s { s.wb with hold := mset s.wb.hold c n, fired := mset s.wb.fired c (if n = 0 then false else was || fire) }
  if fire then fireClass s1 c else s1

/-- A complete record of CLASS_STREAM runs the program once (15 R631); no class fires while PROG_ERR is set (R630). -/
def evalRecord (s : State) (i : Nat) (bs : List Byte) : State :=
  if rdF s Reg.wbCfg 20 17 ≠ i || rdF s Reg.wbStatus 8 8 = 1 then s
  else
    let (v, e) := wbRun (fun a => mgetD s.wb.mbox a 0) s.fresh bs s.wb.scratch 64 0 s.wb.scratch
    let s1 := setWb { s with fresh := s.fresh + 1 } { s.wb with scratch := v }
    match e with
    | .bad => wrF s1 Reg.wbStatus 8 8 1
    | .noLast => s1
    | .scores y => (List.range 7).foldl (fun s c => judgeClass s (c + 1) (lget y (c + 1) 0)) s1

/-- SAMPLE_RECORD (15 R627, R628, R631): a read has ended, with the bytes it gave and whether a bus error ended it. -/
def execSampleRecord (stream : BitVec 4) (bytes : List Byte) (err : Bool) (s : State) : Host.Outcome State Fault Refusal :=
  let i := stream.toNat
  match (streamOf s i).reading with
  | none => .next s
  | some (t, alive) =>
    let body := padTo (sBytes s i - 8) bytes
    let bs := wbHeader alive i (b2n err) t ++ body
    let s1 := snoopSensor (holdRec s i bs) i { first := false, last := true, bytes := body }
    .next (evalRecord (deliverStream s1 i) i bs)

/-- SAMPLE_STALL (15 R629): no byte has come for STALL_US; the record is discarded. -/
def execSampleStall (stream : BitVec 4) (got : List Byte) (s : State) : Host.Outcome State Fault Refusal :=
  let i := stream.toNat
  match (streamOf s i).reading with
  | none => .next s
  | some (t, _) =>
    if due s t (rdF s Reg.wbCfg 16 0 * 1000) then
      let s1 := setStream s i { streamOf s i with reading := none }
      let s2 := bump32 (snoopSensor s1 i { first := false, last := false, bytes := got }) Reg.wbStallCount Reg.wbStatus 9 1
      if pwrState s2 < 2 then
        .next (appendRec s2 (plainRec s2 Cond.burstStall Engine.weighbridge (sOwner s i) flagInfo 0
          (leBytes 1 i ++ leBytes 1 0 ++ leBytes 2 got.length)))
      else .next s2
    else .next s

/-- A reset of the Weighbridge core begins (15 R633): held records, counts and reads are lost; DTIME, GPIO levels and registers stay. -/
def resetWeigh (s : State) : State :=
  let s1 := setWb s { s.wb with
    streams := mmap s.wb.streams (fun _ x => { x with held := [], reading := none }), scratch := List.replicate 64 0, hold := [], fired := [],
    resetAt := some s.dtime }
  bump32 s1 Reg.wbResetCount Reg.wbStatus 11 1

/-- WEIGHBRIDGE_WATCHDOG (15 R633): 100 ms without service. -/
def execWeighbridgeWatchdog (s : State) : Host.Outcome State Fault Refusal :=
  if wbRuns s then .next (resetWeigh s) else .next s

/-- WEIGHBRIDGE_RESET_END (15 R633): the program is loaded again, and watching goes on where its digest is the recorded one. -/
def execWeighbridgeResetEnd (good : Bool) (s : State) : Host.Outcome State Fault Refusal :=
  if s.wb.resetAt.isSome && good then .next (setWb s { s.wb with resetAt := none }) else .next s

/-- CLASS_EV_CLEAR (15 R641): writing 1 to bit c clears it and releases a latched WAKE of class c. -/
def execClassEvClear (value : Word32) (s : State) : Host.Outcome State Fault Refusal :=
  if s.sec.recovery then .next (hostTouch s) else
  let s := hostTouch s
  let m := bitsN value.toNat 7 0
  let keep := fun (x : Nat) => ((List.range 8).map (fun i => if bitN x i && ! bitN m i then 2 ^ i else 0)).foldl (· + ·) 0
  .next (setWb (wrF s Reg.wbStatus 7 0 (keep (rdF s Reg.wbStatus 7 0))) { s.wb with latched := keep s.wb.latched })

end Sys2Proof.Machine
end

