-- ==== Sys2Proof/Machine/Boot.lean ====
section
/-! DEFINITION. Start-up (16 R642 to R660, R712 of 18; 01 R17 to R22; 09 R362, R377) and the reset pins (17 R685 to R692). -/
namespace Sys2Proof.Machine

/-! Firmware images (16 R655, R656). -/

def imgSvn (b : List Byte) : Nat := fieldAt b 8 2
def imgMinSvn (b : List Byte) : Nat := fieldAt b 10 2
def imgFormat (b : List Byte) : Nat := fieldAt b 12 2
def imgStateMin (b : List Byte) : Nat := fieldAt b 14 2
def imgRevoke (b : List Byte) : Nat := fieldAt b 16 1 % 16
def imgSigOff (b : List Byte) : Nat := fieldAt b 24 4
def imgBytes (b : List Byte) : Nat := fieldAt b 28 4

/-- Component `c` of the header: type, offset and bytes. -/
def compAt (b : List Byte) (c : Nat) : Nat × Nat × Nat :=
  (fieldAt b (64 + 64 * c) 4, fieldAt b (68 + 64 * c) 4, fieldAt b (72 + 64 * c) 4)

/-- The digest that the header gives for the component of a type (1 GANTRY, 2 WEIGHBRIDGE, 3 KEYSTONE). -/
def compDigest (b : List Byte) (ty : Nat) : List Byte :=
  match (List.range 3).find? (fun c => (compAt b c).1 = ty) with
  | some c => slice b (80 + 64 * c) 48
  | none => []

/-- The layout of R655 holds. -/
def imgLayout (b : List Byte) : Bool :=
  let zero := fun (o n : Nat) => (slice b o n).all (fun x => x = 0)
  fieldAt b 0 4 = 0x8640F1A3 && fieldAt b 4 2 = 1 && zero 6 2 && zero 17 7 && zero 32 32 && imgMinSvn b ≤ imgSvn b &&
    imgSigOff b % 64 = 0 && 256 ≤ imgSigOff b && imgSigOff b < imgBytes b && imgBytes b ≤ 2 ^ 25 && imgBytes b ≤ b.length &&
    (List.range 3).all (fun c => (compAt b c).2.1 + (compAt b c).2.2 ≤ imgSigOff b && zero (76 + 64 * c) 4) &&
    [1, 2, 3].all (fun ty => ((List.range 3).filter (fun c => (compAt b c).1 = ty)).length = 1)

/-- Each component matches its digest (16 R656). -/
def imgDigests (b : List Byte) : Bool :=
  (List.range 3).all (fun c => Config.sha384 (slice b (compAt b c).2.1 (compAt b c).2.2) = slice b (80 + 64 * c) 48)

/-- The digest D that the image's signature block signs (16 R649, R655). -/
def imgD (b : List Byte) : List Byte :=
  Config.sha384 (b.take (imgSigOff b))

/-- What a check of R656 ends with: the result of R666, the condition code, and the reason of R649. -/
structure ImgCheck where
  result : Nat
  code : Nat
  reason : Nat
  deriving DecidableEq, Repr

/-- The checks of R656, in the order of R666's codes. -/
def checkImage (s : State) (b : List Byte) : ImgCheck :=
  let key := fieldAt b (imgSigOff b) 2
  if ! imgLayout b || ! imgDigests b then ⟨2, 0, 0⟩
  else if 4 ≤ key || bitN s.sec.revoked key then ⟨3, Cond.sigEcdsa, 1⟩
  else
    let v := Config.sigVerdict key (imgD b) (b.drop (imgSigOff b))
    if v = 1 then ⟨3, Cond.sigEcdsa, 0⟩
    else if v = 2 then ⟨3, Cond.sigLms, 0⟩
    else if imgSvn b < s.sec.floor then ⟨4, Cond.rollback, 0⟩
    else ⟨0, 0, 0⟩

/-! Keystone's registers (16 R674 to R677). -/

/-- A check that failed under R649 or with ROLLBACK is counted (16 R677). -/
def countSigFail (s : State) (code : Nat) : State :=
  if code = 0 then s else bump32 s Reg.fwSigFailCount Reg.fwCountStatus 2 1

/-- A fallback is counted (16 R658, R669). -/
def countFallback (s : State) : State :=
  bump32 s Reg.fwFallbackCount Reg.fwCountStatus 0 1

/-- The record of a failure (16 R671): of a condition code, about slot `i` and its image. -/
def fwRecord (s : State) (code i reason : Nat) (b : List Byte) : ErrRec :=
  plainRec s code Engine.keystone 0 flagInfo 0
    (leBytes 1 i ++ leBytes 1 reason ++ leBytes 2 (imgSvn b) ++ leBytes 2 s.sec.floor ++ zeroBytes 2 ++ (imgD b).take 8)

/-- Slot `i`. -/
def slotAt (s : State) (i : Nat) : FwSlot :=
  lget s.sec.slots i emptySlot

/-- A slot is written, and FW_SLOT shows it (16 R675). -/
def setSlot (s : State) (i state : Nat) (img : List Byte) : State :=
  let s1 := setSec s { s.sec with slots := lset s.sec.slots i { state := state, img := img } }
  wr s1 (Reg.fwSlot i) (BitVec.ofNat 64 (state + (if state = 0 then 0 else imgSvn img) * 65536))

/-- A slot changes its state. -/
def setSlotState (s : State) (i state : Nat) : State :=
  setSlot s i state (slotAt s i).img

/-- FW_SLOT, KEY_STATUS and KEY_UID are loaded (18 R712). -/
def loadKeys (s : State) : State :=
  let s1 := setSlotState (setSlotState s 0 (slotAt s 0).state) 1 (slotAt s 1).state
  let left := if s.sec.ident then 2 ^ 20 - s.sec.nextQ else 0
  let s2 := wr s1 Reg.keyStatus (BitVec.ofNat 64 (left + b2n (! s.sec.ident) * 2 ^ 21 +
    (if s.sec.ident then s.sec.floor * 2 ^ 32 + s.sec.revoked * 2 ^ 48 else 0)))
  wr (wr s2 (Reg.keyUid 0) (BitVec.ofNat 64 (s.sec.uid % 2 ^ 64))) (Reg.keyUid 1) (BitVec.ofNat 64 (s.sec.uid / 2 ^ 64 % 2 ^ 64))

/-- A start-up step of number `n` comes next. -/
def bootStep (s : State) (n : Nat) : Bool :=
  s.sec.step = n - 1 && 1 ≤ s.sec.step && ! s.sec.recovery && ! s.sec.factory && s.sec.pwrgd

/-- Step `n` is complete. -/
def stepDone (s : State) (n : Nat) : State :=
  setSec s { s.sec with step := n }

/-- The device stays in recovery (16 R647, R653, R658). -/
def toRecovery (s : State) (code : Nat) : State :=
  setCode (setSec s { s.sec with recovery := true }) code

/-- KEY_DERIVATION (16 R645 to R647): P2, with the identifier that the PUF's key gives, or no reconstruction. -/
def execKeyDerivation (puf : Option (BitVec 128)) (s : State) : Host.Outcome State Fault Refusal :=
  if bootStep s 2 then
    match puf with
    | some u => .next (stepDone (setSec s { s.sec with ident := true, uid := u.toNat }) 2)
    | none => .next (toRecovery (setSec s { s.sec with ident := false, uid := 0 }) 0)
  else .next s

/-- A copy of the record as Keystone reads it: its generation, or the condition code of its failure (16 R653). -/
def recJudge (s : State) (i : Nat) (bad : BitVec 2) : Nat ⊕ Nat :=
  match (s.sec.recs[i]?).join with
  | none => .inr Cond.sigEcdsa
  | some r =>
    if bad = 1 then .inr Cond.sigEcdsa
    else if bad = 2 || bad = 3 then .inr Cond.sigLms
    else if r.gen < s.sec.cfgGen then .inr Cond.rollback
    else .inl r.gen

/-- CONFIGURATION_RECORD_CHOICE (16 R653): P3, with what the check of each copy's signatures finds (0 good, 1 ECDSA, 2 HSS). -/
def execConfigurationRecordChoice (bad0 bad1 : BitVec 2) (s : State) : Host.Outcome State Fault Refusal :=
  if bootStep s 3 then
    let a := recJudge s 0 bad0
    let b := recJudge s 1 bad1
    let note := fun (s : State) (x : Nat ⊕ Nat) => match x with
      | .inr c => countSigFail s c
      | .inl _ => s
    let s1 := note (note s a) b
    let take := fun (i : Nat) => .next (stepDone (setSec s1 { s1.sec with taken := some i, repairs := [] }) 3)
    match a, b with
    | .inl x, .inl y => if x < y then take 1 else take 0
    | .inl _, .inr _ => take 0
    | .inr _, .inl _ => take 1
    | .inr c, .inr _ => .next (toRecovery s1 c)
  else .next s

/-- STACK_TRAINING (16 R657 P4; 14 R588; 17 R682, R692): PLLs and stacks, and DEVICE_ID is sampled with a new EPOCH. Without SYS_REFCLK
the start-up stops. -/
def execStackTraining (refclk : Bool) (id : BitVec 3) (s : State) : Host.Outcome State Fault Refusal :=
  if bootStep s 4 then
    if ! refclk then .next (stepDone s 0)
    else
      let (e, s1) := draw s
      .next (stepDone (setTclk (wr s1 Reg.linkId (BitVec.ofNat 64 (id.toNat + e % 2 ^ 32 * 2 ^ 32))) tclkFull) 4)
  else .next s

/-- MEMORY_FILL (09 R362; 16 R657 P5): every page holds zero data with valid checks at strength 3, and claims are FREE. -/
def execMemoryFill (s : State) : Host.Outcome State Fault Refusal :=
  if bootStep s 5 && ! s.sec.filled then
    .next (setSec (setMem s { s.mem with dram := [], pdev := [], claims := [], fillQ := [] }) { s.sec with filled := true })
  else .next s

/-- A check at start-up failed: counted and named; the slot is FAILED (16 R658). -/
def bootFail (s : State) (i : Nat) (c : ImgCheck) : State :=
  setCode (countSigFail (setSlotState s i 4) c.code) c.code

/-- A slot is booted: its components run, and it may be a trial (16 R658, R667). -/
def bootSlot (s : State) (i : Nat) : State :=
  setSec s { s.sec with running := some i, book := imgFormat (slotAt s i).img, verified := true }

/-- The slot in a state, lowest first. -/
def slotIn (s : State) (st : Nat) : Option Nat :=
  (List.range 2).find? (fun i => (slotAt s i).state = st)

/-- No ACTIVE slot passes: the VALID slot is booted, or nothing is (16 R658). `failed` is the ACTIVE slot that failed. -/
def bootFallback (s : State) (failed : Option (Nat × ImgCheck)) : State :=
  match slotIn s 1 with
  | none => toRecovery (setSec s { s.sec with verified := true }) (rdF s Reg.fwStatus 31 16)
  | some i =>
    let c := checkImage s (slotAt s i).img
    if c.result = 0 then
      let s1 := bootSlot (setSlotState s i 3) i
      match failed with
      | some (k, f) =>
        setSec (countFallback s1) { (countFallback s1).sec with waiting := s1.sec.waiting ++ [fwRecord s1 f.code k f.reason (slotAt s1 k).img] }
      | none => s1
    else
      let s1 := bootFail s i c
      toRecovery (setSec s1 { s1.sec with verified := true }) c.code

/-- The ACTIVE slot is booted where it passes (16 R658). -/
def bootActive (s : State) : State :=
  match slotIn s 3 with
  | none => bootFallback s none
  | some i =>
    let c := checkImage s (slotAt s i).img
    if c.result = 0 then bootSlot s i else bootFallback (bootFail s i c) (some (i, c))

/-- SLOT_BOOT_VERIFY (16 R658, R667): P5. A slot found in TRIAL has FAILED; RESTART may have asked for a trial. -/
def execSlotBootVerify (s : State) : Host.Outcome State Fault Refusal :=
  if bootStep s 5 && ! s.sec.verified then
    let s1 := (List.range 2).foldl (fun s i => if (slotAt s i).state = 2 then setSlotState s i 4 else s) (loadKeys s)
    match s1.sec.trial with
    | some i =>
      if (slotAt s1 i).state = 1 then
        let c := checkImage s1 (slotAt s1 i).img
        if c.result = 0 then
          .next (bootSlot (setSec (setSlotState s1 i 2) { (setSlotState s1 i 2).sec with previous := slotIn s1 3 }) i)
        else
          let s2 := bootFail s1 i c
          .next (bootActive (setSec s2 { s2.sec with trial := none }))
      else .next (bootActive (setSec s1 { s1.sec with trial := none }))
    | none => .next (bootActive s1)
  else .next s

/-- GANTRY_RELEASE (16 R657 P6): after the fill, Keystone's own component runs, and the GANTRY component is loaded; except on an exit from
A3 the WEIGHBRIDGE component is loaded and its digest recorded. -/
def execGantryRelease (s : State) : Host.Outcome State Fault Refusal :=
  if bootStep s 5 && s.sec.filled && s.sec.verified then
    match s.sec.running with
    | none => .next s
    | some i =>
      let b := (slotAt s i).img
      let wb := if s.sec.cause = .exitA3 then lget s.sec.digests 2 [] else compDigest b 2
      let s1 := if s.sec.cause = .exitA3 then s
        else setWb s { s.wb with streams := mmap s.wb.streams (fun _ x => { x with held := [], reading := none }), hold := [], fired := [],
                                 scratch := List.replicate 64 0, resetAt := none }
      .next (stepDone (setSec s1 { s1.sec with digests := [compDigest b 3, compDigest b 1, wb] }) 6)
  else .next s

/-! Cores and frames at start-up (01 R17 to R22; 09 R377). -/

/-- The repair entries of the record taken. -/
def repairsTaken (s : State) : List (Nat × Nat) :=
  match s.sec.taken.bind (fun i => (s.sec.recs[i]?).join) with
  | some r => r.made ++ r.added
  | none => []

/-- The working sites of a bench (16 R652 kind 1). -/
def workingSites (s : State) (b : Nat) : List Nat :=
  (List.range 9).filter (fun k => ! (repairsTaken s).contains (1, b + 8 * k))

/-- Every logical core that has a working site, with its site: sites in rising order (log 47). -/
def siteMap (s : State) : Map Nat :=
  (List.range 64).filterMap (fun n => ((workingSites s (n / 8))[n % 8]?).map (fun k => (n, k)))

/-- The free spare site of each bench that has one. -/
def spareMap (s : State) : Map Nat :=
  (List.range 8).filterMap (fun b => ((workingSites s b)[8]?).map (fun k => (b, k)))

/-- CFGNET_CORE_LIVE and CFGNET_SPARE_STATE show the cores and sites (01 R21, R22); a core that drains is not live. -/
def showSites (s : State) : State :=
  let live := (s.site.sites.filter (fun x => ! s.site.drains.any (fun d => d.core = x.1))).map (fun x => 2 ^ x.1)
  let free := s.site.spares.map (fun x => 2 ^ x.1)
  let short := (List.range 8).map (fun b => if (List.range 8).all (fun i => (mget s.site.sites (8 * b + i)).isSome) then 0 else 2 ^ (8 + b))
  wr (wr s Reg.cfgnetCoreLive (BitVec.ofNat 64 (live.foldl (· + ·) 0))) Reg.cfgnetSpareState
    (BitVec.ofNat 64 (free.foldl (· + ·) 0 + short.foldl (· + ·) 0))

/-- The first physical frame of the spare pool, and the end of memory in frames (08 R299, 09 R370). -/
abbrev poolFirst : Nat := 0xBF00
abbrev poolEnd : Nat := 0xC000

/-- The remap and the pool, built from the retired frames (09 R377): those whose rows were all repaired return to the pool. -/
def buildRemap (s : State) (back : List Nat) : State :=
  let gone := ((repairsTaken s).filter (fun e => e.1 = 2)).map (fun e => e.2)
  let lost := gone.filter (fun f => f < poolFirst)
  let spare := (List.range (poolEnd - poolFirst)).map (poolFirst + ·) |>.filter (fun f => ! gone.contains f || back.contains f)
  let pairs := lost.zip spare
  setMem s { s.mem with
    remap := pairs.foldl (fun m e => mset m e.1 e.2) [],
    retired := lost.foldl (fun m f => mset m f true) [],
    pool := (lost.filter (fun f => back.contains f)).foldl (fun l f => l.takeWhile (· < f) ++ f :: l.dropWhile (· < f)) (spare.drop pairs.length) }

/-- The roles on working processors (16 R652 kind 5, R668). -/
def assignRoles (s : State) : State :=
  let ok := (List.range 5).filter (fun k => ! (repairsTaken s).contains (5, k))
  setSec s { s.sec with roles := ok.take 4, standby := ok[4]? }

/-- LOGICAL_CORE_ASSIGNMENT (01 R17, 09 R377; 16 R657 P7): sites, the frame remap and the pool. `back` are the retired frames whose rows
were all repaired. -/
def execLogicalCoreAssignment (back : List Nat) (s : State) : Host.Outcome State Fault Refusal :=
  if bootStep s 7 then
    let s1 := assignRoles (buildRemap { s with site := { sites := siteMap s, spares := spareMap s, drains := [], sram := [] } } back)
    .next (stepDone (showSites s1) 7)
  else .next s

/-- READY (16 R657 P8): FW_STATUS shows it, recovery and the standby; a trial's health window begins (R667). -/
def execReady (s : State) : Host.Outcome State Fault Refusal :=
  if bootStep s 8 || (s.sec.recovery && s.sec.step ≠ 8 && ! s.sec.factory && s.sec.pwrgd) then
    let s0 := if s.sec.recovery then loadKeys s else s
    let trial := ! s.sec.recovery && s.sec.trial.isSome
    let st := wrF (wrF (wrF (wrF s0 Reg.fwStatus 1 1 1) Reg.fwStatus 2 2 (b2n s.sec.recovery)) Reg.fwStatus 3 3
      (b2n (! s.sec.recovery && s.sec.standby.isSome))) Reg.fwStatus 4 4 (b2n trial)
    .next (setSec st { st.sec with step := 8, window := if trial then some s.dtime else none, heartAt := s.dtime, confirmed := false })
  else .next s

/-! Power and reset pins (17 R685 to R690). -/

/-- POWER_ON (17 R681, R685, R687): PWRGD is asserted after at least 1 ms of deassertion: every block is reset, DTIME restarts at 0 and
LAST_EXIT reads 2. With TEST_EN high no start-up runs. -/
def execPowerOn (testEn : Bool) (s : State) : Host.Outcome State Fault Refusal :=
  if s.sec.pwrgd then .next s
  else
    let s1 := { State.reset with pending := s.pending, fresh := s.fresh, out := s.out }
    .next (setSec s1 { coldSec s.sec with pwrgd := true, factory := testEn, step := if testEn then 0 else 1, boots := s.sec.boots + 1, reports := [] })

/-- Everything ends (17 R686): engines stop, saving nothing, and the Weighbridge too. -/
def powerDown (s : State) : State :=
  if s.sec.pwrgd then
    let s1 := { State.reset with pending := s.pending, fresh := s.fresh, out := s.out, dtime := s.dtime }
    setSec s1 { coldSec s.sec with pwrgd := false, factory := false }
  else s

/-- PWRGD_DEASSERT (17 R686). -/
def execPwrgdDeassert (s : State) : Host.Outcome State Fault Refusal :=
  .next (powerDown s)

/-- RAIL_UNDERVOLTAGE (17 R688): the effect of a PWRGD deassertion. -/
def execRailUndervoltage (s : State) : Host.Outcome State Fault Refusal :=
  .next (powerDown s)

/-- PERST_ASSERT (17 R689, R690): held for 1 µs or longer. In A0 and A1, but for a start-up from power-on, a fundamental reset begins. -/
def execPerstAssert (s : State) : Host.Outcome State Fault Refusal :=
  if ! s.sec.pwrgd || s.sec.perst then .next s
  else
    let s0 := setSec s { s.sec with perst := true, perstAt := s.dtime }
    if 2 ≤ pwrState s then .next s0
    else if s.sec.cause = .powerOn && s.sec.step < 8 && ! s.sec.held then .next s0
    else
      let s1 := loseAll s0
      .next (setSec s1 { s1.sec with held := true })

/-- The link trains once PERST# is released: WAKE# is no longer driven (15 R619). -/
def releaseWakePin (s : State) : State :=
  if s.power.wakePin then emit (setPower s { s.power with wakePin := false }) (.pin pinWake true) else s

/-- PERST_RELEASE (17 R689, R690): a held device starts up, and A2 and A3 have a wake event. -/
def execPerstRelease (s : State) : Host.Outcome State Fault Refusal :=
  if ! s.sec.pwrgd || ! s.sec.perst then .next s
  else
    let s1 := releaseWakePin (setSec s { s.sec with perst := false })
    if s.sec.held then .next (if s.sec.factory then s1 else beginBoot s1 .fundamental)
    else if (pwrState s1 = 2 || pwrState s1 = 3) && s1.power.exit = 0 && s1.power.wake.isNone then
      .next (setPower s1 { s1.power with wake := some s1.dtime })
    else .next s1

end Sys2Proof.Machine
end

