-- ==== Sys2Proof/Machine/Dress.lean ====
section
/-! DEFINITION. The Dressing engine's heads (07 R266 to R298): enable and disable, lines and frames, flips, the latch with its
check, DONE records and DSI packets. -/
namespace Sys2Proof.Machine

/-- Head `h`. -/
def headOf (s : State) (h : Nat) : HeadSt :=
  lget s.heads h noHead

def setHead (s : State) (h : Nat) (x : HeadSt) : State :=
  { s with heads := lset s.heads h x }

/-! Timing registers (07 R270, R290 to R292). -/

def hActive (s : State) (h : Nat) : Nat := rdF s (Reg.dressHeadHtiming h) 15 0
def hFront (s : State) (h : Nat) : Nat := rdF s (Reg.dressHeadHtiming h) 31 16
def hSync (s : State) (h : Nat) : Nat := rdF s (Reg.dressHeadHtiming h) 47 32
def hBack (s : State) (h : Nat) : Nat := rdF s (Reg.dressHeadHtiming h) 63 48
def vActive (s : State) (h : Nat) : Nat := rdF s (Reg.dressHeadVtiming h) 15 0
def vFront (s : State) (h : Nat) : Nat := rdF s (Reg.dressHeadVtiming h) 31 16
def vSync (s : State) (h : Nat) : Nat := rdF s (Reg.dressHeadVtiming h) 47 32
def vBack (s : State) (h : Nat) : Nat := rdF s (Reg.dressHeadVtiming h) 63 48
def hTotal (s : State) (h : Nat) : Nat := hActive s h + hFront s h + hSync s h + hBack s h
def vTotal (s : State) (h : Nat) : Nat := vActive s h + vFront s h + vSync s h + vBack s h
def pclkKhz (s : State) (h : Nat) : Nat := rdF s (Reg.dressHeadPclk h) 19 0
def headOwner (s : State) (h : Nat) : Nat := rdF s (Reg.dressHeadCtl h) 21 17
def headOutput (s : State) (h : Nat) : Nat := rdF s (Reg.dressHeadCtl h) 2 1
def headDepth (s : State) (h : Nat) : Nat := rdF s (Reg.dressHeadCtl h) 4 3
def leadLines (s : State) (h : Nat) : Nat := rdF s (Reg.dressHeadCtl h) 16 5

/-- Pixel clocks of a line, in the unit of `acc`. -/
def lineClocks (s : State) (h : Nat) : Nat :=
  hTotal s h * 1000000

/-! Enable and disable (07 R268, R289). -/

/-- The eDP link rates, in Mb/s per lane (07 R288). -/
def edpRate (code : Nat) : Nat :=
  lget [1620, 2160, 2430, 2700, 3240, 4320, 5400, 8100] code 0

/-- Bits per pixel of a DEPTH (07 R290). -/
def depthBits (d : Nat) : Nat :=
  match d with
  | 0 => 24
  | 1 => 30
  | _ => 16

/-- The lanes' total rate `mbps` carries the pixel clock times the bits per pixel within 95 % (07 R289). -/
def carries (s : State) (h mbps : Nat) : Bool :=
  pclkKhz s h * depthBits (headDepth s h) * 100 ≤ mbps * 1000 * 95

/-- A timing field is 0. -/
def timingZero (s : State) (h : Nat) : Bool :=
  [hActive s h, hFront s h, hSync s h, hBack s h, vActive s h, vFront s h, vSync s h, vBack s h].any (· == 0)

/-- The other head is enabled with eDP (07 R268). -/
def edpTaken (s : State) (h : Nat) : Bool :=
  (headOf s (1 - h)).enabled && headOutput s (1 - h) = 2

/-- An eDP training result that the port's limits allow (07 R288, R294). -/
def trainOk (s : State) (t : Option (Nat × Nat)) : Option (Nat × Nat) :=
  match t with
  | none => none
  | some (r, l) =>
    if r ≤ rdF s Reg.dressEdpCfg 2 0 && l ≤ rdF s Reg.dressEdpCfg 5 3 && (l = 1 || l = 2 || l = 4) then some (r, l) else none

/-- The enable of a head is refused (07 R289); `t` is what eDP training reached. -/
def enableRefused (s : State) (h : Nat) (t : Option (Nat × Nat)) : Bool :=
  timingZero s h || pclkKhz s h < 25000 || 600000 < pclkKhz s h || headDepth s h = 3 ||
    (match headOutput s h with
      | 0 => false
      | 1 =>
        let lanes := rdF s (Reg.dressDsiCfg h) 2 0
        let rate := rdF s (Reg.dressDsiCfg h) 15 3
        lanes = 0 || 4 < lanes || rate < 80 || 4500 < rate || ! carries s h (lanes * rate)
      | 2 =>
        edpTaken s h || headDepth s h = 2 ||
          (match trainOk s t with
            | none => true
            | some (r, l) => ! carries s h (edpRate r * l))
      | _ => true)

/-- The eDP port's trained rate and lanes (07 R294). -/
def setTrained (s : State) (t : Option (Nat × Nat)) : State :=
  match t with
  | some (r, l) => wrF (wrF s Reg.dressEdpCfg 10 8 r) Reg.dressEdpCfg 13 11 l
  | none => wrF (wrF s Reg.dressEdpCfg 10 8 0) Reg.dressEdpCfg 13 11 0

/-- A head starts at line 0, black until it latches a record (07 R271, R283). -/
def startHead (s : State) (h : Nat) (t : Option (Nat × Nat)) : State :=
  let s1 := wrF s (Reg.dressHeadCtl h) 0 0 1
  let s2 := if headOutput s h = 2 then setTrained s1 (trainOk s t) else s1
  let x := headOf s h
  if x.enabled then setHead s2 h { x with stopping := false }
  else setHead s2 h { x with
    enabled := true, stopping := false, line := 0, acc := 0, lead := leadLines s h, latchMade := false,
    latched := none, shown := none, doneDue := false, fetchLine := 0, layersOff := [], wbRows := [] }

/-- HEAD_ENABLE (07 R289): a write of 1 to ENABLE while it is 0; `train` is the rate code and the lanes that eDP training
reached. -/
def execHeadEnable (head : BitVec 1) (train : Option (Nat × Nat)) (s : State) : Host.Outcome State Fault Refusal :=
  if s.sec.recovery then .next (hostTouch s) else
  let s := hostTouch s
  if rdF s (Reg.dressHeadCtl head.toNat) 0 0 = 1 then .next s
  else if enableRefused s head.toNat train then .next (wrF s Reg.dressStatus (5 + head.toNat) (5 + head.toNat) 1)
  else .next (startHead s head.toNat train)

/-- HEAD_DISABLE (07 R289): a write of 0 to ENABLE; the head stops at the next start of line VACTIVE. -/
def execHeadDisable (head : BitVec 1) (s : State) : Host.Outcome State Fault Refusal :=
  if s.sec.recovery then .next (hostTouch s) else
  let s := hostTouch s
  let s1 := wrF s (Reg.dressHeadCtl head.toNat) 0 0 0
  .next (setHead s1 head.toNat { headOf s head.toNat with stopping := (headOf s head.toNat).enabled })

/-- The head stops scanning; the eDP main link is turned off (07 R289). -/
def stopHead (s : State) (h : Nat) : State :=
  let s1 := setHead s h { headOf s h with enabled := false, stopping := false }
  if headOutput s h = 2 then setTrained s1 none else s1

/-- A line ends and the next begins; at line VACTIVE the DONE record falls due, and a head whose ENABLE was cleared stops
(07 R274, R289). -/
def nextLine (s : State) (h : Nat) : State :=
  let x := headOf s h
  let s1 := setHead s h { x with
    line := x.line + 1, acc := x.acc - lineClocks s h,
    doneDue := x.doneDue || x.line + 1 = vActive s h }
  if x.line + 1 = vActive s h && x.stopping then stopHead s1 h else s1

/-- One nanosecond of a head's pixel clock (07 R270): the last line of a frame lasts until FRAME_START. -/
def tickHead (s : State) (h : Nat) : State :=
  let x := headOf s h
  if ! x.enabled then s
  else
    let s1 := setHead s h { x with acc := x.acc + pclkKhz s h }
    if lineClocks s h ≤ x.acc + pclkKhz s h && x.line + 1 < vTotal s h then nextLine s1 h else s1

/-! Flips (07 R271, R272). -/

/-- A frame record address becomes pending; one that it replaces is counted (07 R272). -/
def flipHead (s : State) (h a : Nat) : State :=
  let s1 := if (headOf s h).pending.isSome then bump32 s Reg.dressReplaceCount Reg.dressStatus 1 1 else s
  setHead s1 h { headOf s1 h with pending := some a }

/-- DRESS_FLIP (07 R272, R295): ignored from a partition that does not own the head. -/
def execDressFlip (p : Part) (head : BitVec 1) (value : Word) (s : State) : Host.Outcome State Fault Refusal :=
  if s.sec.recovery then .next (hostTouch s) else
  let s := hostTouch s
  if headOwner s head.toNat = p.toNat then .next (flipHead s head.toNat (wbits value 47 0)) else .next s

/-! The latch (07 R271, R275 to R283). -/

/-- The record that an error of a head writes (07 R279). -/
def dressRec (s : State) (h code recAddr fault : Nat) (detail : List Byte) : ErrRec :=
  { code := code, engine := Engine.dress h, part := headOwner s h, flags := flagInfo, slot := 0xFFFF, ring := 0xFFFFFFFF,
    entry := recAddr, fault := fault, dtime := s.dtime, detail := detail }

/-- A read by the Dressing engine through the owner's partition table: only CLAIM segments serve it (07 R269). -/
def dressRead (s : State) (p va n : Nat) : State × (XFault ⊕ List Byte) :=
  match findSeg (tableOf s (.part p)) va with
  | some (i, g) =>
    if g.kind = .claim then engineRead s 8 (.part p) .read va n (.fail .abort)
    else (s, .inl (xfault Cond.segPerm va (.part p) .read (some (i, g)) 0))
  | none => (s, .inl (xfault Cond.segMiss va (.part p) .read none 0))

/-- A write by the Dressing engine, likewise. -/
def dressWrite (s : State) (p va : Nat) (bs : List Byte) : State × Option XFault :=
  match findSeg (tableOf s (.part p)) va with
  | some (i, g) =>
    if g.kind = .claim then engineWrite s 8 (.part p) .record va bs
    else (s, some (xfault Cond.segPerm va (.part p) .write (some (i, g)) 0))
  | none => (s, some (xfault Cond.segMiss va (.part p) .write none 0))

/-- Reads `n` words of 8 bytes one after the other; a fault names the byte offset of its word (07 R283). -/
def dressWords (s : State) (p va : Nat) (n off : Nat) (acc : List Byte) : State × ((XFault × Nat) ⊕ List Byte) :=
  match n with
  | 0 => (s, .inr acc)
  | k + 1 =>
    match dressRead s p (va + off) 8 with
    | (s1, .inl f) => (s1, .inl (f, off))
    | (s1, .inr bs) => dressWords s1 p va k (off + 8) (acc ++ bs)

/-- The formats that a layer accepts (07 R277). -/
def layerFormat (f : Nat) : Bool :=
  [0x09, 0x0D, 0x0E, 0x0F, 0x1A, 0x1E, 0x28, 0x2C].any (· == f)

/-- The formats that a writeback accepts (07 R275). -/
def wbFormat (f : Nat) : Bool :=
  f = 0x09 || f = 0x28 || f = 0x1E

/-- The byte offset of the first word of a record's header that breaks R278. -/
def headerFault (b : List Byte) : Option Nat :=
  if fAt b 0 63 48 ≠ 0 || fAt b 0 0 0 ≠ 0 then some 0
  else if fAt b 8 63 48 ≠ 0 then some 8
  else if fAt b 0x10 63 57 ≠ 0 || (fAt b 0x10 47 0 ≠ 0 && ! wbFormat (fAt b 0x10 55 48)) then some 0x10
  else if fAt b 0x18 63 32 ≠ 0 then some 0x18
  else if fAt b 0x20 63 48 ≠ 0 then some 0x20
  else if fAt b 0x28 63 33 ≠ 0 then some 0x28
  else if fAt b 0x30 63 48 ≠ 0 || fAt b 0x30 3 0 ≠ 0 then some 0x30
  else if wordAt b 0x38 ≠ 0 then some 0x38
  else none

/-- The 64 bytes of layer `i` of a record. -/
def layerBytes (b : List Byte) (i : Nat) : List Byte :=
  slice b (64 + 64 * i) 64

/-- Layer `i` is enabled in its record (07 R276). -/
def layerOn (b : List Byte) (i : Nat) : Bool :=
  fAt (layerBytes b i) 0 56 56 = 1

/-- The byte offset, within its layer entry, of the first word that breaks R278, on a head of `w` by `h` pixels. -/
def layerFault (l : List Byte) (w h : Nat) : Option Nat :=
  if ! layerFormat (fAt l 0 55 48) || fAt l 0 59 58 = 3 || fAt l 0 63 60 ≠ 0 then some 0
  else if w < fAt l 8 47 32 + fAt l 0x10 15 0 || h < fAt l 8 63 48 + fAt l 0x10 31 16 then some 8
  else if fAt l 0x10 15 0 = 0 || 16384 < fAt l 0x10 15 0 || fAt l 0x10 31 16 = 0 || 16384 < fAt l 0x10 31 16 ||
      fAt l 0x10 63 48 ≠ 0 then some 0x10
  else if fAt l 0x18 63 48 ≠ 0 then some 0x18
  else if fAt l 0x28 63 48 ≠ 0 || fAt l 0x28 0 0 ≠ 0 then some 0x28
  else if wordAt l 0x30 ≠ 0 then some 0x30
  else if wordAt l 0x38 ≠ 0 then some 0x38
  else none

/-- The place of the first failing word of a frame record: 0xFF or the layer, and the byte offset in the record (07 R278). -/
def recordFault (b : List Byte) (w h : Nat) : Option (Nat × Nat) :=
  match headerFault b with
  | some o => some (0xFF, o)
  | none => (List.range 8).findSome? (fun i =>
      if layerOn b i then (layerFault (layerBytes b i) w h).map (fun o => (i, 64 + 64 * i + o)) else none)

/-- A table read at the latch: a fault makes it the identity (07 R282). -/
def readTable (s : State) (p idx va n : Nat) (m : Map (List Byte)) : State × Map (List Byte) :=
  if va = 0 then (s, m)
  else match dressRead s p va n with
    | (s1, .inl _) => (s1, m)
    | (s1, .inr bs) => (s1, mset m idx bs)

/-- The tables of a record: the post-blend table, and the pre-blend table of each enabled layer (07 R285). -/
def readTables (s : State) (p : Nat) (b : List Byte) : State × Map (List Byte) :=
  (List.range 8).foldl (fun sm i =>
    if layerOn b i then readTable sm.1 p i (fAt (layerBytes b i) 0x28 47 0) 1542 sm.2 else sm)
    (readTable s p 8 (fAt b 0 47 0) 6150 [])

/-- A flip is discarded with a record of RING_FORMAT (07 R278). -/
def flipRejected (s : State) (h a what off : Nat) : State :=
  appendRec s (dressRec s h Cond.ringFormat a 0 (leBytes 1 what ++ zeroBytes 1 ++ leBytes 2 off))

/-- Latches the record at an address (07 R271, R278, R283); address 0 is black. -/
def latchAddr (s : State) (h a : Nat) : State :=
  let p := headOwner s h
  if a = 0 then setHead s h { headOf s h with latched := none }
  else if a % 64 ≠ 0 then flipRejected s h a 0xFF 0
  else match dressWords s p a 72 0 [] with
    | (s1, .inl (f, off)) =>
      bump32 (appendRec s1 (dressRec s1 h f.code a (a + off) (leBytes 1 0xFE ++ zeroBytes 1 ++ leBytes 2 off)))
        Reg.dressFaultCount Reg.dressStatus 3 1
    | (s1, .inr b) =>
      match recordFault b (hActive s h) (vActive s h) with
      | some (w, off) => flipRejected s1 h a w off
      | none =>
        let (s2, t) := readTables s1 p b
        setHead s2 h { headOf s2 h with latched := some { addr := a, bytes := b, tables := t, seen := false } }

/-- The latch of a head: a pending flip is taken, with its message (07 R271, R295). -/
def latchHead (s : State) (h : Nat) : State :=
  let x := headOf s h
  match x.pending with
  | none => setHead s h { x with latchMade := true }
  | some a =>
    let s1 := latchAddr (setHead s h { x with latchMade := true, pending := none }) h a
    let c := pkey (headOwner s h) (Reg.dressFlipCtl h)
    if rdF s1 c 11 11 = 1 then sendMsix s1 (headOwner s h) (rdF s1 c 10 0) else s1

/-- LATCH_LINE (07 R271): at the latch line, VACTIVE − LEAD_LINES, once in a frame. -/
def execLatchLine (head : BitVec 1) (s : State) : Host.Outcome State Fault Refusal :=
  let x := headOf s head.toNat
  if x.enabled && ! x.latchMade && vActive s head.toNat ≤ x.line + x.lead then .next (latchHead s head.toNat) else .next s

/-! Frames (07 R270, R273, R274). -/

/-- The record is first shown in a frame later than the one it names (07 R273). -/
def isLate (frames : Nat) (r : FrameRec) : Bool :=
  ! r.seen && fAt r.bytes 0x28 32 32 = 1 &&
    (let d := cdiff frames (fAt r.bytes 0x28 31 0)
     0 < d && d < 2 ^ 31)

/-- Line 0 starts: FRAMES advances and the latched record is shown (07 R270, R271). -/
def startFrame (s : State) (h : Nat) : State :=
  let x := headOf s h
  let f := (x.frames + 1) % 2 ^ 32
  let s1 := match x.latched with
    | some r => if isLate f r then bump32 s Reg.dressLateCount Reg.dressStatus 0 1 else s
    | none => s
  let r := x.latched.map (fun r => { r with seen := true })
  emit (setHead s1 h { x with
    line := 0, acc := x.acc - lineClocks s h, frames := f, lead := leadLines s h, latchMade := false, latched := r, shown := r,
    fetchLine := 0, layersOff := [], wbRows := [] })
    (.scanout h f ((r.map (fun r => r.addr)).getD 0) r.isSome)

/-- FRAME_START (07 R270): the last line of a frame has ended. -/
def execFrameStart (head : BitVec 1) (s : State) : Host.Outcome State Fault Refusal :=
  let x := headOf s head.toNat
  if x.enabled && vTotal s head.toNat ≤ x.line + 1 && lineClocks s head.toNat ≤ x.acc then .next (startFrame s head.toNat)
  else .next s

/-- The DONE record of the shown record (07 R274); a fault drops the write (R282). -/
def writeDone (s : State) (h : Nat) : State :=
  let x := headOf s h
  let s1 := setHead s h { x with doneDue := false }
  match x.shown with
  | none => s1
  | some r =>
    if fAt r.bytes 0x30 47 0 = 0 then s1
    else (dressWrite s1 (headOwner s h) (fAt r.bytes 0x30 47 0) (leBytes 8 x.frames ++ leBytes 8 s.dtime)).1

/-- DONE_RECORD (07 R274): after line VACTIVE has started. -/
def execDoneRecord (head : BitVec 1) (s : State) : Host.Outcome State Fault Refusal :=
  if (headOf s head.toNat).doneDue then .next (writeDone s head.toNat) else .next s

/-- The records of the heads that a partition owns are dropped (07 R269). -/
def dropHeads (s : State) (p : Nat) : State :=
  [0, 1].foldl (fun s h =>
    if headOwner s h = p then setHead s h { headOf s h with pending := none, latched := none, shown := none } else s) s

/-- HPD_INTERRUPT (07 R288): the link of an enabled eDP head is trained again, and counted. -/
def execHpdInterrupt (level : Bool) (train : Option (Nat × Nat)) (s : State) : Host.Outcome State Fault Refusal :=
  let s1 := wrF s Reg.dressEdpCfg 14 14 (b2n level)
  if [0, 1].any (fun h => (headOf s h).enabled && headOutput s h = 2) then
    .next (setTrained (bump32 s1 Reg.dressRetrainCount Reg.dressStatus 4 1) (trainOk s1 train))
  else .next s1

/-! DSI packets (07 R287, R293). -/

/-- DSI_COMMAND (07 R293): a write of 1 to GO queues a packet. -/
def execDsiCommand (port : BitVec 1) (s : State) : Host.Outcome State Fault Refusal :=
  if s.sec.recovery then .next (hostTouch s) else
  let s := hostTouch s
  .next (wrF s (Reg.dressDsiCmd port.toNat) 31 31 1)

/-- The payload bytes that a port's registers hold. -/
def dsiPayload (s : State) (k n : Nat) : List Byte :=
  ((List.range 16).flatMap (fun i => leBytes 4 (rd s (Reg.dressDsiData k i)).toNat)).take n

/-- A read's response returns in the first two data registers, or READ_ERR is set (07 R293). -/
def dsiResponse (s : State) (k : Nat) (resp : Option (List Byte)) : State :=
  match resp with
  | none => wrF s (Reg.dressDsiCmd k) 16 16 1
  | some bs =>
    let b := padTo 8 (bs.take (rdF s (Reg.dressDsiCmd k) 14 8))
    wrF (wr (wr s (Reg.dressDsiData k 0) (BitVec.ofNat 64 (fieldAt b 0 4))) (Reg.dressDsiData k 1)
      (BitVec.ofNat 64 (fieldAt b 4 4))) (Reg.dressDsiCmd k) 16 16 0

/-- The queued packet of a port is sent, and GO clears (07 R293). -/
def dsiSend (s : State) (k : Nat) (resp : Option (List Byte)) : State :=
  let c := Reg.dressDsiCmd k
  let isRead := rdF s c 15 15 = 1
  let s1 := emit s (.dsi k (rdF s c 15 0) (if isRead then [] else dsiPayload s k (rdF s c 14 8)))
  wrF (if isRead then dsiResponse s1 k resp else s1) c 31 31 0

/-- DSI_PACKET_SEND (07 R287, R293): in vertical blanking of the head that the port serves; `resp` is what a read drew. -/
def execDsiPacketSend (port : BitVec 1) (resp : Option (List Byte)) (s : State) : Host.Outcome State Fault Refusal :=
  let x := headOf s port.toNat
  if rdF s (Reg.dressDsiCmd port.toNat) 31 31 = 1 && x.enabled && headOutput s port.toNat = 1 &&
      vActive s port.toNat ≤ x.line then
    .next (dsiSend s port.toNat resp)
  else .next s

end Sys2Proof.Machine
end

