-- ==== Sys2Proof/Machine/Cadence.lean ====
section
/-! DEFINITION. The cadence unit (12 R510 to R512, R719), gates and deadlines (12 R514, R515). -/
namespace Sys2Proof.Machine

def setCad (s : State) (c : CadenceSt) : State :=
  setSched s { s.sched with cadence := c }

/-- P, in nanoseconds (12 R511). -/
def cadPeriod (s : State) : Nat :=
  s.sched.cadence.period.getD (1000000000 / rdF s Reg.cadenceCfg 14 0)

/-- 1/τ, the inverse of the tolerance (12 R510). -/
def tolInv (s : State) : Nat :=
  2 ^ (rdF s Reg.cadenceCfg 17 15 + 2)

/-- The cycle count, not wrapped, and the phase at the present DTIME (12 R512). -/
def cadNow (s : State) : Nat × Nat :=
  let c := s.sched.cadence
  let p := cadPeriod s
  let d := elapsed s c.t
  if c.locked then (c.cycles, if d < p then d * 2 ^ 32 / p else 0xFFFFFFFF)
  else (c.cycles + d / p, d * 2 ^ 32 / p % 2 ^ 32)

/-- The distance of two intervals. -/
def dist (a b : Nat) : Nat :=
  (a - b) + (b - a)

/-- The edge that CADENCE_CFG.FALLING selects (12 R510). -/
def selected (s : State) (rising : Bool) : Bool :=
  rising != (rdF s Reg.cadenceCfg 22 22 = 1)

/-- An edge of the selected kind that holds: a pulse, or rejected less than 40 µs after the last one (12 R510). -/
def takeEdge (s : State) : State :=
  let c := s.sched.cadence
  match c.lastPulse with
  | some l =>
    if elapsed s l < 40000 then bump32 s Reg.cadenceRejectCount Reg.schedStatus 5 1
    else setCad s { c with edge := some s.dtime }
  | none => setCad s { c with edge := some s.dtime }

/-- CADENCE_IN_EDGE (12 R510): an edge of the pin whose level then holds for `hold` nanoseconds. -/
def execCadenceInEdge (rising : Bool) (hold : Nat) (s : State) : Host.Outcome State Fault Refusal :=
  let c := s.sched.cadence
  if c.glitch then .next (setCad s { c with glitch := false })
  else if hold < 100 then .next (setCad s { c with glitch := true })
  else if selected s rising then .next (takeEdge s)
  else .next s

/-- The DTIME at which a missing pulse is noticed, P × (1 + τ) after the last pulse (12 R511). -/
def missAt (s : State) (last : Nat) : Nat :=
  last + cadPeriod s + cadPeriod s / tolInv s

/-- A pulse is missing at DTIME `n` (12 R511). -/
def missed (s : State) (n : Nat) : Bool :=
  match s.sched.cadence.lastPulse with
  | some l => s.sched.cadence.locked &&
      cadPeriod s * (tolInv s + 1) ≤ (n + 2 ^ 64 - l % 2 ^ 64) % 2 ^ 64 * tolInv s
  | none => false

/-- A missing pulse unlocks the unit, wraps the phase and clears the relock run (12 R511). -/
def missPulse (s : State) : State :=
  match s.sched.cadence.lastPulse with
  | some l =>
    let s1 := bump32 s Reg.cadenceUnlockCount Reg.schedStatus 4 1
    setCad s1 { s1.sched.cadence with
      period := some (cadPeriod s), locked := false, t := missAt s l % 2 ^ 64, cycles := s.sched.cadence.cycles + 1,
      runStart := false, runCount := 0, runLast := 0 }
  | none => s

/-- MISSING_PULSE (12 R511): no accepted edge has come in time. -/
def execMissingPulse (s : State) : Host.Outcome State Fault Refusal :=
  if s.sched.cadence.edge.isNone && missed s s.dtime then .next (missPulse s) else .next s

/-- The relock run with one more pulse at the end of interval `i` (12 R719): whether it starts there, its count and its
last interval. -/
def runNext (s : State) (i : Nat) : Nat :=
  let c := s.sched.cadence
  if c.runCount = 0 then 1
  else if dist i c.runLast * tolInv s ≤ c.runLast then c.runCount + 1 else 1

/-- A pulse at DTIME `e` while unlocked (12 R511, R719). -/
def pulseUnlocked (s : State) (e : Nat) : State :=
  let c := s.sched.cadence
  match c.lastPulse with
  | none => setCad s { c with lastPulse := some e, edge := none, runStart := true, runCount := 0 }
  | some l =>
    if ! c.runStart then setCad s { c with lastPulse := some e, edge := none, runStart := true, runCount := 0 }
    else
      let i := (e + 2 ^ 64 - l % 2 ^ 64) % 2 ^ 64
      let n := runNext s i
      if rdF s Reg.cadenceCfg 21 18 ≤ n then
        setCad s { c with
          period := some i, t := e, cycles := (cadNow s).1 + 1, locked := true, lastPulse := some e, edge := none,
          runStart := false, runCount := 0, runLast := 0 }
      else setCad s { c with lastPulse := some e, edge := none, runCount := n, runLast := i }

/-- P moved by an eighth of the difference, truncated toward zero (12 R511). -/
def trackPeriod (p i : Nat) : Nat :=
  if p ≤ i then p + (i - p) / 8 else p - (p - i) / 8

/-- A pulse at DTIME `e` while locked (12 R511). -/
def pulseLocked (s : State) (e l : Nat) : State :=
  let c := s.sched.cadence
  let p := cadPeriod s
  let i := (e + 2 ^ 64 - l % 2 ^ 64) % 2 ^ 64
  if dist i p * tolInv s ≤ p then
    setCad s { c with period := some (trackPeriod p i), t := e, cycles := c.cycles + 1, lastPulse := some e, edge := none }
  else
    let s1 := bump32 s Reg.cadenceUnlockCount Reg.schedStatus 4 1
    setCad s1 { s1.sched.cadence with
      locked := false, lastPulse := some e, edge := none, runStart := true, runCount := 1, runLast := i }

/-- The unit acts on an accepted edge of DTIME `e` (12 R511); a pulse that was missing before it has unlocked the unit. -/
def pulseAct (s : State) (e : Nat) : State :=
  let s1 := if missed s e then missPulse s else s
  match s1.sched.cadence.locked, s1.sched.cadence.lastPulse with
  | true, some l => pulseLocked s1 e l
  | _, _ => pulseUnlocked s1 e

/-- PULSE (12 R510, R511): 100 ns after an accepted edge. -/
def execPulse (s : State) : Host.Outcome State Fault Refusal :=
  match s.sched.cadence.edge with
  | some e => if due s e 100 then .next (pulseAct s e) else .next s
  | none => .next s

/-- PHASE_WRAP (12 R512): the unlocked phase wraps, which counts a cycle and is itself a reset. -/
def execPhaseWrap (s : State) : Host.Outcome State Fault Refusal :=
  let c := s.sched.cadence
  if ! c.locked && cadPeriod s ≤ elapsed s c.t then
    .next (setCad s { c with t := (c.t + cadPeriod s) % 2 ^ 64, cycles := c.cycles + 1 })
  else .next s

/-! Gates (12 R514). -/

/-- Work reaches its gate: the cycle or frame in which it opens, by the phase or line it finds (12 R514). -/
def gateAt (s : State) (gate value : Nat) : GateWait :=
  if gate = 1 then
    let (c, q) := cadNow s
    { kind := 1, turn := if q < value then c else c + 1, value := value }
  else
    let x := headOf s (gate - 2)
    let g := value % 65536
    if vTotal s (gate - 2) ≤ g then { kind := gate, turn := (x.frames + 1) % 2 ^ 32, value := 0 }
    else { kind := gate, turn := if x.line < g then x.frames else (x.frames + 1) % 2 ^ 32, value := g }

/-- A gate is open (12 R514): its phase or line is reached in its cycle or frame, or that has ended. -/
def gateOpen (s : State) (g : GateWait) : Bool :=
  if g.kind = 1 then
    let (c, q) := cadNow s
    g.turn < c || (g.turn = c && g.value ≤ q)
  else
    let x := headOf s (g.kind - 2)
    ! x.enabled || (x.frames = g.turn && g.value ≤ x.line) ||
      (let d := cdiff x.frames g.turn
       0 < d && d < 2 ^ 31)

/-- Work waits at a gate, by its identifier. -/
def waitGate (s : State) (wid gate value : Nat) : State :=
  setSched s { s.sched with gates := mset s.sched.gates wid (gateAt s gate value) }

/-- The gate of a disabled head that opens is counted (12 R514). -/
def countDead (s : State) (g : GateWait) : State :=
  if g.kind ≠ 1 && ! (headOf s (g.kind - 2)).enabled then bump32 s Reg.schedGateDeadCount Reg.schedStatus 3 1 else s

/-! Deadlines (12 R515). -/

/-- The deadline of a node, at the moment it is fixed. -/
def deadlineAt (s : State) (phase : Nat) : Nat × Nat :=
  let (c, q) := cadNow s
  (if q < phase then c else c + 1, phase)

/-- The node's deadline, where its context is REALTIME and it asks for one (12 R515). -/
def nodeDeadline (s : State) (ctx : Nat) (node : List Byte) : Option (Nat × Nat) :=
  if isRealtime s ctx && fAt node 0 14 14 = 1 then some (deadlineAt s (fAt node 8 63 32)) else none

/-- A deadline has passed (12 R515). -/
def deadlinePassed (s : State) (d : Nat × Nat) : Bool :=
  let (c, q) := cadNow s
  d.1 < c || (d.1 = c && d.2 ≤ q)

/-- Gated work proceeds: an entry or a node is ready, and a node's deadline is fixed (12 R514, R515). -/
def passGate (s : State) (wid : Nat) : State :=
  let s1 := setSched s { s.sched with gates := mdel s.sched.gates wid }
  match findNode s1 wid with
  | some (_, l, n) =>
    updNode s1 wid (fun n' => { n' with step := .ready, deadline := nodeDeadline s1 l.org.ctx n.node })
  | none =>
    { s1 with host := { s1.host with rings := mmap s1.host.rings (fun _ r =>
      updEntry r wid (fun e => if e.step = .gate then { e with step := .ready } else e)) } }

/-- Work with an identifier waits at step 5 (10 R417, 12 R526). -/
def atGate (s : State) (wid : Nat) : Bool :=
  s.host.rings.any (fun x => x.2.entries.any (fun e => e.wid = wid && e.step = .gate)) ||
    s.sched.launches.any (fun x => x.2.nodes.any (fun n => n.wid = wid && n.step = .gate))

/-- GATE_OPEN (12 R514). -/
def execGateOpen (wid : Nat) (s : State) : Host.Outcome State Fault Refusal :=
  match mget s.sched.gates wid with
  | some g => if gateOpen s g && atGate s wid then .next (settle (passGate (countDead s g) wid)) else .next s
  | none => .next s

/-- A miss is counted once for a node (12 R515). -/
def countMiss (s : State) (li : Nat) (l : Launch) (wid : Nat) : State :=
  let s1 := charge (bump32 s Reg.schedDeadlineMissCount Reg.schedStatus 2 1) l.org.ctx .misses 1
  let s2 := updNode s1 wid (fun n => { n with missed := true })
  setSched s2 { s2.sched with launches := mupd s2.sched.launches li (fun l => { l with misses := l.misses + 1 }) }

/-- DEADLINE_MISS (12 R515): a node has not completed when its deadline passes. -/
def execDeadlineMiss (wid : Nat) (s : State) : Host.Outcome State Fault Refusal :=
  match findNode s wid with
  | some (li, l, n) =>
    (match n.deadline with
      | some d => if nodeOpen n && ! n.missed && deadlinePassed s d then .next (countMiss s li l wid) else .next s
      | none => .next s)
  | none => .next s

end Sys2Proof.Machine
end

