-- ==== Sys2Proof/Machine/Compose.lean ====
section
/-! DEFINITION. Composition by the Dressing engine: the fetch of a line's layers, look-up tables, blending, output conversion and
writeback (07 R275 to R286). -/
namespace Sys2Proof.Machine

abbrev vZero : Val := .fin false 0 0
abbrev vOne : Val := .fin false 1 0

/-- 1 − x in FP32. -/
def oneMinus (x : Val) : Val :=
  add32 vOne (vneg x)

/-- The largest integer not above a value in [0, 2^11). -/
def floorVal (v : Val) : Nat :=
  match v with
  | .fin _ m e => if 0 ≤ e then m * 2 ^ e.toNat else m / 2 ^ (-e).toNat
  | _ => 0

/-- A UNORM16 as FP32. -/
def unorm16 (x : Nat) : Val :=
  rnd32 (quot false x 65535)

/-- Channel `ch` through a table of `n` entries; no table is the identity (07 R285). -/
def lookUp (tbl : Option (List Byte)) (n ch : Nat) (x : Val) : Val :=
  match tbl with
  | none => x
  | some b =>
    let e := fun (i : Nat) => unorm16 (fieldAt b (2 * (ch * n + i)) 2)
    let p := mul32 x (.fin false (n - 1) 0)
    let i := min (floorVal p) (n - 2)
    let f := add32 p (vneg (.fin false i 0))
    add32 (e i) (mul32 f (add32 (e (i + 1)) (vneg (e i))))

/-- The format whose codes divide by 2^n − 1 as an SRGB format's do here: colour is not linearised (07 R284). -/
def linearFmt (c : Nat) : Nat :=
  if c = 0x0D then 0x09 else if c = 0x0F then 0x0E else c

/-- Red, green, blue and alpha of an element in [0, 1] (07 R284). -/
def dressElem (fmt : Nat) (bs : List Byte) : List Val :=
  (decodeElem (linearFmt fmt) bs).map (fun x => limitVal vZero vOne (val32 x))

/-! Layers (07 R276, R280). -/
def lyAddr (l : List Byte) : Nat := fAt l 0 47 0
def lyFmt (l : List Byte) : Nat := fAt l 0 55 48
def lyPacked (l : List Byte) : Bool := fAt l 0 57 57 = 1
def lyBlend (l : List Byte) : Nat := fAt l 0 59 58
def lyPitch (l : List Byte) : Nat := fAt l 8 31 0
def lyX (l : List Byte) : Nat := fAt l 8 47 32
def lyY (l : List Byte) : Nat := fAt l 8 63 48
def lyW (l : List Byte) : Nat := fAt l 0x10 15 0
def lyH (l : List Byte) : Nat := fAt l 0x10 31 16
def lyAlpha (l : List Byte) : Val := unorm16 (fAt l 0x10 47 32)

/-- The surface of a compressed layer (06 R249). -/
def lySurf (l : List Byte) : XSurf :=
  { addr := lyAddr l, meta_ := fAt l 0x18 47 0, b := surfBytes (lyFmt l), w := lyW l, h := lyH l, clear := leBytes 8 (wordAt l 0x20) }

/-- The address lies in a CLAIM segment of the owner (07 R269). -/
def dressSeg (s : State) (p va : Nat) : Option XFault :=
  match findSeg (tableOf s (.part p)) va with
  | some (i, g) => if g.kind = .claim then none else some (xfault Cond.segPerm va (.part p) .read (some (i, g)) 0)
  | none => some (xfault Cond.segMiss va (.part p) .read none 0)

/-- Block `k` of a compressed layer; a decode that fails is counted with the block's first line (07 R280). -/
def dressBlock (s : State) (p : Nat) (x : XSurf) (k : Nat) (first : Bool) : State × (XFault ⊕ List (List Byte)) :=
  match dressSeg s p (x.meta_ + k / 2), dressSeg s p (x.addr + 64 * x.b * k) with
  | some f, _ => (s, .inl f)
  | none, some f => (s, .inl f)
  | none, none =>
    match readBlockBy first s 8 (.part p) x k with
    | (s1, .inl f) => (s1, .inl f)
    | (s1, .inr (l, _)) => (s1, .inr l)

/-- The elements of row `y` of a compressed layer: row y mod 8 of each block of its block row. -/
def dressRow (s : State) (p : Nat) (x : XSurf) (y n : Nat) (acc : List (List Byte)) : State × (XFault ⊕ List (List Byte)) :=
  match n with
  | 0 => (s, .inr (acc.take x.w))
  | m + 1 =>
    let per := (x.w + 7) / 8
    match dressBlock s p x (y / 8 * per + (per - n)) (y % 8 = 0) with
    | (s1, .inl f) => (s1, .inl f)
    | (s1, .inr l) => dressRow s1 p x y m (acc ++ (l.drop (y % 8 * 8)).take 8)

/-- The elements of a layer that line `line` of the head covers (07 R280). -/
def layerRow (s : State) (p : Nat) (l : List Byte) (line : Nat) : State × (XFault ⊕ List (List Byte)) :=
  let y := line - lyY l
  let b := surfBytes (lyFmt l)
  if lyPacked l then dressRow s p (lySurf l) y ((lyW l + 7) / 8) []
  else match dressRead s p (lyAddr l + y * lyPitch l) (lyW l * b) with
    | (s1, .inl f) => (s1, .inl f)
    | (s1, .inr bs) => (s1, .inr ((List.range (lyW l)).map (fun i => slice bs (i * b) b)))

/-- A faulting layer is off to the end of the frame, with one record (07 R282). -/
def layerFaults (s : State) (h i line rec_ : Nat) (f : XFault) : State :=
  let s1 := setHead s h { headOf s h with layersOff := (headOf s h).layersOff ++ [i] }
  bump32 (appendRec s1 (dressRec s1 h f.code rec_ f.va (leBytes 1 i ++ zeroBytes 1 ++ leBytes 2 line)))
    Reg.dressFaultCount Reg.dressStatus 3 1

/-- Fetches what the enabled layers from `i` on show on a line: by layer, its elements (07 R281, R282). -/
def fetchLayers (s : State) (h line : Nat) (r : FrameRec) (l : List Nat) : State × List (Nat × List (List Byte)) :=
  match l with
  | [] => (s, [])
  | i :: rest =>
    let e := layerBytes r.bytes i
    if layerOn r.bytes i && ! (headOf s h).layersOff.contains i && lyY e ≤ line && line < lyY e + lyH e then
      match layerRow s (headOwner s h) e line with
      | (s1, .inl f) => fetchLayers (layerFaults s1 h i line r.addr f) h line r rest
      | (s1, .inr row) =>
        let q := fetchLayers s1 h line r rest
        (q.1, (i, row) :: q.2)
    else fetchLayers s h line r rest

/-! Blending (07 R286). -/

/-- One layer over a colour. -/
def blend (l : List Byte) (tbl : Option (List Byte)) (src : List Val) (dst : List Val) : List Val :=
  let a := lyAlpha l
  let alpha := lget src 3 vOne
  (List.range 3).map (fun ch =>
    let cs := lookUp tbl 257 ch (lget src ch vZero)
    let cd := lget dst ch vZero
    if lyBlend l = 0 then add32 (mul32 cs a) (mul32 cd (oneMinus a))
    else if lyBlend l = 1 then add32 (mul32 cs a) (mul32 cd (oneMinus (mul32 alpha a)))
    else add32 (mul32 cs (mul32 alpha a)) (mul32 cd (oneMinus (mul32 alpha a))))

/-- Pixel `x` of a line after the post-blend table. -/
def pixelAt (r : FrameRec) (rows : List (Nat × List (List Byte))) (x : Nat) : List Val :=
  let bg := [unorm16 (fAt r.bytes 8 15 0), unorm16 (fAt r.bytes 8 31 16), unorm16 (fAt r.bytes 8 47 32)]
  let c := rows.foldl (fun c q =>
    let l := layerBytes r.bytes q.1
    if lyX l ≤ x && x < lyX l + lyW l then
      blend l (mget r.tables q.1) (dressElem (lyFmt l) (lget q.2 (x - lyX l) [])) c
    else c) bg
  (List.range 3).map (fun ch => lookUp (mget r.tables 8) 1025 ch (limitVal vZero vOne (lget c ch vZero)))

/-- A value in [0, 1] as a code of `n` bits, to nearest even. -/
def codeOf (n : Nat) (v : Val) : Nat :=
  (nearInt (vmul v (.fin false (2 ^ n - 1) 0))).toNat

/-- Red, green and blue at the output depth (07 R286, R290). -/
def outCodes (depth : Nat) (c : List Val) : List Nat :=
  let n := if depth = 0 then [8, 8, 8] else if depth = 1 then [10, 10, 10] else [5, 6, 5]
  (List.range 3).map (fun ch => codeOf (lget n ch 8) (lget c ch vZero))

/-- A pixel in the writeback's format (07 R286): alpha is 1. -/
def wbElem (fmt : Nat) (c : List Val) : List Byte :=
  encodeElem fmt (c.map bits32 ++ [0x3F800000])

/-! Writeback (07 R275, R282). -/

/-- The writeback surface of a record, of the head's size. -/
def wbSurf (s : State) (h : Nat) (b : List Byte) : XSurf :=
  { addr := fAt b 0x10 47 0, meta_ := fAt b 0x20 47 0, b := surfBytes (fAt b 0x10 55 48), w := hActive s h, h := vActive s h,
    clear := zeroBytes 8 }

/-- The elements of block `j` of the rows held, absent outside the surface. -/
def wbBlock (x : XSurf) (rows : Map (List Byte)) (y0 j : Nat) : List (Option (List Byte)) :=
  (List.range 64).map (fun i =>
    let px := 8 * j + i % 8
    let py := y0 + i / 8
    if px < x.w && py < x.h then (mget rows py).map (fun r => slice r (px * x.b) x.b) else none)

/-- The blocks of a block row are written; a fault drops its write (07 R282). -/
def wbFlush (s : State) (p : Nat) (x : XSurf) (rows : Map (List Byte)) (y0 : Nat) : State :=
  let per := (x.w + 7) / 8
  (List.range per).foldl (fun s j =>
    let k := y0 / 8 * per + j
    match dressSeg s p (x.meta_ + k / 2), dressSeg s p (x.addr + 64 * x.b * k) with
    | none, none => (writeBlock s 8 (.part p) x k (wbBlock x rows y0 j)).1
    | _, _ => s) s

/-- A composed line goes to the writeback surface: row by row, or by block rows of a compressed one. -/
def writebackRow (s : State) (h line : Nat) (b : List Byte) (px : List (List Val)) : State :=
  let p := headOwner s h
  if fAt b 0x10 47 0 = 0 then s
  else
    let bytes := px.flatMap (wbElem (fAt b 0x10 55 48))
    if fAt b 0x10 56 56 = 1 then
      let x := headOf s h
      let rows := mset x.wbRows line bytes
      if line % 8 = 7 || line + 1 = vActive s h then
        wbFlush (setHead s h { x with wbRows := [] }) p (wbSurf s h b) rows (line / 8 * 8)
      else setHead s h { x with wbRows := rows }
    else (dressWrite s p (fAt b 0x10 47 0 + line * fAt b 0x18 31 0) bytes).1

/-- A line of the frame is composed: from its layers, from the background alone where it came late, black with no record
(07 R281, R286). -/
def composeLine (s : State) (h : Nat) (late : Bool) : State :=
  let x := headOf s h
  let line := x.fetchLine
  let s0 := setHead s h { x with fetchLine := line + 1 }
  let send := fun (s : State) (px : List (List Val)) =>
    if headOutput s h = 0 then s else emit s (.pixels h line (px.map (outCodes (headDepth s h))))
  match x.shown with
  | none => send s0 ((List.range (hActive s h)).map (fun _ => [vZero, vZero, vZero]))
  | some r =>
    let (s1, rows) :=
      if late then (bump32 s0 Reg.dressUnderrunCount Reg.dressStatus 2 1, ([] : List (Nat × List (List Byte))))
      else fetchLayers s0 h line r (List.range 8)
    let px := (List.range (hActive s h)).map (pixelAt r rows)
    writebackRow (send s1 px) h line r.bytes px

/-- LAYER_FETCH (07 R281): the next line of the frame is fetched and composed, or came late. -/
def execLayerFetch (head : BitVec 1) (late : Bool) (s : State) : Host.Outcome State Fault Refusal :=
  let x := headOf s head.toNat
  if x.enabled && x.fetchLine < vActive s head.toNat then .next (composeLine s head.toNat late) else .next s

end Sys2Proof.Machine
end

