-- ==== Sys2Proof/Machine/CoreInstr.lean ====
section
/-! DEFINITION. Group instructions that touch no data memory (04 R123 to R127, R135; 02 R37 to R40, R64, R65; 05 R190; 06 R214,
R231, R239). -/
namespace Sys2Proof.Machine

/-- The module of a group flushes subnormals (02 R39). -/
def ftzOf (s : State) (w : WG) : Bool :=
  ((entryOf s w.modKey w.entry).map (fun e => e.ftz)).getD false

/-- The same instruction for every thread of the current set. -/
def perThread (g : Group) (f : Nat → Group → Group) : Group :=
  (threadsOf g.cur.mask).foldl (fun h t => f t h) g

/-- Registers that a value of `w` bits takes. -/
def wideRegs (w : Nat) : Nat :=
  (w + 31) / 32

/-- Registers from `r`. -/
def regRange (r n : Nat) : List Nat :=
  (List.range n).map (r + ·)

/-- The registers that an instruction reads or writes: an outstanding read of one of them holds it (04 R124). -/
def opUses (o : CoreOp) : List Nat :=
  match o with
  | .int _ w dst a b => regRange dst (wideRegs w) ++ srcUses w a ++ srcUses w b
  | .cmp _ w dst a b => dst :: (srcUses w a ++ srcUses w b)
  | .fp _ dst a b c => dst :: (srcUses 32 a ++ srcUses 32 b ++ srcUses 32 c)
  | .fcmp _ dst a b => dst :: (srcUses 32 a ++ srcUses 32 b)
  | .cvt f dst a => regRange dst (cvtWidths f).2 ++ srcUses (32 * (cvtWidths f).1) a
  | .select w dst c a b => regRange dst (wideRegs w) ++ srcUses 32 c ++ srcUses w a ++ srcUses w b
  | .other dst n uses => regRange dst n ++ uses
  | .switch sel _ _ => srcUses 32 sel
  | .exit_ => []
  | .discard => []
  | .demote => []
  | .unreachable => []
  | .badFetch => []
  | .builtIn _ dst => [dst]
  | .push _ n dst => regRange dst n
  | .output _ a => srcUses 32 a
  | .vertexIn _ dst => regRange dst 4
  | .stageIn _ inv dst => dst :: srcUses 32 inv
  | .varying dst n => regRange dst n
  | .attachment _ _ dst => regRange dst 4
  | .interlockEnd => []

/-! What a thread knows of its place. -/

/-- The invocation of a thread within its job (06 R217), or within its workgroup's numbering. -/
def invocation (w : WG) (t : Nat) : Nat :=
  w.index * 64 + t

/-- The pass and the batch of a geometry workgroup. -/
def batchOf (s : State) (core : Nat) (w : WG) : Option (RPass × Batch) :=
  match passOf s w.org.wid with
  | some p => (mget p.units (core / 8)).map (fun b => (p, b))
  | none => none

/-- The patch of a control invocation. -/
def controlPatch (s : State) (p : RPass) (b : Batch) (i : Nat) : Nat :=
  i / controlPitch s p b

/-- The instance number of the i-th instance of a draw (06 R213, R214). -/
def instanceOf (p : RPass) (draw_ i : Nat) : Nat :=
  dFirstInst (drawAt p draw_) + i

/-- The value of a built-in of a thread, where its stage has one. -/
def builtInVal (s : State) (core : Nat) (w : WG) (g : Group) (b : BuiltIn) (t : Nat) : Option Nat :=
  let dims := ((jobOf s w.job).map (fun j => j.dims)).getD (1, 1)
  let frag := (tileOfWG s core w).bind (fun x => fragOf x g.gid t)
  let origin := match passOf s w.job, tileOfWG s core w with
    | some p, some x => tileAt p.desc x.tile
    | _, _ => (0, 0)
  let i := invocation w t
  match b with
  | .workgroupX => some (w.index % dims.1)
  | .workgroupY => some (w.index / dims.1 % dims.2)
  | .workgroupZ => some (w.index / dims.1 / dims.2)
  | .localIndex => some (g.idx * 64 + t)
  | .subgroup => some g.idx
  | .lane => some t
  | .vertex => (batchOf s core w).bind (fun x => (x.2.verts[i]?).map (fun v => v.2.1))
  | .instanceIndex => (batchOf s core w).bind (fun x => (x.2.verts[i]?).map (fun v => instanceOf x.1 v.1 v.2.2))
  | .primitive => (batchOf s core w).bind (fun x =>
      if w.stage = .control then some (controlPatch s x.1 x.2 i) else (x.2.points[i]?).map (fun q => q.1))
  | .invocation => (batchOf s core w).map (fun x => i % controlPitch s x.1 x.2)
  | .tessU => (batchOf s core w).bind (fun x => (x.2.points[i]?).map (fun q => q.2.1))
  | .tessV => (batchOf s core w).bind (fun x => (x.2.points[i]?).map (fun q => q.2.2.1))
  | .tessW => (batchOf s core w).bind (fun x => (x.2.points[i]?).map (fun q => q.2.2.2))
  | .fragX => frag.map (fun f => origin.1 + f.x)
  | .fragY => frag.map (fun f => origin.2 + f.y)
  | .sampleMask => frag.map (fun f => f.cover)
  | .helper => frag.map (fun f => b2n (f.helper || f.killed))
  | .fragDepth => frag.bind (fun f => f.depth.find? (fun d => d ≠ 0))

/-! Inputs of stages. -/

/-- The vertex input of a Location for a thread: its address and format (06 R214); none where the table has no such entry, or its
format is none that R242 lists as uncompressed. -/
def vertexSource (p : RPass) (b : Batch) (entry : List Byte) (i : Nat) : Option (Nat × Nat) :=
  match b.verts[i]? with
  | some (d, v, k) =>
    let e := if bitsN (fAt entry 8 47 40) 0 0 = 1 then instanceOf p d k else v
    let fmt := fAt entry 8 39 32
    if surfBytes fmt = 0 then none else some ((fAt entry 0 47 0 + fAt entry 8 31 0 * e) % 2 ^ 48, fmt)
  | none => none

/-- The vertex input table entry of a Location of a draw, if it has one. -/
def vertexEntry (s : State) (core : Nat) (w : WG) (d : List Byte) (loc : Nat) : State × (XFault ⊕ Option (List Byte)) :=
  if fAt d 0x60 53 48 ≤ loc then (s, .inr none)
  else match coreRead s core w (fAt d 0x60 47 0 + 16 * loc) 16 with
    | (s1, .inl f) => (s1, .inl f)
    | (s1, .inr b) => (s1, .inr (some b))

/-- The components of a vertex input for a thread. -/
def vertexFetch (s : State) (core : Nat) (w : WG) (src : Option (Nat × Nat)) : State × (XFault ⊕ Option (List Nat)) :=
  match src with
  | none => (s, .inr none)
  | some (a, fmt) => match coreRead s core w a (surfBytes fmt) with
    | (s1, .inl f) => (s1, .inl f)
    | (s1, .inr bs) => (s1, .inr (some (decodeElem fmt bs)))

/-- Four registers of each thread from what its fetch gave; what it does not give is free. -/
def writeFour (g : Group) (dst seed : Nat) (l : List (Nat × Option (List Nat))) : Group :=
  l.foldl (fun h e => (List.range 4).foldl (fun h i =>
    regWrN h e.1 (dst + i) 1 (match e.2 with
      | some v => lget v i 0
      | none => Config.freeNat (seed + 4 * e.1 + i))) h) g

/-- Vertex inputs of the threads of a set; the threads whose fetch faults, with the first fault. -/
def vertexInputs (s : State) (core : Nat) (w : WG) (p : RPass) (b : Batch) (entry : Option (List Byte)) (l : List Nat) :
    State × List (Nat × TFault) × List (Nat × Option (List Nat)) :=
  l.foldl (fun acc t =>
    match vertexFetch acc.1 core w (entry.bind (fun e => vertexSource p b e (invocation w t))) with
    | (s1, .inl f) => (s1, acc.2.1 ++ [(t, { code := f.code, fault := f.va, what := 0 })], acc.2.2)
    | (s1, .inr v) => (s1, acc.2.1, acc.2.2 ++ [(t, v)])) (s, [], [])

/-- A vertex input instruction (06 R214). -/
def opVertexIn (s : State) (n : Nat) (w : WG) (g : Group) (loc dst : Nat) : State :=
  match batchOf s n w, jobOf s w.job with
  | some (p, b), some j =>
    match vertexEntry s n w (drawAt p j.draw) loc with
    | (s1, .inl f) => settle (coreXFault s1 n w g f g.cur.mask)
    | (s1, .inr e) =>
      match vertexInputs s1 n w p b e (threadsOf g.cur.mask) with
      | (s2, f :: r, _) => settle (raiseFaults s2 n w g (f :: r))
      | (s2, [], l) => let (x, s3) := draw s2
        nextInstr s3 n w (writeFour g dst x l)
  | _, _ => s

/-- The output slot of the previous stage that a thread reads: of vertex `v` of its patch in a TessellationControl program, of control
point `v` of its patch in a TessellationEvaluation program. -/
def stageValue (s : State) (core : Nat) (w : WG) (slot t v : Nat) : Option Nat :=
  match batchOf s core w with
  | none => none
  | some (p, b) =>
    let i := invocation w t
    match w.stage with
    | .control => (b.prims[controlPatch s p b i]?).bind (fun q => (q.verts[v]?).bind (fun k => outAt b.outs k slot))
    | .eval => (b.points[i]?).bind (fun q => outAt b.outs (controlBase + q.1 * controlPitch s p b + v) slot)
    | _ => none

/-- An input attachment read: the element of the thread's pixel in the tile buffer (06 R239). -/
def attachValue (s : State) (core : Nat) (w : WG) (g : Group) (plane sample t : Nat) : Option (List Nat) :=
  match passOf s w.job, tileOfWG s core w with
  | some p, some x =>
    match fragOf x g.gid t, p.planes[plane]? with
    | some f, some e => if sample < pSamples p.desc then
        some (decodeElem (plFormat e) (elemBytes x e (elemOf p f.x f.y sample))) else none
    | _, _ => none
  | _, _ => none

/-! Outputs and exits. -/

/-- An output of a thread: of a geometry program by invocation, of a fragment program with its fragment (06 R217, R231). -/
def putOutput (s : State) (core : Nat) (w : WG) (gid t slot v : Nat) : State :=
  if w.stage = .fragment then
    updFrags s core w gid (2 ^ t) (fun f => { f with outs := mset f.outs slot (BitVec.ofNat 32 v) })
  else match jobOf s w.job with
    | some j => setJob s w.job { j with outs := mset j.outs (invocation w t * 256 + slot) (BitVec.ofNat 32 v) }
    | none => s

/-- Threads of the current set have exited: barriers count them as arrived (04 R132, R133), their fragments retire when they may
(06 R231), and a workgroup that is over leaves its core. -/
def exitSet (s : State) (n : Nat) (w : WG) (g : Group) (killed : Bool) : State :=
  let mask := g.cur.mask
  let g1 := openSubgroup (exitThreads (countIssue g) mask)
  let s1 := setWG s n (settleBarrier (putGroup w g1))
  let s2 := updFrags s1 n w g.gid mask (fun f => { f with step := .exited, killed := f.killed || killed })
  let s3 := if w.stage = .fragment then retireTile s2 n w.job w.index else s2
  noteConds (settle (settleWG s3 n w.wgid))

/-- The target of a branch for a thread (04 R126). -/
def branchTo (g : Group) (sel : Src) (cases : List (Nat × Nat)) (default_ t : Nat) : Nat :=
  match cases.find? (fun c => c.1 = srcVal g t sel) with
  | some c => c.2
  | none => default_

/-- Push constants (05 R190): all zero where a dispatch names none (10 R420). -/
def opPush (s : State) (n : Nat) (w : WG) (g : Group) (off k dst : Nat) : State :=
  let a := (bindOf s n w g.gid).2
  if w.stage = .compute && a = 0 then nextInstr s n w (regAll g g.cur.mask dst k 0)
  else match coreRead s n w (a + off) (4 * k) with
    | (s1, .inl f) => settle (coreXFault s1 n w g f g.cur.mask)
    | (s1, .inr bs) => nextInstr s1 n w (regAll g g.cur.mask dst k (leNat bs))

/-- Optional values for the threads of a set; those that are not given are free. -/
def writeOpt (s : State) (n : Nat) (w : WG) (g : Group) (dst : Nat) (f : Nat → Option Nat) : State :=
  let (x, s1) := draw s
  nextInstr s1 n w (perThread g (fun t h => regWrN h t dst 1 ((f t).getD (Config.freeNat (x + t)))))

/-- One instruction of a ready group. -/
def coreInstr (o : CoreOp) (s : State) (n : Nat) (w : WG) (g : Group) : State :=
  let z := ftzOf s w
  match o with
  | .int f wd dst a b =>
    nextInstr s n w (perThread g (fun t h => regWrN h t dst (wideRegs wd) (intFn f wd (srcWide g t wd a) (srcWide g t wd b))))
  | .cmp f wd dst a b =>
    nextInstr s n w (perThread g (fun t h => regWrN h t dst 1 (b2n (intCmp f wd (srcWide g t wd a) (srcWide g t wd b)))))
  | .fp f dst a b c =>
    nextInstr s n w (perThread g (fun t h => regWrN h t dst 1 (fpFn f z (srcVal g t a) (srcVal g t b) (srcVal g t c))))
  | .fcmp f dst a b => nextInstr s n w (perThread g (fun t h => regWrN h t dst 1 (b2n (fpCmp f z (srcVal g t a) (srcVal g t b)))))
  | .cvt f dst a =>
    nextInstr s n w (perThread g (fun t h => regWrN h t dst (cvtWidths f).2 (cvtFn f z (srcWide g t (32 * (cvtWidths f).1) a))))
  | .select wd dst c a b =>
    nextInstr s n w (perThread g (fun t h =>
      regWrN h t dst (wideRegs wd) (if srcVal g t c ≠ 0 then srcWide g t wd a else srcWide g t wd b)))
  | .other dst k _ =>
    let (x, s1) := draw s
    nextInstr s1 n w (perThread g (fun t h => (List.range k).foldl (fun h i => regWrN h t (dst + i) 1 (Config.freeNat (x + 256 * t + i))) h))
  | .switch sel cases d => setGroup s n w (branchSet (countIssue g) (branchTo g sel cases d))
  | .exit_ => exitSet s n w g false
  | .discard => exitSet s n w g true
  | .demote => nextInstr (updFrags s n w g.gid g.cur.mask (fun f => { f with killed := true })) n w g
  | .unreachable => settle (coreFaultAt s n w g Cond.groupTrap 0 g.cur.mask 0 0)
  | .badFetch => settle (coreFaultAt s n w g Cond.illegalInstr 0 g.cur.mask 0 0)
  | .builtIn b dst => writeOpt s n w g dst (builtInVal s n w g b)
  | .push off k dst => opPush s n w g off k dst
  | .output slot a => (threadsOf g.cur.mask).foldl (fun s t => putOutput s n w g.gid t slot (srcVal g t a)) (nextInstr s n w g)
  | .vertexIn loc dst => opVertexIn s n w g loc dst
  | .stageIn slot inv dst => writeOpt s n w g dst (fun t => stageValue s n w slot t (srcVal g t inv))
  | .varying dst k =>
    let (x, s1) := draw s
    nextInstr s1 n w (perThread g (fun t h => (List.range k).foldl (fun h i => regWrN h t (dst + i) 1 (Config.freeNat (x + 256 * t + i))) h))
  | .attachment plane sample dst =>
    let (x, s1) := draw s
    nextInstr s1 n w (writeFour g dst x ((threadsOf g.cur.mask).map (fun t => (t, attachValue s n w g plane sample t))))
  | .interlockEnd => nextInstr s n w g

/-- GROUP_INSTRUCTION (04 R124): a ready group issues an instruction for its current set. -/
def execGroupInstruction (core : CoreId) (group : Nat) (op : CoreOp) (s : State) : Host.Outcome State Fault Refusal :=
  match readyGroup s core.toNat group (opUses op) with
  | none => .next s
  | some (w, g) => .next (coreInstr op s core.toNat w g)

end Sys2Proof.Machine
end

