-- ==== Sys2Proof/Machine/Image.lean ====
section
/-! DEFINITION. Images and texture units (06 R241 to R248). -/
namespace Sys2Proof.Machine

/-! Image binding entries (06 R244). -/
def imBase (e : List Byte) : Nat := fAt e 0 47 0
def imFormat (e : List Byte) : Nat := fAt e 0 55 48
def imDim (e : List Byte) : Nat := fAt e 0 58 56
def imPacked (e : List Byte) : Bool := fAt e 0 59 59 = 1
def imWidth (e : List Byte) : Nat := if imDim e = 4 then fAt e 8 27 0 + 1 else fAt e 8 13 0 + 1
def imHeight (e : List Byte) : Nat := if imDim e = 0 || imDim e = 4 then 1 else fAt e 8 27 14 + 1
def imLayers (e : List Byte) : Nat := fAt e 8 43 32 + 1
def imLevels (e : List Byte) : Nat := fAt e 8 47 44 + 1

/-- The footprint of an ASTC block by its place in the order of R242. -/
def astcBlock (i : Nat) : Nat × Nat :=
  lget [(4, 4), (5, 4), (5, 5), (6, 5), (6, 6), (8, 5), (8, 6), (8, 8), (10, 5), (10, 6), (10, 8), (10, 10), (12, 10), (12, 12)] i (4, 4)

/-- Columns and rows of texels of a format's block, and its bytes (06 R242); each BC format takes its two codes in turn (log 37). -/
def blockOf (c : Nat) : Nat × Nat × Nat :=
  if c < 0x40 then (1, 1, surfBytes c)
  else if c < 0x50 then (4, 4, if c = 0x40 || c = 0x41 || c = 0x46 || c = 0x47 then 8 else 16)
  else if c < 0x60 then (4, 4, if c < 0x54 || c = 0x56 || c = 0x57 then 8 else 16)
  else ((astcBlock (c % 16)).1, (astcBlock (c % 16)).2, 16)

/-- The extent of a level. -/
def levelSize (n l : Nat) : Nat :=
  max 1 (n / 2 ^ l)

/-- Layers, faces or slices of a level. -/
def levelLayers (e : List Byte) (l : Nat) : Nat :=
  if imDim e = 2 then levelSize (imLayers e) l else if imDim e = 3 then 6 * imLayers e else imLayers e

/-- The row pitch of a level, and its rows of texels or blocks (06 R244). -/
def levelPitch (e : List Byte) (l : Nat) : Nat × Nat :=
  let (bw, bh, bytes) := blockOf (imFormat e)
  (roundUp ((levelSize (imWidth e) l + bw - 1) / bw * bytes) 256, (levelSize (imHeight e) l + bh - 1) / bh)

/-- The bytes of a level. -/
def levelBytes (e : List Byte) (l : Nat) : Nat :=
  roundUp ((levelPitch e l).1 * (levelPitch e l).2 * levelLayers e l) 4096

/-- A texel lies in the image. -/
def texelIn (e : List Byte) (q : Texel) : Bool :=
  q.level < imLevels e && q.x < levelSize (imWidth e) q.level && q.y < levelSize (imHeight e) q.level &&
    q.layer < levelLayers e q.level

/-- The address of a texel, or of the block that holds it, in an uncompressed layout (06 R244). -/
def texelAddr (e : List Byte) (q : Texel) : Nat :=
  let (bw, bh, bytes) := blockOf (imFormat e)
  if imDim e = 4 then imBase e + q.x * bytes
  else
    let (pitch, rows) := levelPitch e q.level
    imBase e + ((List.range q.level).map (levelBytes e)).foldl (· + ·) 0 + q.layer * (pitch * rows) + q.y / bh * pitch + q.x / bw * bytes

/-- An image entry that an instruction cannot use (06 R244, R246): a reserved code, a compressed image that R244 does not allow, or a
storage image that is compressed or of a format that is only sampled. -/
def imageBad (e : List Byte) (storage : Bool) : Bool :=
  ! surfCode (imFormat e) || 4 < imDim e ||
    (imPacked e && (imDim e ≠ 1 || imLevels e ≠ 1 || imLayers e ≠ 1 || ! xoelleFmt (imFormat e))) ||
    (storage && (imPacked e || 0x40 ≤ imFormat e || imFormat e = 0x2B))

/-- A sampler entry holds a reserved code (06 R245, R246). -/
def samplerBad (e : List Byte) : Bool :=
  fAt e 0 3 2 = 3 || 4 < fAt e 0 6 4 || 4 < fAt e 0 9 7 || 4 < fAt e 0 12 10 || 4 < fAt e 0 15 13 || 5 < fAt e 0 22 20

/-- The compressed surface of an image (06 R249). -/
def imageSurf (e : List Byte) : XSurf :=
  { addr := imBase e, meta_ := fAt e 0x10 47 0, b := surfBytes (imFormat e), w := imWidth e, h := imHeight e,
    clear := slice e 0x18 (surfBytes (imFormat e)) }

/-- Reads a texel: its components, or none where the spec does not give them (outside the image; a block-compressed format). -/
def texelRead (s : State) (core : Nat) (w : WG) (e : List Byte) (q : Texel) : State × (XFault ⊕ Option (List Nat)) :=
  let (_, _, bytes) := blockOf (imFormat e)
  if ! texelIn e q then (s, .inr none)
  else if imPacked e then
    let x := imageSurf e
    match readBlock s (benchOf core) (.ctx w.org.ctx) x (q.y / 8 * ((x.w + 7) / 8) + q.x / 8) with
    | (s1, .inl f) => (s1, .inl f)
    | (s1, .inr (l, _)) => (s1, .inr (some (decodeElem (imFormat e) (lget l (q.y % 8 * 8 + q.x % 8) []))))
  else match coreRead s core w (texelAddr e q) bytes with
    | (s1, .inl f) => (s1, .inl f)
    | (s1, .inr bs) => (s1, .inr (if imFormat e < 0x40 then some (decodeElem (imFormat e) bs) else none))

/-- Reads the texels of a footprint: the components of a single one, none where several are filtered. -/
def footRead (s : State) (core : Nat) (w : WG) (e : List Byte) (l : List Texel) : State × (XFault ⊕ Option (List Nat)) :=
  l.foldl (fun acc q =>
    match acc with
    | (s, .inl f) => (s, .inl f)
    | (s, .inr _) => match texelRead s core w e q with
      | (s1, .inl f) => (s1, .inl f)
      | (s1, .inr v) => (s1, .inr (if l.length = 1 then v else none))) ((s, .inr none) : State × (XFault ⊕ Option (List Nat)))

/-- Texels of the threads of a set; the threads whose reads fault. -/
def texelsOf (s : State) (core : Nat) (w : WG) (e : List Byte) (l : List (Nat × List Texel)) :
    State × List (Nat × TFault) × List (Nat × Option (List Nat)) :=
  l.foldl (fun acc t =>
    match footRead acc.1 core w e t.2 with
    | (s1, .inl f) => (s1, acc.2.1 ++ [(t.1, { code := f.code, fault := f.va, what := 0 })], acc.2.2)
    | (s1, .inr v) => (s1, acc.2.1, acc.2.2 ++ [(t.1, v)])) (s, [], [])

/-- The texel at a thread's coordinates. -/
def texelAt (g : Group) (t : Nat) (x y layer level : Src) : Texel :=
  { level := srcVal g t level, layer := srcVal g t layer, x := srcVal g t x, y := srcVal g t y }

/-- Registers that an image instruction reads. -/
def imageUses (f : ImageFn) (dst : Nat) : List Nat :=
  regRange dst 4 ++ (match f with
    | .read _ x y a l => srcUses 32 x ++ srcUses 32 y ++ srcUses 32 a ++ srcUses 32 l
    | .write x y a l => srcUses 32 x ++ srcUses 32 y ++ srcUses 32 a ++ srcUses 32 l
    | .sample _ _ _ => [])

/-- A binding that an instruction cannot use faults it, at the entry's address (06 R246). -/
def bindingFault (s : State) (n : Nat) (w : WG) (g : Group) (a : Nat) : State :=
  settle (coreFault s n w g Cond.bindingInvalid a g.cur.mask)

/-- Texels read into four registers of each thread. -/
def imageLoad (s : State) (n : Nat) (w : WG) (g : Group) (e : List Byte) (dst : Nat) (l : List (Nat × List Texel)) : State :=
  match texelsOf s n w e l with
  | (s1, f :: r, _) => settle (raiseFaults s1 n w g (f :: r))
  | (s1, [], v) => let (x, s2) := draw s1
    nextInstr s2 n w (writeFour g dst x v)

/-- Texels written from four registers of each thread; one outside the image is discarded (log 37). -/
def imageStore (s : State) (n : Nat) (w : WG) (g : Group) (e : List Byte) (src : Nat) (at_ : Nat → Texel) : State :=
  let z := surfBytes (imFormat e)
  let l := (threadsOf g.cur.mask).map (fun t => (t, if texelIn e (at_ t) then Target.dev (texelAddr e (at_ t)) else .beyond))
  match prepare s n w .write z l with
  | (s1, f :: r, _) => settle (raiseFaults s1 n w g (f :: r))
  | (s1, [], q) =>
    let data := fun (t : Nat) => encodeElem (imFormat e) ((List.range 4).map (fun i => (regRd g t (src + i)).toNat))
    let s2 := q.foldl (fun s x => storeOne s n w.wgid x.2 (data x.1)) (nextInstr s1 n w g)
    sendPeers s2 n g.gid w.org (q.filterMap (fun x => match x.2 with
      | (.dev va, .peer d a _) => some (d, a, va, data x.1)
      | _ => none))

/-- The sampler entry that an instruction names is read and checked (06 R245, R246). -/
def samplerRead (s : State) (n : Nat) (w : WG) (g : Group) (set binding : Nat) : State × Bool × List Byte :=
  let a := bindEntry s n w g.gid set binding
  match coreRead s n w a 32 with
  | (s1, .inl f) => (settle (coreXFault s1 n w g f g.cur.mask), false, [])
  | (s1, .inr e) => if samplerBad e then (bindingFault s1 n w g a, false, e) else (s1, true, e)

/-- The footprints of the threads of a set: of a comparison, which is a value that the spec does not state, the texels twice, so that no
single one decides. -/
def footOf (g : Group) (compare : Bool) (foot : List (Nat × List Texel)) : List (Nat × List Texel) :=
  (threadsOf g.cur.mask).map (fun t =>
    let l := ((foot.find? (fun x => x.1 = t)).map (fun x => x.2)).getD []
    (t, if compare then l ++ l else l))

/-- An image instruction of a ready group, its image entry read. -/
def imageInstr (f : ImageFn) (s : State) (n : Nat) (w : WG) (g : Group) (e : List Byte) (dst : Nat) : State :=
  match f with
  | .read _ x y a l => imageLoad s n w g e dst ((threadsOf g.cur.mask).map (fun t => (t, [texelAt g t x y a l])))
  | .write x y a l => imageStore s n w g e dst (fun t => texelAt g t x y a l)
  | .sample set binding foot =>
    match samplerRead s n w g set binding with
    | (s1, false, _) => s1
    | (s1, true, q) => imageLoad s1 n w g e dst (footOf g (fAt q 0 16 16 = 1) foot)

/-- The instruction uses its image as a storage image. -/
def usesStorage (f : ImageFn) : Bool :=
  match f with
  | .read storage _ _ _ _ => storage
  | .write _ _ _ _ => true
  | .sample _ _ _ => false

/-- IMAGE_SAMPLE (06 R241 to R247): a texture unit reads, writes or samples an image; `dst` is the first of the four registers of the
result, or of the texel written. -/
def execImageSample (core : CoreId) (group : Nat) (f : ImageFn) (set binding dst : Nat) (s : State) : Host.Outcome State Fault Refusal :=
  let n := core.toNat
  match readyGroup s n group (imageUses f dst) with
  | none => .next s
  | some (w, g) =>
    let a := bindEntry s n w group set binding
    match coreRead s n w a 32 with
    | (s1, .inl x) => .next (settle (coreXFault s1 n w g x g.cur.mask))
    | (s1, .inr e) =>
      if imageBad e (usesStorage f) then .next (bindingFault s1 n w g a) else .next (imageInstr f s1 n w g e dst)

end Sys2Proof.Machine
end

