-- ==== Sys2Proof/Machine/Xmt.lean ====
section
/-! DEFINITION. The XMT.core instructions (05 R195 to R209; 13 R567, R568). -/
namespace Sys2Proof.Machine

/-- A difference of tickets modulo 2^32 (05 R197, R198). -/
def ticketAhead (t last : Nat) : Bool :=
  let d := (t + 2 ^ 32 - last % 2 ^ 32) % 2 ^ 32
  1 ≤ d && d < 2 ^ 31

/-- The ticket after one; 0 is skipped (05 R197). -/
def ticketNext (t : Nat) : Nat :=
  if (t + 1) % 2 ^ 32 = 0 then 1 else (t + 1) % 2 ^ 32

/-- A ticket names no item: 0, or ahead of the last issued (05 R198, R206). -/
def ticketVoid (t last : Nat) : Bool :=
  t = 0 || ticketAhead t last

/-- An instruction in a kind of dispatch that excludes it raises ILLEGAL_INSTR (05 R195, 04 R160). -/
def illegal (s : State) (n : Nat) (w : WG) (g : Group) : State :=
  settle (coreFault s n w g Cond.illegalInstr 0 g.cur.mask)

/-- GLCompute, Kernel and Fragment programs. -/
def tensorStage (w : WG) : Bool :=
  w.stage = .compute || w.stage = .fragment

/-! Tensor issue, wait and poll (05 R196 to R199). -/

/-- Runs of a core's own items that its array has yet to take. -/
def coreWaiting (s : State) (n : Nat) : Nat :=
  (s.core.savedRuns.filter (fun r => match itemOf s r.item with
    | some it => (match it.path with
      | .core c _ _ => c = n && r.saved.isNone
      | _ => false)
    | none => false)).length

/-- The queue of a core's array is full (03 R84). -/
def arrayFull (s : State) (n : Nat) : Bool :=
  rdF s Reg.tensorCfg 3 0 + 1 ≤ (queueOf s n).length + coreWaiting s n

/-- Distinct targets in the order of the lowest thread that names each (05 R196). -/
def distinctTargets (l : List (Nat × Target)) : List Target :=
  (l.map (fun e => e.2)).eraseDups

/-- The bytes of the tile buffer that a handoff item of a workgroup may read (03 R112). -/
def handoffBytes (s : State) (n : Nat) (w : WG) : Nat :=
  match tileOfWG s n w with
  | some t => t.banks * 32768
  | none => 0

/-- One work item of a workgroup (05 R196, R197): its ticket is the next, and its descriptor is read in device memory or in the
workgroup's shared memory. -/
def issueOne (s : State) (n wgid : Nat) (x : Target) : State :=
  match (coreOf s n).wgs.find? (fun w => w.wgid = wgid) with
  | none => s
  | some w =>
    let t := ticketNext w.issued
    let s1 := setWG s n { w with issued := t }
    let path := TPath.core n wgid t
    if ! ctxLive s w.org.ctx then s
    else match x with
      | .dev va => issueItem s1 n w.org path va (handoffBytes s n w) id
      | .share off => acceptItem s1 n w.org path (sharedBytes w off 128) off (handoffBytes s n w)
      | _ => acceptItem s1 n w.org path (zeroBytes 128) 0 0

/-- The ticket of the i-th item that an instruction issues. -/
def ticketAfter (t i : Nat) : Nat :=
  match i with
  | 0 => ticketNext t
  | k + 1 => ticketNext (ticketAfter t k)

/-- The LOCAL_BOUND faults of descriptors in shared memory; a descriptor in device memory is read by the array. -/
def descFaults (s : State) (n : Nat) (w : WG) (l : List (Nat × Target)) : List (Nat × TFault) :=
  accessFaults s n w .read 128 (l.filter (fun e => match e.2 with
    | .share _ => true
    | _ => false))

/-- TENSOR_ISSUE (05 R196, R197; 03 R84): a group stalls while the queue of its core's array is full. -/
def execTensorIssue (core : CoreId) (group : Nat) (ptr : MemPtr) (dst : Nat) (s : State) : Host.Outcome State Fault Refusal :=
  let n := core.toNat
  match readyGroup s n group (dst :: ptrUses ptr) with
  | none => .next s
  | some (w, g) =>
    if ! tensorStage w then .next (illegal s n w g)
    else if arrayFull s n then .next s
    else match ptrBase s n w group ptr with
      | (s1, .inl f) => .next (settle (coreXFault s1 n w g f g.cur.mask))
      | (s1, .inr base) =>
        let l := targetsOf g 128 ptr base
        match descFaults s1 n w l with
        | f :: r => .next (settle (raiseFaults s1 n w g (f :: r)))
        | [] =>
          let ds := distinctTargets l
          let g1 := l.foldl (fun h e => regWrN h e.1 dst 1 (ticketAfter w.issued (ds.findIdx (fun x => x = e.2)))) g
          .next (settle (ds.foldl (fun s x => issueOne s n w.wgid x) (nextInstr s1 n w g1)))

/-- The latest ticket among those that threads wait for. -/
def latest (l : List Nat) : Option Nat :=
  l.foldl (fun m t => match m with
    | none => some t
    | some x => if ticketAhead t x then some t else some x) none

/-- TENSOR_WAIT (05 R198): a thread whose ticket names no item gets false; the set waits until the items of the others have completed,
then acquires and gets true. -/
def execTensorWait (core : CoreId) (group : Nat) (ticket : Src) (dst : Nat) (s : State) : Host.Outcome State Fault Refusal :=
  let n := core.toNat
  match readyGroup s n group (dst :: srcUses 32 ticket) with
  | none => .next s
  | some (w, g) =>
    if ! tensorStage w then .next (illegal s n w g)
    else
      let wait := ((threadsOf g.cur.mask).map (fun t => srcVal g t ticket)).filter (fun t => ! ticketVoid t w.issued)
      match latest (wait.filter (fun t => ! ticketDone w t)) with
      | some t => .next (setGroup s n w (waitSet (countIssue g) (.ticket t)))
      | none =>
        let s1 := nextInstr s n w (perThread g (fun t h => regWrN h t dst 1 (b2n (! ticketVoid (srcVal g t ticket) w.issued))))
        .next (if wait.isEmpty then s1 else l1Clear s1 n)

/-- TENSOR_POLL (05 R198): true where the item has completed, with an acquire; it waits for nothing. -/
def execTensorPoll (core : CoreId) (group : Nat) (ticket : Src) (dst : Nat) (s : State) : Host.Outcome State Fault Refusal :=
  let n := core.toNat
  match readyGroup s n group (dst :: srcUses 32 ticket) with
  | none => .next s
  | some (w, g) =>
    if ! tensorStage w then .next (illegal s n w g)
    else
      let ok := fun (t : Nat) => ! ticketVoid (srcVal g t ticket) w.issued && ticketDone w (srcVal g t ticket)
      let s1 := nextInstr s n w (perThread g (fun t h => regWrN h t dst 1 (b2n (ok t))))
      .next (if (threadsOf g.cur.mask).any ok then l1Clear s1 n else s1)

/-- A tile's list of handoff descriptors after further addresses: the fifth distinct one does not fit (05 R200). -/
def addHandoffs (l : List Nat) (more : List Nat) : List Nat ⊕ Nat :=
  more.foldl (fun acc a => match acc with
    | .inr b => .inr b
    | .inl l => if l.contains a then .inl l else if l.length < 4 then .inl (l ++ [a]) else .inr a) (.inl l)

/-- TILE_HANDOFF (05 R200): each thread's descriptor address is registered for the tile; a fifth distinct one raises TENSOR_DESC, and
the record gives that address. -/
def execTileHandoff (core : CoreId) (group : Nat) (ptr : MemPtr) (s : State) : Host.Outcome State Fault Refusal :=
  let n := core.toNat
  match readyGroup s n group (ptrUses ptr) with
  | none => .next s
  | some (w, g) =>
    match tileOfWG s n w with
    | none => .next (illegal s n w g)
    | some t =>
      if t.banks = 0 then .next (illegal s n w g)
      else match ptrBase s n w group ptr with
        | (s1, .inl f) => .next (settle (coreXFault s1 n w g f g.cur.mask))
        | (s1, .inr base) =>
          let l := (targetsOf g 0 ptr base).filterMap (fun e => match e.2 with
            | .dev va => some (e.1, va)
            | _ => none)
          match addHandoffs t.handoffs (l.map (fun e => e.2)) with
          | .inl hs => .next (nextInstr (setTile s1 n { t with handoffs := hs }) n w g)
          | .inr a =>
            .next (settle (coreFault s1 n w g Cond.tensorDesc a (maskOf ((l.filter (fun e => e.2 = a)).map (fun e => e.1)))))

/-! Time bases (05 R201, R202). -/

/-- CADENCE_READ (05 R201): the phase, and the lock state above the cycle count. -/
def execCadenceRead (core : CoreId) (group : Nat) (dst : Nat) (s : State) : Host.Outcome State Fault Refusal :=
  let n := core.toNat
  match readyGroup s n group [dst, dst + 1] with
  | none => .next s
  | some (w, g) =>
    let (c, ph) := cadNow s
    .next (nextInstr s n w (regAll g g.cur.mask dst 2 (ph + (c % 2 ^ 31 + b2n s.sched.cadence.locked * 2 ^ 31) * 2 ^ 32)))

/-- What LineRead gives for a head (05 R202). -/
def lineWord (s : State) (h : Nat) : Nat :=
  let x := headOf s h
  if x.enabled then x.line % 2 ^ 16 + b2n (vActive s h ≤ x.line) * 2 ^ 16 + 2 ^ 31 else 0

/-- LINE_READ (05 R202). -/
def execLineRead (core : CoreId) (group : Nat) (head : BitVec 1) (dst : Nat) (s : State) : Host.Outcome State Fault Refusal :=
  let n := core.toNat
  match readyGroup s n group [dst] with
  | none => .next s
  | some (w, g) => .next (nextInstr s n w (regAll g g.cur.mask dst 1 (lineWord s head.toNat)))

/-! Mark feed (05 R203; 13 R567, R568). -/

/-- The operation at an offset of a feed page. -/
def markOpAt (off : Nat) : Option MarkOpKind :=
  match off with
  | 0 => some .feed
  | 0x100 => some .alive
  | 0x200 => some .finish
  | 0x300 => some .finishNoCheck
  | 0x400 => some .restart
  | _ => none

/-- The unit and operation that a feed pointer reaches, its frame's translation made: a feed page granted to the partition. -/
def feedTarget (s : State) (core : Nat) (w : WG) (va : Nat) : State × (XFault ⊕ (Nat × MarkOpKind)) :=
  let t := TableId.ctx w.org.ctx
  let perm := xfault Cond.segPerm va t .write (findSeg (tableOf s t) va) 0
  match segStep s t .write va with
  | .inl f => (s, .inl f)
  | .inr (_, g) =>
    if g.kind ≠ .claim then (s, .inl perm)
    else
      let r : State × (XFault ⊕ Nat) := match xfind s (benchOf core) t (va / 2 ^ 21) with
        | some e => (xput s (benchOf core) e, .inr e.frame)
        | none => walkFrame s (benchOf core) t g (va / 2 ^ 21)
      match r with
      | (s1, .inl f) => (s1, .inl { f with va := va, acc := accCode .write })
      | (s1, .inr f) =>
        match feedUnit s1 (f + va % 2 ^ 21) 1, markOpAt (va % 4096) with
        | some u, some k => if rdF s1 (Reg.markGrant u) 4 0 = w.org.part then (s1, .inr (u, k)) else (s1, .inl perm)
        | _, _ => (s1, .inl perm)

/-- The units and operations of the threads of a set; the threads whose pointer faults. -/
def feedTargets (s : State) (core : Nat) (w : WG) (g : Group) (ptr : Nat) :
    State × List (Nat × TFault) × List (Nat × Nat × MarkOpKind) :=
  (threadsOf g.cur.mask).foldl (fun acc t =>
    match feedTarget acc.1 core w (regRd64 g t ptr % 2 ^ 48) with
    | (s1, .inl f) => (s1, acc.2.1 ++ [(t, { code := f.code, fault := f.va, what := 0 })], acc.2.2)
    | (s1, .inr x) => (s1, acc.2.1, acc.2.2 ++ [(t, x)])) (s, [], [])

/-- An operation enters a unit's queue; a unit that is not enabled accepts none (13 R576). -/
def queueMark (s : State) (u : Nat) (o : MarkOp) : State :=
  if rdF s (Reg.markCtl u) 0 0 = 1 then setMark s u { markOf s u with queue := (markOf s u).queue ++ [o] } else s

/-- MARK_FEED (05 R203; 13 R567, R568): one feed for each thread, in thread order; a queue without room stalls the group. -/
def execMarkFeed (core : CoreId) (group ptr : Nat) (value : Src) (size : MemSize) (s : State) : Host.Outcome State Fault Refusal :=
  let n := core.toNat
  match readyGroup s n group ([ptr, ptr + 1] ++ srcUses 32 value) with
  | none => .next s
  | some (w, g) =>
    match feedTargets s n w g ptr with
    | (s1, f :: r, _) => .next (settle (raiseFaults s1 n w g (f :: r)))
    | (s1, [], l) =>
      if l.any (fun e => 64 < (markOf s1 e.2.1).queue.length + (l.filter (fun x => x.2.1 = e.2.1)).length) then .next s
      else .next (l.foldl (fun s e =>
        queueMark s e.2.1 { kind := e.2.2, size := min (sizeOf size) 4, value := srcVal g e.1 value }) (nextInstr s1 n w g))

/-! Local-store control (05 R204 to R207). -/

/-- Bytes of copies that have not completed on a core. -/
def copyBytes (s : State) (n : Nat) : Nat :=
  ((coreOf s n).wgs.flatMap (fun w => w.groups.flatMap (fun g => g.copies.map (fun c => c.bytes)))).foldl (· + ·) 0

/-- The source address of a copy that lies beyond its binding: it copies zeros (05 R191). -/
abbrev zeroSource : Nat := 2 ^ 48

/-- The fault of one thread's copy (05 R204): its source, its alignment, its destination. -/
def asyncFault (s : State) (n : Nat) (w : WG) (dst bytes : Nat) (x : Target) : State × Option TFault :=
  let bad := fun (va : Nat) => dst % 16 ≠ 0 || va % 16 ≠ 0 || bytes % 16 ≠ 0 || 4096 < bytes
  let bound := if w.sharedKib * 1024 < dst + bytes then some { code := Cond.localBound, fault := dst, what := 0 } else none
  match x with
  | .dev va =>
    let t := TableId.ctx w.org.ctx
    if bytes = 0 then (s, if bad va then some { code := Cond.segAlign, fault := va, what := 0 } else bound)
    else match segStep s t .read va with
      | .inl f => (s, some { code := f.code, fault := va, what := 0 })
      | .inr (_, g) =>
        if g.kind = .host || g.kind = .peer then (s, some { code := Cond.segPerm, fault := va, what := 0 })
        else if bad va then (s, some { code := Cond.segAlign, fault := va, what := 0 })
        else match xlateRange s (benchOf n) t .read va bytes with
          | (s1, .inl f) => (s1, some { code := f.code, fault := va, what := 0 })
          | (s1, .inr _) => (s1, bound)
  | _ => (s, if bad 0 then some { code := Cond.segAlign, fault := 0, what := 0 } else bound)

/-- The faults of the copies of a set. -/
def asyncFaults (s : State) (n : Nat) (w : WG) (g : Group) (dst bytes : Src) (l : List (Nat × Target)) : State × List (Nat × TFault) :=
  l.foldl (fun acc e =>
    match asyncFault acc.1 n w (srcVal g e.1 dst) (srcVal g e.1 bytes) e.2 with
    | (s1, some f) => (s1, acc.2 ++ [(e.1, f)])
    | (s1, none) => (s1, acc.2)) (s, [])

/-- The targets of copies: each thread its own number of bytes. -/
def copyTargets (g : Group) (src : MemPtr) (bytes : Src) (base : Nat × Nat) : List (Nat × Target) :=
  (threadsOf g.cur.mask).map (fun t => (t, targetOf g t (srcVal g t bytes) src base))

/-- The copies of a set are recorded in thread order, each with the next ticket of the group. -/
def startCopies (g : Group) (dst bytes : Src) (out : Nat) (l : List (Nat × Target)) : Group :=
  l.foldl (fun h e =>
    let t := ticketNext h.copyIssued
    let c : ACopy := { ticket := t, thread := e.1, dst := srcVal g e.1 dst, bytes := srcVal g e.1 bytes,
                       src := match e.2 with
                         | .dev va => va
                         | _ => zeroSource }
    regWrN { h with copyIssued := t, copies := h.copies ++ [c] } e.1 out 1 t) g

/-- ASYNC_COPY (05 R204, R205): copies that would exceed 64 KiB on the core stall the group. -/
def execAsyncCopy (core : CoreId) (group : Nat) (dst : Src) (src : MemPtr) (bytes : Src) (out : Nat) (s : State) :
    Host.Outcome State Fault Refusal :=
  let n := core.toNat
  match readyGroup s n group (out :: (srcUses 32 dst ++ ptrUses src ++ srcUses 32 bytes)) with
  | none => .next s
  | some (w, g) =>
    if w.stage ≠ .compute then .next (illegal s n w g)
    else match ptrBase s n w group src with
      | (s1, .inl f) => .next (settle (coreXFault s1 n w g f g.cur.mask))
      | (s1, .inr base) =>
        let l := copyTargets g src bytes base
        match asyncFaults s1 n w g dst bytes l with
        | (s2, f :: r) => .next (settle (raiseFaults s2 n w g (f :: r)))
        | (s2, []) =>
          if 65536 < copyBytes s n + ((threadsOf g.cur.mask).map (fun t => srcVal g t bytes)).foldl (· + ·) 0 then .next s
          else .next (nextInstr s2 n w (startCopies g dst bytes out l))

/-- Every copy of a group up to ticket `t` has completed (05 R206). -/
def copiesDone (g : Group) (t : Nat) : Bool :=
  g.copies.all (fun c => ticketAhead c.ticket t)

/-- Sets that wait for copies that have completed go on. -/
def wakeCopies (g : Group) : Group :=
  wakeWhere g (fun x => match x with
    | .copy t => copiesDone g t
    | _ => false)

/-- A copy's bytes arrive: read from its home slices without L1 (05 R204). -/
def copyArrives (s : State) (n : Nat) (w : WG) (g : Group) (c : ACopy) : State :=
  match (if c.src = zeroSource || c.bytes = 0 then (s, .inr (zeroBytes c.bytes)) else coreRead s n w c.src c.bytes) with
  | (s1, .inl f) => settle (coreXFault s1 n w g f (2 ^ c.thread))
  | (s1, .inr bs) =>
    let g1 := wakeCopies { g with copies := g.copies.erase c }
    settleCore (setWG s1 n (putShared (putGroup w g1) c.dst bs)) n

/-- ASYNC_COPY_COMPLETE (05 R206): the copy of a ticket of a group arrives in shared memory. -/
def execAsyncCopyComplete (core : CoreId) (group ticket : Nat) (s : State) : Host.Outcome State Fault Refusal :=
  match findGroup s core.toNat group with
  | none => .next s
  | some (w, g) => match g.copies.find? (fun c => c.ticket = ticket) with
    | some c => if ctxLive s w.org.ctx then .next (copyArrives s core.toNat w g c) else .next s
    | none => .next s

/-- COPY_WAIT (05 R206). -/
def execCopyWait (core : CoreId) (group : Nat) (ticket : Src) (s : State) : Host.Outcome State Fault Refusal :=
  let n := core.toNat
  match readyGroup s n group (srcUses 32 ticket) with
  | none => .next s
  | some (w, g) =>
    if w.stage ≠ .compute then .next (illegal s n w g)
    else
      let wait := ((threadsOf g.cur.mask).map (fun t => srcVal g t ticket)).filter (fun t =>
        ! ticketVoid t g.copyIssued && ! copiesDone g t)
      match latest wait with
      | some t => .next (setGroup s n w (waitSet (countIssue g) (.copy t)))
      | none => .next (nextInstr s n w g)

/-- The sector of an address is brought into L1, where its translation succeeds and L1 may hold it (05 R207). -/
def prefetchSector (s : State) (n : Nat) (w : WG) (va : Nat) : State :=
  match xlate s (benchOf n) (.ctx w.org.ctx) .read va 1 with
  | (s1, .inr (.mem a _)) => match sectorIn s1 a with
    | (s2, .bytes bs) => l1Put s2 n (a / 64) bs
    | (s2, .lostTo _) => s2
  | _ => s

/-- The sectors of a thread's range, at most 4,096 bytes. -/
def prefetchRange (s : State) (n : Nat) (w : WG) (bytes : Nat) (x : Target) : State :=
  match x with
  | .dev va =>
    let k := min bytes 4096
    if k = 0 then s
    else (List.range ((va + k - 1) / 64 - va / 64 + 1)).foldl (fun s i => prefetchSector s n w ((va / 64 + i) * 64)) s
  | _ => s

/-- L1_PREFETCH (05 R207): a hint that never faults. -/
def execL1Prefetch (core : CoreId) (group : Nat) (ptr : MemPtr) (bytes : Src) (s : State) : Host.Outcome State Fault Refusal :=
  let n := core.toNat
  match readyGroup s n group (ptrUses ptr ++ srcUses 32 bytes) with
  | none => .next s
  | some (w, g) =>
    match ptrBase s n w group ptr with
    | (s1, .inl _) => .next (nextInstr s1 n w g)
    | (s1, .inr base) =>
      .next ((targetsOf g 1 ptr base).foldl (fun s e => prefetchRange s n w (srcVal g e.1 bytes) e.2) (nextInstr s1 n w g))

/-! Scheduling hints and trap (05 R208, R209). -/

/-- YIELD (05 R208, 04 R127): the current set's turn ends. -/
def execYield (core : CoreId) (group : Nat) (s : State) : Host.Outcome State Fault Refusal :=
  let n := core.toNat
  match readyGroup s n group [] with
  | none => .next s
  | some (w, g) => .next (setGroup s n w { switchSet (stepSet (countIssue g)) with count := 0 })

/-- The nanoseconds that a set asks to sleep: the longest of its threads', at most 65,535 (05 R208). -/
def sleepNs (g : Group) (ns : Src) : Nat :=
  min 65535 (((threadsOf g.cur.mask).map (fun t => srcVal g t ns)).foldl max 0)

/-- SLEEP (05 R208). -/
def execSleep (core : CoreId) (group : Nat) (ns : Src) (s : State) : Host.Outcome State Fault Refusal :=
  let n := core.toNat
  match readyGroup s n group (srcUses 32 ns) with
  | none => .next s
  | some (w, g) =>
    .next (nextInstr s n w (if sleepNs g ns = 0 then g else { g with sleep := some (s.dtime, sleepNs g ns) }))

/-- A group whose sleep has expired is ready again. -/
def wakeSleep (s : State) (g : Group) : Group :=
  match g.sleep with
  | some (at_, ns) => if due s at_ ns then { g with sleep := none } else g
  | none => g

/-- SLEEP_EXPIRY (05 R208). -/
def execSleepExpiry (core : CoreId) (group : Nat) (s : State) : Host.Outcome State Fault Refusal :=
  match findGroup s core.toNat group with
  | some (w, g) => .next (setGroup s core.toNat w (wakeSleep s g))
  | none => .next s

/-- TRAP (05 R209): the record carries the value of the lowest thread. -/
def execTrap (core : CoreId) (group : Nat) (value : Src) (s : State) : Host.Outcome State Fault Refusal :=
  let n := core.toNat
  match readyGroup s n group (srcUses 32 value) with
  | none => .next s
  | some (w, g) =>
    .next (settle (coreFaultAt s n w g Cond.groupTrap 0 g.cur.mask 1 (srcVal g ((threadsOf g.cur.mask).headD 0) value)))

end Sys2Proof.Machine
end

