-- ==== Sys2Proof/Machine/CorePlace.lean ====
section
/-! DEFINITION. Work on cores: compute dispatches (10 R420), placement of workgroups and fragments (04 R120 to R124; 06 R230 to R232;
12 R507), and preemption at instruction boundaries with resumption (04 R164 to R167). -/
namespace Sys2Proof.Machine

/-! Compute dispatches (10 R420). -/

def gX (d : List Byte) : Nat := fAt d 8 31 0
def gY (d : List Byte) : Nat := fAt d 8 63 32
def gZ (d : List Byte) : Nat := fAt d 0x10 31 0

/-- A checked dispatch starts: its workgroups wait for placement. One of no workgroups is over at once. -/
def startDispatch (s : State) (o : Origin) (d : List Byte) : State :=
  match findModule s o.part (fAt d 0 31 0) with
  | none => workFormat s o 0
  | some (key, _) =>
    if gX d * gY d * gZ d = 0 then finish s o.wid 0
    else
      let (id, s1) := takeWid (takeSlot s o.ctx)
      setJob s1 id
        { org := o, stage := .compute, modKey := key, entry := fAt d 0 39 32, cores := spreadOf s1 (fAt d 0 47 40), bench := none,
          total := gX d * gY d * gZ d, next := 0, done := 0, dims := (gX d, gY d),
          threads := ((entryOf s1 key (fAt d 0 39 32)).map (fun e => e.threads)).getD 64,
          bind := fAt d 0x18 47 0, push := fAt d 0x20 47 0, compat := atomicCompat s1 key, draw := 0, saved := [],
          readyAt := s.dtime, start := none, used := [], outs := [] }

/-- DISPATCH (10 R416, R420). -/
def execDispatch (p : Part) (ring : BitVec 10) (s : State) : Host.Outcome State Fault Refusal :=
  match readyEntry s p.toNat ring.toNat 0x01 with
  | some (r, e) =>
    let rk := rkey p.toNat ring.toNat
    .next (settle (startDispatch (dispatched s rk r e) (entryOrigin rk r e) e.desc))
  | none => .next s

/-! Which work a core takes (12 R507). -/

/-- Work that may go to a core: a workgroup of a job that has never been placed, or a saved one; fragments of a tile on the core; a
saved tile. -/
inductive CoreWork where
  | newWG (job : Nat)
  | oldWG (job wgid : Nat)
  | frags (pass tile : Nat)
  | oldTile (pass tile : Nat)
  deriving DecidableEq, Repr

/-- A preemption of a context on a core is under way: nothing more of it is placed there. -/
def stopsOn (s : State) (n ctx : Nat) : Bool :=
  s.sched.stopCtx.contains (Engine.core n, ctx)

/-- Cores that hold workgroups of a job. -/
def jobCores (s : State) (id : Nat) : List Nat :=
  (s.core.cores.filter (fun c => c.2.wgs.any (fun w => w.job = id && w.stage ≠ .fragment))).map (fun c => c.1)

/-- A job may use a core (10 R420, 03 R83; 06 R217). -/
def jobMay (s : State) (n id : Nat) (j : Job) : Bool :=
  match j.bench with
  | some b => n / 8 = b && (((passOf s j.org.wid).map (fun p => (passCores s p).contains n)).getD false)
  | none => (jobCores s id).contains n || (j.cores ≠ 0 && (jobCores s id).length < j.cores)

/-- Thread groups, registers per thread and shared KiB of a workgroup of an entry point (04 R120, R121). -/
def wgNeeds (e : EntryPt) (threads : Nat) : Nat × Nat × Nat :=
  ((threads + 63) / 64, roundRegs e.regs, (e.shared + 1023) / 1024)

/-- The room on a core for a workgroup: issue paths for its groups and a place for its shared memory (04 R122, R124, R137). -/
def wgRoom (s : State) (n groups regs kib : Nat) : Option (List Nat × Nat) :=
  let c := coreOf s n
  if 48 ≤ c.wgs.length then none
  else match pathsFor c regs groups, (if kib = 0 then some 0 else fitRange s c kib 1) with
    | some ps, some a => some (ps, a)
    | _, _ => none

/-- The bytes that a workgroup reserves (12 R504). -/
def needBytes (groups regs kib : Nat) : Nat :=
  64 + groups * (512 + 256 * regs) + kib * 1024

/-- The next workgroup of a job fits a core: its place. -/
def newFits (s : State) (n id : Nat) (j : Job) : Option (EntryPt × List Nat × Nat) :=
  match entryOf s j.modKey j.entry with
  | none => none
  | some e =>
    let (k, r, kib) := wgNeeds e j.threads
    if j.total ≤ j.next || ! coreLive s n || stopsOn s n j.org.ctx || ! jobMay s n id j ||
        ! mayPlace s j.org.ctx (saveKib (needBytes k r kib)) then none
    else (wgRoom s n k r kib).map (fun x => (e, x.1, x.2))

/-- A saved workgroup fits a core. -/
def oldFits (s : State) (n id : Nat) (j : Job) (w : WG) : Option (List Nat × Nat) :=
  let kib := saveKib (wgSaveBytes w)
  if ! coreLive s n || stopsOn s n j.org.ctx || ! jobMay s n id j || ! mayPlace (unreserve s j.org.part kib) j.org.ctx kib then none
  else wgRoom s n w.groups.length w.regs w.sharedKib

/-- A tile on a core has fragments that a group could take now. -/
def fragsFit (s : State) (n : Nat) (t : TileSt) : Bool :=
  match passOf s t.pass with
  | none => false
  | some p => match (tileQuads s p t.tile).drop t.pos with
    | [] => false
    | q :: _ =>
      ! stopsOn s n p.org.ctx && ! s.sched.stopOps.contains (Engine.core n, t.pass) &&
        (match fragEntry s p q.1.draw with
          | none => true
          | some e => mayPlace s p.org.ctx (saveKib (64 + 512 + 256 * roundRegs e.regs)) && (coreOf s n).wgs.length < 48 &&
              (pathsFor (coreOf s n) (roundRegs e.regs) 1).isSome)

/-- A saved tile fits a core. -/
def oldTileFits (s : State) (n : Nat) (p : RPass) : Bool :=
  coreLive s n && ! stopsOn s n p.org.ctx && tileSlot s n p && (tilePlace s n p).isSome && (passCores s p).contains n

/-- The rank of work for a context (12 R507). -/
def workRank (s : State) (w : CoreWork) : List Nat :=
  match w with
  | .newWG id => match jobOf s id with
    | some j => rankOf s j.org.ctx j.org.wid j.readyAt
    | none => []
  | .oldWG id wgid => match jobOf s id with
    | some j => rankOf s j.org.ctx j.org.wid
        (((j.saved.find? (fun w => w.wgid = wgid)).bind (fun w => w.saved.map (fun x => x.2))).getD j.readyAt)
    | none => []
  | .frags pass _ => match passOf s pass with
    | some p => rankOf s p.org.ctx pass p.readyAt
    | none => []
  | .oldTile pass _ => match passOf s pass with
    | some p => rankOf s p.org.ctx pass p.readyAt
    | none => []

/-- The work that a core in service has room for. -/
def coreWork (s : State) (n : Nat) : List CoreWork :=
  if ! engineUp s (Engine.core n) then [] else
  (coreOf s n).tiles.filterMap (fun t => if fragsFit s n t then some (.frags t.pass t.tile) else none) ++
  s.raster.passes.flatMap (fun p => if oldTileFits s n p.2 then p.2.savedTiles.map (fun t => .oldTile p.1 t.1.tile) else []) ++
  s.core.jobs.flatMap (fun j => j.2.saved.filterMap (fun w =>
    if (oldFits s n j.1 j.2 w).isSome then some (.oldWG j.1 w.wgid) else none)) ++
  s.core.jobs.filterMap (fun j => if (newFits s n j.1 j.2).isSome then some (.newWG j.1) else none)

/-- The first-ranked of the work that a core has room for. -/
def bestCoreWork (s : State) (n : Nat) : Option CoreWork :=
  match bestIdx (workRank s) (coreWork s n) with
  | some i => (coreWork s n)[i]?
  | none => none

/-! Placing (04 R122, R137, R138). -/

/-- The draw of the invocation `i` of a geometry job: a thread of another draw's does not run. -/
def invocationRuns (s : State) (n : Nat) (j : Job) (i : Nat) : Bool :=
  match j.stage, passOf s j.org.wid with
  | .compute, _ => true
  | _, none => true
  | st, some p => match mget p.units (n / 8) with
    | none => true
    | some b =>
      i < j.dims.1 && (match st with
        | .control => ((b.prims[i / controlPitch s p b]?).map (fun q => q.draw)) = some j.draw &&
            i % controlPitch s p b < patchOut s p (drawAt p j.draw)
        | .eval => ((b.points[i]?).bind (fun q => (b.prims[q.1]?).map (fun r => r.draw))) = some j.draw
        | _ => ((b.verts[i]?).map (fun v => v.1)) = some j.draw)

/-- The threads of group `g` of a workgroup (04 R120). -/
def groupMask (s : State) (n : Nat) (j : Job) (index g : Nat) : Nat :=
  maskOf ((List.range 64).filter (fun t => 64 * g + t < j.threads && invocationRuns s n j (index * 64 + t)))

/-- The groups of a new workgroup, each with an identifier and a seed of its own. -/
def makeGroups (s : State) (n : Nat) (j : Job) (index : Nat) (paths : List Nat) : State × List Group :=
  (paths.zip (List.range paths.length)).foldl (fun acc e =>
    let (gid, s1) := takeWid acc.1
    let (seed, s2) := draw s1
    (s2, acc.2 ++ [newGroup gid e.2 e.1 (groupMask s2 n j index e.2) seed])) (s, [])

/-- A workgroup joins a core, its banks taken from L1. -/
def joinCore (s : State) (n : Nat) (w : WG) : State :=
  let s1 := takeBanks s n w.sharedAt w.sharedKib
  let c := coreOf s1 n
  setCoreOf s1 n { c with wgs := c.wgs ++ [w] }

/-- The next workgroup of a job is placed (04 R122; 12 R504, R542). -/
def placeNew (s : State) (n id : Nat) (j : Job) (e : EntryPt) (paths : List Nat) (at_ : Nat) : State :=
  let (k, r, kib) := wgNeeds e j.threads
  let s0 := if j.start.isNone then chargeStart s j.org.ctx j.readyAt none else s
  let (wgid, s1) := takeWid s0
  let (seed, s2) := draw s1
  let (s3, gs) := makeGroups s2 n j j.next paths
  let j1 := { j with next := j.next + 1, start := some (j.start.getD s.dtime), used := if j.used.contains n then j.used else j.used ++ [n] }
  if gs.all (fun g => g.cur.mask = 0) then settleJob (setJob s3 id { j1 with done := j1.done + 1 }) id
  else
    let w : WG :=
      { wgid := wgid, org := j.org, job := id, index := j.next, stage := j.stage, modKey := j.modKey, entry := j.entry, regs := r,
        sharedKib := kib, sharedAt := at_, groups := gs, shared := [], seed := seed, issued := 0, ended := 0, placedAt := s.dtime,
        saved := none }
    reserve (joinCore (setJob s3 id j1) n w) j.org.part (saveKib (needBytes k r kib))

/-- A saved workgroup is restored on a core (04 R167; 12 R504): its groups go on as though they had not stopped, and one whose sleep
has expired is ready at once (05 R208). -/
def placeOld (s : State) (n id : Nat) (j : Job) (w : WG) (paths : List Nat) (at_ : Nat) : State :=
  let kib := saveKib (wgSaveBytes w)
  let s1 := reserve (unreserve (chargeStart s j.org.ctx j.readyAt w.saved) j.org.part kib) j.org.part kib
  let s2 := match w.saved with
    | some (a, _) => restoreUnit s1 j.org (Engine.core n) a (wgSaveBytes w)
    | none => s1
  let gs := (w.groups.zip paths).map (fun e => wakeSleep s { e.1 with path := e.2, stopping := false })
  let w1 := { w with groups := gs, sharedAt := at_, placedAt := s.dtime, saved := none }
  match jobOf s2 id with
  | some j1 => settleWG (joinCore (setJob s2 id { j1 with saved := j1.saved.filter (fun x => x.wgid ≠ w.wgid) }) n w1) n w.wgid
  | none => s2

/-- Places a piece of work on a core. -/
def placeWork (s : State) (n : Nat) (w : CoreWork) : State :=
  match w with
  | .newWG id => match jobOf s id with
    | some j => match newFits s n id j with
      | some (e, ps, a) => placeNew s n id j e ps a
      | none => s
    | none => s
  | .oldWG id wgid => match jobOf s id with
    | some j => match j.saved.find? (fun x => x.wgid = wgid) with
      | some x => match oldFits s n id j x with
        | some (ps, a) => placeOld s n id j x ps a
        | none => s
      | none => s
    | none => s
  | .frags pass tile => placeFrags s n pass tile
  | .oldTile pass tile => resumeTile s n pass tile

/-- Work that was saved. -/
def isOld (w : CoreWork) : Bool :=
  match w with
  | .oldWG _ _ => true
  | .oldTile _ _ => true
  | _ => false

/-- WORKGROUP_PLACEMENT (04 R122; 06 R232; 12 R507): a core takes the first-ranked work that it has room for, where that has not been
placed before. -/
def execWorkgroupPlacement (core : CoreId) (s : State) : Host.Outcome State Fault Refusal :=
  match bestCoreWork s core.toNat with
  | some w => if isOld w then .next s else .next (noteConds (placeWork s core.toNat w))
  | none => .next s

/-- RESUMPTION (04 R167; 06 R258): a core takes the first-ranked work that it has room for, where that was saved. -/
def execResumption (core : CoreId) (s : State) : Host.Outcome State Fault Refusal :=
  match bestCoreWork s core.toNat with
  | some w => if isOld w then .next (noteConds (placeWork s core.toNat w)) else .next s
  | none => .next s

/-! Preemption (04 R164 to R167). -/

/-- Groups of a context on a core stop after the instruction they have issued. -/
def stopGroups (s : State) (n ctx : Nat) : State :=
  let c := coreOf s n
  setCoreOf s n { c with wgs := c.wgs.map (fun w =>
    if w.org.ctx = ctx then { w with groups := w.groups.map (fun g => { g with stopping := true }) } else w) }

/-- PREEMPTION_REQUEST (04 R164): a preemption that was asked for names a context and a core. -/
def execPreemptionRequest (core : CoreId) (p : Part) (ctx : BitVec 16) (s : State) : Host.Outcome State Fault Refusal :=
  let k := okey p.toNat ctx.toNat
  if stopsOn s core.toNat k then .next (stopGroups s core.toNat k) else .next s

/-- Workgroups of a context on a core that are saved one by one: those of tiles are saved with their tile (06 R258). -/
def savedAlone (s : State) (n ctx : Nat) : List WG :=
  (coreOf s n).wgs.filter (fun w => w.org.ctx = ctx && w.stage ≠ .fragment)

/-- One workgroup is saved and leaves its core (04 R167; 12 R504). -/
def saveWG (s : State) (n : Nat) (w : WG) : State :=
  let c := coreOf s n
  let s1 := setCoreOf s n { c with wgs := c.wgs.filter (fun x => x.wgid ≠ w.wgid) }
  let (s2, a) := saveUnit s1 w.org (Engine.core n) (wgSaveBytes w)
  match jobOf s2 w.job with
  | some j => setJob s2 w.job { j with saved := j.saved ++ [{ w with saved := some (a, s2.dtime) }] }
  | none => s2

/-- CORE_SAVE (04 R165, R167): once the reads inside the device of every stopped group have drained, the workgroups of the context are
saved; the preemption counts once (12 R509). -/
def execCoreSave (core : CoreId) (p : Part) (ctx : BitVec 16) (s : State) : Host.Outcome State Fault Refusal :=
  let n := core.toNat
  let k := okey p.toNat ctx.toNat
  let ws := savedAlone s n k
  if ! stopsOn s n k || ! ws.all (fun w => w.groups.all (fun g => g.stopping && drained g)) then .next s
  else match ws with
    | [] => .next (noteConds s)
    | w :: _ => .next (noteConds (ws.foldl (fun s w => saveWG s n w) (countPreempt s w.org)))

end Sys2Proof.Machine
end

