-- ==== Sys2Proof/Machine/Firmware.lean ====
section
/-! DEFINITION. Firmware update (16 R660, R664 to R672), the configuration record's appends (R654), and the firmware haul
(16 R670, 14 R603, R604). -/
namespace Sys2Proof.Machine

def fwBusy (s : State) : Bool :=
  rdF s Reg.fwStatus 0 0 = 1

/-- An operation starts: BUSY reads 1 (16 R666). -/
def fwStart (s : State) : State :=
  wrF s Reg.fwStatus 0 0 1

/-- A write of FW_CTL (16 R666): ignored while BUSY reads 1. -/
def onFwCtl (s : State) (f : State → State) : State :=
  if fwBusy s then s else f s

/-- A failure is counted, and recorded where it has a condition code (16 R671, R677; log 48). -/
def fwFail (s : State) (c : ImgCheck) (i : Nat) (b : List Byte) : State :=
  let s1 := countSigFail s c.code
  if c.code = 0 then s1 else appendRec s1 (fwRecord s1 c.code i c.reason b)

/-- The slot that is not ACTIVE (16 R667). -/
def otherSlot (s : State) : Nat :=
  if (slotAt s 0).state = 3 then 1 else 0

/-- STAGE (16 R667): the image is read through the physical function. -/
def execStage (pages : BitVec 14) (s : State) : Host.Outcome State Fault Refusal :=
  let s := hostTouch s
  .next (onFwCtl s (fun s =>
    if (slotIn s 2).isSome || ! s.sec.ident then fwEnd s 5 0
    else
      let a := rdF s Reg.fwImageAddr 63 12 * 4096
      emit (setSec (fwStart s) { (fwStart s).sec with op := some { op := 1, at_ := s.dtime, pages := pages.toNat, addr := a } })
        (.hostRead 0 a (pages.toNat * 4096))))

/-- An image has been written to a slot and is checked (16 R656, R667): `size` is the length that was written. -/
def takeImage (s : State) (i : Nat) (b : List Byte) (size : Nat) : State × ImgCheck :=
  let c0 := checkImage s b
  let c : ImgCheck := if roundUp (imgBytes b) 4096 = size then c0 else ⟨2, 0, 0⟩
  if c.result = 0 then
    let s1 := setSlot s i 1 b
    (setSec s1 { s1.sec with staged := some i, haulImage := some i }, c)
  else (fwFail (setSlot s i 4 b) c i b, c)

/-- STAGE_COMPLETE (16 R666, R667): the read has ended, and the slot has been written and read back. -/
def execStageComplete (r : HostRead) (flashOk : Bool) (s : State) : Host.Outcome State Fault Refusal :=
  match s.sec.op with
  | none => .next s
  | some o =>
    let s1 := setSec s { s.sec with op := none }
    match r with
    | .fail _ => .next (fwEnd s1 1 0)
    | .ok bs =>
      if ! flashOk then .next (fwEnd s1 8 0)
      else
        let b := padTo (o.pages * 4096) bs
        let (s2, c) := takeImage s1 (otherSlot s1) b (o.pages * 4096)
        .next (fwEnd s2 c.result c.code)

/-! Handover (16 R668, R669). -/

/-- ACTIVATE (16 R666 to R668 H1): the slot is written as TRIAL. -/
def activate (s : State) : State :=
  match slotIn s 1, slotIn s 2 with
  | some i, none =>
    let b := (slotAt s i).img
    if s.sec.book < imgStateMin b || imgFormat b < s.sec.book then fwEnd s 6 0
    else if s.sec.standby.isNone then fwEnd s 7 0
    else
      let s1 := setSlotState (fwStart s) i 2
      setSec s1 { s1.sec with previous := slotIn s 3, hand := some { slot := i, back := false, tested := false, moved := 0, at_ := s.dtime } }
  | _, _ => fwEnd s 5 0

/-- ACTIVATE (16 R667, R668). -/
def execActivate (s : State) : Host.Outcome State Fault Refusal :=
  let s := hostTouch s
  .next (onFwCtl s activate)

/-- STANDBY_SELF_TEST (16 R668 H1): passed with the new component. -/
def execStandbySelfTest (s : State) : Host.Outcome State Fault Refusal :=
  match s.sec.hand with
  | some h => if h.tested then .next s else .next (setSec s { s.sec with hand := some { h with tested := true, at_ := s.dtime } })
  | none => .next s

/-- Loads in progress restart at a role move (05 R183). -/
def restartLoads (s : State) : State :=
  setCore s { s.core with loads := mmap s.core.loads (fun _ l => match l with
    | o :: r => { o with start := s.dtime } :: r
    | [] => []) }

/-- H6 (16 R668): the last processor freed is the standby, and the window starts; or the move back is over (R669). -/
def handoverEnd (s : State) (h : Handover) : State :=
  let b := (slotAt s h.slot).img
  let s1 := setSec s { s.sec with hand := none, running := some h.slot, digests := lset s.sec.digests 1 (compDigest b 1) }
  if h.back then wrF s1 Reg.fwStatus 0 0 0
  else
    let s2 := setSec s1 { s1.sec with window := some s.dtime, heartAt := s.dtime, confirmed := false }
    fwEnd (wrF s2 Reg.fwStatus 4 4 1) 0 0

/-- ROLE_MOVE (16 R668 H2 to H6): the next role moves to the standby, and its processor is freed. -/
def execRoleMove (s : State) : Host.Outcome State Fault Refusal :=
  match s.sec.hand, s.sec.standby with
  | some h, some p =>
    if h.tested && (h.moved = 0 || due s h.at_ 1000000) then
      let s1 := restartLoads (setSec s { s.sec with
        roles := lset s.sec.roles h.moved p, standby := s.sec.roles[h.moved]?,
        hand := some { h with moved := h.moved + 1, at_ := s.dtime } })
      if h.moved + 1 < 4 then .next s1 else .next (settle (handoverEnd s1 h))
    else .next s
  | _, _ => .next s

/-- CONFIRM (16 R667): with HOST_CONFIRM = 1 and a TRIAL slot. -/
def execConfirm (s : State) : Host.Outcome State Fault Refusal :=
  let s := hostTouch s
  .next (onFwCtl s (fun s =>
    if (slotIn s 2).isSome && rdF s Reg.fwCfg 10 10 = 1 then fwEnd (setSec s { s.sec with confirmed := true }) 0 0 else fwEnd s 5 0))

/-- KEY_STATUS shows FLOOR, REVOKED and LMS_LEFT (16 R676). -/
def showKeys (s : State) : State :=
  wrF (wrF (wrF s Reg.keyStatus 20 0 (2 ^ 20 - s.sec.nextQ)) Reg.keyStatus 47 32 s.sec.floor) Reg.keyStatus 51 48 s.sec.revoked

/-- Confirmation of the image in slot `i` (16 R660, R669). -/
def confirmSlot (s : State) (i : Nat) : State :=
  let b := (slotAt s i).img
  let s1 := match slotIn s 3 with
    | some k => setSlotState s k 1
    | none => s
  let s2 := setSlotState s1 i 3
  let s3 := showKeys (setSec s2 { s2.sec with
    floor := max s.sec.floor (imgMinSvn b), revoked := Nat.lor s.sec.revoked (imgRevoke b), book := imgFormat b, window := none, trial := none,
    digests := lset s.sec.digests 2 (compDigest b 2) })
  let s4 := wrF s3 Reg.fwStatus 4 4 0
  if lget s.sec.digests 2 [] ≠ compDigest b 2 then resetWeigh s4 else s4

/-- SELF_CONFIRMATION (16 R669): all five processors have heartbeaten for 1 s, and the engine tests have passed. -/
def execSelfConfirmation (s : State) : Host.Outcome State Fault Refusal :=
  match s.sec.window, slotIn s 2 with
  | some _, some i =>
    if due s s.sec.heartAt 1000000000 && s.sec.standby.isSome && (rdF s Reg.fwCfg 10 10 = 0 || s.sec.confirmed) then
      .next (confirmSlot s i)
    else .next s
  | _, _ => .next s

/-- HEALTH_WINDOW_EXPIRY (16 R669): the roles move back, and the slot is FAILED. -/
def execHealthWindowExpiry (s : State) : Host.Outcome State Fault Refusal :=
  match s.sec.window, slotIn s 2 with
  | some t, some i =>
    if due s t (rdF s Reg.fwCfg 9 0 * 1000000000) then
      let b := (slotAt s i).img
      let s1 := countFallback (setCode (appendRec s (fwRecord s Cond.notConfirmed i 0 b)) Cond.notConfirmed)
      let s2 := wrF (setSlotState s1 i 4) Reg.fwStatus 4 4 0
      let s3 := setSec s2 { s2.sec with window := none, trial := none }
      match slotIn s 3 with
      | some k => .next (setSec (fwStart s3) { (fwStart s3).sec with hand := some { slot := k, back := true, tested := false, moved := 0, at_ := s.dtime } })
      | none => .next s3
    else .next s
  | _, _ => .next s

/-- RESTART (16 R667): a fundamental reset; a VALID slot staged last and of higher SVN than the ACTIVE slot is booted as TRIAL. -/
def execRestart (s : State) : Host.Outcome State Fault Refusal :=
  let s := hostTouch s
  .next (onFwCtl s (fun s =>
    let svn := match slotIn s 3 with
      | some k => imgSvn (slotAt s k).img + 1
      | none => 0
    let t := s.sec.staged.bind (fun i => if (slotAt s i).state = 1 && (slotIn s 3).isSome && svn ≤ imgSvn (slotAt s i).img then some i else none)
    beginBoot (setSec s { s.sec with trial := t }) .fundamental))

/-- FW_CTL_RESERVED (16 R667): a reserved operation completes with STATE. -/
def execFwCtlReserved (s : State) : Host.Outcome State Fault Refusal :=
  let s := hostTouch s
  .next (onFwCtl s (fun s => fwEnd s 5 0))

/-- An active Gantry processor leaves service (16 R672): the standby takes its role from the state book; without a standby the device is
FATAL (09 R357). -/
def loseProcessor (s : State) (proc : Nat) : State :=
  if s.sec.roles.contains proc then
    match s.sec.standby with
    | some p =>
      let s1 := setSec s { s.sec with roles := s.sec.roles.map (fun x => if x = proc then p else x), standby := none, heartAt := s.dtime }
      addRepair (bump32 (wrF s1 Reg.fwStatus 3 3 0) Reg.fwTakeoverCount Reg.fwCountStatus 1 1) 5 proc
    | none => setFatal s noRecord
  else s

/-- HEARTBEAT_MISS (16 R672): a processor has missed 3 heartbeats. -/
def execHeartbeatMiss (processor : BitVec 3) (s : State) : Host.Outcome State Fault Refusal :=
  .next (loseProcessor s processor.toNat)

/-! The device's HSS key (16 R664, R665). -/

def lmsLeft (s : State) : Nat :=
  2 ^ 20 - s.sec.nextQ

/-- One signature is released: NEXT_Q has advanced first; the record of LMS_EXHAUSTED is written at 1,024 and at 0. -/
def useKey (s : State) : State :=
  let s1 := showKeys (setSec s { s.sec with nextQ := s.sec.nextQ + 1 })
  let note := fun (s : State) => appendRec s (plainRec s Cond.lmsExhausted Engine.keystone 0 flagInfo 0 [])
  if lmsLeft s1 = 0 && ! s1.sec.lmsOut then
    let s2 := setSec s1 { s1.sec with lmsOut := true, lmsLow := true }
    note s2
  else if lmsLeft s1 ≤ 1024 && ! s1.sec.lmsLow then
    let s2 := setSec s1 { s1.sec with lmsLow := true }
    note s2
  else s1

/-- CONFIGURATION_RECORD_APPEND (16 R654, R665): the repairs that wait go into a new record over the copy not taken; CFG_GEN advances
once it has been read back. -/
def execConfigurationRecordAppend (good : Bool) (s : State) : Host.Outcome State Fault Refusal :=
  match s.sec.taken with
  | none => .next s
  | some i =>
    match (s.sec.recs[i]?).join with
    | none => .next s
    | some r =>
      if s.sec.repairs.isEmpty || ! s.sec.ident then .next s
      else if lmsLeft s = 0 then .next (setSec s { s.sec with repairs := [] })
      else
        let s1 := useKey s
        if good then
          .next (setSec s1 { s1.sec with
            recs := lset s1.sec.recs (1 - i) (some { r with gen := r.gen + 1, added := r.added ++ s.sec.repairs }),
            taken := some (1 - i), cfgGen := r.gen + 1, repairs := [] })
        else .next (setSec s1 { s1.sec with recs := lset s1.sec.recs (1 - i) none })

/-! The firmware haul (16 R670; 14 R603, R604). -/

/-- FW_HAUL_ENABLE (16 R670): a write that sets ENABLE. -/
def execFwHaulEnable (value : Word32) (s : State) : Host.Outcome State Fault Refusal :=
  if s.sec.recovery then .next (hostTouch s) else
  let s := hostTouch s
  let s1 := wrF (wrF s Reg.fwHaul 1 1 (bitsN value.toNat 1 1)) Reg.fwHaul 3 2 (bitsN value.toNat 3 2)
  if bitsN value.toNat 0 0 = 0 then .next (haulOff s1)
  else if ! haulOn s1 then
    .next (askBlock (setHaulState (wrF s1 Reg.fwHaul 0 0 1) 1) { block := 0, tries := 0, at_ := s.dtime, bytes := [] })
  else .next s1

/-- HAUL_REQUEST_TIMER (16 R670): block 0 is asked for again every 10 ms. -/
def execHaulRequestTimer (s : State) : Host.Outcome State Fault Refusal :=
  match s.sec.haul with
  | some h => if haulOn s && h.block = 0 && h.bytes.isEmpty && due s h.at_ 10000000 then .next (askBlock s h) else .next s
  | none => .next s

/-- A request of a child (14 R604, 16 R670): answered from the haul image while its slot is VALID, TRIAL or ACTIVE. -/
def serveHaul (port : Nat) (m : List Byte) (s : State) : State :=
  match s.sec.haulImage with
  | none => s
  | some i =>
    let x := slotAt s i
    let k := fAt m 8 31 0
    let b := slice (x.img.take (imgBytes x.img)) (k * haulBlock) haulBlock
    if (x.state = 1 || x.state = 2 || x.state = 3) && ! b.isEmpty then
      sendOn s port 3 (msgHeader s opHaulBlock (mSrc m) 0 0 (b.length - 1) k (mTag m) ++ b ++ leBytes 4 (crcOf crc32c b))
    else s

/-- HAUL_REQ (14 R604). -/
def execHaulReq (port : BitVec 2) (s : State) : Host.Outcome State Fault Refusal :=
  .next (onMsg s port.toNat opHaulReq (serveHaul port.toNat))

/-- The whole image has arrived (16 R670): it is checked in the slot that is not ACTIVE; ACTIVATE may follow. -/
def haulDone (s : State) (bytes : List Byte) : State :=
  let b := padTo (roundUp bytes.length 4096) bytes
  let (s1, c) := takeImage (setHaulState s 3) (otherSlot s) b (roundUp bytes.length 4096)
  let s2 := haulEnd s1 c.result c.code
  if c.result = 0 && rdF s2 Reg.fwHaul 1 1 = 1 && ! fwBusy s2 then activate s2 else s2

/-- A block has arrived (14 R604; 16 R670): its CRC is checked; block 0 that matches the header of an image in a slot ends the haul. -/
def takeBlock (m : List Byte) (s : State) : State :=
  match s.sec.haul with
  | none => s
  | some h =>
    let b := (mData m).dropLast.dropLast.dropLast.dropLast
    let crc := leNat ((mData m).drop b.length)
    if ! haulOn s || fAt m 8 31 0 ≠ h.block then s
    else if crc ≠ crcOf crc32c b then retryBlock s h
    else if h.block = 0 && (List.range 2).any (fun i => (slotAt s i).state ≠ 0 && (slotAt s i).state ≠ 4 && (slotAt s i).img.take 256 = b.take 256) then
      haulEnd s 0 0
    else
      let all := h.bytes ++ b
      if imgBytes all ≤ all.length || b.length < haulBlock then haulDone s all
      else askBlock (setHaulState s 2) { block := h.block + 1, tries := 0, at_ := s.dtime, bytes := all }

/-- HAUL_BLOCK (14 R604). -/
def execHaulBlock (port : BitVec 2) (s : State) : Host.Outcome State Fault Refusal :=
  .next (onMsg s port.toNat opHaulBlock takeBlock)

end Sys2Proof.Machine
end

