-- ==== Sys2Proof/Machine/Objects.lean ====
section
/-! DEFINITION. Object commands, event and wait timeouts, deadlock detection and the fault queue's tail (11 R444 to R476,
R481, R486 to R488). -/
namespace Sys2Proof.Machine

/-! Results of object commands (11 R448). -/
namespace ObjRes
abbrev ok : Nat := 0
abbrev descFault : Nat := 1
abbrev reservedSet : Nat := 2
abbrev handle : Nat := 3
abbrev limit : Nat := 4
abbrev owners : Nat := 5
abbrev notCreated : Nat := 6
abbrev state : Nat := 7
abbrev segment : Nat := 8
abbrev claim : Nat := 9
end ObjRes

/-- An OBJ_CMD write is taken: no command of the partition runs (11 R447). -/
def objTaken (s : State) (p : Nat) : Bool :=
  rdF s (pkey p Reg.objStatus) 0 0 = 0

/-- A partition whose objects can be commanded (11 R448; 10 R405). -/
def objOpen (s : State) (p : Nat) : Bool :=
  (partOf s p).created && ! (partOf s p).destroying

/-- An object command ends with a RESULT (11 R451). -/
def objResult (s : State) (p result : Nat) : State :=
  wr s (pkey p Reg.objStatus) (BitVec.ofNat 64 (result * 256))

/-- An object command waits for kills: BUSY stays set (11 R449). -/
def objBusy (s : State) (p : Nat) (w : ObjWait) : State :=
  let s1 := wr s (pkey p Reg.objStatus) 1
  { s1 with host := { s1.host with objWait := mset s1.host.objWait p w } }

def objHandle (s : State) (p : Nat) : Nat :=
  rdF s (pkey p Reg.objHandle) 31 0
def objArg (s : State) (p : Nat) : Word :=
  rd s (pkey p Reg.objArg)

/-! CREATE (11 R447, R450). -/

/-- Every word of a descriptor at these offsets is 0. -/
def wordsZero (b : List Byte) (offs : List Nat) : Bool :=
  offs.all (fun o => wordAt b o = 0)

/-- A SCHED word breaks 12 R498. -/
def schedBad (w : Nat) : Bool :=
  bitsN w 12 5 = 0 || bitsN w 31 21 ≠ 0

/-- A context descriptor breaks 11 R450. -/
def ctxDescBad (b : List Byte) : Bool :=
  fAt b 0 63 3 ≠ 0 || 10000 < fAt b 8 13 0 || fAt b 8 15 14 ≠ 0 || 10000 < fAt b 8 29 16 || fAt b 8 63 30 ≠ 0 ||
    fAt b 0x10 63 32 ≠ 0 || schedBad (fAt b 0x10 31 0) || ! wordsZero b [0x18, 0x20, 0x28, 0x30, 0x38]

/-- A fence descriptor breaks 11 R450. -/
def fenceDescBad (b : List Byte) : Bool :=
  fAt b 0 63 5 ≠ 0 || wordAt b 0x10 % 16 ≠ 0 || 2 ^ 63 ≤ wordAt b 0x10 || ! wordsZero b [0x18, 0x20, 0x28, 0x30, 0x38]

/-- An event descriptor breaks 11 R450. -/
def eventDescBad (b : List Byte) : Bool :=
  fAt b 0 63 3 ≠ 0 || fAt b 8 63 32 ≠ 0 || wordAt b 0x18 % 32 ≠ 0 || 2 ^ 63 ≤ wordAt b 0x18 || fAt b 0x20 31 12 ≠ 0 ||
    ! wordsZero b [0x28, 0x30, 0x38]

/-- A memory object descriptor breaks 11 R450. -/
def memDescBad (b : List Byte) : Bool :=
  fAt b 0 63 3 ≠ 0 || fAt b 8 63 37 ≠ 0 || fAt b 8 20 0 ≠ 0 || fAt b 0x10 63 10 ≠ 0 || fAt b 0x10 9 0 = 0 ||
    512 < fAt b 0x10 9 0 || ! wordsZero b [0x18, 0x20, 0x28, 0x30, 0x38]

/-- A memory object's range does not lie in one SHARED claim of the partition (11 R452). -/
def memRangeBad (s : State) (p : Nat) (b : List Byte) : Bool :=
  let a := fAt b 8 36 0
  let n := fAt b 0x10 9 0 * 2 ^ 21
  let c := claimOf s (a / 2 ^ 30)
  ! (c.kind = .shared && c.owner = p && a / 2 ^ 30 = (a + n - 1) / 2 ^ 30 && a / 2 ^ 30 ≤ 94)

/-- Objects of a type that a partition holds, and that the device holds. -/
def heldOf {α : Type} (m : Map α) (p : Nat) : Nat :=
  (m.filter (fun e => e.1 / 65536 = p)).length

/-- A limit of 11 R445 is reached. -/
def objLimit (s : State) (p ty : Nat) : Bool :=
  match ty with
  | 1 => 1024 ≤ heldOf s.host.ctxs p || 8192 ≤ s.host.ctxs.length
  | 2 => 65536 ≤ heldOf s.host.fences p || 262144 ≤ s.host.fences.length
  | 3 => 4096 ≤ heldOf s.host.events p || 32768 ≤ s.host.events.length
  | _ => 256 ≤ heldOf s.host.memObjs p || 2048 ≤ s.host.memObjs.length

/-- The RESULT of a CREATE from a descriptor that was read (11 R448). -/
def createResult (s : State) (p : Nat) (b : List Byte) : Nat :=
  match fAt b 0 2 0 with
  | 1 =>
    if ctxDescBad b then ObjRes.reservedSet
    else if (tableFault (b.drop 0x40) (ownsClaim s p) (selfId s)).isSome then ObjRes.segment
    else if objLimit s p 1 then ObjRes.limit else ObjRes.ok
  | 2 => if fenceDescBad b then ObjRes.reservedSet else if objLimit s p 2 then ObjRes.limit else ObjRes.ok
  | 3 =>
    if eventDescBad b then ObjRes.reservedSet
    else if (findFence s p (fAt b 8 31 0)).isNone then ObjRes.handle
    else if objLimit s p 3 then ObjRes.limit else ObjRes.ok
  | 4 =>
    if memDescBad b then ObjRes.reservedSet
    else if memRangeBad s p b then ObjRes.claim
    else if objLimit s p 4 then ObjRes.limit else ObjRes.ok
  | _ => ObjRes.reservedSet

/-- One host reference of an owner. -/
def oneRef (owner : Nat) : Refs :=
  { host := [(owner, 1)], dev := 0 }

/-- A new context (11 R450, R459). -/
def newCtx (s : State) (gen owner : Nat) (b : List Byte) : Ctx :=
  { gen := gen, owner := owner, refs := oneRef owner, live := true, watchdogMs := fAt b 8 13 0,
    waitTimeoutMs := fAt b 8 29 16, sched := fAt b 0x10 31 0, segs := (segSlices (b.drop 0x40)).map parseSeg, slot := none,
    slotSince := 0, cond := .idle, condSince := s.dtime, idled := true, vtime := 0, runSince := none, wdRestart := none,
    wdHeld := 0, wdSince := none }

/-- A new fence (11 R450). -/
def newFence (gen owner : Nat) (b : List Byte) : Fence :=
  { gen := gen, owner := owner, refs := oneRef owner, value := BitVec.ofNat 64 (wordAt b 8), err := none,
    hostSignal := fAt b 0 3 3 = 1, exported := fAt b 0 4 4 = 1, mirror := wordAt b 0x10, regressRec := false }

/-- A new event, armed (11 R450, R471). -/
def newEvent (s : State) (gen owner : Nat) (b : List Byte) : Event :=
  { gen := gen, owner := owner, refs := oneRef owner, fence := hKey (fAt b 8 31 0), value := BitVec.ofNat 64 (wordAt b 0x10),
    record := wordAt b 0x18, vector := fAt b 0x20 10 0, msiEn := fAt b 0x20 11 11 = 1, timeoutMs := fAt b 0x20 63 32,
    armed := true, armedAt := s.dtime, firings := 0 }

/-- A new memory object (11 R450). -/
def newMemObj (gen owner : Nat) (b : List Byte) : MemObj :=
  { gen := gen, owner := owner, refs := oneRef owner, mem := fAt b 8 36 0, frames := fAt b 0x10 9 0 }

/-- A successful CREATE: the object in the lowest free slot of its table, and its handle in OBJ_OUT_AUX (11 R447). -/
def createOk (s : State) (p owner : Nat) (b : List Byte) : State :=
  let ty := fAt b 0 2 0
  let base := okey p 0
  let k := match ty with
    | 1 => (mfree s.host.ctxs base 1024).getD base
    | 2 => (mfree s.host.fences base 65536).getD base
    | 3 => (mfree s.host.events base 4096).getD base
    | _ => (mfree s.host.memObjs base 256).getD base
  let g := nextGen s ty k
  let s1 := wr (setGen s ty k g) (pkey p Reg.objOutAux) (BitVec.ofNat 64 (mkHandle ty k g))
  match ty with
  | 1 => importSegs (setCtx s1 k (newCtx s1 g owner b)) p (newCtx s1 g owner b).segs
  | 2 => importFence (setFence s1 k (newFence g owner b)) k
  | 3 =>
    let e := newEvent s1 g owner b
    judgeEvent (holdFence (setEvent s1 k e) e.fence) k
  | _ => setMemObj s1 k (newMemObj g owner b)

/-- OBJ_CREATE (11 R447, R450). -/
def execObjCreate (p : Part) (owner : BitVec 16) (desc : HostRead) (s : State) : Host.Outcome State Fault Refusal :=
  if s.sec.recovery then .next (hostTouch s) else
  let s := hostTouch s
  if ! objTaken s p.toNat then .next s
  else if ! objOpen s p.toNat then .next (objResult s p.toNat ObjRes.notCreated)
  else match desc with
    | .fail _ => .next (objResult s p.toNat ObjRes.descFault)
    | .ok b =>
      let r := createResult s p.toNat b
      if r = ObjRes.ok then .next (objResult (createOk s p.toNat owner.toNat b) p.toNat r)
      else .next (objResult s p.toNat r)

/-! References (11 R446, R453, R454). -/

/-- The reference counts of the object that OBJ_HANDLE names, if it is a live object of the partition with a host reference
(11 R454: after the last RELEASE, host commands that name it complete with HANDLE). -/
def refsOf (s : State) (p h : Nat) : Option Refs :=
  let r := match bitsN h 23 21 with
    | 1 => (findCtx s p h).map (fun c => c.refs)
    | 2 => (findFence s p h).map (fun c => c.refs)
    | 3 => (findEvent s p h).map (fun c => c.refs)
    | 4 => (findMemObj s p h).map (fun c => c.refs)
    | _ => none
  match r with
  | some r => if hostRefs r = 0 then none else some r
  | none => none

/-- Replaces the reference counts of the object at a key. -/
def putRefs (s : State) (ty k : Nat) (r : Refs) : State :=
  match ty with
  | 1 => match mget s.host.ctxs k with
    | some c => setCtx s k { c with refs := r }
    | none => s
  | 2 => match mget s.host.fences k with
    | some c => setFence s k { c with refs := r }
    | none => s
  | 3 => match mget s.host.events k with
    | some c => setEvent s k { c with refs := r }
    | none => s
  | _ => match mget s.host.memObjs k with
    | some c => setMemObj s k { c with refs := r }
    | none => s

/-- Frees an object whose counts are both 0 (11 R454). -/
def freeObj (s : State) (ty k : Nat) : State :=
  match ty with
  | 1 => freeCtx s k
  | 2 => freeFence s k
  | 3 => freeEvent s k
  | _ => freeMemObj s k

/-- The RESULT of ADD_REF. -/
def addRefResult (s : State) (p owner : Nat) : Nat :=
  match refsOf s p (objHandle s p) with
  | none => ObjRes.handle
  | some r =>
    if (mget r.host owner).isNone && 8 ≤ r.host.length then ObjRes.owners
    else if 2 ^ 32 - 1 ≤ hostRefs r then ObjRes.limit
    else ObjRes.ok

/-- Takes one host reference for an owner. -/
def addRefOk (s : State) (p owner : Nat) : State :=
  match refsOf s p (objHandle s p) with
  | none => s
  | some r => putRefs s (bitsN (objHandle s p) 23 21) (hKey (objHandle s p))
      { r with host := mset r.host owner (mgetD r.host owner 0 + 1) }

/-- A command with a result and an effect where the result is OK (11 R448: a command that fails changes nothing). -/
def objCommand (s : State) (p result : Nat) (ok : State) : State :=
  if ! objTaken s p then s
  else if ! objOpen s p then objResult s p ObjRes.notCreated
  else if result = ObjRes.ok then objResult ok p result else objResult s p result

/-- ADD_REF (11 R447). -/
def execAddRef (p : Part) (owner : BitVec 16) (s : State) : Host.Outcome State Fault Refusal :=
  if s.sec.recovery then .next (hostTouch s) else
  let s := hostTouch s
  .next (objCommand s p.toNat (addRefResult s p.toNat owner.toNat) (addRefOk s p.toNat owner.toNat))

/-- The RESULT of RELEASE. -/
def releaseResult (s : State) (p owner : Nat) : Nat :=
  match refsOf s p (objHandle s p) with
  | none => ObjRes.handle
  | some r => if (mget r.host owner).isNone then ObjRes.owners else ObjRes.ok

/-- The host references with `n` fewer of an owner's. -/
def dropOwner (r : Refs) (owner n : Nat) : Refs :=
  let c := mgetD r.host owner 0
  { r with host := if c ≤ n then mdel r.host owner else mset r.host owner (c - n) }

/-- Drops one host reference of an owner, and frees the object where both counts are 0. -/
def releaseOk (s : State) (p owner : Nat) : State :=
  let h := objHandle s p
  match refsOf s p h with
  | none => s
  | some r => freeObj (putRefs s (bitsN h 23 21) (hKey h) (dropOwner r owner 1)) (bitsN h 23 21) (hKey h)

/-- RELEASE (11 R447, R454). -/
def execRelease (p : Part) (owner : BitVec 16) (s : State) : Host.Outcome State Fault Refusal :=
  if s.sec.recovery then .next (hostTouch s) else
  let s := hostTouch s
  .next (objCommand s p.toNat (releaseResult s p.toNat owner.toNat) (releaseOk s p.toNat owner.toNat))

/-! Fences (11 R447, R463). -/

/-- The fence that OBJ_HANDLE names, with a host reference. -/
def hostFence (s : State) (p : Nat) : Option Fence :=
  match findFence s p (objHandle s p) with
  | some f => if hostRefs f.refs = 0 then none else some f
  | none => none

/-- The RESULT of SIGNAL. -/
def signalResult (s : State) (p : Nat) : Nat :=
  match hostFence s p with
  | none => ObjRes.handle
  | some f => if f.hostSignal then ObjRes.ok else ObjRes.state

/-- SIGNAL (11 R463): what it releases proceeds. -/
def execSignal (p : Part) (_owner : BitVec 16) (s : State) : Host.Outcome State Fault Refusal :=
  if s.sec.recovery then .next (hostTouch s) else
  let s := hostTouch s
  .next (objCommand s p.toNat (signalResult s p.toNat)
    (settle (signalFence s (hKey (objHandle s p.toNat)) (objArg s p.toNat) Engine.gantry)))

/-- OBJ_READ (11 R447): the fence's value and its code. -/
def execObjRead (p : Part) (_owner : BitVec 16) (s : State) : Host.Outcome State Fault Refusal :=
  if s.sec.recovery then .next (hostTouch s) else
  let s := hostTouch s
  match hostFence s p.toNat with
  | none => .next (objCommand s p.toNat ObjRes.handle s)
  | some f => .next (objCommand s p.toNat ObjRes.ok
      (wr (wr s (pkey p.toNat Reg.objOut) f.value) (pkey p.toNat Reg.objOutAux) (BitVec.ofNat 64 (f.err.getD 0))))

/-- The model handle, which QUERY accepts from a granted partition (11 R448, R456). -/
def modelHandle (s : State) : Nat :=
  mkHandle tyModel 0 s.sched.modelGen

/-- What QUERY reports: the counts and the state (11 R447, R459). -/
def queryOut (s : State) (p : Nat) : Option (Nat × Nat × Nat) :=
  let h := objHandle s p
  if s.sched.model && h = modelHandle s && s.mem.grant.getLsbD p then some (0, s.sched.modelRefs, 1)
  else match refsOf s p h with
    | none => none
    | some r => some (hostRefs r, r.dev,
        if bitsN h 23 21 = 1 then (if ctxLive s (hKey h) then 1 else 2) else 1)

/-- OBJ_QUERY (11 R447). -/
def execObjQuery (p : Part) (_owner : BitVec 16) (s : State) : Host.Outcome State Fault Refusal :=
  if s.sec.recovery then .next (hostTouch s) else
  let s := hostTouch s
  match queryOut s p.toNat with
  | none => .next (objCommand s p.toNat ObjRes.handle s)
  | some (h, d, st) => .next (objCommand s p.toNat ObjRes.ok
      (wr (wr s (pkey p.toNat Reg.objOut) (BitVec.ofNat 64 (h % 2 ^ 32 + d % 2 ^ 32 * 2 ^ 32)))
        (pkey p.toNat Reg.objOutAux) (BitVec.ofNat 64 st)))

/-! Events (11 R471). -/

/-- The event that OBJ_HANDLE names, with a host reference. -/
def hostEvent (s : State) (p : Nat) : Option Event :=
  match findEvent s p (objHandle s p) with
  | some e => if hostRefs e.refs = 0 then none else some e
  | none => none

/-- Arms an event for a value; it fires at once where its fence has reached it (11 R471). -/
def armEvent (s : State) (k : Nat) (e : Event) (v : Word) : State :=
  judgeEvent (setEvent s k { e with value := v, armed := true, armedAt := s.dtime }) k

/-- ARM (11 R471). -/
def execArm (p : Part) (_owner : BitVec 16) (s : State) : Host.Outcome State Fault Refusal :=
  if s.sec.recovery then .next (hostTouch s) else
  let s := hostTouch s
  match hostEvent s p.toNat with
  | none => .next (objCommand s p.toNat ObjRes.handle s)
  | some e => .next (objCommand s p.toNat ObjRes.ok (armEvent s (hKey (objHandle s p.toNat)) e (objArg s p.toNat)))

/-- EVENT_TIMEOUT (11 R471): an armed event's TIMEOUT_MS has passed since it was armed. -/
def execEventTimeout (p : Part) (event : BitVec 16) (s : State) : Host.Outcome State Fault Refusal :=
  match mget s.host.events (okey p.toNat event.toNat) with
  | none => .next s
  | some e =>
    if e.armed && e.timeoutMs ≠ 0 && due s e.armedAt (e.timeoutMs * 1000000) then
      .next (fireEvent s (okey p.toNat event.toNat) e Cond.waitTimeout)
    else .next s

/-! Kills by command (11 R478, R481). -/

/-- The context that OBJ_HANDLE names, with a host reference. -/
def hostCtx (s : State) (p : Nat) : Option Ctx :=
  match findCtx s p (objHandle s p) with
  | some c => if hostRefs c.refs = 0 then none else some c
  | none => none

/-- The RESULT of KILL. -/
def killResult (s : State) (p : Nat) : Nat :=
  match hostCtx s p with
  | none => ObjRes.handle
  | some c => if c.live then ObjRes.ok else ObjRes.state

/-- KILL (11 R478): step K1; the command completes at K4 (R449). -/
def execKill (p : Part) (_owner : BitVec 16) (s : State) : Host.Outcome State Fault Refusal :=
  if s.sec.recovery then .next (hostTouch s) else
  let s := hostTouch s
  if ! objTaken s p.toNat then .next s
  else if ! objOpen s p.toNat then .next (objResult s p.toNat ObjRes.notCreated)
  else if killResult s p.toNat = ObjRes.ok then
    let k := hKey (objHandle s p.toNat)
    .next (objBusy (killCtx s k (some Cond.contextKilled) []) p.toNat (.kill k))
  else .next (objResult s p.toNat (killResult s p.toNat))

/-- Contexts of a partition that an owner created and that are LIVE. -/
def ownersCtxs (s : State) (p owner : Nat) : List Nat :=
  (s.host.ctxs.filter (fun c => c.1 / 65536 = p && c.2.owner = owner && c.2.live)).map (fun c => c.1)

/-- Steps 1 to 3 of OWNER_GONE (11 R481): its contexts are killed, its fences errored and its events disarmed. -/
def ownerGoneStart (s : State) (p owner : Nat) : State :=
  let s1 := (ownersCtxs s p owner).foldl (fun s k => killCtx s k (some Cond.ownerGone) []) s
  let s2 := (s1.host.fences.filter (fun f => f.1 / 65536 = p && f.2.owner = owner)).foldl
    (fun s f => errorFence s f.1 Cond.ownerGone) s1
  { s2 with host := { s2.host with events := mmap s2.host.events (fun k e =>
      if k / 65536 = p && e.owner = owner then { e with armed := false } else e) } }

/-- Drops every host reference of an owner to the objects of one type, and frees those left with none. -/
def dropRefsOf (s : State) (ty : Nat) (l : List (Nat × Refs)) (p owner : Nat) : State :=
  l.foldl (fun s e =>
    if e.1 / 65536 = p && (mget e.2.host owner).isSome then
      freeObj (putRefs s ty e.1 (dropOwner e.2 owner (mgetD e.2.host owner 0))) ty e.1
    else s) s

/-- Step 4 of OWNER_GONE (11 R481): its references are dropped, events first, so that the fences they hold are free. -/
def ownerGoneEnd (s : State) (p owner : Nat) : State :=
  let s1 := dropRefsOf s 3 (mmap s.host.events (fun _ e => e.refs)) p owner
  let s2 := dropRefsOf s1 4 (mmap s1.host.memObjs (fun _ e => e.refs)) p owner
  let s3 := dropRefsOf s2 2 (mmap s2.host.fences (fun _ e => e.refs)) p owner
  dropRefsOf s3 1 (mmap s3.host.ctxs (fun _ e => e.refs)) p owner

/-- A kill of OWNER_GONE in the partition has not completed. -/
def ownerKillsLeft (s : State) (p : Nat) : Bool :=
  s.host.kills.any (fun k => k.1 / 65536 = p && k.2.cause = some Cond.ownerGone)

/-- The object command of a partition that waited for kills completes once they have (11 R449, R478, R481). -/
def objWaitDone (s : State) (p : Nat) : State :=
  match mget s.host.objWait p with
  | none => s
  | some w =>
    let fin := fun (s : State) =>
      objResult { s with host := { s.host with objWait := mdel s.host.objWait p } } p ObjRes.ok
    match w with
    | .kill k => if (mget s.host.kills k).isSome then s else fin s
    | .ownerGone t => if ownerKillsLeft s p then s else fin (ownerGoneEnd s p t)

/-- OWNER_GONE (11 R481): for tag 0, STATE (R448). -/
def execOwnerGone (p : Part) (owner : BitVec 16) (s : State) : Host.Outcome State Fault Refusal :=
  if s.sec.recovery then .next (hostTouch s) else
  let s := hostTouch s
  if ! objTaken s p.toNat then .next s
  else if ! objOpen s p.toNat then .next (objResult s p.toNat ObjRes.notCreated)
  else if owner = 0 then .next (objResult s p.toNat ObjRes.state)
  else .next (settle (objWaitDone (objBusy (ownerGoneStart s p.toNat owner.toNat) p.toNat (.ownerGone owner.toNat)) p.toNat))

/-- OBJ_CMD_RESERVED (11 R447): codes 10 to 15. -/
def execObjCmdReserved (p : Part) (_owner : BitVec 16) (s : State) : Host.Outcome State Fault Refusal :=
  if s.sec.recovery then .next (hostTouch s) else
  let s := hostTouch s
  .next (objCommand s p.toNat ObjRes.reservedSet s)

/-! Waits (11 R461, R473 to R476). -/

/-- A wait of an entry or a node: its identifier, its ring with its place there or its launch with its node's index, its fence,
its value and its origin. -/
structure WaitAt where
  wid : Nat
  ring : Option Nat
  launch : Option Nat
  index : Nat
  fence : Nat
  value : Word
  org : Origin
  deriving DecidableEq, Repr

/-- The waits of ring entries at step 1 of 10 R417. -/
def entryWaits (s : State) : List WaitAt :=
  s.host.rings.flatMap (fun x => ((x.2.entries.zip (List.range x.2.entries.length)).filter (fun e => e.1.step = .wait)).map
    (fun e => { wid := e.1.wid, ring := some x.1, launch := none, index := e.2, fence := eWaitFence e.1.bytes,
                value := eWaitValue e.1.bytes, org := entryOrigin x.1 x.2 e.1 }))

/-- The waits of plan nodes at step 2 of 12 R526. -/
def nodeWaits (s : State) : List WaitAt :=
  s.sched.launches.flatMap (fun x => ((x.2.nodes.zip (List.range x.2.nodes.length)).filter (fun n =>
      n.1.step = .fence && (mget s.host.finished n.1.wid).isNone)).map
    (fun n => { wid := n.1.wid, ring := none, launch := some x.1, index := n.2, fence := nWaitFence n.1.node,
                value := nWaitValue n.1.node, org := x.2.org }))

/-- A wait is blocked (11 R473). -/
def isBlocked (s : State) (w : WaitAt) : Bool :=
  match findFence s w.org.part w.fence with
  | some f => ! f.hostSignal && ! f.exported && f.err.isNone && ! reached f.value w.value
  | none => false

/-- The blocked waits of the device. -/
def blockedWaits (s : State) : List WaitAt :=
  (entryWaits s ++ nodeWaits s).filter (isBlocked s)

/-- Node `i` of a list succeeds node `j`, directly or through other nodes; `fuel` bounds the path. -/
def succeeds (nodes : List (List Byte)) (fuel i j : Nat) : Bool :=
  match fuel with
  | 0 => false
  | f + 1 => (nodePreds (lget nodes i [])).any (fun q => q == j || succeeds nodes f q j)

/-- A signaller of a wait stands in a ring, at a place, or is a node of a launch (11 R473, 12 R528). -/
def signallers (s : State) (w : WaitAt) : List (Option Nat × Option Nat × Nat) :=
  let ringS := s.host.rings.flatMap (fun x =>
    if rpart x.1 ≠ w.org.part then [] else
      ((x.2.entries.zip (List.range x.2.entries.length)).filter (fun e => entryOpen e.1 && eSignalEn e.1.bytes &&
        eSignalFence e.1.bytes = w.fence && reached (eSignalValue e.1.bytes) w.value)).map (fun e => (some x.1, none, e.2)))
  let nodeS := s.sched.launches.flatMap (fun x =>
    if x.2.org.part ≠ w.org.part then [] else
      ((x.2.nodes.zip (List.range x.2.nodes.length)).filter (fun n => nodeOpen n.1 && nSignalEn n.1.node &&
        nSignalFence n.1.node = w.fence && reached (nSignalValue n.1.node) w.value)).map (fun n => (none, some x.1, n.2)))
  ringS ++ nodeS

/-- Place `i` of a ring is a CALL, and place `j` an entry of its command buffer. -/
def callOf (s : State) (rk i j : Nat) : Bool :=
  match mget s.host.rings rk with
  | some r =>
    match r.entries[i]?, r.entries[j]? with
    | some c, some b => isCall c && b.inCall == some c.count
    | _, _ => false
  | none => false

/-- A signaller is held by a wait (11 R473, 12 R528): the wait's own, one after it in its ring, or a node that succeeds it.
DEDUCED: a CALL signals after its last buffer entry (10 R422), so a wait of its buffer holds it. -/
def heldBy (s : State) (g : Option Nat × Option Nat × Nat) (w : WaitAt) : Bool :=
  match g with
  | (some rk, _, i) => w.ring = some rk && (w.index ≤ i || callOf s rk i w.index)
  | (none, some li, i) =>
    w.launch = some li &&
      (w.index = i || (match mget s.sched.launches li with
        | some l => succeeds (l.nodes.map (fun n => n.node)) l.nodes.length i w.index
        | none => false))
  | _ => false

/-- The waits of a set that have a signaller, and whose every signaller is held by a wait of the set. -/
def closeOnce (s : State) (l : List WaitAt) : List WaitAt :=
  l.filter (fun w => signallers s w != [] && (signallers s w).all (fun g => l.any (heldBy s g)))

/-- The largest closed set of blocked waits (11 R473, R474). -/
def closedSet (s : State) : List WaitAt :=
  let l := blockedWaits s
  foldN l.length (fun _ l => closeOnce s l) l

/-- DEADLOCK_SCAN (11 R474): at a multiple of 1 ms of DTIME, the largest closed set is found. -/
def execDeadlockScan (s : State) : Host.Outcome State Fault Refusal :=
  if s.host.scanAt / 1000000 < s.dtime / 1000000 then
    .next { s with host := { s.host with scanAt := s.dtime, scanSet := (closedSet s).map (fun w => w.wid) } }
  else .next s

/-- The value of the fence that a wait names. -/
def fenceValue (s : State) (w : WaitAt) : Nat :=
  ((mget s.host.fences (hKey w.fence)).map (fun f => f.value.toNat)).getD 0

/-- The detail words of FENCE_DEADLOCK and WAIT_TIMEOUT (11 R476). -/
def waitDetail (s : State) (w : WaitAt) (n : Nat) : List Byte :=
  leBytes 4 w.fence ++ leBytes 4 n ++ leBytes 8 w.value.toNat ++ leBytes 8 (fenceValue s w)

/-- The set of a scan is broken (11 R476): a record for each wait, and each fence errored. -/
def breakSet (s : State) (l : List WaitAt) : State :=
  let s1 := bump32 s Reg.objDeadlockCount Reg.objDevStatus 1 1
  let s2 := l.foldl (fun s w =>
    appendRec s (workRec s w.org Cond.fenceDeadlock Engine.gantry 0 0 (waitDetail s w l.length))) s1
  settle (l.foldl (fun s w => errorFence s (hKey w.fence) Cond.fenceDeadlock) s2)

/-- DEADLOCK_BREAK (11 R474, R476): the errors of the set that the scan found, where every wait of it is still blocked. -/
def execDeadlockBreak (s : State) : Host.Outcome State Fault Refusal :=
  let l := (blockedWaits s).filter (fun w => s.host.scanSet.any (· == w.wid))
  let s1 := { s with host := { s.host with scanSet := [] } }
  if s.host.scanSet ≠ [] && l.length = s.host.scanSet.length then .next (breakSet s1 l) else .next s1

/-- The wait of a work identifier, and since when it waits. -/
def waitSince (s : State) (w : WaitAt) : Nat :=
  match w.ring, w.launch with
  | some rk, _ => ((mget s.host.rings rk).bind (fun r => (r.entries.find? (fun e => e.wid = w.wid)).map (fun e => e.since))).getD 0
  | none, some li =>
    ((mget s.sched.launches li).bind (fun l => (l.nodes.find? (fun n => n.wid = w.wid)).map (fun n => n.since))).getD 0
  | _, _ => 0

/-- A wait that has lasted WAIT_TIMEOUT_MS ends (11 R461): a record, and the entry retires or the node fails with the code. -/
def waitExpires (s : State) (w : WaitAt) : State :=
  let s1 := appendRec s (workRec s w.org Cond.waitTimeout Engine.gantry 0 0 (waitDetail s w 0))
  match w.ring with
  | some rk => settle (retireEntry s1 rk w.wid Cond.waitTimeout)
  | none => finish s1 w.wid Cond.waitTimeout

/-- WAIT_TIMEOUT (11 R461). -/
def execWaitTimeout (wid : Nat) (s : State) : Host.Outcome State Fault Refusal :=
  match (entryWaits s ++ nodeWaits s).find? (fun w => w.wid = wid) with
  | none => .next s
  | some w =>
    let ms := ((mget s.host.ctxs w.org.ctx).map (fun c => c.waitTimeoutMs)).getD 0
    if ms ≠ 0 && due s (waitSince s w) (ms * 1000000) then .next (waitExpires s w) else .next s

/-! The fault queue (11 R487, R488). -/

/-- FAULTQ_TAIL (11 R487): a valid value consumes records and arms the notification. -/
def execFaultqTail (p : Part) (value : Word32) (s : State) : Host.Outcome State Fault Refusal :=
  if s.sec.recovery then .next (hostTouch s) else
  let s := hostTouch s
  let t := rdF s (pkey p.toNat Reg.faultqTail) 31 0
  let h := rdF s (pkey p.toNat Reg.faultqHead) 31 0
  if cdiff value.toNat t ≤ cdiff h t then
    .next (setPart (wr s (pkey p.toNat Reg.faultqTail) (BitVec.ofNat 64 value.toNat)) p.toNat
      { partOf s p.toNat with notify := true })
  else .next s

end Sys2Proof.Machine
end

