-- ==== Sys2Proof/Machine/Modules.lean ====
section
/-! DEFINITION. The program loader (05 R170 to R183): load and unload entries, and the end of a load. -/
namespace Sys2Proof.Machine

/-- LOAD_MODULE (05 R170): the entry's load joins its partition's line. -/
def execLoadModule (p : Part) (ring : BitVec 10) (s : State) : Host.Outcome State Fault Refusal :=
  match readyEntry s p.toNat ring.toNat 0x07 with
  | some (r, e) =>
    let rk := rkey p.toNat ring.toNat
    let s1 := dispatched s rk r e
    let o := entryOrigin rk r e
    .next (settle (setCore s1 { s1.core with
      loads := mset s1.core.loads p.toNat (mgetD s1.core.loads p.toNat [] ++ [{ org := o, desc := e.desc, start := s.dtime }]) }))
  | none => .next s

/-! The load descriptor (05 R171). -/
def lModule (d : List Byte) : Nat := fAt d 0 47 0
def lBytes (d : List Byte) : Nat := fAt d 8 31 0
def lSpecs (d : List Byte) : Nat := fAt d 8 63 32
def lSpecAddr (d : List Byte) : Nat := wordAt d 0x10
def lCode (d : List Byte) : Nat := wordAt d 0x18
def lCodeBytes (d : List Byte) : Nat := fAt d 0x20 31 0
def lResult (d : List Byte) : Nat := wordAt d 0x28

/-- Every byte of a range lies in a CLAIM segment that may be written, and translates (05 R172). -/
def inClaims (s : State) (t : TableId) (va n : Nat) : State × Bool :=
  if (framePieces va n).all (fun q => ((findSeg (tableOf s t) q.1).map (fun g => g.2.kind == .claim)).getD false) then
    match xlateRange s 8 t .write va n with
    | (s1, .inr _) => (s1, true)
    | (s1, .inl _) => (s1, false)
  else (s, false)

/-- A field of the descriptor breaks R171 (05). -/
def loadDescBad (d : List Byte) : Bool :=
  fAt d 0 63 48 ≠ 0 || lBytes d % 4 ≠ 0 || 256 < lSpecs d || (lSpecs d ≠ 0 && 2 ^ 48 ≤ lSpecAddr d) || lCode d % 256 ≠ 0 ||
    2 ^ 48 ≤ lCode d || lCodeBytes d % 256 ≠ 0 || fAt d 0x20 63 32 ≠ 0 || lResult d % 64 ≠ 0 || wordAt d 0x30 ≠ 0 ||
    wordAt d 0x38 ≠ 0

/-- How a load ends: its status, cause, word offset and detail (05 R174). -/
structure LoadEnd where
  status : Nat
  cause : Nat
  word : Nat
  detail : Nat
  deriving DecidableEq, Repr

/-- A failure that no single instruction causes. -/
def plainEnd (status detail : Nat) : LoadEnd :=
  { status := status, cause := 0, word := 0xFFFFFFFF, detail := detail }

/-- The bytes of translated code (05 R178). -/
def codeUsed (d : List Byte) (f : Findings) : Nat :=
  min f.used (8 * lBytes d + 65536)

/-- A workgroup of an entry point fits a core (04 R121, R122). -/
def entryFitsCore (e : EntryPt) : Bool :=
  (choosePaths [(0, 0), (0, 0), (0, 0), (0, 0)] (roundRegs e.regs) ((e.threads + 63) / 64)).isSome

/-- The lowest free slot of a partition's module table (05 R177). -/
def moduleSlot (s : State) (p : Nat) : Option Nat :=
  mfree s.core.modules (p * 4096) 4096

/-- The failures that no single instruction causes, in the order of their codes (05 R175, R192; log 38). -/
def generalEnd (s : State) (p : Nat) (d : List Byte) (f : Findings) (m : List Byte) : Option LoadEnd :=
  let limit := fun (r : Nat) => some (plainEnd 9 r)
  let given := (f.general.map (fun g => plainEnd g.1 g.2))
  if (f.general.map (fun g => Nat.ble g.1 9)).getD false then given
  else if 4 * 2 ^ 20 < lBytes d then limit 1
  else if 2 ^ 22 < fieldAt m 12 4 then limit 2
  else if 64 < f.entries.length then limit 3
  else if f.entries.any (fun e => 131072 < e.shared) then limit 11
  else if f.entries.any (fun e => 1024 < e.threads) then limit 12
  else if f.entries.any (fun e => 128 < e.regs) then some (plainEnd 0xA 0)
  else if f.entries.any (fun e => ! entryFitsCore e) then some (plainEnd 0xB 0)
  else if f.general.isSome then given
  else if lCodeBytes d < codeUsed d f then some (plainEnd 0xF 0)
  else if (moduleSlot s p).isNone then some (plainEnd 0x12 0)
  else none

/-- The checks of a module that has been read (05 R174, R175); none where the load is OK. -/
def moduleEnd (s : State) (p : Nat) (d : List Byte) (f : Findings) (m : List Byte) : Option LoadEnd :=
  if fieldAt m 0 4 ≠ 0x07230203 then some (plainEnd 1 0)
  else if fieldAt m 4 4 < 0x00010000 || 0x000106FF < fieldAt m 4 4 then some (plainEnd 2 0)
  else match f.instr with
    | some (st, w, dt) => some { status := st, cause := 0, word := w, detail := dt }
    | none => generalEnd s p d f m

/-- The loader reads and checks a module (05 R170 to R175): how the load ends, none being OK, and whether its code region may be
written. -/
def runLoad (s : State) (l : LoadOp) (code spec : HostRead) (f : Findings) : State × Option LoadEnd × Bool :=
  let t := TableId.ctx l.org.ctx
  let fault := fun (x : XFault) => some { status := 0x10, cause := x.code, word := 0xFFFFFFFF, detail := 0 }
  match loadDescBad l.desc, inClaims s t (lCode l.desc) (lCodeBytes l.desc) with
  | true, _ => (s, some (plainEnd 0x11 0), false)
  | false, (s1, false) => (s1, some (plainEnd 0x11 0), false)
  | false, (s1, true) =>
    match engineRead s1 8 t .read (lModule l.desc) (lBytes l.desc) code with
    | (s2, .inl x) => (s2, fault x, true)
    | (s2, .inr m) =>
      match (if lSpecs l.desc = 0 then (s2, .inr []) else engineRead s2 8 t .read (lSpecAddr l.desc) (8 * lSpecs l.desc) spec :
          State × (XFault ⊕ List Byte)) with
      | (s3, .inl x) => (s3, fault x, true)
      | (s3, .inr _) => (s3, moduleEnd s3 l.org.part l.desc f m, true)

/-- The result record of a load (05 R174). -/
def loadRecord (s : State) (l : LoadOp) (e : Option LoadEnd) (handle : Nat) (f : Findings) : List Byte :=
  let r := e.getD { status := 0, cause := 0, word := 0xFFFFFFFF, detail := 0 }
  let ok := e.isNone
  leBytes 2 r.status ++ leBytes 2 r.cause ++ leBytes 4 handle ++ leBytes 4 r.word ++ leBytes 4 (if ok then codeUsed l.desc f else 0) ++
    leBytes 2 (if ok then f.entries.length else 0) ++
    leBytes 2 (if ok then (f.entries.map (fun e => roundRegs e.regs)).foldl max 0 else 0) ++ leBytes 4 r.detail ++
    leBytes 8 l.start ++ leBytes 8 s.dtime ++ zeroBytes 24

/-- The generation that a module slot takes at its next use: from 1, modulo 2^15, skipping 0 (05 R177). -/
def nextModGen (s : State) (key : Nat) : Nat :=
  let g := mgetD s.core.modGens key 0
  if g = 32767 then 1 else g + 1

/-- The module enters its partition's table (05 R177); answers its handle. -/
def enterModule (s : State) (l : LoadOp) (f : Findings) (key : Nat) : State × Nat :=
  let g := nextModGen s key
  let m : Module := { gen := g, codeAddr := lCode l.desc, codeBytes := lCodeBytes l.desc, entries := f.entries, atomicMode := f.atomicMode }
  let s1 := setCore s { s.core with modules := mset s.core.modules key m, modGens := mset s.core.modGens key g }
  (s1, moduleHandle s1 key)

/-- The next load of the partition begins (05 R179). -/
def nextLoad (s : State) (p : Nat) (rest : List LoadOp) : State :=
  let l := match rest with
    | [] => []
    | a :: r => { a with start := s.dtime } :: r
  setCore s { s.core with loads := if l.isEmpty then mdel s.core.loads p else mset s.core.loads p l }

/-- The content of the code region is the translator's, or undefined after a failure (05 R176, R180). -/
def fillCode (s : State) (l : LoadOp) : State :=
  let (x, s1) := draw s
  (engineWrite s1 8 (.ctx l.org.ctx) .write (lCode l.desc) (undefBytes x (lCode l.desc) (lCodeBytes l.desc))).1

/-- The load at the head of a partition's line ends (05 R174 to R177): its record is written, then its entry completes. -/
def endLoad (s : State) (p : Nat) (l : LoadOp) (rest : List LoadOp) (code spec : HostRead) (f : Findings) : State :=
  let (s1, e, writable) := runLoad s l code spec f
  let s2 := if writable then fillCode s1 l else s1
  let (s3, h) := match e, moduleSlot s2 p with
    | none, some k => enterModule s2 l f k
    | _, _ => (s2, 0)
  match engineWrite s3 8 (.ctx l.org.ctx) .record (lResult l.desc % 2 ^ 48) (loadRecord s3 l e h f) with
  | (s4, none) => finish (nextLoad s4 p rest) l.org.wid 0
  | (s4, some x) => engineFault (nextLoad s4 p rest) l.org Engine.gantry x

/-- MODULE_LOAD_END (05 R174). -/
def execModuleLoadEnd (p : Part) (code spec : HostRead) (f : Findings) (s : State) : Host.Outcome State Fault Refusal :=
  match mgetD s.core.loads p.toNat [] with
  | [] => .next s
  | l :: rest => .next (endLoad s p.toNat l rest code spec f)

/-- UNLOAD_MODULE (05 R182). -/
def execUnloadModule (p : Part) (ring : BitVec 10) (s : State) : Host.Outcome State Fault Refusal :=
  match readyEntry s p.toNat ring.toNat 0x08 with
  | some (r, e) =>
    let rk := rkey p.toNat ring.toNat
    match findModule s p.toNat (eArg e.bytes % 2 ^ 32) with
    | none => .next (settle (formatError s rk r e 7 0 0x10))
    | some (k, _) =>
      let s1 := dispatched s rk r e
      .next (settle (setCore s1 { s1.core with modUnloads := mset s1.core.modUnloads e.wid k }))
  | none => .next s

end Sys2Proof.Machine
end

