-- ==== Sys2Proof/Machine/Checks.lean ====
section
/-! DEFINITION. The checks of a ring entry and of the descriptors of every kind, shared by ring entries and plan nodes (10 R415,
R416, R420, R436, R439; 08 R335; 09 R364; 12 R518, R531; 13 R556). -/
namespace Sys2Proof.Machine

/-- The first of a list of (broken, byte offset) that is broken, the offsets rising. -/
def firstBroken (l : List (Bool × Nat)) : Option Nat :=
  (l.find? (fun x => x.1)).map (fun x => x.2)

/-- Each of the words at these offsets must be 0. -/
def zeroWords (d : List Byte) (offs : List Nat) : List (Bool × Nat) :=
  offs.map (fun o => (wordAt d o ≠ 0, o))

/-- The word of a dispatch descriptor that breaks R420 (10); the product of the counts stands at the first of them. -/
def dispatchFault (s : State) (p : Nat) (d : List Byte) : Option Nat :=
  let handle := match findModule s p (fAt d 0 31 0) with
    | none => true
    | some (_, m) => ! (entryFits m (fAt d 0 39 32) modelCompute false || entryFits m (fAt d 0 39 32) modelKernel false)
  firstBroken ([(handle || fAt d 0 63 48 ≠ 0, 0),
    (65536 < gX d || 65536 < gY d || (gZ d ≤ 65536 && 65536 < gX d * gY d * gZ d), 8),
    (65536 < gZ d || fAt d 0x10 63 32 ≠ 0, 0x10),
    (fAt d 0x18 47 0 % 32 ≠ 0 || fAt d 0x18 63 48 ≠ 0, 0x18),
    (fAt d 0x20 47 0 % 16 ≠ 0 || fAt d 0x20 63 48 ≠ 0, 0x20)] ++ zeroWords d [0x28, 0x30, 0x38])

/-- The word of a copy descriptor that breaks R421 (10). -/
def copyDescFault (d : List Byte) : Option Nat :=
  firstBroken [(fAt d 0 63 48 ≠ 0, 0), (fAt d 8 63 48 ≠ 0, 8), (fAt d 0x10 63 32 ≠ 0, 0x10), (wordAt d 0x18 ≠ 0, 0x18)]

/-- The word of a cache operation's descriptor that breaks R336 (08). -/
def cacheDescFault (d : List Byte) : Option Nat :=
  firstBroken [((cacheKind (fAt d 0 3 0)).isNone || fAt d 0 63 4 ≠ 0, 0), (wordAt d 8 % 128 ≠ 0 || fAt d 8 63 48 ≠ 0, 8),
    (wordAt d 0x10 % 128 ≠ 0 || fAt d 0x10 63 32 ≠ 0, 0x10), (wordAt d 0x18 % 32 ≠ 0 || fAt d 0x18 63 48 ≠ 0, 0x18)]

/-- The first address of the device-reserved region (09 R364). -/
abbrev reservedMem : Nat := 0x17C0000000

/-- The word of a scrub descriptor that breaks R364 (09). -/
def scrubDescFault (p : Nat) (d : List Byte) : Option Nat :=
  firstBroken [((fAt d 0 0 0 = 1 && p ≠ 0) || fAt d 0 63 2 ≠ 0, 0),
    (wordAt d 8 % 2048 ≠ 0 || fAt d 8 63 48 ≠ 0 ||
      (fAt d 0 0 0 = 1 && reservedMem < fAt d 8 36 0 + fAt d 0x10 31 0), 8),
    (wordAt d 0x10 % 2048 ≠ 0 || fAt d 0x10 63 32 ≠ 0, 0x10), (wordAt d 0x18 % 64 ≠ 0 || fAt d 0x18 63 48 ≠ 0, 0x18)]

/-- The word of a Crusher descriptor that breaks R556 (13). -/
def crushDescFault (d : List Byte) : Option Nat :=
  firstBroken ([(fAt d 0 1 0 = 3 || fAt d 0 63 3 ≠ 0, 0), (fAt d 8 63 48 ≠ 0, 8), (fAt d 0x10 63 48 ≠ 0, 0x10),
    (fAt d 0x18 39 0 = 0 || fAt d 0x18 63 40 ≠ 0, 0x18), (fAt d 0x20 63 40 ≠ 0, 0x20),
    (wordAt d 0x28 % 64 ≠ 0 || fAt d 0x28 63 48 ≠ 0, 0x28)] ++ zeroWords d [0x30, 0x38])

/-! Plan launch descriptors (12 R518). -/
def plOp (d : List Byte) : Nat := fAt d 0 1 0
def plHandle (d : List Byte) : Nat := fAt d 8 31 0
def plAddr_ (d : List Byte) : Nat := fAt d 0x10 47 0
def plBytes_ (d : List Byte) : Nat := fAt d 0x18 31 0
def plResult (d : List Byte) : Nat := fAt d 0x20 47 0

/-- The plan of partition `p` that a handle names (12 R519). -/
def findPlan (s : State) (p h : Nat) : Option (Nat × Plan) :=
  let k := p * 256 + bitsN h 7 0
  match mget s.sched.plans k with
  | some q => if bitsN h 12 8 = p && bitsN h 31 13 = mgetD s.sched.planGens k 0 then some (k, q) else none
  | none => none

/-- The word of a plan launch descriptor that breaks R518 (12), the handle of a LAUNCH or UNLOAD included (R526, R530). -/
def planDescFault (s : State) (p : Nat) (d : List Byte) : Option Nat :=
  let launch := plOp d = 0
  firstBroken ([(plOp d = 3 || fAt d 0 63 2 ≠ 0, 0),
    (fAt d 8 63 32 ≠ 0 || (plOp d ≠ 1 && (findPlan s p (plHandle d)).isNone), 8),
    ((plOp d ≤ 1 && plAddr_ d % 64 ≠ 0) || (launch && plAddr_ d = 0 && plBytes_ d ≠ 0) || fAt d 0x10 63 48 ≠ 0, 0x10),
    ((launch && (plBytes_ d % 8 ≠ 0 || 4096 < plBytes_ d)) || (plOp d = 1 && plBytes_ d % 64 ≠ 0) || fAt d 0x18 63 32 ≠ 0, 0x18),
    (plResult d % 64 ≠ 0 || fAt d 0x20 63 48 ≠ 0, 0x20)] ++ zeroWords d [0x28, 0x30, 0x38])

/-! Model operation descriptors (12 R531). -/
def rqOp (d : List Byte) : Nat := fAt d 0 3 0
def mResult (d : List Byte) : Nat := fAt d 0x30 47 0
def mFirst (d : List Byte) : Nat := fAt d 8 6 0
def mCount (d : List Byte) : Nat := fAt d 8 13 7
def mStrength (d : List Byte) : Nat := fAt d 8 15 14
def mPlan (d : List Byte) : Nat := fAt d 8 31 0
def mBatch (d : List Byte) : Nat := fAt d 8 39 32
def mSlots (d : List Byte) : Nat := fAt d 8 47 40
def mChunk (d : List Byte) : Nat := fAt d 8 55 48
def mPrompts (d : List Byte) : Nat := fAt d 0x20 31 0
def mMaxNew (d : List Byte) : Nat := fAt d 0x20 63 32
def rqTag (d : List Byte) : Nat := fAt d 0x28 63 48
def mAccount (d : List Byte) : Nat := fAt d 0x28 47 40

/-- An operation of the model object may come from partition `p` (12 R531). -/
def modelFrom (s : State) (p op : Nat) : Bool :=
  if op = 6 || op = 7 then s.mem.grant.getLsbD p else p = 0

/-- The bits of word `off` that an operation does not name, or values of it outside their range (12 R531 to R537). -/
def modelWordBad (d : List Byte) (off : Nat) : Bool :=
  let w := wordAt d off
  match rqOp d, off with
  | 1, 0x08 => bitsN w 63 16 ≠ 0 || mCount d = 0 || 95 < mFirst d + mCount d
  | 2, 0x08 => bitsN w 63 49 ≠ 0
  | 2, 0x10 => bitsN w 63 40 ≠ 0
  | 4, 0x08 => bitsN w 63 56 ≠ 0 || mSlots d = 0 || mBatch d < mSlots d || 64 < mBatch d || mChunk d = 0 || 64 < mChunk d
  | 4, 0x10 => bitsN w 63 48 ≠ 0
  | 4, 0x18 => bitsN w 63 48 ≠ 0
  | 6, 0x08 => bitsN w 63 48 ≠ 0
  | 6, 0x10 => bitsN w 63 48 ≠ 0
  | 6, 0x18 => bitsN w 63 48 ≠ 0 || w % 16 ≠ 0
  | 6, 0x20 => mPrompts d = 0 || 65536 < mPrompts d || mMaxNew d = 0
  | 6, 0x28 => bitsN w 39 33 ≠ 0
  | 7, 0x28 => bitsN w 47 0 ≠ 0
  | _, _ => w ≠ 0

/-- The word of a model operation descriptor that breaks R531 (12) by itself, or its partition. -/
def modelDescFault (s : State) (p : Nat) (d : List Byte) : Option Nat :=
  firstBroken ([(rqOp d = 0 || 7 < rqOp d || fAt d 0 63 4 ≠ 0 || ! modelFrom s p (rqOp d), 0)] ++
    [0x08, 0x10, 0x18, 0x20, 0x28].map (fun o => (modelWordBad d o, o)) ++
    [(mResult d % 16 ≠ 0 || fAt d 0x30 63 48 ≠ 0, 0x30), (wordAt d 0x38 ≠ 0, 0x38)])

/-- The reason and word of a descriptor of a kind that fails its check with RING_FORMAT (10 R439); a tensor descriptor is judged
apart (03 R105), and so is a load's (05 R176). -/
def descFault (s : State) (p kind : Nat) (d : List Byte) : Option (Nat × Nat) :=
  let other := fun (o : Option Nat) => o.map (fun w => (7, w))
  match kind with
  | 0x01 => (dispatchFault s p d).map (fun w => (6, w))
  | 0x03 => other (passFault d)
  | 0x04 => other (copyDescFault d)
  | 0x05 => other (cacheDescFault d)
  | 0x06 => other (scrubDescFault p d)
  | 0x0A => other (planDescFault s p d)
  | 0x0B => other (modelDescFault s p d)
  | 0x0C => other (crushDescFault d)
  | _ => none

/-- The Gantry's check of a tensor descriptor fails (03 R105): the error record, and the completion record where its address is
valid and aligned; the context is killed. -/
def rejectTensor (s : State) (o : Origin) (d : List Byte) (addr off reason : Nat) : State :=
  let s1 := bump32 s Reg.tensorDescCount Reg.tensorStatus 1 1
  let it := newItem s1 o .gantry d addr 1
  let it1 := { it with fault := some (s.dtime, Engine.gantry, Cond.tensorDesc), runsLeft := 0, start := some s.dtime }
  let s2 := if tCompl d % 64 = 0 then (tComplete s1 it1).1 else s1
  raise s2 o Cond.tensorDesc Engine.gantry 0 (tDetail off reason addr)

/-- The check of a tensor descriptor on the ring and plan paths (03 R105). -/
def tensorFault (d : List Byte) : Option (Nat × Nat) :=
  tFault d { handoffOk := false, tileBytes := 0 }

/-! The entry itself (10 R415, R416, R422, R436). -/

/-- Bytes of the payload descriptor of a kind (10 R416). -/
def descBytes (kind : Nat) : Nat :=
  match kind with
  | 0x01 => 64
  | 0x02 => 128
  | 0x03 => 128
  | 0x04 => 32
  | 0x05 => 32
  | 0x06 => 32
  | 0x07 => 64
  | 0x0A => 64
  | 0x0B => 64
  | 0x0C => 64
  | _ => 0

/-- The alignment of PAYLOAD_ADDR of a kind (00 R5; 10 R416, R422). -/
def payloadAlign (kind : Nat) : Nat :=
  match kind with
  | 0x00 => 1
  | 0x04 => 32
  | 0x05 => 32
  | 0x06 => 32
  | 0x08 => 1
  | 0x0E => 8
  | _ => 64

/-- The bits of ARG that a kind names (10 R416, R422). -/
def argBits (kind : Nat) : Nat :=
  match kind with
  | 0x08 => 2 ^ 32 - 1
  | 0x09 => 2 ^ 17 - 1
  | 0x0D => 2 ^ 13 - 1
  | _ => 0

/-- The set bits of a word that a mask does not name, each a failure at its own place (10 R439). -/
def strayBits (w mask off reason : Nat) : List (Nat × Nat × Nat) :=
  (List.range 64).filterMap (fun i => if bitN w i && ! bitN mask i then some (off, i, reason) else none)

/-- Every failure of a ring entry as (offset, bit, reason) (10 R439). -/
def entryErrors (e : Entry) : List (Nat × Nat × Nat) :=
  let b := e.bytes
  let k := eKind b
  let one := fun (c : Bool) (off bit reason : Nat) => if c then [(off, bit, reason)] else []
  let words := descBytes k / 8
  one (0x0F ≤ k) 0 0 1 ++ one (k = 0x0D && e.inCall.isSome) 0 0 5 ++
  strayBits (wordAt b 0) (2 ^ 64 - 1 - (2 ^ 32 - 2 ^ 14)) 0 2 ++
  one (k = 0 && ePayload b ≠ 0) 8 0 2 ++ one (ePayload b % payloadAlign k ≠ 0) 8 0 3 ++
  strayBits (wordAt b 8) (2 ^ 48 - 1) 8 2 ++
  one (k = 0x0D && (callCount e = 0 || 4096 < callCount e)) 0x10 0 5 ++
  strayBits (eArg b) (argBits k) 0x10 2 ++
  one (eParamMask b ≠ 0 && eParamAddr b % 64 ≠ 0) 0x30 0 3 ++
  strayBits (wordAt b 0x30) (2 ^ (48 + words) - 1) 0x30 4 ++
  strayBits (wordAt b 0x38) 0 0x38 2

/-- The failure of a ring entry that its record names: reason and offset. A reserved KIND is the first of all. -/
def entryFault (e : Entry) : Option (Nat × Nat) :=
  (firstError (entryErrors e)).map (fun x => (x.2.2, x.1))

end Sys2Proof.Machine
end

