-- ==== Sys2Proof/Machine/RingCmds.lean ====
section
/-! DEFINITION. Ring commands, TAIL reads, entry fetch, the idle sequence, WAKE, admission and retirement
(10 R408 to R434). -/
namespace Sys2Proof.Machine

/-- A RING_CMD write is taken: no command of the partition is pending and the partition is not being destroyed
(10 R405, R410). -/
def ringCmdTaken (s : State) (p : Nat) : Bool :=
  rdF s (pkey p Reg.ringCmdStatus) 0 0 = 0 && ! (partOf s p).destroying

/-- BUSY of RING_CMD_STATUS is set while a command waits for entries in flight (10 R410, R412). -/
def ringPending (s : State) (p : Nat) : State :=
  wr s (pkey p Reg.ringCmdStatus) 1

/-- A ring descriptor breaks R409: a reserved bit, a field outside its range, a misaligned address. -/
def ringDescBad (b : List Byte) : Bool :=
  let base := wordAt b 0
  let loc := fAt b 8 5 5
  base % 4096 ≠ 0 || (loc = 0 && 2 ^ 63 ≤ base) || (loc = 1 && 2 ^ 48 ≤ base) ||
    fAt b 8 4 0 < 4 || 16 < fAt b 8 4 0 || fAt b 8 63 6 ≠ 0 || fAt b 16 63 43 ≠ 0 ||
    wordAt b 24 % 64 ≠ 0 || 2 ^ 63 ≤ wordAt b 24 || fAt b 32 63 16 ≠ 0 ||
    wordAt b 40 ≠ 0 || wordAt b 48 ≠ 0 || wordAt b 56 ≠ 0

/-- The ring that a descriptor describes, right after CREATE (10 R409, R410). -/
def newRing (s : State) (b : List Byte) : Ring :=
  { state := .active, base := wordAt b 0, log2 := fAt b 8 4 0, inDevice := fAt b 8 5 5 = 1, ctx := hKey (fAt b 16 31 0),
    vector := fAt b 16 42 32, doorbell := wordAt b 24,
    idleAfterUs := if fAt b 32 15 0 = 0 then 50 else fAt b 32 15 0,
    fetched := 0, retired := 0, lastTail := 0, tailSince := s.dtime, pollAt := s.dtime, wake := false, poll := false,
    pollFresh := false, d2 := false, d2Fresh := false, errorWord := 0, entries := [], waitFor := none }

/-- Rings that a partition holds. -/
def ringCount (s : State) (p : Nat) : Nat :=
  (s.host.rings.filter (fun x => rpart x.1 = p)).length

/-- The RESULT of a RING CREATE, in the order of 10 R412. -/
def ringCreateResult (s : State) (p i : Nat) (d : HostRead) : Nat :=
  if ! (partOf s p).created then 6
  else if (mget s.host.rings (rkey p i)).isSome then 3
  else match d with
    | .fail _ => 1
    | .ok b =>
      if ringDescBad b then 2
      else if 16384 ≤ s.host.rings.length || (partOf s p).ringQuota ≤ ringCount s p then 4
      else match findCtx s p (fAt b 16 31 0) with
        | some c => if c.live && 0 < hostRefs c.refs then 0 else 5
        | none => 5

/-- The effect of a successful RING CREATE (10 R410). -/
def ringCreateOk (s : State) (p i : Nat) (b : List Byte) : State :=
  let r := newRing s b
  let rk := rkey p i
  let s1 := holdCtx (setRing s rk r) r.ctx
  ringResult (dbWrite (dbWrite (dbWrite s1 rk r 0x08 0) rk r 0x10 0) rk r 0x18 0) rk 0

/-- RING_CREATE (10 R410). -/
def execRingCreate (p : Part) (ring : BitVec 10) (desc : HostRead) (s : State) : Host.Outcome State Fault Refusal :=
  if s.sec.recovery then .next (hostTouch s) else
  let s := hostTouch s
  if ringCmdTaken s p.toNat then
    match ringCreateResult s p.toNat ring.toNat desc, desc with
    | 0, .ok b => .next (ringCreateOk s p.toNat ring.toNat b)
    | n, _ => .next (ringResult s (rkey p.toNat ring.toNat) n)
  else .next s

/-- A ring command other than CREATE acts on an existing ring of a created partition; its RESULT otherwise (10 R412). -/
def onRing (s : State) (p i : Nat) (f : Ring → State) : State :=
  if ! ringCmdTaken s p then s
  else if ! (partOf s p).created then ringResult s (rkey p i) 6
  else match mget s.host.rings (rkey p i) with
    | none => ringResult s (rkey p i) 3
    | some r => f r

/-- STOP and DESTROY fetch nothing further, and wait for the entries in flight (10 R410, R433). -/
def stopRing (s : State) (rk : Nat) (w : RingWait) : State :=
  let s1 := discard s rk true
  match mget s1.host.rings rk with
  | none => s1
  | some r => checkDrain (ringPending (setRing s1 rk { r with state := .stopping, waitFor := some w }) (rpart rk)) rk

/-- RING_DESTROY (10 R410). -/
def execRingDestroy (p : Part) (ring : BitVec 10) (s : State) : Host.Outcome State Fault Refusal :=
  if s.sec.recovery then .next (hostTouch s) else
  let s := hostTouch s
  .next (onRing s p.toNat ring.toNat (fun _ => settle (stopRing s (rkey p.toNat ring.toNat) .destroy)))

/-- RING_STOP (10 R410): from ACTIVE or IDLE. -/
def execRingStop (p : Part) (ring : BitVec 10) (s : State) : Host.Outcome State Fault Refusal :=
  if s.sec.recovery then .next (hostTouch s) else
  let s := hostTouch s
  .next (onRing s p.toNat ring.toNat (fun r =>
    if r.state = .active ∨ r.state = .idle then settle (stopRing s (rkey p.toNat ring.toNat) .stop)
    else ringResult s (rkey p.toNat ring.toNat) 3))

/-- RING_RESUME (10 R410): from STOPPED or ERROR, with a LIVE context. -/
def execRingResume (p : Part) (ring : BitVec 10) (s : State) : Host.Outcome State Fault Refusal :=
  if s.sec.recovery then .next (hostTouch s) else
  let s := hostTouch s
  .next (onRing s p.toNat ring.toNat (fun r =>
    let rk := rkey p.toNat ring.toNat
    if r.state ≠ .stopped ∧ r.state ≠ .error then ringResult s rk 3
    else if ! ((mget s.host.ctxs r.ctx).map (fun c => c.live)).getD false then ringResult s rk 5
    else checkDrain (ringPending (setRing s rk { r with waitFor := some .resume }) p.toNat) rk))

/-- RING_QUERY (10 R410): reports the state of the ring, NONE included. -/
def execRingQuery (p : Part) (ring : BitVec 10) (s : State) : Host.Outcome State Fault Refusal :=
  if s.sec.recovery then .next (hostTouch s) else
  let s := hostTouch s
  if ringCmdTaken s p.toNat then
    .next (ringResult s (rkey p.toNat ring.toNat) (if (partOf s p.toNat).created then 0 else 6))
  else .next s

/-- RING_CMD_RESERVED (10 R410, R412): RESERVED_SET, nothing changes. -/
def execRingCmdReserved (p : Part) (ring : BitVec 10) (s : State) : Host.Outcome State Fault Refusal :=
  if s.sec.recovery then .next (hostTouch s) else
  let s := hostTouch s
  if ringCmdTaken s p.toNat then
    .next (ringResult s (rkey p.toNat ring.toNat) (if (partOf s p.toNat).created then 2 else 6))
  else .next s

/-! TAIL reads. -/

/-- Issues a read of TAIL (10 R427): the wake bit that is set now is consumed when it returns (10 R428). -/
def issueTail (s : State) (rk : Nat) (r : Ring) : State :=
  emit (setRing s rk { r with poll := true, pollFresh := r.wake, pollAt := s.dtime }) (.hostRead (rpart rk) r.doorbell 4)

/-- An ACTIVE ring may poll: it has fetched every entry below the last TAIL, no TAIL read is outstanding, and the poll interval
has passed (10 R427). -/
def mayPoll (s : State) (r : Ring) : Bool :=
  ! fetchHalted s && r.state = .active && ! r.poll && ! r.d2 && ! tailAhead r r.lastTail &&
    due s r.pollAt (rdF s Reg.gantryRingCfg 7 0 * 250)

/-- TAIL_POLL (10 R427). -/
def execTailPoll (p : Part) (ring : BitVec 10) (s : State) : Host.Outcome State Fault Refusal :=
  match mget s.host.rings (rkey p.toNat ring.toNat) with
  | some r => if mayPoll s r then .next (issueTail s (rkey p.toNat ring.toNat) r) else .next s
  | none => .next s

/-- A TAIL value taken by a ring (10 R426): an invalid one stops the ring; a changed one restarts the idle time. -/
def takeTail (s : State) (rk : Nat) (r : Ring) (t : Nat) : State :=
  if tailValid r t then
    setRing s rk { r with lastTail := t, tailSince := if t = r.lastTail then r.tailSince else s.dtime }
  else tailError (setRing s rk r) rk r

/-- A poll of TAIL returns (10 R426, R428). -/
def tailReturn (s : State) (p i : Nat) (d : HostRead) : State :=
  match mget s.host.rings (rkey p i) with
  | none => s
  | some r =>
    if ! r.poll then s
    else
      let r1 := { r with poll := false, pollFresh := false, wake := r.wake && ! r.pollFresh }
      if r.state ≠ .active then setRing s (rkey p i) r1
      else match d with
        | .fail w => settle (tailAbort (setRing s (rkey p i) r1) (rkey p i) r1 w)
        | .ok b => settle (takeTail s (rkey p i) r1 (fieldAt b 0 4))

/-- TAIL_READ_RETURN (10 R426). -/
def execTailReadReturn (p : Part) (ring : BitVec 10) (r : HostRead) (s : State) : Host.Outcome State Fault Refusal :=
  .next (tailReturn s p.toNat ring.toNat r)

/-! Entry fetch (10 R433, R434, R440). -/

/-- How many fetched entries have not passed step 3. -/
def lead (r : Ring) : Nat :=
  (r.entries.filter (fun e => ! past3 e)).length

/-- A new entry as fetched. -/
def newEntry (s : State) (count : Nat) (inCall : Option Nat) (b : List Byte) (addr : Nat) : Entry :=
  { wid := s.host.nextWid, count := count, inCall := inCall, bytes := b, addr := addr, step := .start, since := s.dtime,
    step2End := 0, desc := [], waitRef := false, sigRef := false, ctxRef := false, counted := false, bufFetched := 0,
    bufCode := 0 }

/-- The work identifier is used up. -/
def bumpWid (s : State) : State :=
  { s with host := { s.host with nextWid := s.host.nextWid + 1 } }

/-- The next ring slot: its count's address, in host memory with bit 63 set or as a device virtual address (10 R425, R438). -/
def slotAddr (r : Ring) : Nat :=
  r.base + 64 * (r.fetched % 2 ^ r.log2)

/-- A failed entry read: the ring enters ERROR. The failed entry retires with the code where every entry before it has passed
step 3 (10 R440, log 22). -/
def entryAbort (s : State) (rk : Nat) (r : Ring) (f : XFault) (addr : Nat) : State :=
  let (k, c) := abortCause f
  let s1 := abortRecord s rk r addr 2 k c addr
  let s2 :=
    if r.entries.all past3 then
      setRing (bumpWid s1) rk { r with
        entries := r.entries ++ [{ newEntry s1 r.fetched none (zeroBytes 64) addr with step := .done Cond.ringFetchAbort }],
        fetched := (r.fetched + 1) % 2 ^ 32 }
    else s1
  popRetired (ringError s2 rk Cond.ringFetchAbort r.fetched) rk

/-- The next ring entry arrives (10 R433). -/
def fetchSlot (s : State) (rk : Nat) (r : Ring) (d : HostRead) : State :=
  if r.state ≠ .active ∨ ! tailAhead r r.lastTail ∨ 17 ≤ lead r then s
  else
    let va := slotAddr r
    if r.inDevice then
      match engineRead s 8 (.ctx r.ctx) .read va 64 d with
      | (s1, .inl f) => settle (entryAbort s1 rk r f va)
      | (s1, .inr b) =>
        settle (bumpWid (setRing s1 rk { r with
          entries := r.entries ++ [newEntry s1 r.fetched none b va], fetched := (r.fetched + 1) % 2 ^ 32 }))
    else
      match d with
      | .fail w =>
        settle (entryAbort s rk r { xfault Cond.hostWindowAbort va (.ctx r.ctx) .read none 0 with reason := failCode w }
          (va + 2 ^ 63))
      | .ok b =>
        settle (bumpWid (setRing s rk { r with
          entries := r.entries ++ [newEntry s r.fetched none (padTo 64 b) (va + 2 ^ 63)],
          fetched := (r.fetched + 1) % 2 ^ 32 }))

/-- The CALL whose buffer is fetched next: its first 64 entries with it, the rest at a lead of 16 (10 R422, R433). -/
def nextCall (r : Ring) : Option Entry :=
  r.entries.find? (fun e =>
    isCall e && ! isDone e && e.bufFetched < callCount e && callCount e ≤ 4096 && e.bufCode = 0 &&
      (e.bufFetched < 64 ||
        (r.entries.filter (fun b => b.inCall = some e.count && ! past3 b)).length ≤ 16))

/-- Puts a buffer entry after the entries of its CALL that are there. -/
def insertBuf (l : List Entry) (c : Nat) (e : Entry) : List Entry :=
  match l with
  | [] => [e]
  | x :: r =>
    if x.inCall = some c || (x.inCall.isNone && x.count = c) then
      match r with
      | [] => [x, e]
      | y :: _ => if y.inCall = some c then x :: insertBuf r c e else x :: e :: r
    else x :: insertBuf r c e

/-- A CALL retires out of its turn: it signals, and its slot is left to the entries before it, which are discarded (10 R433,
R440). -/
def retireAhead (s : State) (rk wid code : Nat) : State :=
  let s1 := retireEntry s rk wid code
  match mget s1.host.rings rk with
  | some r => setRing s1 rk { r with entries := r.entries.filter (fun e => e.wid ≠ wid) }
  | none => s1

/-- A failed read of a command buffer (10 R440, R720): the CALL retires with RING_FETCH_ABORT, once the entries it has dispatched
have (log 22). -/
def bufferAbort (s : State) (rk : Nat) (r : Ring) (c : Entry) (f : XFault) (addr : Nat) : State :=
  let (k, code) := abortCause f
  let s1 := abortRecord s rk r addr 3 k code addr
  let s2 := setRing s1 rk (updEntry r c.wid (fun e => { e with bufCode := Cond.ringFetchAbort }))
  let s3 := if callStarted r c then s2
    else if (r.entries.takeWhile (fun x => x.wid ≠ c.wid)).all past3 then retireEntry s2 rk c.wid Cond.ringFetchAbort
    else retireAhead s2 rk c.wid Cond.ringFetchAbort
  ringError s3 rk Cond.ringFetchAbort c.count

/-- The next entry of a command buffer arrives (10 R422, R433). A ring that has gone IDLE with a CALL at work fetches on: the
idle sequence asks only that the entries below TAIL are fetched (R428). -/
def fetchBuffer (s : State) (rk : Nat) (r : Ring) (d : HostRead) : State :=
  match nextCall r with
  | none => s
  | some c =>
    if r.state ≠ .active ∧ r.state ≠ .idle ∧ ! (r.state = .stopping ∧ callStarted r c) then s
    else
      let va := ePayload c.bytes + 64 * c.bufFetched
      match engineRead s 8 (.ctx r.ctx) .read va 64 d with
      | (s1, .inl f) => settle (bufferAbort s1 rk r c f va)
      | (s1, .inr b) =>
        let r1 := updEntry r c.wid (fun e => { e with bufFetched := e.bufFetched + 1 })
        settle (bumpWid (setRing s1 rk { r1 with
          entries := insertBuf r1.entries c.count (newEntry s1 c.count (some c.count) b va) }))

/-- One fetch of a ring, from the ring or from a command buffer. -/
def fetchEntry (s : State) (p i : Nat) (buffer : Bool) (d : HostRead) : State :=
  match mget s.host.rings (rkey p i) with
  | none => s
  | some r => if fetchHalted s then s else if buffer then fetchBuffer s (rkey p i) r d else fetchSlot s (rkey p i) r d

/-- ENTRY_FETCH (10 R433). -/
def execEntryFetch (p : Part) (ring : BitVec 10) (buffer : Bool) (r : HostRead) (s : State) :
    Host.Outcome State Fault Refusal :=
  .next (fetchEntry s p.toNat ring.toNat buffer r)

/-! The idle sequence and WAKE (10 R428, R431). -/

/-- The conditions of the idle sequence (10 R428). -/
def mayIdle (s : State) (r : Ring) : Bool :=
  ! fetchHalted s && r.state = .active && ! tailAhead r r.lastTail && ! r.wake && ! r.poll && ! r.d2 &&
    due s r.tailSince (r.idleAfterUs * 1000)

/-- Steps D1 and D2 (10 R428). -/
def idleStart (s : State) (rk : Nat) (r : Ring) : State :=
  emit (dbWrite (setRing s rk { r with d2 := true, d2Fresh := false, pollAt := s.dtime }) rk r 0x08 1) (.hostRead (rpart rk) r.doorbell 4)

/-- IDLE_SEQUENCE (10 R428). -/
def execIdleSequence (p : Part) (ring : BitVec 10) (s : State) : Host.Outcome State Fault Refusal :=
  match mget s.host.rings (rkey p.toNat ring.toNat) with
  | some r => if mayIdle s r then .next (idleStart s (rkey p.toNat ring.toNat) r) else .next s
  | none => .next s

/-- Step D3 with the TAIL value that D2 returned (10 R428). -/
def idleJudge (s : State) (rk : Nat) (r : Ring) (t : Nat) : State :=
  if ! tailValid r t then tailError (setRing s rk r) rk r
  else if tailAhead r t || r.wake then
    let r1 := { r with wake := false, lastTail := t, tailSince := if t = r.lastTail then r.tailSince else s.dtime }
    let s1 := bump32 (dbWrite (setRing s rk r1) rk r1 0x08 0) Reg.gantryIdleAbortCount Reg.gantryRingStatus 2 1
    issueTail s1 rk r1
  else setRing s rk { r with state := .idle, lastTail := t }

/-- The read of D2 returns (10 R428). -/
def idleReturn (s : State) (p i : Nat) (d : HostRead) : State :=
  match mget s.host.rings (rkey p i) with
  | none => s
  | some r =>
    if ! r.d2 then s
    else
      let r1 := { r with d2 := false, d2Fresh := false }
      if r.state ≠ .active then setRing s (rkey p i) r1
      else match d with
        | .fail w => settle (tailAbort (setRing s (rkey p i) r1) (rkey p i) r1 w)
        | .ok b => settle (idleJudge s (rkey p i) r1 (fieldAt b 0 4))

/-- IDLE_TAIL_RETURN (10 R428). -/
def execIdleTailReturn (p : Part) (ring : BitVec 10) (r : HostRead) (s : State) : Host.Outcome State Fault Refusal :=
  .next (idleReturn s p.toNat ring.toNat r)

/-- A WAKE that nothing takes is counted (10 R431). -/
def wakeIgnored (s : State) : State :=
  bump32 s Reg.gantryWakeIgnoredCount Reg.gantryRingStatus 1 1

/-- The action of a WAKE write (10 R431). -/
def wakeRing (s : State) (p i : Nat) : State :=
  if ! (partOf s p).created || (partOf s p).destroying then wakeIgnored s
  else match mget s.host.rings (rkey p i) with
    | none => wakeIgnored s
    | some r => match r.state with
      | .idle =>
        let r1 := { r with state := .active, tailSince := s.dtime }
        bump64 (issueTail (dbWrite s (rkey p i) r 0x08 0) (rkey p i) r1) Reg.gantryWakeCount Reg.gantryRingStatus 0 1
      | .active => setRing s (rkey p i) { r with wake := true }
      | _ => wakeIgnored s

/-! Admission and retirement (10 R418, R419). -/

/-- There is room for one more entry of a partition in flight (10 R418). -/
def hasRoom (s : State) (p : Nat) : Bool :=
  inFlight s none < 4096 && inFlight s (some p) < (partOf s p).inflightQuota

/-- Launches of a plan in flight: those of entries, and a serving step (12 R525, R526). -/
def launchesOf (s : State) (slot : Nat) : Nat :=
  (s.host.rings.map (fun x =>
    (x.2.entries.filter (fun e => admitted e && launchSlot (rpart x.1) e = some slot)).length)).foldl (· + ·) 0 +
    (s.sched.launches.filter (fun l => l.2.wid = 0 && l.2.plan = slot)).length

/-- A LAUNCH waits at step 4 while 8 launches of its plan are in flight (12 R526). -/
def planRoom (s : State) (p : Nat) (e : Entry) : Bool :=
  match launchSlot p e with
  | some slot => launchesOf s slot < 8
  | none => true

/-- Step 4 passes: the entry counts, and goes to its gate or to step 6 (10 R417, R418). -/
def takeRoom (s : State) (rk : Nat) (r : Ring) (e : Entry) : State :=
  let s1 := setRing s rk (updEntry r e.wid (fun e =>
    { e with counted := ! isCall e, step := if eGate e.bytes = 0 then .ready else .gate }))
  noteConds (if eGate e.bytes = 0 then s1 else waitGate s1 e.wid (eGate e.bytes) (eGateValue e.bytes))

/-- IN_FLIGHT_ADMISSION (10 R418): a CALL does not count. -/
def execInFlightAdmission (p : Part) (ring : BitVec 10) (s : State) : Host.Outcome State Fault Refusal :=
  match mget s.host.rings (rkey p.toNat ring.toNat) with
  | none => .next s
  | some r => match headEntry r with
    | none => .next s
    | some e =>
      if e.step = .room ∧ (isCall e ∨ hasRoom s p.toNat) ∧ planRoom s p.toNat e then .next (takeRoom s (rkey p.toNat ring.toNat) r e)
      else .next s

/-- ENTRY_RETIREMENT (10 R419): the entry whose work has completed. -/
def execEntryRetirement (wid : Nat) (s : State) : Host.Outcome State Fault Refusal :=
  match mget s.host.finished wid, ringOfWid s wid with
  | some code, some rk => .next (settle (retireEntry s rk wid code))
  | _, _ => .next s

/-- NOP (10 R416, R419): retires at step 6. -/
def execNop (p : Part) (ring : BitVec 10) (s : State) : Host.Outcome State Fault Refusal :=
  match readyEntry s p.toNat ring.toNat 0x00 with
  | some (r, e) => .next (doneAtOnce s (rkey p.toNat ring.toNat) r e 0)
  | none => .next s

/-- CALL (10 R422): its buffer entries begin after it has passed its own wait, barrier and gate. -/
def execCall (p : Part) (ring : BitVec 10) (s : State) : Host.Outcome State Fault Refusal :=
  match readyEntry s p.toNat ring.toNat 0x0D with
  | some (r, e) => .next (settle (dispatched s (rkey p.toNat ring.toNat) r e))
  | none => .next s

end Sys2Proof.Machine
end

