-- ==== Sys2Proof/Machine/RingExec.lean ====
section
/-! DEFINITION. Step 3 of a ring entry (10 R417, R435 to R440): the payload and parameter block are read, patched and checked; the
serialising kinds SEG_UPDATE and TIMESTAMP (R423, R424); and GANTRY_WAKE (R431). -/
namespace Sys2Proof.Machine

/-- The signal fence of an entry is checked last at step 3, and the entry goes to step 4 with its checked descriptor
(11 R458, R453). -/
def toRoom (s : State) (rk : Nat) (e : Entry) (d : List Byte) : State :=
  match mget s.host.rings rk with
  | none => s
  | some r =>
    if eSignalEn e.bytes && (findFence s (rpart rk) (eSignalFence e.bytes)).isNone then handleInvalid s rk r e (eSignalFence e.bytes)
    else
      let s1 := if eSignalEn e.bytes then holdFence s (hKey (eSignalFence e.bytes)) else s
      setRing s1 rk (updEntry r e.wid (fun x => { x with step := .room, desc := d, sigRef := eSignalEn e.bytes }))

/-! Parameter indirection (10 R436, R437). -/

/-- Words of a descriptor that a mask names, replaced from the parameter block. -/
def patchWords (mask : Nat) (block d : List Byte) : List Byte :=
  (List.range 16).foldl (fun d i => if bitN mask i then putWord d (8 * i) (wordAt block (8 * i)) else d) d

/-- A range lies wholly in one CLAIM segment of a context (10 R437, 12 R527). -/
def inOneClaim (s : State) (ctx va n : Nat) : Bool :=
  match findSeg (tableOf s (.ctx ctx)) va, findSeg (tableOf s (.ctx ctx)) (va + n - 1) with
  | some a, some b => a.1 = b.1 && a.2.kind = .claim
  | _, _ => false

/-- The lowest bit set in a mask. -/
def lowBit (mask : Nat) : Nat :=
  ((List.range 64).find? (bitN mask)).getD 0

/-- INDIRECT_BOUND (10 R437): the entry retires with it, and the ring continues. -/
def indirectBound (s : State) (rk : Nat) (r : Ring) (e : Entry) (reason word : Nat) : State :=
  retireEntry (appendRec s (workRec s (entryOrigin rk r e) Cond.indirectBound Engine.gantry 0 0
    (leBytes 1 reason ++ zeroBytes 1 ++ leBytes 2 word ++ zeroBytes 4 ++ leBytes 8 (eParamAddr e.bytes)))) rk e.wid Cond.indirectBound

/-- The word that INDIRECT_BOUND reason 2 names in a patched dispatch descriptor, if any. -/
def countBound (mask : Nat) (d : List Byte) : Option Nat :=
  let beyond := fun (i : Nat) => bitN mask i && (if i = 1 then 65536 < gX d || 65536 < gY d else 65536 < gZ d)
  match [1, 2].find? beyond with
  | some i => some i
  | none =>
    if gX d ≤ 65536 && gY d ≤ 65536 && gZ d ≤ 65536 && 65536 < gX d * gY d * gZ d then [1, 2].find? (bitN mask) else none

/-! What step 3 does with a descriptor (10 R417, R439). -/

/-- A tensor descriptor fails: its record kills the context, and the entry retires (03 R105, 11 R478). -/
def tensorRejected (s : State) (rk : Nat) (r : Ring) (e : Entry) (d : List Byte) (off reason : Nat) : State :=
  retireEntry (rejectTensor s (entryOrigin rk r e) d (ePayload e.bytes) off reason) rk e.wid Cond.tensorDesc

/-- PLAN_PATCH_BOUND (12 R527). -/
def patchBound (s : State) (o : Origin) (patch node word addr : Nat) : State :=
  appendRec s (workRec s o Cond.planPatchBound Engine.gantry 0 0
    (leBytes 2 patch ++ leBytes 2 node ++ leBytes 2 word ++ zeroBytes 2 ++ leBytes 8 addr))

/-- The first patch of a plan whose argument word lies beyond the block: its index and the patch. -/
def badPatch (q : Plan) (bytes : Nat) : Option (Nat × Nat) :=
  (q.patches.zip (List.range q.patches.length)).findSome? (fun x =>
    if bytes / 8 ≤ bitsN x.1 26 18 then some (x.2, x.1) else none)

/-- The model handle that a plan depends on is current (12 R526, R533). -/
def planCurrent (s : State) (q : Plan) : Bool :=
  q.model = 0 || (s.sched.model && q.model = mkHandle tyModel 0 s.sched.modelGen)

/-- Step 3 of a LAUNCH (12 R526, R527): the argument block is read once; it follows the descriptor in the entry. -/
def launchRead (s : State) (rk : Nat) (r : Ring) (e : Entry) (d : List Byte) (q : Plan) : State :=
  let o := entryOrigin rk r e
  let a := plAddr_ d
  let n := plBytes_ d
  let bound := fun (s : State) (i node w : Nat) => retireEntry (patchBound s o i node w a) rk e.wid Cond.planPatchBound
  if ! planCurrent s q then retireEntry s rk e.wid Cond.modelSwapped
  else if n ≠ 0 && ! inOneClaim s r.ctx a n then bound s 0xFFFF 0 0
  else match badPatch q n with
    | some (i, w) => bound s i (bitsN w 11 0) (bitsN w 26 18)
    | none =>
      match (if n = 0 then (s, .inr []) else engineRead s 8 (.ctx r.ctx) .read a n (.fail .unsupported) :
          State × (XFault ⊕ List Byte)) with
      | (s1, .inl f) =>
        retireEntry (raise s1 o f.code Engine.gantry f.va (xdetail s1 f)) rk e.wid f.code
      | (s1, .inr bs) => toRoom s1 rk e (d ++ bs)

/-- A patched descriptor takes the checks of its kind, and the entry goes to step 4. -/
def judgeDesc (s : State) (rk : Nat) (r : Ring) (e : Entry) (d : List Byte) : State :=
  let p := rpart rk
  match descFault s p (eKind e.bytes) d with
  | some (reason, off) => formatError s rk r e reason 1 off
  | none =>
    let sigOk := ! eSignalEn e.bytes || (findFence s p (eSignalFence e.bytes)).isSome
    if eKind e.bytes = 0x02 && sigOk then
      match tensorFault d with
      | some (off, reason) => tensorRejected s rk r e d off reason
      | none => toRoom s rk e d
    else if eKind e.bytes = 0x0A && plOp d = 0 && sigOk then
      match findPlan s p (plHandle d) with
      | some (_, q) => launchRead s rk r e d q
      | none => toRoom s rk e d
    else toRoom s rk e d

/-- The parameter block patches the descriptor (10 R436, R437). -/
def patchDesc (s : State) (rk : Nat) (r : Ring) (e : Entry) (d : List Byte) : State :=
  let mask := eParamMask e.bytes
  let a := eParamAddr e.bytes
  if mask = 0 then judgeDesc s rk r e d
  else if ! inOneClaim s r.ctx a 128 then indirectBound s rk r e 1 (lowBit mask)
  else match engineRead s 8 (.ctx r.ctx) .read a 128 (.fail .unsupported) with
    | (s1, .inl f) =>
      retireEntry (raise s1 (entryOrigin rk r e) f.code Engine.gantry f.va (xdetail s1 f)) rk e.wid f.code
    | (s1, .inr block) =>
      let d1 := patchWords mask block d
      match (if eKind e.bytes = 1 then countBound mask d1 else none) with
      | some w => indirectBound s1 rk r e 2 w
      | none => judgeDesc s1 rk r e d1

/-! SEG_UPDATE (10 R423). -/

/-- The 32 bytes of a segment descriptor (08 R312). -/
def segBytes (g : Seg) : List Byte :=
  leBytes 8 (g.base + segKindCode g.kind * 2 ^ 48 + b2n g.read * 2 ^ 51 + b2n g.write * 2 ^ 52) ++ leBytes 8 g.frames ++
    leBytes 8 g.target ++ leBytes 8 g.device

/-- The table that SEG_UPDATE names: of the context, or of the partition (TABLE is ARG[16]). -/
def updTable (rk : Nat) (r : Ring) (e : Entry) : TableId :=
  if bitN (eArg e.bytes) 16 then .part (rpart rk) else .ctx r.ctx

/-- The descriptors of a mask are read in order into a table; what host reads returned is used up in order. -/
def readSegs (s : State) (ctx va mask : Nat) (l : List Nat) (t : List (List Byte)) (ext : HostRead) :
    State × (XFault ⊕ List (List Byte)) :=
  match l with
  | [] => (s, .inr t)
  | i :: rest =>
    if ! bitN mask i then readSegs s ctx va mask rest t ext
    else match engineRead s 8 (.ctx ctx) .read (va + 32 * i) 32 ext with
      | (s1, .inl f) => (s1, .inl f)
      | (s1, .inr b) => readSegs s1 ctx va mask rest (lset t i b) (afterExt s1 (.ctx ctx) (va + 32 * i) 32 ext)

/-- Step 3 of a SEG_UPDATE: the resulting table is checked as a whole. -/
def segRead (s : State) (rk : Nat) (r : Ring) (e : Entry) (ext : HostRead) : State :=
  let p := rpart rk
  match readSegs s r.ctx (ePayload e.bytes) (eArg e.bytes % 2 ^ 16) (List.range 16) ((tableOf s (updTable rk r e)).map segBytes) ext with
  | (s1, .inl f) => payloadAbort s1 rk r e f
  | (s1, .inr t) =>
    let d := t.flatMap (fun x => x)
    match tableFault d (ownsClaim s1 p) (selfId s1) with
    | some (i, w) => formatError s1 rk r e 7 1 (32 * i + w)
    | none => toRoom s1 rk e d

/-! Step 3 (10 R417). -/

/-- The entry at the head of a ring's line takes step 3; `ext` is what reads of host memory, or of a peer, returned. -/
def readPayload (s : State) (rk : Nat) (r : Ring) (e : Entry) (ext : HostRead) : State :=
  match entryFault e with
  | some (reason, off) => formatError s rk r e reason 0 off
  | none =>
    if eKind e.bytes = 0x09 then segRead s rk r e ext
    else if descBytes (eKind e.bytes) = 0 then toRoom s rk e []
    else match engineRead s 8 (.ctx r.ctx) .read (ePayload e.bytes) (descBytes (eKind e.bytes)) ext with
      | (s1, .inl f) => payloadAbort s1 rk r e f
      | (s1, .inr d) => patchDesc s1 rk r e d

/-- The read of step 3 of the head of a ring returns (10 R417). -/
def payloadReturn (s : State) (rk : Nat) (r : HostRead) : State :=
  match mget s.host.rings rk with
  | none => s
  | some x => match headEntry x with
    | none => s
    | some e => if e.step = .payload && mayAdvance x e then settle (readPayload s rk x e r) else s

/-- PAYLOAD_READ (10 R417 step 3). -/
def execPayloadRead (p : Part) (ring : BitVec 10) (r : HostRead) (s : State) : Host.Outcome State Fault Refusal :=
  .next (payloadReturn s (rkey p.toNat ring.toNat) r)

/-! SEG_UPDATE and TIMESTAMP at step 6. -/

/-- A table takes new segments: the translations of the old are dropped (08 R323), and the PEER segments of both are released and
imported (14 R596). -/
def setTable (s : State) (t : TableId) (l : List Seg) : State :=
  let p := tablePart t
  let old := tableOf s t
  let s1 := importSegs s p l
  let s2 := match t with
    | .ctx k => match mget s1.host.ctxs k with
      | some c => setCtx s1 k { c with segs := l }
      | none => s1
    | .part q => setPart s1 q { partOf s1 q with segs := l }
  releaseSegs (dropTable s2 t) p old

/-- SEG_UPDATE (10 R423): the new table takes effect at retirement. -/
def execSegUpdate (p : Part) (ring : BitVec 10) (s : State) : Host.Outcome State Fault Refusal :=
  match readyEntry s p.toNat ring.toNat 0x09 with
  | some (r, e) =>
    let rk := rkey p.toNat ring.toNat
    .next (doneAtOnce (setTable s (updTable rk r e) ((segSlices e.desc).map parseSeg)) rk r e 0)
  | none => .next s

/-- The destination of a TIMESTAMP lies in a CLAIM or HOST segment (10 R424); a PEER segment does not admit it. -/
def stampWrite (s : State) (ctx va t : Nat) : State × Option XFault :=
  match findSeg (tableOf s (.ctx ctx)) va with
  | some g =>
    if g.2.kind = .peer then (s, some (xfault Cond.segPerm va (.ctx ctx) .write (some g) 0))
    else engineWrite s 8 (.ctx ctx) .write va (leBytes 8 t)
  | none => engineWrite s 8 (.ctx ctx) .write va (leBytes 8 t)

/-- TIMESTAMP (10 R424): the DTIME at which its step 2 ended. -/
def execTimestamp (p : Part) (ring : BitVec 10) (s : State) : Host.Outcome State Fault Refusal :=
  match readyEntry s p.toNat ring.toNat 0x0E with
  | some (r, e) =>
    let rk := rkey p.toNat ring.toNat
    match stampWrite s r.ctx (ePayload e.bytes) e.step2End with
    | (s1, none) => .next (doneAtOnce s1 rk r e 0)
    | (s1, some f) =>
      .next (settle (engineFault (dispatched s1 rk r e) (entryOrigin rk r e) Engine.gantry f))
  | none => .next s

/-- GANTRY_WAKE (10 R431, R432). -/
def execGantryWake (fn : Part) (value : Word32) (s : State) : Host.Outcome State Fault Refusal :=
  if s.sec.recovery then .next (hostTouch s) else
  let s := hostTouch s
  .next (settle (wakeRing s fn.toNat (value.toNat % 1024)))

end Sys2Proof.Machine
end

