-- ==== Sys2Proof/Machine/PlanCmds.lean ====
section
/-! DEFINITION. Plans (12 R518 to R530): load and unload, launches, and the steps of their nodes. -/
namespace Sys2Proof.Machine

/-! LOAD (12 R520 to R525). -/

/-- Bytes of the descriptor of a node's kind (12 R522); none for a reserved kind. -/
def nodeDescBytes (kind : Nat) : Option Nat :=
  match kind with
  | 0x00 => some 0
  | 0x01 => some 64
  | 0x02 => some 128
  | 0x03 => some 128
  | 0x04 => some 32
  | 0x05 => some 32
  | 0x06 => some 32
  | 0x0C => some 64
  | 0x0E => some 8
  | 0x10 => some 8
  | _ => none

/-- The offset of a node's descriptor in the descriptor area (12 R521). -/
def nDescOff (n : List Byte) : Nat := fAt n 8 31 0

/-- Bytes of images that a partition stores (12 R525). -/
def planStorage (s : State) (p : Nat) : Nat :=
  ((s.sched.plans.filter (fun q => q.1 / 256 = p)).map (fun q => q.2.bytes)).foldl (· + ·) 0

/-- A limit of R525 is reached. -/
def planLimit (s : State) (p bytes : Nat) : Bool :=
  2 ^ 20 < bytes || 256 ≤ (s.sched.plans.filter (fun q => q.1 / 256 = p)).length || 2 ^ 21 < planStorage s p + bytes

/-- The image of a plan, in CLAIM or HOST segments of a context (12 R520); none where a read fails. -/
def readImage (s : State) (ctx va n : Nat) (ext : HostRead) : State × Option (List Byte) :=
  let ok := (framePieces va n).all (fun q => ((findSeg (tableOf s (.ctx ctx)) q.1).map (fun g =>
    g.2.kind == .claim || g.2.kind == .host)).getD false)
  if ! ok then (s, none)
  else match engineRead s 8 (.ctx ctx) .read va n ext with
    | (s1, .inl _) => (s1, none)
    | (s1, .inr b) => (s1, some b)

def imgNodes (b : List Byte) : Nat := fAt b 0 12 0
def imgPatches (b : List Byte) : Nat := fAt b 0 26 16
/-- The offset of the descriptor area (12 R520). -/
def imgArea (b : List Byte) : Nat := roundUp (64 + 64 * imgNodes b + 8 * imgPatches b) 64
def imgNode (b : List Byte) (i : Nat) : List Byte := slice b (64 + 64 * i) 64
def imgPatch (b : List Byte) (j : Nat) : Nat := fieldAt b (64 + 64 * imgNodes b + 8 * j) 8

/-- The header or the length of an image breaks R520 (12 R524). -/
def imgMalformed (b : List Byte) : Bool :=
  b.length < 64 || imgNodes b = 0 || 4096 < imgNodes b || fAt b 0 15 13 ≠ 0 || 1024 < imgPatches b || fAt b 0 63 27 ≠ 0 ||
    ! [0x10, 0x18, 0x20, 0x28, 0x30, 0x38].all (fun o => wordAt b o = 0) ||
    b.length < 64 + 64 * imgNodes b + 8 * imgPatches b

/-- Node `i` of an image breaks R521 or R522 (12 R524). -/
def nodeBad (b : List Byte) (i : Nat) : Bool :=
  let n := imgNode b i
  let pred := fun (k : Nat) => fAt n 0x10 (16 * k + 14) (16 * k + 12) ≠ 0 ||
    (fAt n 0x10 (16 * k + 15) (16 * k + 15) = 1 && i ≤ fAt n 0x10 (16 * k + 11) (16 * k))
  match nodeDescBytes (fAt n 0 7 0) with
  | none => true
  | some k =>
    fAt n 0 11 10 ≠ 0 || fAt n 0 31 15 ≠ 0 || [0, 1, 2, 3].any pred || wordAt n 0x30 ≠ 0 || wordAt n 0x38 ≠ 0 ||
      (k ≠ 0 && (nDescOff n % 64 ≠ 0 || b.length < imgArea b + nDescOff n + k))

/-- Patch `j` of an image breaks R523 (12 R524). -/
def patchBad (b : List Byte) (j : Nat) : Bool :=
  let w := imgPatch b j
  let word := bitsN w 15 12
  bitsN w 63 27 ≠ 0 || imgNodes b ≤ bitsN w 11 0 ||
    (if bitN w 16 then word < 3 || 5 < word
     else (nodeDescBytes (fAt (imgNode b (bitsN w 11 0)) 0 7 0)).getD 0 ≤ 8 * word)

/-- The status of a load from its image, and the failing node or patch (12 R524). -/
def imgStatus (s : State) (p : Nat) (b : List Byte) : Nat × Nat :=
  let model := fAt b 8 63 32
  if imgMalformed b then (1, 0xFFFF)
  else match (List.range (imgNodes b)).find? (nodeBad b) with
    | some i => (3, i)
    | none => match (List.range (imgPatches b)).find? (patchBad b) with
      | some j => (4, j)
      | none =>
        let live := ((findCtx s p (fAt b 8 31 0)).map (fun c => c.live)).getD false
        if ! live || (model ≠ 0 && ! (s.sched.model && ! s.sched.modelDying && model = mkHandle tyModel 0 s.sched.modelGen)) then
          (5, 0xFFFF)
        else (0, 0xFFFF)

/-- A plan enters the lowest free slot of its partition (12 R519, R530); answers its handle. -/
def enterPlan (s : State) (p va : Nat) (b : List Byte) : State × Nat :=
  let slot := (mfree s.sched.plans (p * 256) 256).getD (p * 256)
  let g0 := mgetD s.sched.planGens slot 0
  let g := if g0 = 2 ^ 19 - 1 then 1 else g0 + 1
  let q : Plan :=
    { ctx := hKey (fAt b 8 31 0), model := fAt b 8 63 32, nodes := (List.range (imgNodes b)).map (imgNode b),
      patches := (List.range (imgPatches b)).map (imgPatch b), area := b.drop (imgArea b), addr := va + imgArea b,
      bytes := b.length }
  let s1 := setSched s { s.sched with
    plans := mset s.sched.plans slot q, planGens := mset s.sched.planGens slot g,
    modelRefs := if q.model = 0 then s.sched.modelRefs else s.sched.modelRefs + 1 }
  (holdCtx s1 q.ctx, slot % 256 + p * 256 + g * 2 ^ 13)

/-- The load of a plan: its status, the failing index and the handle (12 R524). -/
def loadPlan (s : State) (p ctx : Nat) (d : List Byte) (ext : HostRead) : State × (Nat × Nat × Nat) :=
  if planLimit s p (plBytes_ d) then (s, (2, 0xFFFF, 0))
  else match readImage s ctx (plAddr_ d) (plBytes_ d) ext with
    | (s1, none) => (s1, (6, 0xFFFF, 0))
    | (s1, some b) =>
      match imgStatus s1 p b with
      | (0, _) =>
        let (s2, h) := enterPlan s1 p (plAddr_ d) b
        (s2, (0, 0xFFFF, h))
      | (n, i) => (s1, (n, i, 0))

/-- A result record of a PLAN entry is written to its context; a fault of the write is one of that context (12 R524, R529). -/
def planRecord (s : State) (o : Origin) (addr : Nat) (bs : List Byte) : State × Nat :=
  if addr = 0 then (s, 0)
  else match engineWrite s 8 (.ctx o.ctx) .record addr bs with
    | (s1, none) => (s1, 0)
    | (s1, some f) => (raise s1 o f.code Engine.gantry f.va (xdetail s1 f), f.code)

/-- The PLAN entry at the head of a ring, ready, of operation `op` (12 R518). -/
def readyPlan (s : State) (p i op : Nat) : Option (Ring × Entry) :=
  match readyEntry s p i 0x0A with
  | some (r, e) => if plOp e.desc = op then some (r, e) else none
  | none => none

/-- PLAN_LOAD (12 R524): its entry retires with OK whatever the status. -/
def execPlanLoad (p : Part) (ring : BitVec 10) (ext : HostRead) (s : State) : Host.Outcome State Fault Refusal :=
  match readyPlan s p.toNat ring.toNat 1 with
  | none => .next s
  | some (r, e) =>
    let rk := rkey p.toNat ring.toNat
    let o := entryOrigin rk r e
    let (s1, st, i, h) := loadPlan (dispatched s rk r e) p.toNat r.ctx e.desc ext
    let (s2, c) := planRecord s1 o (plResult e.desc) (leBytes 2 st ++ leBytes 2 i ++ leBytes 4 h ++ leBytes 8 s.dtime ++ zeroBytes 48)
    .next (settle (finish s2 e.wid c))

/-- PLAN_UNLOAD (12 R530). -/
def execPlanUnload (p : Part) (ring : BitVec 10) (s : State) : Host.Outcome State Fault Refusal :=
  match readyPlan s p.toNat ring.toNat 2 with
  | none => .next s
  | some (r, e) =>
    let s1 := dispatched s (rkey p.toNat ring.toNat) r e
    .next (settle (setSched s1 { s1.sched with
      unloads := mset s1.sched.unloads e.wid (p.toNat * 256 + bitsN (plHandle e.desc) 7 0) }))

/-! LAUNCH (12 R523, R526). -/

/-- One patch applied to a word (12 R523). -/
def patchWord (w off arg : Nat) (b : List Byte) : List Byte :=
  putWord b off (if bitN w 17 then (wordAt b off + arg) % 2 ^ 64 else arg)

/-- The patches of a plan, in table order, on copies of its nodes with their descriptors. -/
def patchNodes (q : Plan) (args : List Byte) (l : List (List Byte × List Byte)) : List (List Byte × List Byte) :=
  q.patches.foldl (fun l w =>
    let arg := wordAt args (8 * bitsN w 26 18)
    let off := 8 * bitsN w 15 12
    lupd l (bitsN w 11 0) (fun n => if bitN w 16 then (patchWord w off arg n.1, n.2) else (n.1, patchWord w off arg n.2))) l

/-- The live fences that a node names (12 R530). -/
def nodeFences (s : State) (p : Nat) (n : List Byte) : List Nat :=
  (if nWaitEn n && (findFence s p (nWaitFence n)).isSome then [hKey (nWaitFence n)] else []) ++
    (if nSignalEn n && (findFence s p (nSignalFence n)).isSome then [hKey (nSignalFence n)] else [])

/-- The nodes of a launch, each with an identifier of its own; the fences they name are held. -/
def makeNodes (s : State) (p : Nat) (l : List (List Byte × List Byte)) : State × List NodeSt :=
  l.foldl (fun acc n =>
    let (wid, s1) := takeWid acc.1
    let refs := nodeFences s1 p n.1
    let x : NodeSt :=
      { wid := wid, step := .preds, node := n.1, desc := n.2, selfFailed := false, since := s.dtime, counted := false, refs := refs,
        ctxRef := false, deadline := none, missed := false }
    (refs.foldl holdFence s1, acc.2 ++ [x])) (s, [])

/-- A launch of the plan in a slot begins (12 R526): `wid` is its entry's identifier, 0 for a serving step. -/
def startLaunch (s : State) (slot wid : Nat) (q : Plan) (o : Origin) (payload result : Nat) (args : List Byte) : State :=
  let raw := q.nodes.map (fun n => (n, slice q.area (nDescOff n) ((nodeDescBytes (fAt n 0 7 0)).getD 0)))
  let (id, s1) := takeWid s
  let (s2, ns) := makeNodes s1 o.part (patchNodes q args raw)
  let l : Launch :=
    { wid := wid, plan := slot, org := { o with ctx := q.ctx }, from_ := o, payload := payload, resultAddr := result, nodes := ns, run := 0,
      preempts := 0, misses := 0, start := none, cycle := 0 }
  setSched s2 { s2.sched with launches := mset s2.sched.launches id l }

/-- PLAN_LAUNCH (12 R526): step 6 of a LAUNCH entry, its argument block read at step 3. -/
def execPlanLaunch (p : Part) (ring : BitVec 10) (s : State) : Host.Outcome State Fault Refusal :=
  match readyPlan s p.toNat ring.toNat 0 with
  | none => .next s
  | some (r, e) =>
    let rk := rkey p.toNat ring.toNat
    match findPlan s p.toNat (plHandle e.desc) with
    | none => .next (settle (formatError s rk r e 7 1 8))
    | some (slot, q) =>
      .next (settle (startLaunch (dispatched s rk r e) slot e.wid q (entryOrigin rk r e) (ePayload e.bytes) (plResult e.desc) (e.desc.drop 64)))

/-! The steps of a node (12 R526). -/

/-- The address of a node's descriptor in the image as LOAD read it (03 R106). -/
def nodeDescAddr (s : State) (l : Launch) (n : NodeSt) : Nat :=
  ((mget s.sched.plans l.plan).map (fun q => q.addr)).getD 0 + nDescOff n.node

/-- The destination word of a TIMESTAMP node, or the word of a FLIP node, breaks R522 (12). -/
def wordNodeBad (kind : Nat) (d : List Byte) : Bool :=
  if kind = 0x0E then fAt d 0 63 48 ≠ 0 || wordAt d 0 % 8 ≠ 0 else if kind = 0x10 then fAt d 0 63 49 ≠ 0 else false

/-- Step 3: the patched copy takes its kind's checks, and SIGNAL_FENCE last (12 R526, R528; 11 R458). -/
def checkNode (s : State) (l : Launch) (n : NodeSt) : State :=
  let kind := fAt n.node 0 7 0
  let part := l.org.part
  let o := nodeOrigin l n
  match (if wordNodeBad kind n.desc then some (7, 0) else descFault s part kind n.desc) with
  | some (reason, off) => nodeFormat s n.wid reason off
  | none =>
    if nSignalEn n.node && (findFence s part (nSignalFence n.node)).isNone then nodeInvalid s l n (nSignalFence n.node)
    else match (if kind = 0x02 then tensorFault n.desc else none) with
      | some (off, reason) => finish (rejectTensor s o n.desc (nodeDescAddr s l n) off reason) n.wid Cond.tensorDesc
      | none => updNode s n.wid (fun n => { n with step := .room })

/-- Step 4: the node counts, and goes to its gate or is ready (12 R514, R515, R526). -/
def admitNode (s : State) (l : Launch) (n : NodeSt) : State :=
  if ! hasRoom s l.org.part then s
  else if eGate n.node = 0 then
    updNode s n.wid (fun x => { x with counted := true, step := .ready, deadline := nodeDeadline s l.org.ctx n.node })
  else waitGate (updNode s n.wid (fun x => { x with counted := true, step := .gate })) n.wid (eGate n.node) (eGateValue n.node)

/-- The FLIP of a node (12 R522): a head that the partition does not own fails it. -/
def flipNode (s : State) (l : Launch) (n : NodeSt) : State :=
  let head := fAt n.desc 0 48 48
  if headOwner s head = l.org.part then finish (flipHead s head (fAt n.desc 0 47 0)) n.wid 0 else nodeFormat s n.wid 7 0

/-- The TIMESTAMP of a node: DTIME at its dispatch (12 R522). -/
def stampNode (s : State) (l : Launch) (n : NodeSt) : State :=
  match stampWrite s l.org.ctx (fAt n.desc 0 47 0) s.dtime with
  | (s1, none) => finish s1 n.wid 0
  | (s1, some f) => engineFault s1 (nodeOrigin l n) Engine.gantry f

/-- A dispatched node goes to its engines. -/
def runNode (s : State) (l : Launch) (n : NodeSt) : State :=
  let o := nodeOrigin l n
  match fAt n.node 0 7 0 with
  | 0x00 => finish s n.wid 0
  | 0x01 => startDispatch s o n.desc
  | 0x02 => startTensor s o n.desc (nodeDescAddr s l n)
  | 0x03 => startPass s o n.desc
  | 0x04 => addCopy s (copyOf s o n.desc)
  | 0x05 => addCopy s (cacheOf s o n.desc)
  | 0x06 => addCopy s (scrubOf s o n.desc)
  | 0x0C => addCrush s (crushOf s o n.desc)
  | 0x0E => stampNode s l n
  | _ => flipNode s l n

/-- Step 6: the node is dispatched and counted; the first of its launch gives the launch's start (12 R526, R529). -/
def dispatchNode (s : State) (li : Nat) (l : Launch) (n : NodeSt) : State :=
  let s1 := holdCtx (updNode s n.wid (fun x => { x with step := .work, ctxRef := true })) l.org.ctx
  let s2 := setSched s1 { s1.sched with launches := mupd s1.sched.launches li (fun x =>
    { x with run := x.run + 1, start := some (x.start.getD s.dtime), cycle := if x.start.isNone then (cadNow s).1 % 2 ^ 32 else x.cycle }) }
  runNode s2 l n

/-- Work of a launch may be dispatched: its context runs, its partition and the device take work (10 R405, 11 R478, 12 R533). -/
def mayDispatch (s : State) (l : Launch) : Bool :=
  ctxLive s l.org.ctx && ! (partOf s l.org.part).destroying && rdF s Reg.errStatus 1 1 = 0 && ! swapHeldBack s l.org.ctx

/-- A node at a step, whose work may be dispatched and has not failed; then `f` of it. -/
def atNode (s : State) (wid : Nat) (step : NStep) (f : Nat → Launch → NodeSt → State) : State :=
  match findNode s wid with
  | some (li, l, n) => if n.step = step && mayDispatch s l && (mget s.host.finished wid).isNone then f li l n else s
  | none => s

/-- NODE_DISPATCH (12 R526): a node takes what steps it can of its check, its room and its dispatch; the ready nodes of a launch go in
increasing index order. -/
def execNodeDispatch (wid : Nat) (s : State) : Host.Outcome State Fault Refusal :=
  let s1 := atNode s wid .check (fun _ l n => checkNode s l n)
  let s2 := atNode s1 wid .room (fun _ l n => admitNode s1 l n)
  .next (settle (atNode s2 wid .ready (fun li l n =>
    if (l.nodes.takeWhile (fun m => m.wid ≠ wid)).any (fun m => m.step = .ready) then s2 else dispatchNode s2 li l n)))

end Sys2Proof.Machine
end

