-- ==== Sys2Proof/Machine/Stop.lean ====
section
/-! DEFINITION. Stopping a context's work on every engine, saving nothing: step K2 of a kill (11 R478) and L1 of a model load
(12 R533). -/
namespace Sys2Proof.Machine

/-- Copies, cache operations and scrub passes of a context stop; the work `keep` goes on. -/
def stopCopies (s : State) (k keep : Nat) : State :=
  let mine := fun (o : CopyOp) => o.org.ctx = k && o.org.wid ≠ keep
  let placed := (s.sched.copies.flatMap (fun c => c.2)).filter mine
  let saved := s.sched.copyWait.filter (fun o => mine o && o.saved.isSome)
  let s1 := (placed ++ saved).foldl (fun s o => unreserve s o.org.part 4) s
  setSched s1 { s1.sched with
    copies := (mmap s1.sched.copies (fun _ l => l.filter (fun o => ! mine o))).filter (fun c => c.2 ≠ []),
    copyWait := s1.sched.copyWait.filter (fun o => ! mine o) }

/-- Crusher operations of a context stop. -/
def stopCrush (s : State) (k keep : Nat) : State :=
  let mine := fun (o : CrushOp) => o.org.ctx = k && o.org.wid ≠ keep
  let held := s.sched.crush.filter mine ++ s.sched.crushWait.filter (fun o => mine o && o.saved.isSome)
  let s1 := held.foldl (fun s o => unreserve s o.org.part 4) s
  setSched s1 { s1.sched with
    crush := s1.sched.crush.filter (fun o => ! mine o), crushWait := s1.sched.crushWait.filter (fun o => ! mine o) }

/-- Render passes of a context are abandoned with a code (06 R259). -/
def stopPasses (s : State) (k code : Nat) : State :=
  (s.raster.passes.filter (fun p => p.2.org.ctx = k)).foldl (fun s p =>
    match passOf s p.1 with
    | some q => endPass s p.1 q code
    | none => s) s

/-- Workgroups of a context leave the cores and the save pool, and its dispatches end. -/
def stopJobs (s : State) (k : Nat) : State :=
  let mine := fun (w : WG) => w.org.ctx = k
  let wgs := (s.core.cores.flatMap (fun c => c.2.wgs)).filter mine ++
    (s.core.jobs.flatMap (fun j => j.2.saved)).filter mine
  let s1 := wgs.foldl (fun s w => unreserve s w.org.part (saveKib (wgSaveBytes w))) s
  setCore s1 { s1.core with
    cores := mmap s1.core.cores (fun _ c => { c with wgs := c.wgs.filter (fun w => ! mine w) }),
    jobs := s1.core.jobs.filter (fun j => j.2.org.ctx ≠ k) }

/-- Tensor work items of a context stop on every array; one that a fault has stopped writes its completion record (03 R108). -/
def stopItems (s : State) (k : Nat) : State :=
  (s.core.items.filter (fun i => i.2.org.ctx = k)).foldl (fun s i =>
    match itemOf s i.1 with
    | none => s
    | some it =>
      let s1 := stopItem s i.1 it
      let s2 := if it.fault.isSome then (tComplete s1 it).1 else s1
      setCore s2 { s2.core with items := mdel s2.core.items i.1 }) s

/-- Module loads of a context end without a record; the next of the partition begins (05 R179). -/
def stopLoads (s : State) (k : Nat) : State :=
  let p := k / 65536
  let l := mgetD s.core.loads p []
  let rest := l.filter (fun x => x.org.ctx ≠ k)
  if rest.length = l.length then s
  else match l with
    | a :: _ => if a.org.ctx = k then nextLoad s p rest else setCore s { s.core with loads := mset s.core.loads p rest }
    | [] => s

/-- Every engine stops the work of a context, and nothing of it is saved; the work `keep` goes on (0: none). Abandoned passes report
`code`. -/
def stopWork (s : State) (k keep code : Nat) : State :=
  let s1 := stopLoads (stopItems (stopJobs (stopPasses (stopCrush (stopCopies s k keep) k keep) k code) k) k) k
  let gone := fun (l : ModelLoad) => l.org.ctx = k && l.org.wid ≠ keep
  setSched s1 { s1.sched with
    load := if (s1.sched.load.map gone).getD false then none else s1.sched.load,
    stopCtx := s1.sched.stopCtx.filter (fun x => x.2 ≠ k) }

/-- What the scheduler remembers of a piece of work that retires by force: its gate, its unload and its completion. -/
def forgetWork (s : State) (wid : Nat) : State :=
  let s1 := setSched s { s.sched with gates := mdel s.sched.gates wid, unloads := mdel s.sched.unloads wid }
  let s2 := setCore s1 { s1.core with modUnloads := mdel s1.core.modUnloads wid }
  { s2 with host := { s2.host with finished := mdel s2.host.finished wid } }

end Sys2Proof.Machine
end

