-- ==== Sys2Proof/Machine/Serving.lean ====
section
/-! DEFINITION. The completion of plan nodes and launches (12 R526 to R530), the model object (R531 to R534), the serving session
(R535 to R541) and the copy of an account (R544). -/
namespace Sys2Proof.Machine

def setServe (s : State) (x : ServeSt) : State :=
  setSched s { s.sched with serve := x }

/-! Requests and sequences (12 R537, R538). -/

/-! The states of a progress record (12 R537). -/
namespace Progress
abbrev queued : Nat := 0
abbrev prefill : Nat := 1
abbrev decode : Nat := 2
abbrev finished : Nat := 3
abbrev cancelled : Nat := 4
abbrev ended : Nat := 5
end Progress

/-- Writes a request's progress record through its context; a fault is one of that context (12 R537, R538). A killed context's records
are written no more (11 R478). -/
def writeProgress (s : State) (q : Request) (made st : Nat) : State × Nat :=
  if ! ctxLive s q.org.ctx then (s, 0)
  else match engineWrite s 8 (.ctx q.org.ctx) .record q.progress (leBytes 4 made ++ leBytes 1 st ++ zeroBytes 3 ++ leBytes 8 s.dtime) with
    | (s1, none) => (s1, 0)
    | (s1, some f) => (raise s1 q.org f.code Engine.gantry f.va (xdetail s1 f), f.code)

/-- An entry's work has completed; an entry that a kill has retired meanwhile completes no more (11 R478). -/
def finishEntry (s : State) (wid code : Nat) : State :=
  if (entryOfWork s wid).isSome then finish s wid code else s

/-- A request is over: its last record, its result record and its entry's completion with a code. -/
def endRequest (s : State) (q : Request) (made st code : Nat) : State :=
  let (s1, c1) := writeProgress s q made st
  let addr := ((entryOfWork s1 q.org.wid).map (fun e => mResult e.2.2.desc)).getD 0
  let (s2, c2) := if ctxLive s1 q.org.ctx then modelRecord s1 q.org addr code else (s1, 0)
  finishEntry s2 q.org.wid (if code ≠ 0 then code else if c1 ≠ 0 then c1 else c2)

/-- Every sequence ends with a code (12 R535, R536). -/
def endSeqs (s : State) (code : Nat) : State :=
  let s1 := s.sched.serve.seqs.foldl (fun s q => endRequest s q.2.req q.2.made Progress.ended code) s
  setServe s1 { s1.sched.serve with seqs := [], rows := [] }

/-- Every queued request ends with a code. -/
def endQueues (s : State) (code : Nat) : State :=
  let s1 := (s.sched.serve.queues.flatMap (fun q => q.2)).foldl (fun s q => endRequest s q 0 Progress.ended code) s
  setServe s1 { s1.sched.serve with queues := [] }

/-- A MODEL entry that waited completes: its result record is written. -/
def endModelEntry (s : State) (wid code : Nat) : State :=
  match entryOfWork s wid with
  | some (rk, r, e) =>
    let (s1, c) := modelRecord s (entryOrigin rk r e) (mResult e.desc) code
    finish s1 wid (if code ≠ 0 then code else c)
  | none => s

/-- The session ends: its sequences and queued requests end with a code, and the SERVE_STOP that waited completes (12 R535). -/
def endSession (s : State) (code : Nat) : State :=
  let stop := s.sched.serve.stopping
  let s1 := setServe (endQueues (endSeqs s code) code) noServe
  match stop with
  | some wid => endModelEntry s1 wid 0
  | none => s1

/-! The end of nodes and launches (12 R526 to R529). -/

/-- The step of the session has ended (12 R535, R538): a SERVE_STOP that waited for it takes effect. -/
def stepOver (s : State) : State :=
  let s1 := setServe s { s.sched.serve with step := none }
  if s.sched.serve.stopping.isSome then endSession s1 Cond.modelSwapped else s1

/-- The launch result record (12 R529). -/
def launchRecord (s : State) (l : Launch) (code first : Nat) : List Byte :=
  let failed := (l.nodes.filter (fun n => ((doneCode n).getD 0) ≠ 0)).length
  leBytes 2 code ++ leBytes 2 (overflows 32 l.run + 2 * overflows 32 failed + 4 * overflows 32 l.preempts + 8 * overflows 32 l.misses) ++ leBytes 2 first ++
    zeroBytes 2 ++ leBytes 4 (clip 32 l.run) ++ leBytes 4 (clip 32 failed) ++ leBytes 4 (clip 32 l.preempts) ++
    leBytes 4 (clip 32 l.misses) ++ leBytes 8 (l.start.getD s.dtime) ++ leBytes 8 s.dtime ++
    leBytes 4 (if l.start.isSome then l.cycle else (cadNow s).1 % 2 ^ 32) ++ zeroBytes 20

/-- A launch whose nodes have all completed retires: with OK, or the code of the lowest-indexed node that failed by itself (12 R528). -/
def retireLaunch (s : State) (id : Nat) (l : Launch) : State :=
  let first := l.nodes.findIdx (fun n => n.selfFailed)
  let code := ((l.nodes[first]?).bind doneCode).getD 0
  let (s1, c) := planRecord s l.from_ (if (mget s.host.ctxs l.from_.ctx).isSome then l.resultAddr else 0) (launchRecord s l code (if first < l.nodes.length then first else 0xFFFF))
  let s2 := setSched s1 { s1.sched with launches := mdel s1.sched.launches id }
  if l.wid = 0 then (if s2.sched.serve.step = some id then stepOver s2 else s2) else finishEntry s2 l.wid (if code = 0 then c else code)

/-- A node completes with a code (12 R526, R528): its signal is made, with error `err` where it failed; its references are dropped. -/
def completeNode (s : State) (li : Nat) (l : Launch) (n : NodeSt) (code err : Nat) : State :=
  let own := code ≠ 0 && ! (((predCodes l n).getD []).any (fun c => c ≠ 0))
  let s1 := forgetWork (updNode s n.wid (fun x =>
    { x with step := .done code, selfFailed := own, counted := false, refs := [], ctxRef := false })) n.wid
  let part := l.org.part
  let s2 := if nSignalEn n.node && (findFence s1 part (nSignalFence n.node)).isSome then
      if code = 0 then signalFence s1 (hKey (nSignalFence n.node)) (nSignalValue n.node) Engine.gantry
      else errorFence s1 (hKey (nSignalFence n.node)) err
    else s1
  let s3 := charge (restartWatchdog (n.refs.foldl dropFence s2) l.org.ctx) l.org.ctx .jobs 1
  let s4 := if n.ctxRef then dropCtx s3 l.org.ctx else s3
  match mget s4.sched.launches li with
  | some x => if x.nodes.all (fun m => ! nodeOpen m) then retireLaunch s4 li x else s4
  | none => s4

/-- NODE_COMPLETION (12 R528): the node whose work has completed, or which failed before it was dispatched. -/
def execNodeCompletion (wid : Nat) (s : State) : Host.Outcome State Fault Refusal :=
  match findNode s wid, mget s.host.finished wid with
  | some (li, l, n), some code => if nodeOpen n then .next (settle (completeNode s li l n code code)) else .next s
  | _, _ => .next s

/-- Every node of a launch that has not completed completes with a code, and the launch retires. -/
def failLaunch (s : State) (id code err : Nat) : State :=
  match mget s.sched.launches id with
  | none => s
  | some l => (l.nodes.map (fun n => n.wid)).foldl (fun s w =>
      match findNode s w with
      | some (li, x, n) => if nodeOpen n then completeNode s li x n code err else s
      | none => s) s

/-! The model object (12 R531 to R534). -/

/-- The MODEL entry at the head of a ring, ready, of operation `op`. -/
def readyModel (s : State) (p i op : Nat) : Option (Ring × Entry) :=
  match readyEntry s p i 0x0B with
  | some (r, e) => if rqOp e.desc = op then some (r, e) else none
  | none => none

/-- A MODEL operation with no work left to do completes within its step 6, with its result record. -/
def modelDone (s : State) (rk : Nat) (r : Ring) (e : Entry) : State :=
  let (s1, c) := modelRecord (dispatched s rk r e) (entryOrigin rk r e) (mResult e.desc) 0
  settle (finish s1 e.wid c)

/-- A MODEL operation at step 6: where a condition on the machine fails, the word of the descriptor at which it stands raises
RING_FORMAT (12 R531). -/
def modelCommand (s : State) (p i op : Nat) (cond : Ring → Entry → Option Nat) (f : Ring → Entry → State) : State :=
  match readyModel s p i op with
  | none => s
  | some (r, e) => match cond r e with
    | some off => settle (formatError s (rkey p i) r e 7 1 off)
    | none => f r e

/-- The model object exists, and no DESTROY is ending it. -/
def modelHere (s : State) : Bool :=
  s.sched.model && ! s.sched.modelDying

/-- The claims of the model claim. -/
def modelClaims (s : State) : List Nat :=
  (List.range s.mem.modelCount).map (s.mem.modelFirst + ·)

/-- CREATE takes its claims (12 R532). -/
def createModel (s : State) (first count strength : Nat) : State :=
  let l := (List.range count).map (first + ·)
  let s1 := l.foldl (fun s n => if strengthN s n = strength then s else fillClaim s n strength) s
  let s2 := setMem s1 { s1.mem with
    claims := l.foldl (fun m n => mset m n { owner := 0, kind := .model, strength := strength, peerMask := 0 }) s1.mem.claims,
    modelFirst := first, modelCount := count, modelLive := false }
  setSched s2 { s2.sched with model := true, modelGen := 1, modelRefs := 0 }
where
  strengthN (s : State) (n : Nat) : Nat := (claimOf s n).strength

/-- MODEL_CREATE (12 R532). -/
def execModelCreate (p : Part) (ring : BitVec 10) (s : State) : Host.Outcome State Fault Refusal :=
  .next (modelCommand s p.toNat ring.toNat 1
    (fun _ e =>
      if s.sched.model then some 0
      else if (List.range (mCount e.desc)).all (fun i => (claimOf s (mFirst e.desc + i)).kind = .free) then none else some 8)
    (fun r e => modelDone (createModel s (mFirst e.desc) (mCount e.desc) (mStrength e.desc)) (rkey p.toNat ring.toNat) r e))

/-- The contexts whose segment table holds a MODEL segment (12 R533). -/
def modelCtxs (s : State) : List Nat :=
  (s.host.ctxs.filter (fun c => c.2.live && c.2.segs.any (fun g => g.kind = .model))).map (fun c => c.1)

/-- The dispatched entries of a context that end at L1: not a CALL, which ends with its buffer entries, and no MODEL operation. -/
def swappedEntries (s : State) (k : Nat) : List (Nat × Nat) :=
  s.host.rings.flatMap (fun r =>
    if r.2.ctx ≠ k then []
    else (r.2.entries.filter (fun e => e.step = .work && ! isCall e && eKind e.bytes ≠ 0x0B)).map (fun e => (r.1, e.wid)))

/-- L1 for one context: its work stops, and its entries, nodes and launches retire with MODEL_SWAPPED (12 R533). -/
def swapOut (s : State) (k keep : Nat) : State :=
  let s1 := stopWork s k keep Cond.modelSwapped
  let s2 := ((s1.sched.launches.filter (fun l => l.2.org.ctx = k)).map (fun l => l.1)).foldl
    (fun s id => failLaunch s id Cond.modelSwapped Cond.modelSwapped) s1
  (swappedEntries s2 k).foldl (fun s e => forgetWork (retireEntry s e.1 e.2 Cond.modelSwapped) e.2) s2

/-- The session is suspended at L1 (12 R536). -/
def suspendSession (s : State) : State :=
  if s.sched.serve.active then
    let s1 := endSeqs s Cond.modelSwapped
    setServe s1 { s1.sched.serve with suspended := true, step := none }
  else s

/-- The work of a load: a copy, or a decoding by both Crusher engines whose length the stream gives (12 R533 L2). -/
def loadWork (s : State) (o : Origin) (d : List Byte) : State :=
  let src := fAt d 8 47 0
  let n := fAt d 0x10 39 0
  if fAt d 8 48 48 = 1 then
    addCrush s { crushOf s o d with
      kind := .modelLoad, both := true, src := src, dst := 0, srcBytes := 2 ^ 48, dstBytes := n, compl := 0 }
  else addCopy s (newCopy s o .modelLoad src 0 n 0)

/-- L1 and the start of L2 (12 R533). -/
def startLoad (s : State) (rk : Nat) (r : Ring) (e : Entry) : State :=
  let o := entryOrigin rk r e
  let s1 := setMem (dispatched s rk r e) { (dispatched s rk r e).mem with modelLive := false }
  let s2 := suspendSession ((modelCtxs s1).foldl (fun s k => swapOut s k e.wid) s1)
  let l : ModelLoad :=
    { org := o, start := s.dtime, src := fAt e.desc 8 47 0, crushed := fAt e.desc 8 48 48 = 1, bytes := fAt e.desc 0x10 39 0, written := 0,
      result := mResult e.desc, ended := false }
  let s3 := setSched s2 { s2.sched with load := some l, swapHeld := true }
  settle (if s3.sched.serve.stopping.isSome then loadWork (endSession s3 Cond.modelSwapped) o e.desc else loadWork s3 o e.desc)

/-- MODEL_LOAD (12 R533). -/
def execModelLoad (p : Part) (ring : BitVec 10) (s : State) : Host.Outcome State Fault Refusal :=
  .next (modelCommand s p.toNat ring.toNat 2
    (fun _ e =>
      if ! modelHere s || s.sched.load.isSome then some 0
      else if s.mem.modelCount * 2 ^ 30 < fAt e.desc 0x10 39 0 then some 0x10 else none)
    (fun r e => startLoad s (rkey p.toNat ring.toNat) r e))

/-- MODEL_LOAD_END (12 R533 L3). -/
def execModelLoadEnd (s : State) : Host.Outcome State Fault Refusal :=
  match s.sched.load with
  | none => .next s
  | some l =>
    if ! l.ended then .next s
    else
      let g := if s.sched.modelGen = 255 then 1 else s.sched.modelGen + 1
      let s1 := setMem (setSched s { s.sched with modelGen := g, swapHeld := false, load := none }) { s.mem with modelLive := true }
      let (s2, c) := modelRecord s1 l.org l.result 0
      .next (settle (finish s2 l.org.wid c))

/-- The work of a load stops. -/
def dropLoad (s : State) (l : ModelLoad) : State :=
  let mine := fun (o : Origin) => o.wid = l.org.wid
  let kib := 4 * ((((s.sched.copies.flatMap (fun c => c.2)).filter (fun o => mine o.org)).length) +
    (s.sched.copyWait.filter (fun o => mine o.org && o.saved.isSome)).length + (s.sched.crush.filter (fun o => mine o.org)).length +
    (s.sched.crushWait.filter (fun o => mine o.org && o.saved.isSome)).length)
  let s1 := unreserve s l.org.part kib
  setSched s1 { s1.sched with
    copies := (mmap s1.sched.copies (fun _ l => l.filter (fun o => ! mine o.org))).filter (fun c => c.2 ≠ []),
    copyWait := s1.sched.copyWait.filter (fun o => ! mine o.org), crush := s1.sched.crush.filter (fun o => ! mine o.org),
    crushWait := s1.sched.crushWait.filter (fun o => ! mine o.org), load := none }

/-- MODEL_SWAP_TIMEOUT (12 R533). -/
def execModelSwapTimeout (s : State) : Host.Outcome State Fault Refusal :=
  match s.sched.load with
  | none => .next s
  | some l =>
    if ! due s l.start (rdF s Reg.schedCfg 25 20 * 1000000000) then .next s
    else
      let s1 := appendRec (dropLoad s l) (workRec s l.org Cond.waitTimeout Engine.gantry 0 0 (zeroBytes 8 ++ leBytes 8 l.written))
      let (s2, _) := modelRecord s1 l.org l.result Cond.waitTimeout
      .next (settle (finish s2 l.org.wid Cond.waitTimeout))

/-- Held work at step 6 retires with MODEL_SWAPPED without running (12 R534). -/
def dropHeldWork (s : State) : State :=
  let l := s.host.rings.flatMap (fun r =>
    if swapHeldBack s r.2.ctx then (r.2.entries.filter (fun e => e.step = .ready)).map (fun e => (r.1, e.wid)) else [])
  l.foldl (fun s e => retireEntry s e.1 e.2 Cond.modelSwapped) s

/-- The model claims pass into FILLING, their locks released (12 R534, 08 R306, R334). -/
def freeModelClaims (s : State) : State :=
  let l := modelClaims s
  let s1 := unlockWhere s (fun x => l.contains (x.addr * 128 / 2 ^ 30))
  setMem s1 { s1.mem with
    claims := l.foldl (fun m n => mset m n { claimOf s1 n with kind := .filling }) s1.mem.claims,
    fillQ := s1.mem.fillQ ++ l, modelFirst := 0, modelCount := 0, modelLive := false }

/-- DESTROY (12 R534): a load in progress ends with MODEL_SWAPPED (DESIGN CHOICE: log 51). -/
def destroyModel (s : State) : State :=
  let s1 := match s.sched.load with
    | some l => finish (dropLoad s l) l.org.wid Cond.modelSwapped
    | none => s
  let s2 := freeModelClaims (dropHeldWork s1)
  settleModel (setSched s2 { s2.sched with swapHeld := false, modelDying := true })

/-- MODEL_DESTROY (12 R534). -/
def execModelDestroy (p : Part) (ring : BitVec 10) (s : State) : Host.Outcome State Fault Refusal :=
  .next (modelCommand s p.toNat ring.toNat 3
    (fun _ _ => if ! modelHere s || s.sched.serve.active then some 0 else none)
    (fun r e => modelDone (destroyModel s) (rkey p.toNat ring.toNat) r e))

/-! The session (12 R535, R536). -/

/-- An address lies in a CLAIM segment of a context; in a CLAIM or HOST segment. -/
def inClaimSeg (s : State) (ctx va : Nat) : Bool :=
  ((findSeg (tableOf s (.ctx ctx)) va).map (fun g => g.2.kind == .claim)).getD false
def inClaimOrHost (s : State) (ctx va : Nat) : Bool :=
  ((findSeg (tableOf s (.ctx ctx)) va).map (fun g => g.2.kind == .claim || g.2.kind == .host)).getD false

/-- The word at which a condition of SERVE_START fails (12 R535). -/
def serveFault (s : State) (d : List Byte) : Option Nat :=
  if ! modelHere s || (s.sched.serve.active && ! s.sched.serve.suspended) then some 0
  else match findPlan s 0 (mPlan d) with
    | none => some 8
    | some (_, q) =>
      if q.model ≠ mkHandle tyModel 0 s.sched.modelGen then some 8
      else if ! inClaimSeg s q.ctx (fAt d 0x10 47 0) then some 0x10
      else if ! inClaimSeg s q.ctx (fAt d 0x18 47 0) then some 0x18 else none

/-- The session that SERVE_START makes, with the queues of a suspended one. -/
def startServe (s : State) (d : List Byte) : State :=
  match findPlan s 0 (mPlan d) with
  | none => s
  | some (_, q) => setServe s { s.sched.serve with
      active := true, suspended := false, plan := mPlan d, batchMax := mBatch d, seqSlots := mSlots d, chunk := mChunk d,
      rowTable := fAt d 0x10 47 0, outTable := fAt d 0x18 47 0, ctx := q.ctx, seqs := [], rows := [], step := none }

/-- SERVE_START (12 R535, R536). -/
def execServeStart (p : Part) (ring : BitVec 10) (s : State) : Host.Outcome State Fault Refusal :=
  .next (modelCommand s p.toNat ring.toNat 4 (fun _ e => serveFault s e.desc)
    (fun r e => modelDone (startServe s e.desc) (rkey p.toNat ring.toNat) r e))

/-- SERVE_STOP (12 R535): it lets the step in flight finish. -/
def execServeStop (p : Part) (ring : BitVec 10) (s : State) : Host.Outcome State Fault Refusal :=
  .next (modelCommand s p.toNat ring.toNat 5 (fun _ _ => if s.sched.serve.active then none else some 0)
    (fun r e =>
      let rk := rkey p.toNat ring.toNat
      if s.sched.serve.step.isNone then modelDone (endSession s Cond.modelSwapped) rk r e
      else
        let s1 := dispatched s rk r e
        settle (setServe s1 { s1.sched.serve with stopping := some (s1.sched.serve.stopping.getD e.wid) })))

/-! Requests (12 R537, R541). -/

/-- The request that a descriptor makes. -/
def newRequest (s : State) (o : Origin) (d : List Byte) : Request :=
  { org := o, promptAddr := fAt d 8 47 0, outAddr := fAt d 0x10 47 0, progress := fAt d 0x18 47 0, promptCount := mPrompts d,
    maxNew := mMaxNew d, stop := if fAt d 0x28 32 32 = 1 then some (fAt d 0x28 31 0) else none, account := mAccount d, tag := rqTag d,
    at_ := s.dtime }

/-- REQUEST (12 R537): it is dispatched into the session's queue. -/
def execRequest (p : Part) (ring : BitVec 10) (s : State) : Host.Outcome State Fault Refusal :=
  .next (modelCommand s p.toNat ring.toNat 6
    (fun r e =>
      if ! s.sched.serve.active || ! s.mem.grant.getLsbD p.toNat then some 0
      else [0x08, 0x10, 0x18].find? (fun off => ! inClaimOrHost s r.ctx (fAt e.desc off 47 0)))
    (fun r e =>
      let rk := rkey p.toNat ring.toNat
      let q := newRequest s (entryOrigin rk r e) e.desc
      let (s1, c) := writeProgress (dispatched s rk r e) q 0 Progress.queued
      if c ≠ 0 then settle (finish s1 e.wid c)
      else settle (setServe s1 { s1.sched.serve with
        queues := mset s1.sched.serve.queues p.toNat (mgetD s1.sched.serve.queues p.toNat [] ++ [q]) })))

/-- Requests of a partition with a tag are cancelled: a queued one at once, an admitted one at the next boundary (12 R541). -/
def cancelTag (s : State) (p tag : Nat) : State :=
  let l := mgetD s.sched.serve.queues p []
  let s1 := (l.filter (fun q => q.tag = tag)).foldl (fun s q => endRequest s q 0 Progress.cancelled 0) s
  setServe s1 { s1.sched.serve with
    queues := msetD s1.sched.serve.queues p (l.filter (fun q => q.tag ≠ tag)) [],
    seqs := mmap s1.sched.serve.seqs (fun _ x => if x.req.org.part = p && x.req.tag = tag then { x with cancelled := true } else x) }

/-- CANCEL (12 R541). -/
def execCancel (p : Part) (ring : BitVec 10) (s : State) : Host.Outcome State Fault Refusal :=
  .next (modelCommand s p.toNat ring.toNat 7 (fun _ _ => none)
    (fun r e => modelDone (cancelTag s p.toNat (rqTag e.desc)) (rkey p.toNat ring.toNat) r e))

/-! The step boundary (12 R538, R539). -/

/-- Tokens generated: the sequence decodes once its prompt is exhausted. -/
def seqDecodes (q : Seqn) : Bool :=
  q.req.promptCount ≤ q.pos

/-- Step 1 for one row marked LAST: its token is read from the out table and delivered. -/
def deliverToken (s : State) (i : Nat) (row : Row) : State :=
  match mget s.sched.serve.seqs row.slot with
  | none => s
  | some q =>
    match engineRead s 8 (.ctx s.sched.serve.ctx) .read (s.sched.serve.outTable + 8 * i) 4 (.fail .unsupported) with
    | (s1, .inl f) =>
      raise s1 { wid := 0, part := 0, ctx := s.sched.serve.ctx, ring := 0xFFFFFFFF, entry := 0 } f.code Engine.gantry f.va (xdetail s1 f)
    | (s1, .inr b) =>
      let tok := leNat b
      let n := q.made + 1
      let s2 := if ! ctxLive s1 q.req.org.ctx then s1
        else match engineWrite s1 8 (.ctx q.req.org.ctx) .write (q.req.outAddr + 4 * q.made) b with
          | (s2, none) => s2
          | (s2, some f) => raise s2 q.req.org f.code Engine.gantry f.va (xdetail s2 f)
      let q1 : Seqn := { q with made := n, last := tok, finished := q.req.stop = some tok || n = q.req.maxNew }
      setServe s2 { s2.sched.serve with seqs := mset s2.sched.serve.seqs row.slot q1 }

/-- Step 1: the LAST rows of the previous step. -/
def deliverTokens (s : State) : State :=
  ((s.sched.serve.rows.zip (List.range s.sched.serve.rows.length)).filter (fun r => r.1.last)).foldl
    (fun s r => deliverToken s r.2 r.1) s

/-- Step 2: sequences that are DONE, cancelled or orphaned end, and the others' records follow their tokens. -/
def endDone (s : State) : State :=
  s.sched.serve.seqs.foldl (fun s x =>
    let q := x.2
    let drop := fun (s : State) => setServe s { s.sched.serve with seqs := mdel s.sched.serve.seqs x.1 }
    if ! ctxLive s q.req.org.ctx then drop s
    else if q.finished then drop (endRequest s q.req q.made Progress.finished 0)
    else if q.cancelled then drop (endRequest s q.req q.made Progress.cancelled 0)
    else if s.sched.serve.rows.any (fun r => r.last && r.slot = x.1) then (writeProgress s q.req q.made Progress.decode).1
    else s) s

/-- The next partition with a queued request, in turn after the last admitted (12 R538). -/
def nextTenant (s : State) : Option Nat :=
  ((List.range 32).map (fun i => (s.sched.serve.lastPart + 1 + i) % 32)).find? (fun p => ! (mgetD s.sched.serve.queues p []).isEmpty)

/-- The lowest free sequence slot. -/
def freeSeq (s : State) : Option Nat :=
  (List.range s.sched.serve.seqSlots).find? (fun i => (mget s.sched.serve.seqs i).isNone)

/-- A queued request leaves its queue and takes a slot: its prompt is read in full, and its progress written. A fault of either is one
of its own context. -/
def admitOne (s : State) (p slot : Nat) (q : Request) (ext : HostRead) : State :=
  let l := mgetD s.sched.serve.queues p []
  let s0 := setServe s { s.sched.serve with queues := msetD s.sched.serve.queues p (l.drop 1) [], lastPart := p }
  match engineRead s0 8 (.ctx q.org.ctx) .read q.promptAddr (4 * q.promptCount) ext with
  | (s1, .inl f) => engineFault s1 q.org Engine.gantry f
  | (s1, .inr b) =>
    let (s2, c) := writeProgress s1 q 0 Progress.prefill
    if c ≠ 0 then finish s2 q.org.wid c
    else
      let x : Seqn :=
        { req := q, prompt := (List.range q.promptCount).map (fun i => fieldAt b (4 * i) 4), pos := 0, made := 0, last := 0,
          order := s2.sched.serve.nextOrder, fresh := true, ended := none, cancelled := false, finished := false }
      setServe s2 { s2.sched.serve with
        seqs := mset s2.sched.serve.seqs slot x, nextOrder := s2.sched.serve.nextOrder + 1 }

/-- Step 3: queued requests are admitted while a slot is free; what reads of host memory returned is used up in order. -/
def admitSeqs (fuel : Nat) (s : State) (ext : HostRead) : State :=
  match fuel with
  | 0 => s
  | n + 1 => match nextTenant s, freeSeq s with
    | some p, some slot => match (mgetD s.sched.serve.queues p []).head? with
      | some q => admitSeqs n (admitOne s p slot q ext) (afterExt s (.ctx q.org.ctx) q.promptAddr (4 * q.promptCount) ext)
      | none => s
    | _, _ => s

/-- The order of sequences in a step (12 R538): those in DECODE by slot, then those in PREFILL by admission. -/
def stepOrder (s : State) : List (Nat × Seqn) :=
  let l := s.sched.serve.seqs
  let pre := l.filter (fun x => ! seqDecodes x.2)
  l.filter (fun x => seqDecodes x.2) ++
    (List.range s.sched.serve.nextOrder).filterMap (fun o => pre.find? (fun x => x.2.order = o))

/-- How many rows each sequence takes: one, and then, in admission order, up to PREFILL_CHUNK while rows remain (12 R538). -/
def rowCounts (chunk left : Nat) (l : List (Nat × Seqn)) : List (Nat × Seqn × Nat) :=
  match l with
  | [] => []
  | (i, q) :: r =>
    if seqDecodes q then (i, q, 1) :: rowCounts chunk left r
    else
      let more := min left (min chunk (q.req.promptCount - q.pos) - 1)
      (i, q, more + 1) :: rowCounts chunk (left - more) r

/-- The rows of a sequence (12 R539). -/
def rowsOf (x : Nat × Seqn × Nat) : List Row :=
  let q := x.2.1
  (List.range x.2.2).map (fun j =>
    let pos := q.pos + j
    { slot := x.1, last := j + 1 = x.2.2 && q.req.promptCount ≤ pos + 1, first := q.fresh && j = 0, pos := pos,
      token := if pos < q.req.promptCount then lget q.prompt pos 0 else q.last })

/-- The bytes of the row table (12 R539). -/
def rowTableBytes (n max step : Nat) (l : List Row) : List Byte :=
  padTo (8 + 16 * max) (leBytes 4 n ++ leBytes 4 step ++ l.flatMap (fun r =>
    leBytes 1 r.slot ++ leBytes 1 (b2n r.last + 2 * b2n r.first) ++ zeroBytes 2 ++ leBytes 4 r.pos ++ leBytes 4 r.token ++ zeroBytes 4))

/-- Step 4: the rows of the next step; each sequence's position moves past them, and a request's wait ends with its first row
(12 R538, R542). -/
def fillRows (s : State) : State :=
  let l := stepOrder s
  let counts := rowCounts s.sched.serve.chunk (s.sched.serve.batchMax - l.length) l
  let s1 := counts.foldl (fun s x =>
    let q := x.2.1
    let s2 := chargeAcct s q.req.org.part q.req.account .sharedJobs x.2.2
    let s3 := if q.fresh then chargeAcct s2 q.req.org.part q.req.account .queueWait (elapsed s q.req.at_) else s2
    setServe s3 { s3.sched.serve with seqs := mset s3.sched.serve.seqs x.1 { q with pos := q.pos + x.2.2, fresh := false } }) s
  setServe s1 { s1.sched.serve with rows := counts.flatMap rowsOf }

/-- The origin of the session's own work, in the step plan's context. -/
def serveOrigin (s : State) : Origin :=
  { wid := 0, part := 0, ctx := s.sched.serve.ctx, ring := 0xFFFFFFFF, entry := 0 }

/-- Step 5: the row table is written, and the step plan launched with it (12 R538). -/
def launchStep (s : State) : State :=
  let v := s.sched.serve
  let steps := (v.steps + 1) % 2 ^ 32
  let bs := rowTableBytes v.rows.length v.batchMax steps v.rows
  let o := serveOrigin s
  if v.rows.isEmpty then s
  else match engineWrite s 8 (.ctx v.ctx) .write v.rowTable bs with
    | (s1, some f) => raise s1 o f.code Engine.gantry f.va (xdetail s1 f)
    | (s1, none) =>
      match findPlan s1 0 v.plan with
      | none => s1
      | some (slot, q) =>
        match badPatch q bs.length with
        | some (i, w) => patchBound s1 o i (bitsN w 11 0) (bitsN w 26 18) v.rowTable
        | none =>
          if ! inOneClaim s1 v.ctx v.rowTable bs.length then patchBound s1 o 0xFFFF 0 0 v.rowTable
          else
            let id := s1.host.nextWid
            let s2 := startLaunch s1 slot 0 q o 0 0 bs
            setServe s2 { s2.sched.serve with step := some id, steps := steps }

/-- STEP_BOUNDARY (12 R538): of an active session with no step in flight; `ext` is what reads of prompts in host memory returned. -/
def execStepBoundary (ext : HostRead) (s : State) : Host.Outcome State Fault Refusal :=
  let v := s.sched.serve
  if ! v.active || v.suspended || v.step.isSome || ! ctxLive s v.ctx then .next s
  else
    let s1 := endDone (deliverTokens s)
    let s2 := admitSeqs 64 s1 ext
    let s3 := fillRows (setServe s2 { s2.sched.serve with rows := [] })
    .next (settle (launchStep s3))

/-- ACCT_SEL (12 R544): a copy of the selected account is taken. -/
def execAcctSel (p : Part) (value : Word32) (s : State) : Host.Outcome State Fault Refusal :=
  if s.sec.recovery then .next (hostTouch s) else
  let s := hostTouch s
  let a := value.toNat % 256
  let s1 := wr s (pkey p.toNat Reg.acctSel) (BitVec.ofNat 64 a)
  .next (setSched s1 { s1.sched with acctCopy := mset s1.sched.acctCopy p.toNat (acctBytes (acctOf s1 p.toNat a)) })

end Sys2Proof.Machine
end

