-- ==== Sys2Proof/Machine/Kill.lean ====
section
/-! DEFINITION. Kills from K2 on (11 R478 to R480; 12 R530, R535), the context watchdog (11 R460), HANG and hang capture
(11 R490 to R494). -/
namespace Sys2Proof.Machine

/-! Hang capture (11 R490 to R494). -/

/-- The flag CAPTURE of a record, and CAPTURE_LOST (11 R484). -/
abbrev flagCapture : Nat := 4
abbrev flagLost : Nat := 8

/-- The buffer of a capture lies in CLAIM segments of its partition (11 R494). -/
def captureRoom (s : State) (p va n : Nat) : Bool :=
  (framePieces va n).all (fun q => ((findSeg (tableOf s (.part p)) q.1).map (fun g => g.2.kind == .claim)).getD false)

/-- The bytes of a capture, its record with the flag CAPTURE (11 R492). -/
def captureBytes (c : Capture) : List Byte :=
  recBytes { c.record with flags := c.record.flags + flagCapture } ++ c.rest

/-- A capture is written where the buffer is armed, and the write takes no fault; answers whether it was (11 R491, R494). -/
def writeCapture (s : State) (c : Capture) : State × Bool :=
  let va := rdF s (pkey c.part Reg.hangCtl) 47 12 * 4096
  if rdF s (pkey c.part Reg.hangCtl) 0 0 = 0 || ! captureRoom s c.part va 11456 then (s, false)
  else match engineWrite s 8 (.part c.part) .write va (captureBytes c) with
    | (s1, none) => (wrF s1 (pkey c.part Reg.hangCtl) 0 0 0, true)
    | (s1, some _) => (s1, false)

/-- The trigger's record takes a flag: where it waits for its kill, and where its queue holds it (11 R484, R491). -/
def flagRecord (s : State) (r : ErrRec) (flag : Nat) : State :=
  let mark := fun (x : ErrRec) => if x = r then { x with flags := x.flags + flag } else x
  let s1 := { s with host := { s.host with kills := mmap s.host.kills (fun _ q => { q with recs := q.recs.map mark }) } }
  let q := partOf s1 r.part
  setPart s1 r.part { q with faultq := mmap q.faultq (fun _ b => if b = recBytes r then recBytes (mark r) else b) }

/-- The capture that waits under a key is written, or is lost. -/
def captureNow (s : State) (key : Nat) : State :=
  match mget s.host.captures key with
  | none => s
  | some c =>
    let (s1, ok) := writeCapture { s with host := { s.host with captures := mdel s.host.captures key } } c
    flagRecord s1 c.record (if ok then flagCapture else flagLost)

/-- A trigger with a record of its own: an earlier capture of the partition is written first (11 R490, R491). -/
def trigger (s : State) (r : ErrRec) (hung : Option Nat) : State :=
  triggerCapture (captureNow s r.part) r.part r hung

/-- HANG_CAPTURE (11 R491). -/
def execHangCapture (trig : CaptureTrigger) (s : State) : Host.Outcome State Fault Refusal :=
  match trig with
  | .record p => .next (captureNow s p.toNat)
  | .fatal => .next (captureNow s fatalKey)

/-! The context watchdog (11 R460). -/

/-- WATCHDOG_MS of a context, or the default (11 R450, R495). -/
def watchdogMs (s : State) (c : Ctx) : Nat :=
  if c.watchdogMs = 0 then rdF s Reg.gantryWdtCfg 13 0 else c.watchdogMs

/-- What the watchdog of a context has counted, in nanoseconds. -/
def watchdogNow (s : State) (c : Ctx) : Nat :=
  c.wdHeld + (c.wdSince.map (elapsed s)).getD 0

/-- The watchdog expires: a record, a capture, and the kill. -/
def watchdogBites (s : State) (k : Nat) (c : Ctx) : State :=
  let o : Origin := { wid := 0, part := k / 65536, ctx := k, ring := 0xFFFFFFFF, entry := 0 }
  let r := workRec s o Cond.watchdog Engine.gantry 0 0 (leBytes 4 (watchdogMs s c) ++ zeroBytes 4 ++ leBytes 8 (c.wdRestart.getD s.dtime))
  killCtx (trigger s r none) k none [r]

/-- CONTEXT_WATCHDOG (11 R460): of a LIVE context with placed work whose watchdog has reached its value. -/
def execContextWatchdog (p : Part) (ctx : BitVec 16) (s : State) : Host.Outcome State Fault Refusal :=
  let k := okey p.toNat ctx.toNat
  match mget s.host.ctxs k with
  | none => .next s
  | some c =>
    if c.live && c.wdSince.isSome && watchdogMs s c * 1000000 ≤ watchdogNow s c then .next (settle (watchdogBites s k c)) else .next s

/-! HANG (11 R490). -/

/-- The request that an engine has not obeyed for 100 µs, with its DTIME: 1 a preemption, 2 a kill. -/
def hangRequest (s : State) (e : Nat) : Option (Nat × Nat) :=
  match s.host.kills.find? (fun q => ! q.2.stopped && engineHolds s e q.1 && due s q.2.since 100000) with
  | some q => some (2, q.2.since)
  | none =>
    let t := mgetD s.sched.stopAt e 0
    if askedOn s e && (engineWork s e).length ≠ 0 && due s t 100000 then some (1, t) else none

/-- The contexts whose work an engine holds, each with the origin of its oldest work there. -/
def hungWork (l : List Origin) : List Origin :=
  l.foldl (fun a o => if a.any (fun x => x.ctx = o.ctx) then a else a ++ [o]) []

/-- The record of HANG for one context. -/
def hangRecord (s : State) (e : Nat) (rq : Nat × Nat) (o : Origin) : ErrRec :=
  workRec s o Cond.hang e 0 0 (leBytes 1 rq.1 ++ zeroBytes 7 ++ leBytes 8 rq.2)

/-- The passes of a context with tiles on a core are abandoned; the workgroups there are gone (06 R259). -/
def clearCore (s : State) (n k : Nat) : State :=
  let ps := ((coreOf s n).tiles.map (fun t => t.pass)).eraseDups
  let s1 := ps.foldl (fun s id => match passOf s id with
    | some p => if p.org.ctx = k then endPass s id p Cond.hang else s
    | none => s) s
  let gone := (coreOf s1 n).wgs.filter (fun w => w.org.ctx = k)
  let s2 := gone.foldl (fun s w => unreserve s w.org.part (saveKib (wgSaveBytes w))) s1
  setCoreOf s2 n { coreOf s2 n with wgs := (coreOf s2 n).wgs.filter (fun w => w.org.ctx ≠ k) }

/-- The items of a context with a run on an array stop. -/
def clearArray (s : State) (n k : Nat) : State :=
  ((queueOf s n).map (fun r => r.item)).eraseDups.foldl (fun s id => match itemOf s id with
    | some it => if it.org.ctx = k then stopItem s id { it with runsLeft := 0 } else s
    | none => s) s

/-- The passes of a context with a batch on a geometry unit are abandoned. -/
def clearUnit (s : State) (b k : Nat) : State :=
  (s.raster.passes.filter (fun p => p.2.org.ctx = k && (mget p.2.units b).isSome)).foldl (fun s p => match passOf s p.1 with
    | some q => endPass s p.1 q Cond.hang
    | none => s) s

/-- A reset of an engine ends the work that it holds of a killed context (11 R490). -/
def clearEngine (s : State) (e k : Nat) : State :=
  match e / 256 with
  | 0 => clearCore s (e % 256) k
  | 1 => clearArray s (e % 256) k
  | 2 => clearUnit s (e % 256) k
  | 4 => ((crushOn s (e % 256)).filter (fun o => o.org.ctx = k)).foldl (fun s o =>
      setCrush (unreserve s o.org.part 4) (s.sched.crush.filter (fun x => x ≠ o))) s
  | 5 => ((copiesOf s (e % 256)).filter (fun o => o.org.ctx = k)).foldl (fun s o =>
      setCopies (unreserve s o.org.part 4) (e % 256) ((copiesOf s (e % 256)).filter (fun x => x ≠ o))) s
  | _ => s

/-- HANG is raised: the capture, a record for each context, their kills, and the reset of the engine. -/
def raiseHang (s : State) (e : Nat) (rq : Nat × Nat) : State :=
  let os := hungWork ((engineWork s e).map (fun w => w.1))
  let s1 := match os with
    | o :: _ => trigger s (hangRecord s e rq o) (some e)
    | [] => s
  let s2 := os.foldl (fun s o => clearEngine (killCtx s o.ctx none [hangRecord s e rq o]) e o.ctx) s1
  setSched s2 { s2.sched with
    resetting := s2.sched.resetting ++ [e], stopCtx := s2.sched.stopCtx.filter (fun x => x.1 ≠ e),
    stopOps := s2.sched.stopOps.filter (fun x => x.1 ≠ e) }

/-- HANG (11 R490). -/
def execHang (engine : BitVec 16) (s : State) : Host.Outcome State Fault Refusal :=
  match hangRequest s engine.toNat with
  | some rq => .next (settle (raiseHang s engine.toNat rq))
  | none => .next s

/-- ENGINE_RESET_END (11 R490). -/
def execEngineResetEnd (engine : BitVec 16) (s : State) : Host.Outcome State Fault Refusal :=
  .next (settle (setSched s { s.sched with resetting := s.sched.resetting.filter (fun e => e ≠ engine.toNat) }))

/-! K2 (11 R478, R479). -/

/-- A record in its place: increasing DTIME, then increasing engine (11 R479). -/
def placeRec (r : ErrRec) (l : List ErrRec) : List ErrRec :=
  match l with
  | [] => [r]
  | x :: t => if lexLt [r.dtime, r.engine] [x.dtime, x.engine] then r :: x :: t else x :: placeRec r t

/-- The records of a kill in the order of their queue, KILL set on the first. -/
def orderRecs (l : List ErrRec) : List ErrRec :=
  match l.foldl (fun a r => placeRec r a) [] with
  | [] => []
  | a :: r => { a with flags := a.flags + flagKill } :: r

/-- The cause of a kill (11 R480). -/
def killCause (q : Kill) : Nat :=
  match q.first with
  | some r => r.code
  | none => q.cause.getD Cond.contextKilled

/-- K2 for one context: a capture that waits is written first; its work stops, and its records are appended. -/
def killStop (s : State) (k : Nat) : State :=
  let s0 := captureNow s (k / 65536)
  match mget s0.host.kills k with
  | none => s0
  | some q =>
    let l := orderRecs q.recs
    let q1 : Kill := { q with stopped := true, recs := l, first := l.head? }
    l.foldl appendRec (stopWork (setKill s0 k q1) k 0 (killCause q1))

/-- KILL_ENGINE_STOP (11 R478 K2). -/
def execKillEngineStop (p : Part) (ctx : BitVec 16) (s : State) : Host.Outcome State Fault Refusal :=
  let k := okey p.toNat ctx.toNat
  match mget s.host.kills k with
  | some q => if q.stopped then .next s else .next (settle (killStop s k))
  | none => .next s

/-! K3 (11 R478; 10 R413; 12 R530, R535). -/

/-- The entries of a ring that have not retired, in the order in which they retire: the entries of a CALL's buffer before it. -/
def killOrder (r : Ring) : List Entry :=
  ((r.entries.filter (fun e => e.inCall.isNone)).flatMap (fun e =>
    (if isCall e then r.entries.filter (fun b => b.inCall = some e.count) else []) ++ [e])).filter (fun e => ! isDone e)

/-- An entry retires in a kill; its signal errors its fence with `err` (11 R478). -/
def killEntry (s : State) (rk err : Nat) (e : Entry) : State :=
  let s1 := if eSignalEn e.bytes && (findFence s (rpart rk) (eSignalFence e.bytes)).isSome then
      errorFence s (hKey (eSignalFence e.bytes)) err else s
  forgetWork (retireEntry s1 rk e.wid Cond.contextKilled) e.wid

/-- A ring of a killed context (10 R413): ERROR with the count of its oldest unretired slot, and its entries retire. -/
def killRing (s : State) (rk err : Nat) : State :=
  match mget s.host.rings rk with
  | none => s
  | some r =>
    let w := Cond.contextKilled + r.retired * 2 ^ 32
    let s1 := setRing s rk { r with
      state := .error, errorWord := w, wake := false, poll := false, pollFresh := false, d2 := false, d2Fresh := false }
    let s2 := sendMsix (dbWrite s1 rk r 0x18 w) (rpart rk) r.vector
    checkDrain ((killOrder r).foldl (fun s e => killEntry s rk err e) s2) rk

/-- The fences, not errored yet, that the signals of a kill error. -/
def killFences (s : State) (k : Nat) : List Nat :=
  let p := k / 65536
  let es := (s.host.rings.filter (fun r => r.2.ctx = k)).flatMap (fun r => (killOrder r.2).filterMap (fun e =>
    if eSignalEn e.bytes then some (eSignalFence e.bytes) else none))
  let ns := (s.sched.launches.filter (fun l => l.2.org.ctx = k)).flatMap (fun l => (l.2.nodes.filter nodeOpen).filterMap (fun n =>
    if nSignalEn n.node then some (nSignalFence n.node) else none))
  (((es ++ ns).filter (fun h => ((findFence s p h).map (fun f => f.err.isNone)).getD false)).map hKey).eraseDups

/-- The entries and nodes that K3 retires. -/
def killCount (s : State) (k : Nat) : Nat :=
  ((s.host.rings.filter (fun r => r.2.ctx = k)).map (fun r => (killOrder r.2).length)).foldl (· + ·) 0 +
    ((s.sched.launches.filter (fun l => l.2.org.ctx = k)).map (fun l => (l.2.nodes.filter nodeOpen).length)).foldl (· + ·) 0

/-- Queued requests of a context leave their queue; their entries retire with its rings (12 R541). -/
def dropRequests (s : State) (k : Nat) : State :=
  setServe s { s.sched.serve with
    queues := (mmap s.sched.serve.queues (fun _ l => l.filter (fun q => q.org.ctx ≠ k))).filter (fun q => q.2 ≠ []) }

/-- Every plan of a context is unloaded, and an UNLOAD that waited for one completes (12 R530). -/
def dropPlans (s : State) (k : Nat) : State :=
  (s.sched.plans.filter (fun q => q.2.ctx = k)).foldl (fun s q =>
    let s1 := freePlan s q.1
    let ws := (s1.sched.unloads.filter (fun u => u.2 = q.1)).map (fun u => u.1)
    ws.foldl (fun s w => finish s w 0) (setSched s1 { s1.sched with unloads := s1.sched.unloads.filter (fun u => u.2 ≠ q.1) })) s

/-- K3 for one context: its session, its launches, its plans, its requests and its rings. -/
def killRetire (s : State) (k : Nat) (q : Kill) : State :=
  let err := if q.cause = some Cond.ownerGone then Cond.ownerGone else Cond.contextKilled
  let q1 : Kill := { q with retiredAll := true, nRetired := killCount s k, nFences := (killFences s k).length }
  let s1 := setKill s k q1
  let s2 := if s1.sched.serve.active && s1.sched.serve.ctx = k then endSession s1 Cond.contextKilled else s1
  let s3 := ((s2.sched.launches.filter (fun l => l.2.org.ctx = k)).map (fun l => l.1)).foldl
    (fun s id => failLaunch s id Cond.contextKilled err) s2
  let s4 := dropRequests (dropPlans s3 k) k
  ((s4.host.rings.filter (fun r => r.2.ctx = k)).map (fun r => r.1)).foldl (fun s rk => killRing s rk err) s4

/-- KILL_RETIREMENT (11 R478 K3). -/
def execKillRetirement (p : Part) (ctx : BitVec 16) (s : State) : Host.Outcome State Fault Refusal :=
  let k := okey p.toNat ctx.toNat
  match mget s.host.kills k with
  | some q => if q.stopped && ! q.retiredAll then .next (settle (killRetire s k q)) else .next s
  | none => .next s

/-! K4 (11 R478, R480). -/

/-- The summary record of a kill (11 R480). -/
def summaryRec (s : State) (k : Nat) (q : Kill) : ErrRec :=
  { code := Cond.contextKilled, engine := Engine.gantry, part := k / 65536, flags := 0, slot := q.slot, ring := 0xFFFFFFFF,
    entry := (q.first.map (fun r => r.entry)).getD 0, fault := 0, dtime := s.dtime,
    detail := leBytes 2 (killCause q) ++ leBytes 2 ((q.first.map (fun r => r.engine)).getD Engine.gantry) ++ leBytes 4 q.nRetired ++
      leBytes 4 q.nFences ++ leBytes 4 q.recs.length ++ leBytes 4 q.handle }

/-- K4 for one context: slot and saved state are released, the summary is written, and the kill counted. -/
def killEnd (s : State) (k : Nat) (q : Kill) : State :=
  let s1 := bump32 (appendRec (dropSlot s k) (summaryRec s k q)) Reg.objKillCount Reg.objDevStatus 0 1
  freeCtx { s1 with host := { s1.host with kills := mdel s1.host.kills k } } k

/-- KILL_SUMMARY_RECORD (11 R478 K4): a KILL or OWNER_GONE that waited for it completes. -/
def execKillSummaryRecord (p : Part) (ctx : BitVec 16) (s : State) : Host.Outcome State Fault Refusal :=
  let k := okey p.toNat ctx.toNat
  match mget s.host.kills k with
  | some q => if q.retiredAll then .next (settle (objWaitDone (killEnd s k q) p.toNat)) else .next s
  | none => .next s

end Sys2Proof.Machine
end

