-- ==== Sys2Proof/Machine/Partitions.lean ====
section
/-! DEFINITION. Partition set-up: CREATE, DESTROY and SET_GRANT, and the filling of claims (10 R400 to R407; 08 R305, R306,
R323, R334; 11 R482). -/
namespace Sys2Proof.Machine

/-! Results of PART_CMD (10 R403). -/
namespace PartRes
abbrev ok : Nat := 0
abbrev descFault : Nat := 1
abbrev reservedSet : Nat := 2
abbrev state : Nat := 3
abbrev claim : Nat := 4
abbrev segment : Nat := 5
end PartRes

/-- A PART_CMD write is taken: no command runs (10 R400). -/
def partTaken (s : State) : Bool :=
  rdF s Reg.partStatus 0 0 = 0

/-- A command ends with a RESULT and an ENTRY (10 R403, R407). -/
def partResult (s : State) (result entry : Nat) : State :=
  wr s Reg.partStatus (BitVec.ofNat 64 (result % 256 * 256 + entry % 128 * 65536))

/-! CREATE (10 R401 to R404). -/

def hdrClaims (b : List Byte) : Nat := fAt b 0 6 0
def hdrGrant (b : List Byte) : Bool := fAt b 0 7 7 = 1
def hdrRings (b : List Byte) : Nat := fAt b 0 26 16
def hdrInflight (b : List Byte) : Nat := fAt b 0 44 32
def hdrSlots (b : List Byte) : Nat := fAt b 0 56 48

/-- Bytes 0x00 to 0x3F of a create descriptor break 10 R401. -/
def hdrBad (b : List Byte) : Bool :=
  95 < hdrClaims b || fAt b 0 15 8 ≠ 0 || 1024 < hdrRings b || fAt b 0 31 27 ≠ 0 || hdrInflight b = 0 || 4096 < hdrInflight b ||
    fAt b 0 47 45 ≠ 0 || hdrSlots b = 0 || 256 < hdrSlots b || fAt b 0 63 57 ≠ 0 || ! wordsZero b [0x08, 0x10, 0x18, 0x20, 0x28, 0x30, 0x38]

/-- Claim entry `i` of the entries read (10 R402). -/
def claimEntry (l : List Byte) (i : Nat) : Nat :=
  fieldAt l (4 * i) 4

def ceClaim (w : Nat) : Nat := bitsN w 6 0
def ceShared (w : Nat) : Bool := bitN w 7
def ceStrength (w : Nat) : Nat := bitsN w 9 8
def cePeers (w : Nat) : Nat := bitsN w 23 16

/-- The entries of a descriptor. -/
def claimEntries (l : List Byte) (n : Nat) : List Nat :=
  (List.range n).map (claimEntry l)

/-- Claim entry `i` breaks a rule of the CLAIM row of 10 R403. -/
def ceBad (s : State) (es : List Nat) (i : Nat) : Bool :=
  let w := lget es i 0
  bitsN w 15 10 ≠ 0 || bitsN w 31 24 ≠ 0 || 94 < ceClaim w || (es.take i).any (fun v => ceClaim v = ceClaim w) ||
    (claimOf s (ceClaim w)).kind != .free || (cePeers w ≠ 0 && ! ceShared w) || bitN (cePeers w) (selfId s)

/-- CREATE of partition `p` is refused for STATE (10 R403). -/
def createState (s : State) (p : Nat) : Bool :=
  (partOf s p).created || (p ≠ 0 && (! s.host.pcie.vfEnable || s.host.pcie.numVfs < p))

/-- The RESULT and ENTRY of a CREATE, judged in the order of 10 R403. -/
def createJudge (s : State) (p : Nat) (hdr claims : HostRead) : Nat × Nat :=
  if createState s p then (PartRes.state, 0)
  else match hdr with
    | .fail _ => (PartRes.descFault, 0)
    | .ok b =>
      if hdrBad b then (PartRes.reservedSet, 0)
      else match (if hdrClaims b = 0 then HostRead.ok [] else claims) with
        | .fail _ => (PartRes.descFault, 0)
        | .ok l =>
          let es := claimEntries l (hdrClaims b)
          match (List.range es.length).find? (ceBad s es) with
          | some i => (PartRes.claim, i)
          | none => match tableFault (b.drop 0x40) (fun n => es.any (fun w => ceClaim w = n)) (selfId s) with
            | some (i, _) => (PartRes.segment, i)
            | none => (PartRes.ok, 0)

/-- A claim is assigned, refilled first where its strength differs (10 R404, 09 R350). -/
def assignClaim (p : Nat) (s : State) (w : Nat) : State :=
  let n := ceClaim w
  let s1 := if ceStrength w = (claimOf s n).strength then s else fillClaim s n (ceStrength w)
  let c : Claim :=
    { owner := p, kind := if ceShared w then .shared else .priv, strength := ceStrength w, peerMask := cePeers w }
  setMem s1 { s1.mem with claims := mset s1.mem.claims n c }

/-- The grant bit of a partition (08 R310). -/
def putGrant (s : State) (p : Nat) (on : Bool) : State :=
  let bit : BitVec 32 := BitVec.ofNat 32 (2 ^ p)
  setMem s { s.mem with grant := if on then s.mem.grant ||| bit else s.mem.grant &&& ~~~ bit }

/-- The fault queue of a partition is empty (11 R487). -/
def clearFaultq (s : State) (p : Nat) : State :=
  let s1 := wrF (wrF s (pkey p Reg.faultqHead) 31 0 0) (pkey p Reg.faultqTail) 31 0 0
  setPart s1 p { partOf s1 p with faultq := [] }

/-- The effects of a successful CREATE (10 R404; 11 R487, R488; 12 R542). Records that waited for partition 0 are appended
(16 R658). -/
def createPart (s : State) (p : Nat) (b : List Byte) (es : List Nat) : State :=
  let s1 := es.foldl (assignClaim p) s
  let segs := (segSlices (b.drop 0x40)).map parseSeg
  let x : Partition :=
    { created := true, destroying := false, ringQuota := hdrRings b, inflightQuota := hdrInflight b, slotQuota := hdrSlots b,
      segs := segs, faultq := [], notify := true, filling := [] }
  let s2 := putGrant (clearFaultq (setPart s1 p x) p) p (hdrGrant b)
  let s3 := setSched s2 { s2.sched with
    accounts := mkeep s2.sched.accounts (fun k _ => k / 256 != p), saveUsed := mdel s2.sched.saveUsed p }
  let s4 := importSegs s3 p segs
  if p = 0 then s4.sec.waiting.foldl appendRec (setSec s4 { s4.sec with waiting := [] }) else s4

/-- What a CREATE that is taken does. -/
def partCreate (s : State) (p : Nat) (hdr claims : HostRead) : State :=
  match createJudge s p hdr claims with
  | (0, _) =>
    let b := match hdr with
      | .ok b => b
      | .fail _ => []
    let l := match claims with
      | .ok l => l
      | .fail _ => []
    partResult (createPart s p b (claimEntries l (hdrClaims b))) PartRes.ok 0
  | (r, i) => partResult s r i

/-- PART_CREATE (10 R400 to R404): `hdr` is what the read of bytes 0x000 to 0x23F returned, `claims` that of the claim entries. -/
def execPartCreate (p : Part) (hdr claims : HostRead) (s : State) : Host.Outcome State Fault Refusal :=
  if s.sec.recovery then .next (hostTouch s) else
  let s := hostTouch s
  .next (if partTaken s then settle (partCreate s p.toNat hdr claims) else s)

/-! DESTROY (10 R405, 11 R482). -/

/-- No event of the partition fires, and no mirror record is written, from here on (11 R482; DEDUCED: log 54). -/
def silence (s : State) (p : Nat) : State :=
  { s with host := { s.host with
      events := mmap s.host.events (fun k e => if k / 65536 = p then { e with armed := false } else e),
      fences := mmap s.host.fences (fun k f => if k / 65536 = p then { f with mirror := 0 } else f) } }

/-- The steps of a kill that are left, at once. -/
def killThrough (s : State) (k : Nat) : State :=
  let s1 := match mget s.host.kills k with
    | some q => if q.stopped then s else killStop s k
    | none => s
  let s2 := match mget s1.host.kills k with
    | some q => if q.retiredAll then s1 else killRetire s1 k q
    | none => s1
  match mget s2.host.kills k with
  | some q => killEnd s2 k q
  | none => s2

/-- Every LIVE context of a partition is killed, and kills in progress end (11 R482). -/
def killPartition (s : State) (p : Nat) : State :=
  let s1 := (s.host.ctxs.filter (fun c => c.1 / 65536 = p && c.2.live)).foldl (fun s c => killCtx s c.1 (some Cond.contextKilled) []) s
  objWaitDone (((s1.host.kills.filter (fun q => q.1 / 65536 = p)).map (fun q => q.1)).foldl killThrough s1) p

/-- Every ring of a partition is destroyed; a ring command that waited ends (10 R405, R410). -/
def dropRings (s : State) (p : Nat) : State :=
  (s.host.rings.filter (fun r => rpart r.1 = p)).foldl (fun s r =>
    let s1 := { s with host := { s.host with rings := mdel s.host.rings r.1 } }
    match r.2.waitFor with
    | some .resume => ringResult s1 r.1 5
    | some _ => ringResult s1 r.1 0
    | none => s1) s

/-- Every object of a partition is freed, with its PEER segments released; imports of the partition hold nothing
(11 R482, 14 R596). -/
def dropObjects (s : State) (p : Nat) : State :=
  let mine := fun (k : Nat) => k / 65536 = p
  let s1 := (s.host.ctxs.filter (fun c => mine c.1)).foldl (fun s c => releaseSegs (dropTable s (.ctx c.1)) p c.2.segs) s
  let s2 := { s1 with host := { s1.host with
    ctxs := mkeep s1.host.ctxs (fun k _ => ! mine k), fences := mkeep s1.host.fences (fun k _ => ! mine k),
    events := mkeep s1.host.events (fun k _ => ! mine k), memObjs := mkeep s1.host.memObjs (fun k _ => ! mine k) } }
  setLink s2 { s2.link with imports := s2.link.imports.map (fun m => if m.part = p then { m with mems := [], fences := [] } else m) }

/-- Every module handle of a partition is freed, and its loads end (10 R405). -/
def dropModules (s : State) (p : Nat) : State :=
  setCore s { s.core with
    modules := mkeep s.core.modules (fun k _ => k / 4096 != p), loads := mdel s.core.loads p,
    modUnloads := mkeep s.core.modUnloads (fun _ k => k / 4096 != p) }

/-- Steps 1 to 3 of DESTROY (10 R405). -/
def teardown (s : State) (p : Nat) : State :=
  let s1 := dropModules (dropRings (killPartition (silence s p) p) p) p
  let s2 := dropHeads (unlockWhere (dropObjects s1 p) (fun l => l.lock = some p)) p
  let s3 := releaseSegs (dropTable (putGrant s2 p false) (.part p)) p (partOf s2 p).segs
  clearFaultq (setPart s3 p { partOf s3 p with segs := [] }) p

/-- The claims that a partition owns, in increasing number. -/
def partClaims (s : State) (p : Nat) : List Nat :=
  (List.range 95).filter (fun n => (claimOf s n).owner = p && ((claimOf s n).kind = .priv || (claimOf s n).kind = .shared))

/-- The partition is no longer created (10 R405); a PART_CMD that waited for it completes. -/
def endDestroy (s : State) (p : Nat) : State :=
  let s1 := setSched { s with host := { s.host with parts := mdel s.host.parts p } } { s.sched with saveUsed := mdel s.sched.saveUsed p }
  if s1.host.partCmd = some p then partResult { s1 with host := { s1.host with partCmd := none } } PartRes.ok 0 else s1

/-- DESTROY of a created partition (10 R405): its claims report FILLING, and it ends when the last of them has been filled. -/
def destroyPart (s : State) (p : Nat) : State :=
  if ! (partOf s p).created || (partOf s p).destroying then s
  else
    let l := partClaims s p
    let s1 := setPart s p { partOf s p with destroying := true, filling := l }
    let s2 := teardown s1 p
    let s3 := setMem s2 { s2.mem with
      claims := l.foldl (fun m n => mset m n { claimOf s2 n with kind := .filling }) s2.mem.claims, fillQ := s2.mem.fillQ ++ l }
    if l = [] then endDestroy s3 p else s3

/-- PART_DESTROY (10 R400, R403, R405). -/
def execPartDestroy (p : Part) (s : State) : Host.Outcome State Fault Refusal :=
  if s.sec.recovery then .next (hostTouch s) else
  let s := hostTouch s
  let n := p.toNat
  .next (if ! partTaken s then s
    else if ! (partOf s n).created || (partOf s n).destroying then partResult s PartRes.state 0
    else
      let s2 := wr { s with host := { s.host with partCmd := some n } } Reg.partStatus 1
      settle (destroyPart s2 n))

/-- CLAIM_FILLING_END (08 R306, 10 R405): the claim whose turn it is has been filled, and becomes FREE. -/
def execClaimFillingEnd (claim : BitVec 7) (s : State) : Host.Outcome State Fault Refusal :=
  let n := claim.toNat
  if s.mem.fillQ.head? ≠ some n then .next s
  else
    let k := (claimOf s n).strength
    let s1 := fillClaim s n k
    let c : Claim := { owner := 0, kind := .free, strength := k, peerMask := 0 }
    let s2 := setMem s1 { s1.mem with
      claims := msetD s1.mem.claims n c { owner := 0, kind := .free, strength := 3, peerMask := 0 }, fillQ := s1.mem.fillQ.drop 1 }
    match s2.host.parts.find? (fun q => q.2.destroying && q.2.filling.contains n) with
    | none => .next s2
    | some (p, q) =>
      let s3 := setPart s2 p { q with filling := q.filling.filter (fun c => c ≠ n) }
      .next (if q.filling.all (fun c => c = n) then endDestroy s3 p else s3)

/-! SET_GRANT (10 R406). -/

/-- Every translation of a partition's tables is invalidated (08 R323). -/
def dropPartTables (s : State) (p : Nat) : State :=
  (s.host.ctxs.filter (fun c => c.1 / 65536 = p)).foldl (fun s c => dropTable s (.ctx c.1)) (dropTable s (.part p))

/-- SET_GRANT (10 R400, R403, R406). -/
def execSetGrant (p : Part) (grant : Bool) (s : State) : Host.Outcome State Fault Refusal :=
  if s.sec.recovery then .next (hostTouch s) else
  let s := hostTouch s
  let n := p.toNat
  .next (if ! partTaken s then s
    else if ! (partOf s n).created || (partOf s n).destroying then partResult s PartRes.state 0
    else partResult (dropPartTables (putGrant s n grant) n) PartRes.ok 0)

end Sys2Proof.Machine
end

