-- ==== Sys2Proof/Machine/Functions.lean ====
section
/-! DEFINITION. The PCIe functions: their resets (10 R395, 18 R716), MSI-X tables (R396 to R399), Completion Timeout (R391) and
accesses that R10 of 00 does not support. -/
namespace Sys2Proof.Machine

/-! Resets (10 R395). -/

/-- The key of a register lies in the set-up page of partition `p`. -/
def inPage (p k : Nat) : Bool :=
  pkey p 0 ≤ k && k < pkey (p + 1) 0

/-- The registers of the set-up page of partition `p`, with the copy of its account, take their reset values (18 R716). -/
def resetPage (s : State) (p : Nat) : State :=
  setSched { s with regs := mkeep s.regs (fun k _ => ! inPage p k) } { s.sched with acctCopy := mdel s.sched.acctCopy p }

/-- The MSI-X state of function `f`: its table, its pending bits, MSI-X Enable and Function Mask (18 R716). -/
def resetMsix (s : State) (f : Nat) : State :=
  let bit : BitVec 32 := BitVec.ofNat 32 (2 ^ f)
  { s with host := { s.host with
      msix := mkeep s.host.msix (fun k _ => k / 2048 != f),
      pcie := { s.host.pcie with
        msixEnable := s.host.pcie.msixEnable &&& ~~~ bit, funcMask := s.host.pcie.funcMask &&& ~~~ bit } } }

/-- The set-up page and the MSI-X state of function `f`. -/
def resetFunction (s : State) (f : Nat) : State :=
  resetMsix (resetPage s f) f

/-- The physical function's registers that its FLR resets (18 R716). -/
def resetPartRegs (s : State) : State :=
  { s with regs := mkeep s.regs (fun k _ => k != Reg.partDescAddr && k != Reg.partCmd && k != Reg.partStatus &&
      ! (List.range 32).any (fun f => k = Reg.pcieMsixAlloc f)) }

/-- Every created partition of a list is destroyed. -/
def destroyAll (s : State) (l : List Nat) : State :=
  l.foldl destroyPart s

/-- An FLR of the physical function (10 R395, 18 R716); the configuration space returns to what PCI Express gives it (PRESUMED:
log 55). -/
def resetPf (s : State) : State :=
  let s1 := destroyAll s (List.range 32)
  let s2 := (List.range 32).foldl resetFunction (resetPartRegs s1)
  { s2 with host := { s2.host with partCmd := none, pcie := resetHost.pcie } }

/-- PF_FLR (10 R395). -/
def execPfFlr (s : State) : Host.Outcome State Fault Refusal :=
  .next (settle (resetPf (hostTouch s)))

/-- HOT_RESET (10 R395): the effect of a physical-function FLR. -/
def execHotReset (s : State) : Host.Outcome State Fault Refusal :=
  .next (settle (resetPf s))

/-- LINK_DOWN_RESET (10 R395): the effect of a physical-function FLR. -/
def execLinkDownReset (s : State) : Host.Outcome State Fault Refusal :=
  .next (settle (resetPf s))

/-- VF_FLR (10 R395): steps 1 to 3 of DESTROY on partition n, which stays created; its set-up page and its MSI-X state are reset. -/
def execVfFlr (n : Part) (s : State) : Host.Outcome State Fault Refusal :=
  let p := n.toNat
  let s1 := hostTouch s
  if p = 0 then .next s
  else if (partOf s1 p).created && ! (partOf s1 p).destroying then
    let s2 := teardown s1 p
    .next (settle (resetFunction { s2 with sched := { s2.sched with saveUsed := mdel s2.sched.saveUsed p } } p))
  else .next (resetFunction s1 p)

/-- VF Enable is cleared (10 R395): every created partition from 1 to 31 is destroyed, and the functions are gone. -/
def clearVfs (s : State) : State :=
  let l := (List.range 31).map (· + 1)
  let s1 := l.foldl resetFunction (destroyAll s l)
  { s1 with host := { s1.host with pcie := { s1.host.pcie with vfEnable := false } } }

/-- VF_ENABLE_CLEAR (10 R395). -/
def execVfEnableClear (s : State) : Host.Outcome State Fault Refusal :=
  .next (settle (clearVfs (hostTouch s)))

/-! MSI-X (10 R398, R399). -/

/-- A pending message of an entry that is no longer masked is sent once (10 R398). -/
def releaseMsix (s : State) (f i : Nat) : State :=
  let e := msixGet s f i
  if e.pend && ! e.masked && ! s.host.pcie.funcMask.getLsbD f && s.host.pcie.msixEnable.getLsbD f then
    emit (msixPut s f i { e with pend := false }) (.msix f i)
  else s

/-- MSIX_UNMASK (10 R398). -/
def execMsixUnmask (fn : Part) (index : BitVec 11) (s : State) : Host.Outcome State Fault Refusal :=
  if s.sec.recovery then .next (hostTouch s) else
  let s := hostTouch s
  let f := fn.toNat
  let i := index.toNat
  if i < msixSize s f then .next (releaseMsix (msixPut s f i { msixGet s f i with masked := false }) f i)
  else .next s

/-- The sizes of all functions but one, together. -/
def otherSizes (s : State) (f : Nat) : Nat :=
  (((List.range 32).filter (fun g => g ≠ f)).map (msixSize s)).foldl (· + ·) 0

/-- A write of PCIE_MSIX_ALLOC is ignored (10 R399). -/
def allocRefused (s : State) (f size : Nat) : Bool :=
  size = 0 || 2048 < size || 2048 < otherSizes s f + size ||
    (if f = 0 then s.host.pcie.msixEnable.getLsbD 0 else s.host.pcie.vfEnable)

/-- PCIE_MSIX_ALLOC_WRITE (10 R399). -/
def execPcieMsixAllocWrite (fn : Part) (value : Word32) (s : State) : Host.Outcome State Fault Refusal :=
  if s.sec.recovery then .next (hostTouch s) else
  let s := hostTouch s
  let n := bitsN value.toNat 11 0
  if allocRefused s fn.toNat n then .next s
  else .next (wr s (Reg.pcieMsixAlloc fn.toNat) (BitVec.ofNat 64 n))

/-! Reads that time out (10 R391). -/

/-- The upper end of the sub-range that Device Control 2 names, in nanoseconds; 50 ms for 0 (10 R391; the codes are those of PCI
Express, PRESUMED: log 55). -/
def timeoutNs (code : Nat) : Nat :=
  match code with
  | 1 => 100000
  | 2 => 10000000
  | 5 => 55000000
  | 6 => 210000000
  | 9 => 900000000
  | 10 => 3500000000
  | 13 => 13000000000
  | 14 => 64000000000
  | _ => 50000000

/-- A read of TAIL that left at `pollAt` times out. -/
def tailTimeout (s : State) (p i : Nat) (f : State → State) : State :=
  match mget s.host.rings (rkey p i) with
  | some r => if due s r.pollAt (timeoutNs s.host.pcie.cto) then f s else s
  | none => s

/-- COMPLETION_TIMEOUT (10 R391): the read fails as timed out. A read other than of TAIL has no start of its own in the state. -/
def execCompletionTimeout (req : ReadId) (s : State) : Host.Outcome State Fault Refusal :=
  match req with
  | .tail p i => .next (tailTimeout s p.toNat i.toNat (fun s => tailReturn s p.toNat i.toNat (.fail .timeout)))
  | .idleTail p i => .next (tailTimeout s p.toNat i.toNat (fun s => idleReturn s p.toNat i.toNat (.fail .timeout)))
  | .entry p i b => .next (fetchEntry s p.toNat i.toNat b (.fail .timeout))
  | .payload p i => .next (payloadReturn s (rkey p.toNat i.toNat) (.fail .timeout))
  | .reply core group tag thread => .next (hostReply s core.toNat group tag thread (.fail .timeout))

/-! Accesses that are not supported (00 R10). -/

/-- The access falls inside WB_MBOX, which takes 1, 2, 4 and 8 bytes (18 R711). -/
def inMbox (fn off : Nat) : Bool :=
  fn = 0 && 0x1E4000 ≤ off && off < 0x1E8000

/-- The register window, or WB_MBOX, takes an access of this size at this offset (00 R10, 18 R711). -/
def accessOk (fn off bytes : Nat) : Bool :=
  (bytes = 4 || bytes = 8 || ((bytes = 1 || bytes = 2) && inMbox fn off)) && off % bytes = 0

/-- UNSUPPORTED_BAR_ACCESS (00 R10): a read returns zeros, a write changes nothing. An access that R10 supports is no such
command. -/
def execUnsupportedBarAccess (fn : Part) (off : BitVec 26) (bytes : Nat) (isRead : Bool) (s : State) : Host.Outcome State Fault Refusal :=
  let s1 := hostTouch s
  if accessOk fn.toNat off.toNat bytes then .next s
  else .next (if isRead then emit s1 (.barRead fn.toNat (zeroBytes bytes)) else s1)

end Sys2Proof.Machine
end

