-- ==== Sys2Proof/Machine/MarkCmds.lean ====
section
/-! DEFINITION. Mark units (13 R564 to R580): the five operations of write-fed units, snooped messages, verdicts with their records,
stall timers, and the registers whose write is judged. -/
namespace Sys2Proof.Machine

/-! Parameters (13 R564, R565, R576, R577). -/

/-- The parameters of a unit; none while WIDTH holds its reserved code (log 41). -/
def unitParams (s : State) (u : Nat) : Option CrcParams :=
  let c := Reg.markCtl u
  match crcPreset (rdF s c 3 1) with
  | some q => some q
  | none =>
    let code := rdF s c 5 4
    let w := 8 * 2 ^ code
    if code = 3 then none
    else some { w := w, poly := rdF s (Reg.markPoly u) 31 0 % 2 ^ w, init := rdF s (Reg.markPoly u) 63 32 % 2 ^ w,
                refin := rdF s c 6 6 = 1, refout := rdF s c 7 7 = 1, xorout := rdF s (Reg.markXorout u) 31 0 % 2 ^ w }

/-- ALIVE_WIDTH in bits, ALIVE_TOL, CHECK_MODE and ALIVE_OFFSET. -/
def aliveBits (s : State) (u : Nat) : Nat :=
  let k := rdF s (Reg.markCtl u) 9 8
  if k = 0 then 0 else 2 ^ (k + 1)
def aliveTol (s : State) (u : Nat) : Nat := rdF s (Reg.markCtl u) 13 10
def checkMode (s : State) (u : Nat) : Nat := rdF s (Reg.markCtl u) 15 14
def aliveOffset (s : State) (u : Nat) : Nat := rdF s (Reg.markCtl u) 27 16

/-- The fields of MARK_RUN (13 R578). -/
def runCrc (s : State) (u : Nat) : Nat := rdF s (Reg.markRun u) 31 0
def runLast (s : State) (u : Nat) : Nat := rdF s (Reg.markRun u) 47 32
def runValid (s : State) (u : Nat) : Bool := rdF s (Reg.markRun u) 48 48 = 1
def runOpen (s : State) (u : Nat) : Bool := rdF s (Reg.markRun u) 49 49 = 1

def setCrc (s : State) (u c : Nat) : State := wrF s (Reg.markRun u) 31 0 c
def setOpen (s : State) (u : Nat) (b : Bool) : State := wrF s (Reg.markRun u) 49 49 (b2n b)

/-- The owner of a unit (13 R575). -/
def markOwner (s : State) (u : Nat) : Nat := rdF s (Reg.markGrant u) 4 0

/-! Messages. -/

/-- A message starts (13 R564). -/
def openMsg (s : State) (u : Nat) (q : CrcParams) : State :=
  setMark (setOpen (setCrc s u q.init) u true) u
    { markOf s u with count := 0, held := [], head := [], alive := none, ignoring := false }

/-- Bytes are fed (13 R564). -/
def feedBytes (s : State) (u : Nat) (q : CrcParams) (bs : List Byte) : State :=
  setCrc s u (bs.foldl (crcFeed q) (runCrc s u))

/-- The open message is discarded, as RESTART does (13 R567). -/
def dropMsg (s : State) (u : Nat) (q : CrcParams) : State :=
  setMark (setOpen (setCrc s u q.init) u false) u { markOf s u with count := 0, held := [], head := [], alive := none }

/-- An event of a unit is counted; its record is written when its event bit changes from 0 to 1 (13 R572): `i` is 0 MISMATCH, 1
REPEAT, 2 SKIP, 3 STALL. -/
def markEvent (s : State) (u i code : Nat) (detail : List Byte) : State :=
  let s1 := bumpF s (Reg.markEventCount u) (16 * i + 15) (16 * i) (Reg.markUnitStatus u) (1 + i) 1
  if rdF s1 (Reg.markUnitStatus u) (5 + i) (5 + i) = 1 then s1
  else appendRec (wrF s1 (Reg.markUnitStatus u) (5 + i) (5 + i) 1) (plainRec s1 code (Engine.mark u) (markOwner s1 u) flagInfo 0 detail)

/-- The detail words of a unit's record (13 R572). -/
def markDetail (s : State) (u check received alive last : Nat) : List Byte :=
  leBytes 4 check ++ leBytes 4 received ++ leBytes 2 alive ++ leBytes 2 last ++ leBytes 4 (markOf s u).count ++
    leBytes 8 (rd s (Reg.markMsgCount u)).toNat

/-- How an alive value is judged (13 R566): accepted, a repeat, or a skip. -/
inductive AliveVerdict where
  | none | accepted | repeated | skipped
  deriving DecidableEq, Repr

/-- The verdict on an alive value `n` of `w` bits. -/
def judgeAlive (s : State) (u w n : Nat) : AliveVerdict :=
  let d := (n + 2 ^ w - runLast s u % 2 ^ w) % 2 ^ w
  if ! runValid s u then .accepted
  else if d = 0 then .repeated
  else if d ≤ 1 + aliveTol s u then .accepted
  else .skipped

/-- A message ends (13 R566, R572): `received` is its check, `short` that it cannot hold its fields. -/
def endMsg (s : State) (u : Nat) (q : CrcParams) (received : Option Nat) (short : Bool) : State :=
  let check := crcResult q (runCrc s u)
  let bad := short || (received.map (fun r => r != check)).getD false
  let m := markOf s u
  let last := runLast s u
  let v := match m.alive, bad with
    | some n, false => if aliveBits s u = 0 then AliveVerdict.none else judgeAlive s u (aliveBits s u) n
    | _, _ => .none
  let s1 := bump64 s (Reg.markMsgCount u) (Reg.markUnitStatus u) 0 1
  let s2 := if v = .accepted || v = .skipped then
      wrF (wrF s1 (Reg.markRun u) 47 32 (m.alive.getD 0)) (Reg.markRun u) 48 48 1
    else s1
  let s3 := wr s2 (Reg.markResult u) (BitVec.ofNat 64 (check + b2n bad * 2 ^ 32 + b2n (v = .repeated) * 2 ^ 33 +
    b2n (v = .skipped) * 2 ^ 34 + b2n received.isNone * 2 ^ 35 + (rd s2 (Reg.markMsgCount u)).toNat % 65536 * 2 ^ 48))
  let d := markDetail s3 u check (received.getD 0) (m.alive.getD 0) last
  let s4 := if bad then markEvent s3 u 0 Cond.markMismatch d
    else if v = .repeated then markEvent s3 u 1 Cond.aliveRepeat d
    else if v = .skipped then markEvent s3 u 2 Cond.aliveSkip d
    else s3
  setMark (setOpen s4 u false) u { markOf s4 u with count := 0, held := [], head := [], alive := none }

/-! Write-fed units (13 R567, R568). -/

/-- The message of a write-fed unit that is open, or a new one. -/
def ensureOpen (s : State) (u : Nat) (q : CrcParams) : State :=
  if runOpen s u then s else openMsg s u q

/-- One operation (13 R567). -/
def markOp (s : State) (u : Nat) (o : MarkOp) : State :=
  match unitParams s u with
  | none => s
  | some q =>
    let feed := fun (s : State) =>
      let s1 := feedBytes (ensureOpen s u q) u q (leBytes o.size o.value)
      setMark s1 u { markOf s1 u with count := (markOf s1 u).count + o.size }
    match o.kind with
    | .feed => feed s
    | .alive =>
      let s1 := feed s
      if aliveBits s u = 0 then s1 else setMark s1 u { markOf s1 u with alive := some (o.value % 2 ^ aliveBits s u) }
    | .finish => endMsg (ensureOpen s u q) u q (some (o.value % 2 ^ q.w)) false
    | .finishNoCheck => endMsg (ensureOpen s u q) u q none false
    | .restart => dropMsg s u q

/-- An operation at an internal port enters the unit's queue (13 R567, R568); otherwise the unit performs the operation at the head
of its queue, where it is of this kind. -/
def markStep (s : State) (u : Nat) (k : MarkOpKind) (port : Option (Nat × Nat)) : State :=
  match port with
  | some (size, value) =>
    if (markOf s u).queue.length < 64 then queueMark s u { kind := k, size := min size 4, value := value } else s
  | none =>
    match (markOf s u).queue with
    | [] => s
    | o :: r => if o.kind = k then markOp (setMark s u { markOf s u with queue := r }) u o else s

/-- FEED (13 R567). -/
def execFeed (unit : BitVec 4) (port : Option (Nat × Nat)) (s : State) : Host.Outcome State Fault Refusal :=
  .next (markStep s unit.toNat .feed port)

/-- ALIVE (13 R567). -/
def execAlive (unit : BitVec 4) (port : Option (Nat × Nat)) (s : State) : Host.Outcome State Fault Refusal :=
  .next (markStep s unit.toNat .alive port)

/-- END (13 R567). -/
def execMarkEnd (unit : BitVec 4) (port : Option (Nat × Nat)) (s : State) : Host.Outcome State Fault Refusal :=
  .next (markStep s unit.toNat .finish port)

/-- END_NOCHECK (13 R567). -/
def execEndNocheck (unit : BitVec 4) (port : Option (Nat × Nat)) (s : State) : Host.Outcome State Fault Refusal :=
  .next (markStep s unit.toNat .finishNoCheck port)

/-- MARK_RESTART (13 R567). -/
def execMarkRestart (unit : BitVec 4) (port : Option (Nat × Nat)) (s : State) : Host.Outcome State Fault Refusal :=
  .next (markStep s unit.toNat .restart port)

/-! Snooping units (13 R569 to R571). -/

/-- Bytes that a message holds back as its received check. -/
def checkBytes (s : State) (u : Nat) (q : CrcParams) : Nat :=
  if checkMode s u = 1 then q.w / 8 else 0

/-- Bytes of the alive field (13 R570). -/
def aliveBytes (s : State) (u : Nat) : Nat :=
  (aliveBits s u + 7) / 8

/-- Bytes of the open message arrive: all but the last that may be its check are fed, and the first are kept for the alive field. -/
def snoopBytes (s : State) (u : Nat) (q : CrcParams) (bs : List Byte) : State :=
  let m := markOf s u
  let l := m.held ++ bs
  let n := l.length - checkBytes s u q
  let s1 := feedBytes s u q (l.take n)
  setMark s1 u { m with
    held := l.drop n, head := (m.head ++ bs).take (aliveOffset s u + aliveBytes s u), count := m.count + bs.length,
    byteAt := s.dtime }

/-- The message ends with its last byte (13 R570). -/
def snoopEnd (s : State) (u : Nat) (q : CrcParams) : State :=
  let m := markOf s u
  let a := aliveBytes s u
  let short := m.count < checkBytes s u q || (a ≠ 0 && m.count < aliveOffset s u + a)
  let alive := if a = 0 || short then none else some (fieldAt m.head (aliveOffset s u) a % 2 ^ aliveBits s u)
  endMsg (setMark s u { m with alive := alive }) u q (if checkMode s u = 1 then some (leNat m.held) else none) short

/-- A piece of the stream (13 R570, R571): its first byte discards an open message; bytes of no open message are ignored. -/
def snoopPiece (s : State) (u : Nat) (e : MarkPiece) : State :=
  match unitParams s u with
  | none => s
  | some q =>
    if 2 ≤ checkMode s u then s
    else
      let s1 := if e.first then openMsg s u q else s
      if ! runOpen s1 u || (markOf s1 u).ignoring then s1
      else
        let s2 := snoopBytes s1 u q e.bytes
        if e.last then snoopEnd s2 u q else s2

/-- SNOOPED_MESSAGE (13 R570): the next piece of a unit's stream. -/
def execSnoopedMessage (unit : BitVec 3) (s : State) : Host.Outcome State Fault Refusal :=
  let u := 16 + unit.toNat
  match (markOf s u).pieces with
  | [] => .next s
  | e :: r => .next (snoopPiece (setMark s u { markOf s u with pieces := r }) u e)

/-- The copy that a RING attachment watches is saved, and its timer holds (13 R571). -/
def stallHeld (s : State) (u : Nat) : Bool :=
  let a := (rd s (Reg.markAttach u)).toNat
  bitsN a 2 0 = 2 && s.sched.copyWait.any (fun o =>
    o.saved.isSome && o.kind = .copy && o.org.part = markOwner s u && o.org.ring = bitsN a 18 9)

/-- MARK_STALL (13 R571). -/
def execMarkStall (unit : BitVec 3) (s : State) : Host.Outcome State Fault Refusal :=
  let u := 16 + unit.toNat
  let m := markOf s u
  match unitParams s u with
  | none => .next s
  | some q =>
    if runOpen s u && m.pieces.isEmpty && ! stallHeld s u && due s m.byteAt (rdF s Reg.markCfg 13 0 * 1000) then
      let s1 := markEvent s u 3 Cond.burstStall
        (markDetail s u (crcResult q (runCrc s u)) 0 (m.alive.getD 0) (runLast s u))
      .next (setMark (dropMsg s1 u q) u { markOf (dropMsg s1 u q) u with ignoring := true })
    else .next s

/-! Registers (13 R569, R573, R575). -/

/-- The partition reaches a unit's register: through the physical function, or as the unit's owner (13, Registers; 18 R705). -/
def markReach (s : State) (p u : Nat) : Bool :=
  u < 24 && (p = 0 || markOwner s u = p)

/-- MARK_RUN (13 R573). -/
def execMarkRun (p : Part) (unit : BitVec 5) (value : Word) (s : State) : Host.Outcome State Fault Refusal :=
  if s.sec.recovery then .next (hostTouch s) else
  let s := hostTouch s
  let u := unit.toNat
  if ! markReach s p.toNat u then .next s
  else if (u < 16 && (markOf s u).queue.isEmpty) || (16 ≤ u && rdF s (Reg.markCtl u) 0 0 = 0) then
    .next (wr s (Reg.markRun u) (BitVec.ofNat 64 (wbits value 49 0)))
  else .next (wrF s (Reg.markUnitStatus u) 10 10 1)

/-- An attachment keeps the rules of its kind (13 R569, 14 R590). -/
def attachOk (s : State) (u a : Nat) : Bool :=
  match bitsN a 2 0 with
  | 0 => true
  | 1 => markOwner s u = 0 && bitsN a 7 5 < 4
  | 2 => (mget s.host.rings (rkey (markOwner s u) (bitsN a 18 9))).isSome
  | 3 => markOwner s u = 0
  | 4 => markOwner s u = 0
  | _ => false

/-- MARK_ATTACH (13 R569, R577): reserved for write-fed units, and ignored while ENABLE is 1. -/
def execMarkAttach (unit : BitVec 5) (value : Word32) (s : State) : Host.Outcome State Fault Refusal :=
  if s.sec.recovery then .next (hostTouch s) else
  let s := hostTouch s
  let u := unit.toNat
  let a := value.toNat % 2 ^ 24
  if u < 16 || 24 ≤ u || rdF s (Reg.markCtl u) 0 0 = 1 then .next s
  else if attachOk s u a then .next (wr s (Reg.markAttach u) (BitVec.ofNat 64 a))
  else .next (wrF (wr s (Reg.markAttach u) (BitVec.ofNat 64 (a - a % 8))) (Reg.markUnitStatus u) 9 9 1)

/-- MARK_GRANT (13 R575): the page of a write-fed unit lies in a PRIVATE claim of its owner. -/
def execMarkGrant (unit : BitVec 5) (value : Word32) (s : State) : Host.Outcome State Fault Refusal :=
  if s.sec.recovery then .next (hostTouch s) else
  let s := hostTouch s
  let u := unit.toNat
  let v := value.toNat % 2 ^ 31
  if 24 ≤ u then .next s
  else if 16 ≤ u then .next (wr s (Reg.markGrant u) (BitVec.ofNat 64 (v % 32)))
  else
    let c := claimOf s (bitsN v 30 6 * 4096 / 2 ^ 30)
    if c.kind = .priv && c.owner = v % 32 then .next (wr s (Reg.markGrant u) (BitVec.ofNat 64 v))
    else .next (wrF s (Reg.markUnitStatus u) 9 9 1)

end Sys2Proof.Machine
end

