-- ==== Sys2Proof/Machine/MemCmds.lean ====
section
/-! DEFINITION. The commands of the memory system that touch no core: sector reads and writes, decodes, the patrol, the
check-bit test mode, FILLING, invalidation and frame retirement (08 R306 to R331; 09 R352 to R385). -/
namespace Sys2Proof.Machine

/-- A register written from a number. -/
def wrN (s : State) (key n : Nat) : State :=
  wr s key (BitVec.ofNat 64 n)

/-! Sector reads of the miss registers (09 R352, R353). -/

/-- A miss register wants the sector and has not read it (08 R330). -/
def wanted (s : State) (sector : Nat) : Bool :=
  (mgetD s.mem.miss (homeSlice (sector * 64)) []).any (fun m =>
    m.line = sector / 2 && lget m.want (sector % 2) false) && (mget s.mem.filled sector).isNone

/-- The sector waits for a decode of its page that is in progress (09 R352). -/
def decoding (s : State) (sector : Nat) : Bool :=
  s.mem.slowQ.any (fun q => q.page = sector / 32 && q.sectors.contains (sector % 32))

/-- A sector joins the decode of its page, or starts one (09 R352). -/
def joinSlow (s : State) (sector : Nat) : State :=
  if s.mem.slowQ.any (fun q => q.page = sector / 32) then
    setMem s { s.mem with slowQ := s.mem.slowQ.map (fun q =>
      if q.page = sector / 32 then { q with sectors := q.sectors ++ [sector % 32] } else q) }
  else setMem s { s.mem with slowQ := s.mem.slowQ ++ [{ page := sector / 32, sectors := [sector % 32] }] }

/-- What a sector read gave reaches its miss register. -/
def deliverSector (s : State) (sector : Nat) (d : SectorData) : State :=
  if wanted s sector then setMem s { s.mem with filled := mset s.mem.filled sector d } else s

/-- FAST_PATH_READ (09 R352): a wanted sector is delivered when its check matches, and takes the slow path otherwise; `upset`
are errors that strike the stored page before the read. -/
def execFastPathRead (sector : BitVec 31) (upset : List (Nat × Byte)) (s : State) : Host.Outcome State Fault Refusal :=
  let k := sector.toNat
  if wanted s k && ! decoding s k then
    let s1 := applyUpset s (physPage s (k / 32)) upset
    if sectorMatches s1 (k * 64) then
      .next (deliverSector s1 k (.bytes (rawSector s1 (physPage s1 (k / 32)) (k % 32))))
    else .next (joinSlow s1 k)
  else .next s

/-- SLOW_PATH_DECODE (09 R353): the decode in progress of a page ends and serves every sector that waits for it. -/
def execSlowPathDecode (page : BitVec 26) (upset : List (Nat × Byte)) (s : State) : Host.Outcome State Fault Refusal :=
  match s.mem.slowQ.find? (fun q => q.page = page.toNat) with
  | none => .next s
  | some q =>
    let s0 := applyUpset s (physPage s q.page) upset
    let s1 := setMem s0 { s0.mem with slowQ := s0.mem.slowQ.filter (fun x => x.page != q.page) }
    let (s2, l) := slowDecode s1 q.page q.sectors
    .next (l.foldl (fun s e => deliverSector s (q.page * 32 + e.1) e.2) s2)

/-! Eviction buffers (08 R331). -/

/-- SECTOR_WRITE (09 R358): the dirty sector `half` of entry `i` of a slice's eviction buffer is written to DRAM. -/
def execSectorWrite (slice : BitVec 5) (i : Nat) (half : Bool) (s : State) : Host.Outcome State Fault Refusal :=
  let h := b2n half
  match (evOf s slice.toNat)[i]? with
  | none => .next s
  | some e =>
    if lget e.line.dirty h false then
      let s1 := writeSector s (e.line.addr * 128 + 64 * h) (Sys2Proof.slice e.line.bytes (64 * h) 64) false
      .next (setEv s1 slice.toNat (lupd (evOf s1 slice.toNat) i (fun e =>
        { line := { e.line with dirty := lset e.line.dirty h false }, issued := true })))
    else .next s

/-- EVICTION_WRITE_COMPLETE (08 R331): an entry whose dirty sectors are all written is freed. -/
def execEvictionWriteComplete (slice : BitVec 5) (i : Nat) (s : State) : Host.Outcome State Fault Refusal :=
  match (evOf s slice.toNat)[i]? with
  | none => .next s
  | some e =>
    if e.issued && ! e.line.dirty.any id then .next (setEv s slice.toNat ((evOf s slice.toNat).eraseIdx i)) else .next s

/-! Invalidation (08 R324). -/

/-- The range holds a virtual frame; COUNT 0 holds every one (08 R324). -/
def inRange (r : InvalRange) (vf : Nat) : Bool :=
  r.count = 0 || (r.vframe ≤ vf && vf < r.vframe + r.count)

/-- MEM_XLATE_INVAL (08 R324): a range is added to the partition's pending work, and BUSY reads 1. -/
def execMemXlateInval (p : Part) (value : Word) (s : State) : Host.Outcome State Fault Refusal :=
  if s.sec.recovery then .next (hostTouch s) else
  let s := hostTouch s
  let r : InvalRange := { vframe := wbits value 47 21, count := wbits value 15 0 }
  .next (wrN (setMem s { s.mem with inval := mset s.mem.inval p.toNat (mgetD s.mem.inval p.toNat [] ++ [r]) })
    (pkey p.toNat Reg.memXlateStatus) 1)

/-- An access of partition `p` that an old entry of a pending range translated has not completed (08 R324). -/
def oldAccess (s : State) (p : Nat) : Bool :=
  let l := mgetD s.mem.inval p []
  let old := fun (w : Waiter) => tablePart w.table = p && l.any (fun r => inRange r (w.va / 2 ^ 21))
  s.mem.miss.any (fun e => e.2.any (fun m => m.waiters.any old)) || s.mem.input.any (fun e => e.2.any old)

/-- INVALIDATION_COMPLETE (08 R324): once every access translated with an old entry has completed, no translation cache holds
an entry of the pending ranges and BUSY reads 0. -/
def execInvalidationComplete (p : Part) (s : State) : Host.Outcome State Fault Refusal :=
  let n := p.toNat
  let l := mgetD s.mem.inval n []
  if l = [] || oldAccess s n then .next s
  else .next (wrN (setMem s { s.mem with
      xsets := mmap s.mem.xsets (fun _ es => es.filter (fun e =>
        ! (tablePart e.table = n && l.any (fun r => inRange r e.vframe)))),
      inval := mdel s.mem.inval n }) (pkey n Reg.memXlateStatus) 0)

/-! The patrol (09 R363). -/

/-- The memory page that a physical page holds: of the logical frame mapped to its frame; a page of a spare frame has none, and is
scrubbed as a strength 3 page at its physical place (09 R362, log 27). -/
def patrolTarget (s : State) (pp : Nat) : Option Nat :=
  match s.mem.remap.find? (fun e => e.2 = pp / 1024) with
  | some e => some (e.1 * 1024 + pp % 1024)
  | none => if pp / 1024 < 48896 && (mget s.mem.remap (pp / 1024)).isNone then some pp else none

/-- A full decode of a physical page that holds no memory page, at strength 3. -/
def patrolSpare (s : State) (pp : Nat) : State :=
  let s1 := bump64 s Reg.errDramSlowCount Reg.errStatus 3 1
  let (s2, r) := decodeFull s1 pp (pp * 2048) (tOf 3) (List.range 32) true
  if r.symbols = 0 then s2 else bump64 s2 Reg.errDramSymCount Reg.errStatus 4 r.symbols

/-- The next page of the patrol. -/
def patrolNext (s : State) : State :=
  let n := s.mem.patrolPage + 1
  setMem s { s.mem with patrolPage := if n < 49152 * 1024 then n else 0 }

/-- PATROL_SCRUB (09 R363): the next page of the round is decoded in full and repaired; a round starts once in PATROL_HOURS, and
PATROL_HOURS 0 stops the patrol. -/
def execPatrolScrub (upset : List (Nat × Byte)) (s : State) : Host.Outcome State Fault Refusal :=
  let hours := rdF s Reg.errCfg 7 0
  let pp := s.mem.patrolPage
  if hours = 0 || (pp = 0 && s.mem.patrolTime ≠ 0 && ! due s s.mem.patrolTime (hours * 3600000000000)) then .next s
  else
    let s0 := if pp = 0 then setMem s { s.mem with patrolTime := s.dtime } else s
    let s1 := applyUpset s0 pp upset
    match patrolTarget s1 pp with
    | some m => .next (patrolNext (scrubPage s1 (m * 2048) true).1)
    | none => .next (patrolNext (patrolSpare s1 pp))

/-! The check-bit test mode (09 R367, R368). -/

/-- The page that ERR_TEST_ADDR names. -/
def testPage (s : State) : Nat :=
  rdF s Reg.errTestAddr 36 11

/-- The test operations may act on the page (09 R367). -/
def testAllowed (s : State) : Bool :=
  rdF s Reg.errCfg 9 9 = 1 && ownsClaim s 0 (testPage s * 2048 / 2 ^ 30) &&
    (List.range 16).all (fun i => match findWay s (testPage s * 16 + i) with
      | some w => ((wayLine s (setIdx (testPage s * 16 + i)) w).map (fun l => l.lock.isNone)).getD true
      | none => true)

/-- The bytes of ERR_TEST_BUF (09 R385). -/
def testBuf (s : State) : List Byte :=
  (List.range 576).flatMap (fun i => leBytes 4 (rdF s (Reg.errTestBuf i) 31 0))

/-- The buffer with bytes placed from register `i` on. -/
def setBuf (s : State) (i : Nat) (bs : List Byte) : State :=
  (List.range (bs.length / 4)).foldl (fun s j => wrN s (Reg.errTestBuf (i + j)) (fieldAt bs (4 * j) 4)) s

/-- The page's 16 lines are written back and invalidated (09 R367). -/
def flushPage (s : State) (page : Nat) : State :=
  (List.range 16).foldl (fun s i => flushLine s (page * 16 + i)) s

/-- The 256 sideband bytes stored with a physical page, `mem` its memory address and `st` its strength (09 R347, R348). -/
def rawSideband (s : State) (pp mem st : Nat) : List Byte :=
  let d := devOf s pp
  let data := (List.range 2048).map (fun i => rawByte s pp i ^^^ mgetD d.err i 0)
  let checks := (trueChecks data mem).zip (List.range 32) |>.map (fun e => Nat.xor e.1 (mgetD d.chk e.2 0).toNat)
  (sideband st data checks).zip (List.range 256) |>.map (fun e => e.1 ^^^ mgetD d.err (2048 + e.2) 0)

/-- READ_RAW: data and sideband into the buffer, without check or decode. -/
def readRawOp (s : State) : State :=
  let page := testPage s
  let s1 := flushPage s page
  let pp := physPage s1 page
  setBuf (setBuf s1 0 (rawPage s1 pp)) 512 (rawSideband s1 pp (page * 2048) (strengthOf s1 (page * 2048)))

/-- A page stored outright: its data, and how it differs from the nearest codeword (09 R347, R353). -/
def storePage (s : State) (pp mem st : Nat) (data side : List Byte) : State :=
  let s1 := putBytes s pp 0 data
  let stored := (List.range 32).map (fun k => fieldAt side (192 + 2 * k) 2)
  let ref := sideband st data stored
  let e0 : Map Byte := (List.range 256).foldl (fun m i => msetD m (2048 + i) (lget side i 0 ^^^ lget ref i 0) 0) []
  let e := match nearest (tOf st) (e0.filter (fun x => (symbolOf (tOf st) x.1).isSome)) with
    | some pat => xorErr (e0.filter (fun x => (symbolOf (tOf st) x.1).isNone)) pat
    | none => e0
  let code := (data.zip (List.range 2048)).map (fun x => x.1 ^^^ mgetD e x.2 0)
  let chk := (List.range 32).foldl (fun m k =>
    let c := Nat.xor (lget stored k 0) ((mgetD e (2240 + 2 * k) 0).toNat + 256 * (mgetD e (2241 + 2 * k) 0).toNat)
    msetD m k (BitVec.ofNat 16 (Nat.xor c (sectorCheck (Sys2Proof.slice code (64 * k) 64) (mem + 64 * k)))) 0) []
  setDev s1 pp { err := e, chk := chk }

/-- WRITE_RAW: the buffer is stored unchanged. -/
def writeRawOp (s : State) : State :=
  let page := testPage s
  let s1 := flushPage s page
  storePage s1 (physPage s1 page) (page * 2048) (strengthOf s1 (page * 2048)) ((testBuf s1).take 2048) ((testBuf s1).drop 2048)

/-- ENCODE: checks and parity of the buffer's data at ERR_TEST_CTL.STRENGTH for the page's address. -/
def encodeOp (s : State) : State :=
  let data := (testBuf s).take 2048
  setBuf s 512 (sideband (rdF s Reg.errTestCtl 3 2) data (trueChecks data (testPage s * 2048)))

/-- A write of ERR_TEST_CTL with GO for operation `op` (09 R367, R368, R385): the fields are written; the operation runs and GO
clears, or REFUSED is set. -/
def testOp (s : State) (value : Word32) (op : Nat) (f : State → State) : State :=
  let v := value.toNat
  if bitsN v 1 0 = op && bitN v 4 then
    let s1 := wrF s Reg.errTestCtl 3 0 (bitsN v 3 0)
    if testAllowed s1 then f (wrF s1 Reg.errTestCtl 6 6 0) else wrF s1 Reg.errTestCtl 6 6 1
  else s

/-- READ_RAW (09 R368). -/
def execReadRaw (value : Word32) (s : State) : Host.Outcome State Fault Refusal :=
  if s.sec.recovery then .next (hostTouch s) else
  let s := hostTouch s
  .next (testOp s value 1 readRawOp)
/-- WRITE_RAW (09 R368). -/
def execWriteRaw (value : Word32) (s : State) : Host.Outcome State Fault Refusal :=
  if s.sec.recovery then .next (hostTouch s) else
  let s := hostTouch s
  .next (testOp s value 2 writeRawOp)
/-- ENCODE (09 R368). -/
def execEncode (value : Word32) (s : State) : Host.Outcome State Fault Refusal :=
  if s.sec.recovery then .next (hostTouch s) else
  let s := hostTouch s
  .next (testOp s value 3 encodeOp)

/-! Frame retirement (09 R371 to R373). -/

/-- THRESHOLD_WINDOW (09 R371): at the end of a window every count restarts at 0. -/
def execThresholdWindow (s : State) : Host.Outcome State Fault Refusal :=
  if due s s.mem.windowStart (rdF s Reg.errThresh 39 28 * 60000000000) then
    .next { setMem s { s.mem with frameSyms := [], coreErrs := [], recorded := [], windowStart := s.dtime } with
      site := { s.site with sram := [] } }
  else .next s

/-- ERR_FRAME_RETIRE (09 R371, R384): host software retires a frame, reason 4; a write above 48,895 is ignored. -/
def execErrFrameRetire (value : Word32) (s : State) : Host.Outcome State Fault Refusal :=
  if s.sec.recovery then .next (hostTouch s) else
  let s := hostTouch s
  if bitsN value.toNat 15 0 ≤ 48895 then .next (triggerFrame s (bitsN value.toNat 15 0) 4) else .next s

/-- The retirement at the head of the queue takes its spare frame (09 R372, R373): the lowest free frame of the pool. A queue head
that finds the pool empty retires nothing. -/
def beginRetire (s : State) (r : Retire) (rest : List Retire) : State :=
  match s.mem.pool with
  | [] => spareExhausted (setMem s { s.mem with retireQ := rest }) r.frame r.reason
  | q :: pool =>
    let s1 := setMem s { s.mem with pool := pool, retireQ := { r with toFrame := some q, page := 0 } :: rest }
    if pool.length = 16 then wrF s1 Reg.errStatus 2 2 1 else s1

/-- FRAME_RETIREMENT (09 R372 step 1). -/
def execFrameRetirement (s : State) : Host.Outcome State Fault Refusal :=
  match s.mem.retireQ with
  | [] => .next s
  | r :: rest => if r.toFrame.isSome then .next s else .next (beginRetire s r rest)

/-- Copies memory page `m` from its physical page to `pq` (09 R372 step 2): read and decoded in full, encoded afresh; a sector whose
content no longer exists is written as lost. A page that cannot be decoded keeps the sectors that match their check
(09 R359, R360, log 28). -/
def copyPage (s : State) (m pq : Nat) : State :=
  let pp := physPage s m
  let t := tOf (strengthOf s (m * 2048))
  let s1 := bump64 s Reg.errDramSlowCount Reg.errStatus 3 1
  let (s2, r) := decodeFull s1 pp (m * 2048) t (List.range 32) true
  let s3 := if r.symbols = 0 then s2 else countSymbols s2 m t r.symbols
  let lost := if r.failed then (List.range 32).filter (fun k => ! sectorMatches s3 (m * 2048 + 64 * k))
    else (r.sectors.filter (fun e => ! isBytes e.2)).map (fun e => e.1)
  let s4 := match firstLost r.sectors with
    | none => s3
    | some (k, o) => uncorrNote s3 (m * 2048 + 64 * k) o
  encodeFresh (putBytes (countLost s4 lost.length) pq 0 (rawPage s4 pp)) pq (lost.map (fun k => (k, 0xFFFF)))

/-- Step 3 of a retirement (09 R372): the remap changes, and a FRAME_RETIRED record is written. -/
def endRetire (s : State) (r : Retire) (q : Nat) (rest : List Retire) : State :=
  let detail := frameDetail s r.frame q r.reason
  let s1 := addRepair (setMem s { s.mem with
    remap := mset s.mem.remap r.frame q, retireQ := rest, retired := mset s.mem.retired r.frame true }) 2 (mgetD s.mem.remap r.frame r.frame)
  appendRec (bump32 s1 Reg.errFrameRetireCount Reg.errStatus 9 1)
    (plainRec s Cond.frameRetired Engine.gantry 0 flagInfo (r.frame * 2 ^ 21) detail)

/-- RETIREMENT_PAGE_COPY (09 R372 steps 2 and 3): the next page of the retirement in progress. -/
def execRetirementPageCopy (s : State) : Host.Outcome State Fault Refusal :=
  match s.mem.retireQ with
  | [] => .next s
  | r :: _ =>
    match r.toFrame with
    | none => .next s
    | some q =>
      let s1 := copyPage s (r.frame * 1024 + r.page) (q * 1024 + r.page)
      let rest := s1.mem.retireQ.tail
      let s2 := setMem s1 { s1.mem with retireQ := { r with page := r.page + 1 } :: rest }
      if r.page < 1023 then .next s2 else .next (endRetire s2 r q rest)

end Sys2Proof.Machine
end

