-- ==== Sys2Proof/Machine/Registers.lean ====
section
/-! DEFINITION. REGISTER_WRITE (00 R6 to R11, 18 R701 to R714): where a write lands, how each field takes it, and what follows
from it. A field whose write is a row of its own is left as it is here. -/
namespace Sys2Proof.Machine

/-! Where an access lands (18 R701 to R705). -/

/-- The register of a set-up page at an offset, copies followed to the register they stand for; none where the partition does not
own the head, stream or unit (18 R704, R705). -/
def pageKey (s : State) (p off : Nat) : Option Nat :=
  if 0x400 ≤ off && off < 0x480 then
    if headOwner s ((off - 0x400) / 0x40) = p then some (pkey p off) else none
  else if 0x1000 ≤ off && off < 0x1100 then
    if sOwner s ((off - 0x1000) / 16) = p then some (pkey p off) else none
  else if 0x2000 ≤ off && off < 0x2600 then
    if 0x18 ≤ (off - 0x2000) % 0x40 && markOwner s ((off - 0x2000) / 0x40) = p then some (0x1A0100 + (off - 0x2000)) else none
  else some (pkey p off)

/-- In recovery the physical function's BAR0 serves six registers of the FW block (16 R659). -/
def servedInRecovery (off : Nat) : Bool :=
  [0x1F0000, 0x1F0004, 0x1F0008, 0x1F000C, 0x1F0018, 0x1F001C, 0x1F0020, 0x1F0024, 0x1F0028, 0x1F002C, 0x1F0030, 0x1F0034].contains off

/-- The register that an offset of function `f`'s BAR0 names, if any (18 R701, R703). -/
def barKey (s : State) (f off : Nat) : Option Nat :=
  if s.sec.recovery && ! (f = 0 && servedInRecovery off) then none
  else if off < 0x10000 then pageKey s f off
  else if f = 0 && 0x100000 ≤ off && off < 0x200000 then some off
  else none

/-! Fields (00 R6, R8; 18 R713, R714). -/

/-- The field's new bits lie in its range. -/
def holdsRange (f : FieldDesc) (x : Nat) : Bool :=
  f.mn ≤ x && x ≤ f.mx

/-- The set-up lock that freezes a register's RWL fields is set (18 R713): its own, or ERR_CFG's for ERR_THRESH. -/
def lockSet (s : State) (k : Nat) (d : RegDesc) : Bool :=
  if k = Reg.errThresh then rdF s Reg.errCfg 31 31 = 1
  else d.lock ≠ 0 && rdF s k d.lock d.lock = 1

/-- One field takes its bits of the data by its access type; `locked` and `frozen` fields keep theirs. -/
def putField (data : Word) (locked : Bool) (frozen : FieldDesc → Bool) (v : Word) (f : FieldDesc) : Word :=
  let x := wbits data f.hi f.lo
  match f.ty with
  | .ro => v
  | .own => v
  | .rw => if frozen f || ! holdsRange f x then v else wput v f.hi f.lo x
  | .rwl => if locked || frozen f || ! holdsRange f x then v else wput v f.hi f.lo x
  | .w1c => wput v f.hi f.lo (BitVec.ofNat 64 (wbits v f.hi f.lo) &&& ~~~ BitVec.ofNat 64 x).toNat
  | .w1s => wput v f.hi f.lo (BitVec.ofNat 64 (wbits v f.hi f.lo) ||| BitVec.ofNat 64 x).toNat

/-- A register's value after a write of `data`. -/
def putFields (d : RegDesc) (data : Word) (locked : Bool) (frozen : FieldDesc → Bool) (v : Word) : Word :=
  d.fields.foldl (putField data locked frozen) v

/-! Rules of single registers. -/

/-- Element `i` of an array of registers. -/
def regIndex (base stride n k : Nat) : Option Nat :=
  if base ≤ k && (k - base) % stride = 0 && (k - base) / stride < n then some ((k - base) / stride) else none

/-- A head's ENABLE bit as software last set it (07 R290). -/
def headOn (s : State) (h : Nat) : Bool :=
  rdF s (Reg.dressHeadCtl h) 0 0 = 1

/-- A head that is enabled with DSI holds its port's configuration (07 R289). -/
def dsiHeld (s : State) (h : Nat) : Bool :=
  headOn s h && headOutput s h = 1

/-- A field of the register at `k` ignores the write, beside its range and its lock (07 R289, R290, R294; 13, Registers). -/
def frozenField (s : State) (k : Nat) (data : Word) (f : FieldDesc) : Bool :=
  let x := wbits data f.hi f.lo
  if k = Reg.dressEdpCfg then f.lo = 3 && ! (x = 1 || x = 2 || x = 4)
  else match regIndex 0x140100 0x100 2 k, regIndex 0x140104 0x100 2 k, regIndex 0x140108 0x100 2 k, regIndex 0x140110 0x100 2 k with
    | some h, _, _, _ =>
      if f.lo = 5 then ! (1 ≤ x && x + 1 ≤ vActive s h)
      else (f.lo = 1 || f.lo = 3) && headOn s h
    | _, some h, _, _ => headOn s h
    | _, _, some h, _ => headOn s h
    | _, _, _, some h => headOn s h
    | _, _, _, _ =>
      match regIndex 0x140400 0x100 2 k, regIndex 0x1A0104 0x40 24 k, regIndex 0x1A0108 0x40 24 k, regIndex 0x1A0110 0x40 24 k with
      | some i, _, _, _ => dsiHeld s i
      | _, some u, _, _ =>
        f.lo ≠ 0 && (rdF s (Reg.markCtl u) 0 0 = 1 || (u < 16 && 14 ≤ f.lo))
      | _, _, some u, _ => rdF s (Reg.markCtl u) 0 0 = 1
      | _, _, _, some u => rdF s (Reg.markCtl u) 0 0 = 1
      | _, _, _, _ => false

/-- A LINK_ROUTE field names a port or no route (14 R606). -/
def routeOk (data : Word) : Bool :=
  (List.range 8).all (fun i => wbits data (4 * i + 3) (4 * i) < 4 || wbits data (4 * i + 3) (4 * i) = 15)

/-- A WB_STREAM value may stand (15 R639). -/
def streamOk (data : Word) : Bool :=
  let n := wbits data 29 22
  16 ≤ n && n ≤ 64 && n % 4 = 0 && 50 ≤ wbits data 50 35 && ! (wbits data 2 1 < 2 && 3 < wbits data 9 3)

/-- A context of partition `p` holds a slot, or has saved work (12 R506). -/
def saveBusy (s : State) (p : Nat) : Bool :=
  saveUsed s p ≠ 0 || s.host.ctxs.any (fun c => c.1 / 65536 = p && c.2.slot.isSome)

/-- The write is ignored as a whole (18 R714; 12 R506; 14 R606; 15 R639). -/
def voidWrite (s : State) (k : Nat) (d : RegDesc) (data : Word) : Bool :=
  if k = Reg.linkRoute then ! routeOk data
  else match regIndex 0x1E0100 8 16 k with
    | some i => ! streamOk data || (sOn s i && wbits data 0 0 = 1)
    | none =>
      if 67108864 ≤ k && k % 67108864 = Reg.schedSave then saveBusy s (k / 67108864 - 1)
      else d.whole && d.fields.any (fun f => ! (f.ty = .rwl && lockSet s k d) && ! holdsRange f (wbits data f.hi f.lo))

/-! What follows from a write. -/

/-- LINK_PORT_CTL (14 R587, R607): a port whose ENABLE becomes 1, or that is DOWN when 1 is written, trains, and so does one whose
RETRAIN is written (log 56); a port whose ENABLE is 0 is DOWN. -/
def afterPortCtl (s : State) (p : Nat) (was : Bool) (data : Word) : State :=
  if rdF s (Reg.linkPortCtl p) 0 0 = 0 then dropPort (wrF s (Reg.linkPortCtl p) 1 1 0) p
  else if ! was || wbits data 1 1 = 1 || portState s p = portDownCode then setPort s p { portOf s p with want := true }
  else s

/-- WB_GPIO (15 R632, R638): software's levels are driven on the output pins, and levels that classes drive are released. -/
def afterGpio (s : State) : State :=
  (List.range 8).foldl (fun s i =>
      if bitN (rdF s Reg.wbGpio 7 0) i then emit s (.pin (pinGpio i) (bitN (rdF s Reg.wbGpio 15 8) i)) else s)
    (setWb s { s.wb with forced := [] })

/-- PWR_CFG (15 R621, R624): the report timer starts with COOLANT_EN, and the limits apply at once. -/
def afterPwrCfg (s : State) (was : Bool) : State :=
  judgePower (if ! was && coolantOn s then setPower s { s.power with coolAt := s.dtime, coolGood := none } else s)

/-- What a write of the register at `k` brings with it; `s0` is the state before it. -/
def afterWrite (s0 s : State) (k : Nat) (data : Word) : State :=
  if k = Reg.wbGpio then afterGpio s
  else if k = Reg.wbCfg then wrF s Reg.wbStatus 8 8 0
  else if k = Reg.pwrCfg then afterPwrCfg s (coolantOn s0)
  else if k = Reg.fwHaul then (if wbits data 0 0 = 0 then haulOff s else s)
  else if 67108864 ≤ k && k % 67108864 = Reg.schedSave then settle s
  else match regIndex 0x1C0100 8 4 k with
    | some p => afterPortCtl s p (rdF s0 (Reg.linkPortCtl p) 0 0 = 1) data
    | none => s

/-! The write. -/

/-- One access writes the whole register at `k`. -/
def storeReg (s : State) (k : Nat) (d : RegDesc) (data : Word) : State :=
  if voidWrite s k d data then s
  else afterWrite s (wr s k (putFields d data (lockSet s k d) (frozenField s k data) (rd s k))) k data

/-- A 32-bit write at an offset (00 R10, R11): every 64-bit register that software can write asks for one access, and ignores it. -/
def write32 (s : State) (f off : Nat) (data : Word) : State :=
  match barKey s f off with
  | none => s
  | some k => match regAt k with
    | some d => if d.width = 32 then storeReg s k d (data &&& 0xFFFFFFFF) else s
    | none => s

/-- A 64-bit register lies at an offset. -/
def reg64 (s : State) (f off : Nat) : Option (Nat × RegDesc) :=
  match barKey s f off with
  | none => none
  | some k => match regAt k with
    | some d => if d.width = 64 then some (k, d) else none
    | none => none

/-! The MSI-X table and WB_MBOX (18 R701, R702, R711). -/

/-- 32 bits of an MSI-X table entry: address, data, or the mask bit. -/
def writeMsix (s : State) (f off : Nat) (data : Word) : State :=
  let i := (off - 0x20000) / 16
  let e := msixGet s f i
  if msixSize s f ≤ i || s.sec.recovery then s
  else match (off % 16) / 4 with
    | 0 => msixPut s f i { e with addr := wput e.addr 31 0 (wbits data 31 2 * 4) }
    | 1 => msixPut s f i { e with addr := wput e.addr 63 32 (wbits data 31 0) }
    | 2 => msixPut s f i { e with data := BitVec.ofNat 32 (wbits data 31 0) }
    | _ => releaseMsix (msixPut s f i { e with masked := wbits data 0 0 = 1 }) f i

/-- Bytes of the mailbox, which A0 and A1 reach (15 R640). -/
def writeMbox (s : State) (off n : Nat) (data : Word) : State :=
  if 2 ≤ pwrState s || s.sec.recovery then s
  else setWb s { s.wb with
    mbox := foldN n (fun i m => msetD m (off - 0x1E4000 + i) (BitVec.ofNat 8 (wbits data (8 * i + 7) (8 * i))) 0) s.wb.mbox }

/-- 32 bits at an offset that is not in the mailbox. -/
def writeHalf (s : State) (f off : Nat) (data : Word) : State :=
  if 0x20000 ≤ off && off < 0x28000 then writeMsix s f off data else write32 s f off data

/-- The bytes of an access. -/
def sizeBytes (z : BarSize) : Nat :=
  match z with
  | .b1 => 1
  | .b2 => 2
  | .b4 => 4
  | .b8 => 8

/-- A write to function `f`'s BAR0 (00 R10): a 64-bit access to no 64-bit register is two 32-bit ones, the lower first. -/
def barWrite (s : State) (f off n : Nat) (data : Word) : State :=
  if ! accessOk f off n then s
  else if inMbox f off then writeMbox s off n data
  else if n = 8 then
    match reg64 s f off with
    | some (k, d) => storeReg s k d data
    | none => writeHalf (writeHalf s f off (data &&& 0xFFFFFFFF)) f (off + 4) (data >>> 32)
  else writeHalf s f off data

/-! Configuration space (10 R388, R391, R396 to R398). -/

/-- A bit of a per-function field. -/
def putBit (v : BitVec 32) (f x : Nat) : BitVec 32 :=
  if x % 2 = 1 then v ||| BitVec.ofNat 32 (2 ^ f) else v &&& ~~~ BitVec.ofNat 32 (2 ^ f)

def setPcie (s : State) (x : PcieSt) : State :=
  { s with host := { s.host with pcie := x } }

/-- The pending messages of a function that are masked no longer (10 R398). -/
def releaseAll (s : State) (f : Nat) : State :=
  (List.range (msixSize s f)).foldl (fun s i => releaseMsix s f i) s

/-- A write of a configuration field (10 R388, R391, R396 to R399); VF Enable stays clear in recovery (16 R659), and NumVFs holds while
it is set (log 55). -/
def cfgWrite (s : State) (f : Nat) (c : CfgField) (x : Nat) : State :=
  let q := s.host.pcie
  match c with
  | .vfEnable =>
    if f ≠ 0 then s
    else if x % 2 = 1 then (if s.sec.recovery then s else setPcie s { q with vfEnable := true })
    else if q.vfEnable then settle (clearVfs s) else s
  | .numVfs => if f = 0 && ! q.vfEnable && x ≤ 31 then setPcie s { q with numVfs := x } else s
  | .msixEnable => releaseAll (setPcie s { q with msixEnable := putBit q.msixEnable f x }) f
  | .functionMask => releaseAll (setPcie s { q with funcMask := putBit q.funcMask f x }) f
  | .relaxedOrdering => setPcie s { q with relaxed := putBit q.relaxed f x }
  | .completionTimeout => if f = 0 then setPcie s { q with cto := x % 16 } else s

/-- REGISTER_WRITE (00 R6). -/
def execRegisterWrite (t : RegTarget) (s : State) : Host.Outcome State Fault Refusal :=
  let s := hostTouch s
  match t with
  | .bar fn off size data => .next (barWrite s fn.toNat off.toNat (sizeBytes size) data)
  | .cfg fn field value => .next (cfgWrite s fn.toNat field value)

end Sys2Proof.Machine
end

