-- ==== Sys2Proof/Machine/SchedCmds.lean ====
section
/-! DEFINITION. The Gantry's decisions about engines and context slots: placement, victims and time slices (12 R507, R509), slot
eviction and rotation (R502, R503), and virtual time with the charges of R508 and R543. -/
namespace Sys2Proof.Machine

/-! Work that waits for an engine, and work that an engine holds. -/

/-- A unit of work: its context, the identifier that a preemption names, and since when it is ready or placed. -/
structure WorkAt where
  ctx : Nat
  wid : Nat
  at_ : Nat
  deriving DecidableEq, Repr

/-- The unit of an operation, a run or a pass. -/
def opAt (o : Origin) (t : Nat) : WorkAt :=
  { ctx := o.ctx, wid := o.wid, at_ := t }

/-- A tile of a pass on core `n` has fragments that no group has taken. -/
def fragsLeft (s : State) (n : Nat) (id : Nat) (p : RPass) : Bool :=
  (coreOf s n).tiles.any (fun t => t.pass = id && t.pos < (tileQuads s p t.tile).length)

/-- Ready work that engine `e` could take if it had room (12 R507). -/
def waiting (s : State) (e : Nat) : List WorkAt :=
  let n := e % 256
  match e / 256 with
  | 0 =>
    (s.core.jobs.filter (fun j => (j.2.next < j.2.total || ! j.2.saved.isEmpty) && jobMay s n j.1 j.2)).map
      (fun j => opAt j.2.org j.2.readyAt) ++
    (s.raster.passes.filter (fun p => (! p.2.savedTiles.isEmpty && (passCores s p.2).contains n) || fragsLeft s n p.1 p.2)).map
      (fun p => opAt p.2.org p.2.readyAt)
  | 1 =>
    s.core.savedRuns.filterMap (fun r => (itemOf s r.item).bind (fun it =>
      if it.fault.isNone && (r.saved.isSome || ! ranOn s n r.item it) then some { ctx := it.org.ctx, wid := r.item, at_ := it.readyAt } else none))
  | 2 => (s.raster.passes.filter (fun p => unitSaved p.2 n)).map (fun p => opAt p.2.org p.2.readyAt)
  | 4 => s.sched.crushWait.map (fun o => opAt o.org o.readyAt)
  | 5 => s.sched.copyWait.map (fun o => opAt o.org o.readyAt)
  | _ => []

/-- Contexts whose waiting work fits the engine as it stands. -/
def fitting (s : State) (e : Nat) : List Nat :=
  let n := e % 256
  match e / 256 with
  | 0 => (coreWork s n).filterMap (fun w => match w with
      | .newWG id => (jobOf s id).map (fun j => j.org.ctx)
      | .oldWG id _ => (jobOf s id).map (fun j => j.org.ctx)
      | .frags id _ => (passOf s id).map (fun p => p.org.ctx)
      | .oldTile id _ => (passOf s id).map (fun p => p.org.ctx))
  | 1 => (s.core.savedRuns.filter (runFits s n)).filterMap (fun r => (itemOf s r.item).map (fun it => it.org.ctx))
  | 4 => (s.sched.crushWait.filter (crushFits s)).map (fun o => o.org.ctx)
  | 5 => (s.sched.copyWait.filter (copyFits s)).map (fun o => o.org.ctx)
  | _ => (waiting s e).map (fun w => w.ctx)

/-- What engine `e` holds, with the DTIME at which it was placed. -/
def holding (s : State) (e : Nat) : List WorkAt :=
  let n := e % 256
  match e / 256 with
  | 0 => (coreOf s n).wgs.map (fun w => opAt w.org w.placedAt) ++
      (coreOf s n).tiles.filterMap (fun t => (passOf s t.pass).map (fun p => opAt p.org t.placedAt))
  | 1 => (queueOf s n).filterMap (fun r => (itemOf s r.item).map (fun it => { ctx := it.org.ctx, wid := r.item, at_ := r.placedAt }))
  | 2 => (s.raster.passes.filter (fun p => (mget p.2.units n).isSome && ! unitSaved p.2 n)).map (fun p => opAt p.2.org p.2.readyAt)
  | 4 => (crushOn s n).map (fun o => opAt o.org o.placedAt)
  | 5 => (copiesOf s n).map (fun o => opAt o.org o.placedAt)
  | _ => []

/-- Waiting work that its context may place, and that only the room of the engine holds back. -/
def withoutRoom (s : State) (e : Nat) : List WorkAt :=
  (waiting s e).filter (fun w => mayPlace s w.ctx 0 && ! (fitting s e).contains w.ctx)

/-- The rank of a unit of work (12 R507). -/
def unitRank (s : State) (w : WorkAt) : List Nat :=
  rankOf s w.ctx w.wid w.at_

/-- The order of victims (12 R509): NORMAL before REALTIME, then the lowest PRIORITY, then the most recently placed. -/
def victimRank (s : State) (w : WorkAt) : List Nat :=
  [b2n (isRealtime s w.ctx), prioOf s w.ctx, 2 ^ 64 - 1 - w.at_ % 2 ^ 64]

/-- The victim that makes room on an engine for REALTIME work (12 R509): NORMAL work, or REALTIME work of lower PRIORITY or later
deadline. -/
def roomVictim (s : State) (e : Nat) (w : WorkAt) : Option WorkAt :=
  let l := (holding s e).filter (fun v => v.ctx ≠ w.ctx && (! isRealtime s v.ctx || prioOf s v.ctx < prioOf s w.ctx ||
    (match deadlineOf s v.wid, deadlineOf s w.wid with
      | some a, some b => lexLt [b.1, b.2] [a.1, a.2]
      | none, some _ => true
      | _, _ => false)))
  (bestIdx (victimRank s) l).bind (fun i => l[i]?)

/-- A preemption of a unit is asked for: on a core, of everything its context has there; elsewhere, of the unit (12 R509). -/
def askUnit (s : State) (e : Nat) (w : WorkAt) : State :=
  if e < 256 then
    askStop s e w.ctx
  else askOp s e w.wid

/-- REALTIME work without room takes a victim (12 R509). -/
def makeRoom (s : State) (e : Nat) : State :=
  let l := (withoutRoom s e).filter (fun w => isRealtime s w.ctx)
  if askedOn s e then s
  else match (bestIdx (unitRank s) l).bind (fun i => l[i]?) with
    | none => s
    | some w => match roomVictim s e w with
      | none => s
      | some v => askUnit s e v

/-- The first-ranked saved share of a geometry unit is placed again (12 R507). -/
def placeUnit (s : State) (b : Nat) : State :=
  let l := s.raster.passes.filter (fun p => unitSaved p.2 b && engineUp s (Engine.geom b) && mayPlace (unreserve s p.2.org.part geomKib) p.2.org.ctx geomKib)
  match (bestIdx (fun (p : Nat × RPass) => rankOf s p.2.org.ctx p.1 p.2.readyAt) l).bind (fun i => l[i]?) with
  | some (id, p) => resumeUnit s id b p
  | none => s

/-- The first-ranked ready work that engine `e` has room for is placed on it (12 R507). -/
def placeOn (s : State) (e : Nat) : State :=
  let n := e % 256
  match e / 256 with
  | 0 => match bestCoreWork s n with
    | some w => placeWork s n w
    | none => s
  | 1 => placeRun s n (fun _ => true)
  | 2 => placeUnit s n
  | 4 => placeCrush s
  | 5 => placeCopy s
  | _ => s

/-- PLACEMENT (12 R507, R509): an engine takes the first-ranked ready work that it has room for; REALTIME work that finds no room
has a victim's preemption asked for. -/
def execPlacement (engine : BitVec 16) (s : State) : Host.Outcome State Fault Refusal :=
  .next (noteConds (makeRoom (placeOn s engine.toNat) engine.toNat))

/-! Time slices (12 R509). -/

/-- The time slice in nanoseconds. -/
def sliceNs (s : State) : Nat :=
  rdF s Reg.schedCfg 9 0 * 100000

/-- The NORMAL contexts on an engine that have held engines for the time slice, of PRIORITY at most that of some NORMAL work that
waits for the engine without room. -/
def sliced (s : State) (e : Nat) : List WorkAt :=
  let l := (withoutRoom s e).filter (fun w => ! isRealtime s w.ctx)
  (holding s e).filter (fun v => ! isRealtime s v.ctx &&
    l.any (fun w => w.ctx ≠ v.ctx && prioOf s v.ctx ≤ prioOf s w.ctx) &&
    (match (mget s.host.ctxs v.ctx).bind (fun c => c.runSince) with
      | some t => due s t (sliceNs s)
      | none => false))

/-- TIME_SLICE (12 R509): the preemption of a context is asked for on an engine that waiting work needs. -/
def execTimeSlice (engine : BitVec 16) (s : State) : Host.Outcome State Fault Refusal :=
  let e := engine.toNat
  let l := sliced s e
  match (bestIdx (victimRank s) l).bind (fun i => l[i]?) with
  | some v => .next (askStop s e v.ctx)
  | none => .next s

/-! Context slots (12 R500 to R503). -/

/-- A runnable context that waits for a slot, and that may be given one. -/
def wantsSlot (s : State) (k : Nat) : Bool :=
  ((mget s.host.ctxs k).map (fun c => c.live && c.slot.isNone && c.cond = .runnable)).getD false

/-- The contexts whose slot a context may take (12 R502): of its own partition where that is at its quota, and no REALTIME one's for
a NORMAL context. -/
def mayTake (s : State) (k : Nat) : List (Nat × Ctx) :=
  let p := k / 65536
  let full := (partOf s p).slotQuota ≤ slotsHeld s p
  s.host.ctxs.filter (fun c => c.2.slot.isSome && c.2.live && c.1 ≠ k && (! full || c.1 / 65536 = p) && (isRealtime s k || ! isRealtime s c.1))

/-- The context of a list whose `f` is smallest. -/
def leastCtx (f : Nat × Ctx → List Nat) (l : List (Nat × Ctx)) : Option (Nat × Ctx) :=
  (bestIdx f l).bind (fun i => l[i]?)

/-- Takes a slot from a context, whose placed work is preempted first (12 R502). -/
def evictSlot (s : State) (k v : Nat) (c : Ctx) : State :=
  if enginesHold s v then askCtx s v
  else match c.slot with
    | some n => noteConds (giveSlot (bump32 (dropSlot s v) Reg.schedSwapCount Reg.schedStatus 1 1) k n)
    | none => s

/-- An idle or blocked holder of a slot that a context may take: the one that has been idle longest, or else blocked longest
(12 R502). -/
def easyVictim (s : State) (k : Nat) : Option (Nat × Ctx) :=
  let at_ := fun (c : Nat × Ctx) => [c.2.condSince]
  match leastCtx at_ ((mayTake s k).filter (fun c => c.2.cond = .idle)) with
  | some v => some v
  | none => leastCtx at_ ((mayTake s k).filter (fun c => c.2.cond = .blocked))

/-- SLOT_EVICTION (12 R500, R502): a runnable context without a slot takes a free one, or an idle or blocked holder's. -/
def execSlotEviction (p : Part) (ctx : BitVec 16) (s : State) : Host.Outcome State Fault Refusal :=
  let k := okey p.toNat ctx.toNat
  if ! wantsSlot s k then .next s
  else
    let s1 := takeSlot s k
    if holdsSlot s1 k then .next (noteConds s1)
    else match easyVictim s k with
      | some (v, c) => .next (evictSlot s k v c)
      | none => .next s

/-- The period of slot rotation (12 R503). -/
def rotateNs (s : State) : Nat :=
  rdF s Reg.schedCfg 19 10 * 1000000

/-- A multiple of the rotation period has passed since DTIME `t`. -/
def rotatedSince (s : State) (t : Nat) : Bool :=
  t / rotateNs s < s.dtime / rotateNs s

/-- The runnable holder whose slot a waiting context rotates out (12 R503). -/
def rotateVictim (s : State) (k : Nat) (c : Ctx) : Option (Nat × Ctx) :=
  let l := mayTake s k
  let normal := l.filter (fun v => ! isRealtime s v.1)
  if isRealtime s k then
    match leastCtx (fun v => [prioOf s v.1, v.2.slotSince]) normal with
    | some v => some v
    | none =>
      if s.host.ctxs.all (fun v => v.2.slot.isNone || isRealtime s v.1) && (slotFree s).isNone then
        leastCtx (fun v => [prioOf s v.1, v.2.slotSince]) (l.filter (fun v => prioOf s v.1 < prioOf s k))
      else none
  else if rotatedSince s (max c.condSince c.slotSince) then
    leastCtx (fun v => [v.2.slotSince]) (normal.filter (fun v => prioOf s v.1 ≤ prioOf s k && rotatedSince s v.2.slotSince))
  else none

/-- SLOT_ROTATION (12 R503): every slot that a waiting context may take is held by a runnable context. -/
def execSlotRotation (p : Part) (ctx : BitVec 16) (s : State) : Host.Outcome State Fault Refusal :=
  let k := okey p.toNat ctx.toNat
  match mget s.host.ctxs k with
  | none => .next s
  | some c =>
    if ! wantsSlot s k || holdsSlot (takeSlot s k) k || (easyVictim s k).isSome then .next s
    else match rotateVictim s k c with
      | some (v, x) => .next (evictSlot s k v x)
      | none => .next s

/-! Virtual time and charges (12 R508, R543). -/

/-- The count that a kind of engine time is charged to. -/
def timeField (t : TimeKind) : AcctField :=
  match t with
  | .core => .core
  | .tensor => .tensor
  | .other => .other

/-- The requests of the rows of the step in flight, one for each row (12 R543). -/
def rowReqs (s : State) : List Request :=
  s.sched.serve.rows.filterMap (fun r => (mget s.sched.serve.seqs r.slot).map (fun q => q.req))

/-- Engine time of a serving step is divided equally among its rows (12 R543). -/
def chargeRows (s : State) (f : AcctField) (ns : Nat) : State :=
  let l := rowReqs s
  l.foldl (fun s r => chargeAcct s r.org.part r.account f (ns / s.sched.serve.rows.length)) s

/-- A context's virtual time advances by engine time over its WEIGHT (12 R508). -/
def addVtime (s : State) (k ns : Nat) : State :=
  match mget s.host.ctxs k with
  | some c => if bitN c.sched 0 then s else setCtx s k { c with vtime := c.vtime + ns * vtimeUnit / bitsN c.sched 12 5 }
  | none => s

/-- VIRTUAL_TIME_UPDATE (12 R508, R543): `ns` of engine time of a context's own work, of a serving step or not, is added to its
virtual time and charged. -/
def execVirtualTimeUpdate (p : Part) (ctx : BitVec 16) (kind : TimeKind) (ns : Nat) (step : Bool) (s : State) :
    Host.Outcome State Fault Refusal :=
  let k := okey p.toNat ctx.toNat
  if (mget s.host.ctxs k).isNone then .next s
  else
    let s1 := addVtime s k ns
    if step && s.sched.serve.step.isSome && s.sched.serve.ctx = k then .next (chargeRows s1 (timeField kind) ns)
    else .next (charge s1 k (timeField kind) ns)

end Sys2Proof.Machine
end

