-- ==== Sys2Proof/Machine/Spdm.lean ====
section
/-! DEFINITION. Attestation and the DOE mailbox (16 R661 to R665; 10 R388). The codes of SPDM's responses are that standard's
(log 49). -/
namespace Sys2Proof.Machine

def setSpdm (s : State) (x : SpdmSt) : State :=
  setSec s { s.sec with spdm := x }

/-- An answer whose body SPDM gives (log 46). -/
def answer (s : State) (code : Nat) (msg : List Byte) : State :=
  emit { s with fresh := s.fresh + 1 } (.spdm code (Config.spdmBody code msg s.fresh))

/-- SPDM's ERROR response, with its error code (log 49). -/
def spdmError (s : State) (code : Nat) : State :=
  emit s (.spdm 0x7F (leBytes 1 code))
abbrev errUnexpected : Nat := 0x04
abbrev errBusy : Nat := 0x03

/-- The base section of the record taken (16 R651). -/
def baseSection (s : State) : Option (List Byte) :=
  (s.sec.taken.bind (fun i => (s.sec.recs[i]?).join)).map (fun r => r.base)

/-- GET_VERSION (16 R661): a new connection. -/
def execGetVersion (msg : List Byte) (s : State) : Host.Outcome State Fault Refusal :=
  let s := hostTouch s
  .next (answer (setSpdm s { s.sec.spdm with level := 1, sessions := [] }) 0x04 msg)

/-- GET_CAPABILITIES (16 R661). -/
def execGetCapabilities (msg : List Byte) (s : State) : Host.Outcome State Fault Refusal :=
  let s := hostTouch s
  if 1 ≤ s.sec.spdm.level then .next (answer (setSpdm s { s.sec.spdm with level := 2 }) 0x61 msg)
  else .next (spdmError s errUnexpected)

/-- NEGOTIATE_ALGORITHMS (16 R661). -/
def execNegotiateAlgorithms (msg : List Byte) (s : State) : Host.Outcome State Fault Refusal :=
  let s := hostTouch s
  if 2 ≤ s.sec.spdm.level then .next (answer (setSpdm s { s.sec.spdm with level := 3 }) 0x63 msg)
  else .next (spdmError s errUnexpected)

/-- GET_DIGESTS (16 R661): the digest of slot 0's chain. -/
def execGetDigests (_msg : List Byte) (s : State) : Host.Outcome State Fault Refusal :=
  let s := hostTouch s
  match baseSection s with
  | some b => .next (emit s (.spdm 0x01 (Config.sha384 (Config.chainOf b))))
  | none => .next (spdmError s errUnexpected)

/-- GET_CERTIFICATE (16 R661): a portion of slot 0's chain. -/
def execGetCertificate (slot : BitVec 8) (off len : BitVec 16) (s : State) : Host.Outcome State Fault Refusal :=
  let s := hostTouch s
  match baseSection s with
  | some b =>
    if slot = 0 then .next (emit s (.spdm 0x02 (slice (Config.chainOf b) off.toNat len.toNat))) else .next (spdmError s errUnexpected)
  | none => .next (spdmError s errUnexpected)

/-- CHALLENGE (16 R661, R662): signed with the device ECDSA key. -/
def execChallenge (msg : List Byte) (s : State) : Host.Outcome State Fault Refusal :=
  let s := hostTouch s
  if s.sec.ident then .next (answer s 0x03 msg) else .next (spdmError s errUnexpected)

/-- The measurements (16 R663). -/
def measurements (s : State) : List (List Byte) :=
  let entries := (s.sec.taken.bind (fun i => (s.sec.recs[i]?).join)).map (fun r => r.added)
  [Config.bootRom, lget s.sec.digests 0 [], lget s.sec.digests 1 [], lget s.sec.digests 2 [],
   Config.sha384 ((baseSection s).getD []),
   Config.sha384 ((entries.getD []).flatMap (fun e => leBytes 8 (e.1 + e.2 * 256))),
   Config.sha384 (leBytes 2 s.sec.floor ++ leBytes 1 s.sec.revoked ++ leBytes 4 s.sec.cfgGen)]

/-- GET_MEASUREMENTS (16 R663): one measurement, or all. -/
def execGetMeasurements (index : BitVec 8) (s : State) : Host.Outcome State Fault Refusal :=
  let s := hostTouch s
  if ! s.sec.ident then .next (spdmError s errUnexpected)
  else
    let l := measurements s
    .next (emit s (.spdm 0x60 (if 1 ≤ index.toNat && index.toNat ≤ 7 then lget l (index.toNat - 1) [] else l.flatten)))

/-! Sessions (16 R661). -/

/-- KEY_EXCHANGE (16 R661): a responder-authenticated session begins its handshake. -/
def execKeyExchange (msg : List Byte) (s : State) : Host.Outcome State Fault Refusal :=
  let s := hostTouch s
  let x := s.sec.spdm
  if s.sec.ident && 3 ≤ x.level then
    .next (answer (setSpdm s { x with sessions := x.sessions ++ [SpdmSession.mk x.nextId false 0], nextId := x.nextId + 1 }) 0x64 msg)
  else .next (spdmError s errUnexpected)

/-- The session is known, and open or in its handshake. -/
def sessionIs (s : State) (id : Nat) (open_ : Bool) : Bool :=
  s.sec.spdm.sessions.any (fun q => q.id = id && q.open_ == open_)

/-- FINISH (16 R661): the session is established. -/
def execFinish (session : BitVec 32) (msg : List Byte) (s : State) : Host.Outcome State Fault Refusal :=
  let s := hostTouch s
  let x := s.sec.spdm
  if sessionIs s session.toNat false then
    .next (answer (setSpdm s { x with sessions := x.sessions.map (fun q => if q.id = session.toNat then { q with open_ := true } else q) }) 0x65 msg)
  else .next (spdmError s errUnexpected)

/-- END_SESSION (16 R661). -/
def execEndSession (session : BitVec 32) (msg : List Byte) (s : State) : Host.Outcome State Fault Refusal :=
  let s := hostTouch s
  let x := s.sec.spdm
  if sessionIs s session.toNat true then
    .next (answer (setSpdm s { x with sessions := x.sessions.filter (fun q => q.id ≠ session.toNat) }) 0x6C msg)
  else .next (spdmError s errUnexpected)

/-- KEY_UPDATE (16 R661). -/
def execKeyUpdate (session : BitVec 32) (msg : List Byte) (s : State) : Host.Outcome State Fault Refusal :=
  let s := hostTouch s
  let x := s.sec.spdm
  if sessionIs s session.toNat true then
    let up := x.sessions.map (fun q => if q.id = session.toNat then { q with updates := q.updates + 1 } else q)
    .next (answer (setSpdm s { x with sessions := up }) 0x69 msg)
  else .next (spdmError s errUnexpected)

/-- HEARTBEAT (16 R661). -/
def execHeartbeat (session : BitVec 32) (msg : List Byte) (s : State) : Host.Outcome State Fault Refusal :=
  let s := hostTouch s
  if sessionIs s session.toNat true then .next (answer s 0x68 msg) else .next (spdmError s errUnexpected)

/-- IDE_KM (16 R661): inside a secured session, for up to four selective streams: QUERY (0), KEY_PROG (1), K_SET_GO (2), K_SET_STOP (3). -/
def execIdeKm (session : BitVec 32) (op : BitVec 2) (stream : BitVec 8) (msg : List Byte) (s : State) : Host.Outcome State Fault Refusal :=
  let s := hostTouch s
  let x := s.sec.spdm
  let known := (mget x.streams stream.toNat).isSome
  if ! sessionIs s session.toNat true then .next (spdmError s errUnexpected)
  else if op = 0 then .next (answer s 0x80 msg)
  else if op = 1 then
    if known || x.streams.length < 4 then .next (answer (setSpdm s { x with streams := mset x.streams stream.toNat 1 }) 0x81 msg)
    else .next (spdmError s errUnexpected)
  else if known then
    .next (answer (setSpdm s { x with streams := mset x.streams stream.toNat (if op = 2 then 2 else 1) }) (0x80 + op.toNat) msg)
  else .next (spdmError s errUnexpected)

/-- DOE_DISCOVERY (10 R388): the protocol of an index and the next index, in R388's order: Discovery, CMA-SPDM, Secured CMA-SPDM, IDE_KM. -/
def execDoeDiscovery (index : BitVec 8) (s : State) : Host.Outcome State Fault Refusal :=
  let s := hostTouch s
  let i := index.toNat
  .next (emit s (.spdm 0x90 (if i < 4 then leBytes 1 i ++ leBytes 1 ((i + 1) % 4) else [])))

/-! The attestation report (16 R662, R664). -/

/-- Bytes 0 to 415 of the report. -/
def reportBytes (s : State) (nonce : List Byte) : List Byte :=
  let b := (s.sec.running.map (fun i => (slotAt s i).img)).getD []
  leBytes 4 0x8640A77E ++ leBytes 2 0 ++ zeroBytes 2 ++ padTo 32 nonce ++ leBytes 16 s.sec.uid ++ leBytes 8 s.dtime ++
    leBytes 2 s.sec.floor ++ leBytes 2 (imgSvn b) ++ leBytes 4 ((slotAt s 0).state + (slotAt s 1).state * 16) ++ zeroBytes 8 ++
    ((measurements s).map (padTo 48)).flatten

/-- VENDOR_DEFINED_REQUEST (16 R662, R664, R665): of StandardID 3, the function's vendor ID and request code 0x01, the dual-signed
report: at most 60 in an hour of DTIME, and while LMS_LEFT is above 1,024. -/
def execVendorDefinedRequest (known : Bool) (code : BitVec 8) (nonce : List Byte) (s : State) : Host.Outcome State Fault Refusal :=
  let s := hostTouch s
  if ! known || code ≠ 1 || ! s.sec.ident then .next (spdmError s errUnexpected)
  else
    let hour := s.sec.reports.filter (fun t => elapsed s t < 3600000000000)
    if 60 ≤ hour.length then .next (spdmError s errBusy)
    else if lmsLeft s ≤ 1024 then .next (emit s (.spdm 0x7E (leBytes 4 0x8640A77E ++ leBytes 2 Cond.lmsExhausted)))
    else
      let r := reportBytes s nonce
      let s1 := useKey (setSec s { s.sec with reports := hour ++ [s.dtime] })
      .next (emit s1 (.spdm 0x7E (r ++ Config.deviceSign r s.sec.nextQ)))

end Sys2Proof.Machine
end

