-- ==== Sys2Proof/Machine/Spares.lean ====
section
/-! DEFINITION. SRAM errors (09 R369), and the drain, promotion and loss of cores (09 R371, R374 to R376). -/
namespace Sys2Proof.Machine

/-- Every context's work on a core and its array is asked to stop (09 R374 step 2). -/
def askCore (s : State) (n : Nat) : State :=
  let ks := (s.host.ctxs.map (fun c => c.1))
  let want := [Engine.core n, Engine.tensor n].flatMap (fun e => (ks.filter (fun k => engineHolds s e k)).map (fun k => (e, k)))
  want.foldl (fun s x => askStop s x.1 x.2) s

/-- A trigger on a logical core (09 R371, R374, R375): ignored where it drains or is unavailable; without a spare, reason 1 only counts. -/
def triggerCore (s : State) (n reason : Nat) : State :=
  match mget s.site.sites n with
  | none => s
  | some site =>
    if s.site.drains.any (fun d => d.core = n) then s
    else if (mget s.site.spares (n / 8)).isSome || reason ≠ 1 || rdF s Reg.errCfg 8 8 = 1 then
      let d : Drain := { core := n, reason := reason, oldSite := site, assigned := false }
      askCore (showSites { s with site := { s.site with drains := s.site.drains ++ [d] } }) n
    else bump32 s Reg.errCoreNospareCount Reg.errStatus 11 1

/-- The drain of a core that is served now: the first of its bench (09 R374). -/
def drainOf (s : State) (n : Nat) : Option Drain :=
  match s.site.drains.find? (fun d => d.core / 8 = n / 8) with
  | some d => if d.core = n then some d else none
  | none => none

/-- A core and its array hold no work. -/
def coreEmpty (s : State) (n : Nat) : Bool :=
  (coreOf s n).wgs.isEmpty && (coreOf s n).tiles.isEmpty && (queueOf s n).isEmpty

/-- The record of a core (09 R376). -/
def coreRecord (s : State) (code : Nat) (d : Drain) (site : Nat) : ErrRec :=
  plainRec s code (Engine.core d.core) 0 flagInfo 0
    (leBytes 1 d.core ++ leBytes 1 (d.core / 8) ++ leBytes 1 d.oldSite ++ leBytes 1 site ++ leBytes 1 d.reason ++ zeroBytes 3 ++
      leBytes 4 (mgetD s.mem.coreErrs d.core 0))

/-- The retired site goes on the repair list (09 R377, 16 R652 kind 1). -/
def retireSite (s : State) (d : Drain) : State :=
  addRepair s 1 (d.core / 8 + 8 * d.oldSite)

/-- ERR_CORE_RETIRE (09 R371): a write by host software, reason 3, of a logical core's number. -/
def execErrCoreRetire (value : Word32) (s : State) : Host.Outcome State Fault Refusal :=
  if s.sec.recovery then .next (hostTouch s) else
  let s := hostTouch s
  .next (settle (triggerCore s (bitsN value.toNat 5 0) 3))

/-- SPARE_ASSIGNMENT (09 R374 step 3): the drained core's number goes to the spare site, whose arrays hold zeros. -/
def execSpareAssignment (core : CoreId) (s : State) : Host.Outcome State Fault Refusal :=
  let n := core.toNat
  match drainOf s n, mget s.site.spares (n / 8) with
  | some d, some k =>
    if d.assigned || ! coreEmpty s n then .next s
    else
      let s1 := setCore s { s.core with cores := mdel s.core.cores n }
      .next (showSites { s1 with site := { s1.site with
        sites := mset s.site.sites n k, spares := mdel s.site.spares (n / 8),
        drains := s.site.drains.map (fun x => if x.core = n then { x with assigned := true } else x) } })
  | _, _ => .next s

/-- PROMOTION_COMPLETE (09 R374 step 4): the core is live again; the old site is off and recorded for repair. -/
def execPromotionComplete (core : CoreId) (s : State) : Host.Outcome State Fault Refusal :=
  let n := core.toNat
  match drainOf s n with
  | some d =>
    if ! d.assigned then .next s
    else
      let s1 := showSites { s with site := { s.site with drains := s.site.drains.filter (fun x => x.core ≠ n) } }
      let s2 := bump32 (retireSite s1 d) Reg.errCorePromoteCount Reg.errStatus 10 1
      .next (settle (appendRec s2 (coreRecord s2 Cond.corePromoted d (mgetD s.site.sites n 0))))
  | none => .next s

/-- CORE_UNAVAILABLE (09 R375, 01 R19): the drained core has no spare site. -/
def execCoreUnavailable (core : CoreId) (s : State) : Host.Outcome State Fault Refusal :=
  let n := core.toNat
  match drainOf s n with
  | some d =>
    if d.assigned || (mget s.site.spares (n / 8)).isSome || ! coreEmpty s n then .next s
    else
      let s1 := showSites { s with site := { s.site with
        sites := mdel s.site.sites n, drains := s.site.drains.filter (fun x => x.core ≠ n) } }
      .next (settle (appendRec (retireSite s1 d) (coreRecord s1 Cond.coreUnavailable d 0xFF)))
  | none => .next s

/-! SRAM errors (09 R369). -/

/-- The core whose array an error lies in. -/
def coreOfArray (a : SramArray) : Option Nat :=
  match a with
  | .registerFile c _ => some c.toNat
  | .sharedOrTile c _ => some c.toNat
  | .l1 c _ => some c.toNat
  | .tensor c => some c.toNat
  | _ => none

/-- An error counts toward its core's threshold (09 R369, R371). -/
def countCore (s : State) (a : SramArray) : State :=
  match coreOfArray a with
  | none => s
  | some n =>
    let c := mgetD s.mem.coreErrs n 0 + 1
    let s1 := setMem s { s.mem with coreErrs := mset s.mem.coreErrs n c }
    if rdF s1 Reg.errThresh 27 16 ≤ c then triggerCore s1 n 1 else s1

/-- A corrected error of an SRAM row: the eighth in a window puts the row on the repair list (09 R377). -/
def countRow (s : State) (loc : Nat) : State :=
  let c := mgetD s.site.sram loc 0 + 1
  let s1 := { s with site := { s.site with sram := mset s.site.sram loc c } }
  if c = 8 then addRepair s1 4 loc else s1

/-- A cached sector is lost: a dirty one is written as lost, and either is fetched again (09 R359, R369). -/
def loseSector (s : State) (l : Line) (h : Nat) : State :=
  if (l.dirty[h]?).getD false then writeSector s (l.addr * 128 + 64 * h) (slice l.bytes (64 * h) 64) true else s

/-- The line at a key of the bench caches loses a sector. -/
def loseCached (s : State) (key h : Nat) : State :=
  match mget s.mem.lines key with
  | none => s
  | some l =>
    let s1 := loseSector s l h
    let l1 := { l with valid := lset l.valid h false, dirty := lset l.dirty h false }
    setMem s1 { s1.mem with lines := if l1.valid.any id then mset s1.mem.lines key l1 else mdel s1.mem.lines key }

/-- The consequence of an uncorrectable error (09 R369). -/
def sramLost (s : State) (a : SramArray) : State :=
  match a with
  | .registerFile c gid =>
    match findGroup s c.toNat gid with
    | some (w, g) => triggerCore (coreFault s c.toNat w g Cond.memUncorr 0 (unexited g)) c.toNat 2
    | none => triggerCore s c.toNat 2
  | .sharedOrTile c wgid =>
    match (coreOf s c.toNat).wgs.find? (fun w => w.wgid = wgid) with
    | some w => match w.groups with
      | g :: _ => triggerCore (coreFault s c.toNat w g Cond.memUncorr 0 (unexited g)) c.toNat 2
      | [] => triggerCore (failWork s w.org Cond.memUncorr (Engine.core c.toNat) 0 []) c.toNat 2
    | none => triggerCore s c.toNat 2
  | .l1 c line => setCoreOf s c.toNat { coreOf s c.toNat with l1 := (coreOf s c.toNat).l1.eraseIdx line }
  | .tensor c =>
    match (queueOf s c.toNat).head?.bind (fun r => (itemOf s r.item).map (fun it => (r.item, it))) with
    | some (id, it) =>
      let it1 := { it with fault := some (it.fault.getD (s.dtime, Engine.tensor c.toNat, Cond.memUncorr)), runsLeft := 0 }
      let s1 := setItem (raise s it.org Cond.memUncorr (Engine.tensor c.toNat) 0 []) id it1
      triggerCore (stopItem s1 id it1) c.toNat 2
    | none => triggerCore s c.toNat 2
  | .cacheData sl i half => loseCached s (sl.toNat * 16384 + i % 16384) (b2n half)
  | .evictionBuffer sl i half =>
    match (evOf s sl.toNat)[i]? with
    | none => s
    | some e =>
      let l := { e.line with valid := lset e.line.valid (b2n half) false, dirty := lset e.line.dirty (b2n half) false }
      setEv (loseSector s e.line (b2n half)) sl.toNat (lset (evOf s sl.toNat) i { e with line := l })
  | .cacheTags sl set bothBad =>
    if bothBad then
      (List.range 16).foldl (fun s w => (List.range 2).foldl (fun s h => loseCached s ((sl.toNat * 1024 + set.toNat) * 16 + w) h) s) s
    else s
  | .translation set way => setMem s { s.mem with xsets := mupd s.mem.xsets set (fun l => l.eraseIdx way) }
  | .gantry p => loseProcessor s p
  | .weighbridge => resetWeigh s

/-- SRAM_ERROR (09 R369, R377): an error in an array, at an SRAM row (array number in [15:0], row in [31:16]). -/
def execSramError (array : SramArray) (row : BitVec 32) (correctable : Bool) (s : State) : Host.Outcome State Fault Refusal :=
  if correctable then
    .next (settle (countRow (countCore (bump64 s Reg.errSramCorrCount Reg.errStatus 7 1) array) row.toNat))
  else
    let s1 := countCore (bump32 s Reg.errSramUncorrCount Reg.errStatus 8 1) array
    .next (settle (sramLost (addRepair s1 4 row.toNat) array))

end Sys2Proof.Machine
end

