-- ==== Sys2Proof/Machine/Dispatch.lean ====
section
/-! DEFINITION. One arm for each command: its meaning, or its refusal by name. -/
namespace Sys2Proof.Machine

/-- The effect of a command on everything but the queue. -/
def exec (i : Instr) (s : State) : Host.Outcome State Fault Refusal :=
  match i with
  | .registerWrite t => Sys2Proof.Machine.execRegisterWrite t s
  | .unsupportedBarAccess fn off bytes isRead => Sys2Proof.Machine.execUnsupportedBarAccess fn off bytes isRead s
  | .powerOn testEn => Sys2Proof.Machine.execPowerOn testEn s
  | .pwrgdDeassert => Sys2Proof.Machine.execPwrgdDeassert s
  | .railUndervoltage => Sys2Proof.Machine.execRailUndervoltage s
  | .keyDerivation puf => Sys2Proof.Machine.execKeyDerivation puf s
  | .configurationRecordChoice bad0 bad1 => Sys2Proof.Machine.execConfigurationRecordChoice bad0 bad1 s
  | .stackTraining refclk id => Sys2Proof.Machine.execStackTraining refclk id s
  | .memoryFill => Sys2Proof.Machine.execMemoryFill s
  | .slotBootVerify => Sys2Proof.Machine.execSlotBootVerify s
  | .gantryRelease => Sys2Proof.Machine.execGantryRelease s
  | .logicalCoreAssignment back => Sys2Proof.Machine.execLogicalCoreAssignment back s
  | .ready => Sys2Proof.Machine.execReady s
  | .perstAssert => Sys2Proof.Machine.execPerstAssert s
  | .perstRelease => Sys2Proof.Machine.execPerstRelease s
  | .configurationRecordAppend good => Sys2Proof.Machine.execConfigurationRecordAppend good s
  | .hotReset => Sys2Proof.Machine.execHotReset s
  | .linkDownReset => Sys2Proof.Machine.execLinkDownReset s
  | .pfFlr => Sys2Proof.Machine.execPfFlr s
  | .vfFlr n => Sys2Proof.Machine.execVfFlr n s
  | .vfEnableClear => Sys2Proof.Machine.execVfEnableClear s
  | .msixUnmask fn index => Sys2Proof.Machine.execMsixUnmask fn index s
  | .pcieMsixAllocWrite fn value => Sys2Proof.Machine.execPcieMsixAllocWrite fn value s
  | .completionTimeout req => Sys2Proof.Machine.execCompletionTimeout req s
  | .partCreate p hdr claims => Sys2Proof.Machine.execPartCreate p hdr claims s
  | .partDestroy p => Sys2Proof.Machine.execPartDestroy p s
  | .setGrant p grant => Sys2Proof.Machine.execSetGrant p grant s
  | .claimFillingEnd claim => Sys2Proof.Machine.execClaimFillingEnd claim s
  | .ringCreate p ring desc => Sys2Proof.Machine.execRingCreate p ring desc s
  | .ringDestroy p ring => Sys2Proof.Machine.execRingDestroy p ring s
  | .ringStop p ring => Sys2Proof.Machine.execRingStop p ring s
  | .ringResume p ring => Sys2Proof.Machine.execRingResume p ring s
  | .ringQuery p ring => Sys2Proof.Machine.execRingQuery p ring s
  | .ringCmdReserved p ring => Sys2Proof.Machine.execRingCmdReserved p ring s
  | .tailPoll p ring => Sys2Proof.Machine.execTailPoll p ring s
  | .tailReadReturn p ring r => Sys2Proof.Machine.execTailReadReturn p ring r s
  | .entryFetch p ring buffer r => Sys2Proof.Machine.execEntryFetch p ring buffer r s
  | .idleSequence p ring => Sys2Proof.Machine.execIdleSequence p ring s
  | .idleTailReturn p ring r => Sys2Proof.Machine.execIdleTailReturn p ring r s
  | .gantryWake fn value => Sys2Proof.Machine.execGantryWake fn value s
  | .payloadRead p ring r => Sys2Proof.Machine.execPayloadRead p ring r s
  | .inFlightAdmission p ring => Sys2Proof.Machine.execInFlightAdmission p ring s
  | .entryRetirement wid => Sys2Proof.Machine.execEntryRetirement wid s
  | .nop p ring => Sys2Proof.Machine.execNop p ring s
  | .dispatch p ring => Sys2Proof.Machine.execDispatch p ring s
  | .tensor p ring => Sys2Proof.Machine.execTensor p ring s
  | .render p ring => Sys2Proof.Machine.execRender p ring s
  | .copy p ring => Sys2Proof.Machine.execCopy p ring s
  | .zero p ring => Sys2Proof.Machine.execZero p ring s
  | .preload p ring => Sys2Proof.Machine.execPreload p ring s
  | .preloadLock p ring => Sys2Proof.Machine.execPreloadLock p ring s
  | .unlock p ring => Sys2Proof.Machine.execUnlock p ring s
  | .writeback p ring => Sys2Proof.Machine.execWriteback p ring s
  | .scrub p ring => Sys2Proof.Machine.execScrub p ring s
  | .copyEngineBoundary engine ext => Sys2Proof.Machine.execCopyEngineBoundary engine ext s
  | .copyPreemption engine wid => Sys2Proof.Machine.execCopyPreemption engine wid s
  | .loadModule p ring => Sys2Proof.Machine.execLoadModule p ring s
  | .moduleLoadEnd p code spec f => Sys2Proof.Machine.execModuleLoadEnd p code spec f s
  | .unloadModule p ring => Sys2Proof.Machine.execUnloadModule p ring s
  | .segUpdate p ring => Sys2Proof.Machine.execSegUpdate p ring s
  | .call p ring => Sys2Proof.Machine.execCall p ring s
  | .timestamp p ring => Sys2Proof.Machine.execTimestamp p ring s
  | .groupInstruction core group op => Sys2Proof.Machine.execGroupInstruction core group op s
  | .rotation core group => Sys2Proof.Machine.execRotation core group s
  | .workgroupBarrier core group => Sys2Proof.Machine.execWorkgroupBarrier core group s
  | .subgroupBarrier core group => Sys2Proof.Machine.execSubgroupBarrier core group s
  | .groupOperation core group f uniform dst a b => Sys2Proof.Machine.execGroupOperation core group f uniform dst a b s
  | .load core group ptr size dst vol nt => Sys2Proof.Machine.execLoad core group ptr size dst vol nt s
  | .store core group ptr size src => Sys2Proof.Machine.execStore core group ptr size src s
  | .memoryBarrier core group release acquire scope => Sys2Proof.Machine.execMemoryBarrier core group release acquire scope s
  | .atomic core group ptr f wide dst val cmp => Sys2Proof.Machine.execAtomic core group ptr f wide dst val cmp s
  | .opReadClockKhr core group device dst => Sys2Proof.Machine.execOpReadClockKhr core group device dst s
  | .imageSample core group f set binding dst => Sys2Proof.Machine.execImageSample core group f set binding dst s
  | .tensorIssue core group ptr dst => Sys2Proof.Machine.execTensorIssue core group ptr dst s
  | .tensorWait core group ticket dst => Sys2Proof.Machine.execTensorWait core group ticket dst s
  | .tensorPoll core group ticket dst => Sys2Proof.Machine.execTensorPoll core group ticket dst s
  | .tileHandoff core group ptr => Sys2Proof.Machine.execTileHandoff core group ptr s
  | .cadenceRead core group dst => Sys2Proof.Machine.execCadenceRead core group dst s
  | .lineRead core group head dst => Sys2Proof.Machine.execLineRead core group head dst s
  | .markFeed core group ptr value size => Sys2Proof.Machine.execMarkFeed core group ptr value size s
  | .asyncCopy core group dst src bytes out => Sys2Proof.Machine.execAsyncCopy core group dst src bytes out s
  | .asyncCopyComplete core group ticket => Sys2Proof.Machine.execAsyncCopyComplete core group ticket s
  | .copyWait core group ticket => Sys2Proof.Machine.execCopyWait core group ticket s
  | .l1Prefetch core group ptr bytes => Sys2Proof.Machine.execL1Prefetch core group ptr bytes s
  | .yield core group => Sys2Proof.Machine.execYield core group s
  | .sleep core group ns => Sys2Proof.Machine.execSleep core group ns s
  | .sleepExpiry core group => Sys2Proof.Machine.execSleepExpiry core group s
  | .trap core group value => Sys2Proof.Machine.execTrap core group value s
  | .workgroupPlacement core => Sys2Proof.Machine.execWorkgroupPlacement core s
  | .preemptionRequest core p ctx => Sys2Proof.Machine.execPreemptionRequest core p ctx s
  | .coreSave core p ctx => Sys2Proof.Machine.execCoreSave core p ctx s
  | .resumption core => Sys2Proof.Machine.execResumption core s
  | .replyDelivery core group tag thread reply => Sys2Proof.Machine.execReplyDelivery core group tag thread reply s
  | .kStep core => Sys2Proof.Machine.execKStep core s
  | .tensorCompletion item => Sys2Proof.Machine.execTensorCompletion item s
  | .tensorFault core => Sys2Proof.Machine.execTensorFault core s
  | .tensorPreemption core item => Sys2Proof.Machine.execTensorPreemption core item s
  | .tensorResume core => Sys2Proof.Machine.execTensorResume core s
  | .drawRecordFetch pass => Sys2Proof.Machine.execDrawRecordFetch pass s
  | .batch pass unit tess => Sys2Proof.Machine.execBatch pass unit tess s
  | .primitive pass unit => Sys2Proof.Machine.execPrimitive pass unit s
  | .geomBinGrant p value => Sys2Proof.Machine.execGeomBinGrant p value s
  | .binGrowthTimeout p => Sys2Proof.Machine.execBinGrowthTimeout p s
  | .tileHandout pass core => Sys2Proof.Machine.execTileHandout pass core s
  | .beginInvocationInterlock core group => Sys2Proof.Machine.execBeginInvocationInterlock core group s
  | .tileEnd pass core tile => Sys2Proof.Machine.execTileEnd pass core tile s
  | .tileBankRelease pass core tile => Sys2Proof.Machine.execTileBankRelease pass core tile s
  | .renderPassComplete pass => Sys2Proof.Machine.execRenderPassComplete pass s
  | .geometryPreemption pass unit => Sys2Proof.Machine.execGeometryPreemption pass unit s
  | .tilePhasePreemption pass core => Sys2Proof.Machine.execTilePhasePreemption pass core s
  | .dressFlip p head value => Sys2Proof.Machine.execDressFlip p head value s
  | .latchLine head => Sys2Proof.Machine.execLatchLine head s
  | .frameStart head => Sys2Proof.Machine.execFrameStart head s
  | .doneRecord head => Sys2Proof.Machine.execDoneRecord head s
  | .layerFetch head late => Sys2Proof.Machine.execLayerFetch head late s
  | .headEnable head train => Sys2Proof.Machine.execHeadEnable head train s
  | .headDisable head => Sys2Proof.Machine.execHeadDisable head s
  | .hpdInterrupt level train => Sys2Proof.Machine.execHpdInterrupt level train s
  | .dsiCommand port => Sys2Proof.Machine.execDsiCommand port s
  | .dsiPacketSend port resp => Sys2Proof.Machine.execDsiPacketSend port resp s
  | .translationWalk cache k => Sys2Proof.Machine.execTranslationWalk cache k s
  | .memXlateInval p value => Sys2Proof.Machine.execMemXlateInval p value s
  | .invalidationComplete p => Sys2Proof.Machine.execInvalidationComplete p s
  | .lineFill slice line => Sys2Proof.Machine.execLineFill slice line s
  | .evictionWriteComplete slice k => Sys2Proof.Machine.execEvictionWriteComplete slice k s
  | .fastPathRead sector upset => Sys2Proof.Machine.execFastPathRead sector upset s
  | .slowPathDecode page upset => Sys2Proof.Machine.execSlowPathDecode page upset s
  | .sectorWrite slice k half => Sys2Proof.Machine.execSectorWrite slice k half s
  | .patrolScrub upset => Sys2Proof.Machine.execPatrolScrub upset s
  | .readRaw value => Sys2Proof.Machine.execReadRaw value s
  | .writeRaw value => Sys2Proof.Machine.execWriteRaw value s
  | .encode value => Sys2Proof.Machine.execEncode value s
  | .sramError array row correctable => Sys2Proof.Machine.execSramError array row correctable s
  | .thresholdWindow => Sys2Proof.Machine.execThresholdWindow s
  | .errFrameRetire value => Sys2Proof.Machine.execErrFrameRetire value s
  | .errCoreRetire value => Sys2Proof.Machine.execErrCoreRetire value s
  | .frameRetirement => Sys2Proof.Machine.execFrameRetirement s
  | .retirementPageCopy => Sys2Proof.Machine.execRetirementPageCopy s
  | .spareAssignment core => Sys2Proof.Machine.execSpareAssignment core s
  | .promotionComplete core => Sys2Proof.Machine.execPromotionComplete core s
  | .coreUnavailable core => Sys2Proof.Machine.execCoreUnavailable core s
  | .objCreate p owner desc => Sys2Proof.Machine.execObjCreate p owner desc s
  | .addRef p owner => Sys2Proof.Machine.execAddRef p owner s
  | .release p owner => Sys2Proof.Machine.execRelease p owner s
  | .signal p owner => Sys2Proof.Machine.execSignal p owner s
  | .objRead p owner => Sys2Proof.Machine.execObjRead p owner s
  | .objQuery p owner => Sys2Proof.Machine.execObjQuery p owner s
  | .arm p owner => Sys2Proof.Machine.execArm p owner s
  | .kill p owner => Sys2Proof.Machine.execKill p owner s
  | .ownerGone p owner => Sys2Proof.Machine.execOwnerGone p owner s
  | .objCmdReserved p owner => Sys2Proof.Machine.execObjCmdReserved p owner s
  | .killEngineStop p ctx => Sys2Proof.Machine.execKillEngineStop p ctx s
  | .killRetirement p ctx => Sys2Proof.Machine.execKillRetirement p ctx s
  | .killSummaryRecord p ctx => Sys2Proof.Machine.execKillSummaryRecord p ctx s
  | .contextWatchdog p ctx => Sys2Proof.Machine.execContextWatchdog p ctx s
  | .waitTimeout wid => Sys2Proof.Machine.execWaitTimeout wid s
  | .eventTimeout p event => Sys2Proof.Machine.execEventTimeout p event s
  | .deadlockScan => Sys2Proof.Machine.execDeadlockScan s
  | .deadlockBreak => Sys2Proof.Machine.execDeadlockBreak s
  | .faultqTail p value => Sys2Proof.Machine.execFaultqTail p value s
  | .hang engine => Sys2Proof.Machine.execHang engine s
  | .hangCapture trig => Sys2Proof.Machine.execHangCapture trig s
  | .slotEviction p ctx => Sys2Proof.Machine.execSlotEviction p ctx s
  | .slotRotation p ctx => Sys2Proof.Machine.execSlotRotation p ctx s
  | .placement engine => Sys2Proof.Machine.execPlacement engine s
  | .virtualTimeUpdate p ctx kind ns step => Sys2Proof.Machine.execVirtualTimeUpdate p ctx kind ns step s
  | .timeSlice engine => Sys2Proof.Machine.execTimeSlice engine s
  | .cadenceInEdge rising hold => Sys2Proof.Machine.execCadenceInEdge rising hold s
  | .pulse => Sys2Proof.Machine.execPulse s
  | .missingPulse => Sys2Proof.Machine.execMissingPulse s
  | .phaseWrap => Sys2Proof.Machine.execPhaseWrap s
  | .gateOpen wid => Sys2Proof.Machine.execGateOpen wid s
  | .deadlineMiss wid => Sys2Proof.Machine.execDeadlineMiss wid s
  | .planLaunch p ring => Sys2Proof.Machine.execPlanLaunch p ring s
  | .planLoad p ring ext => Sys2Proof.Machine.execPlanLoad p ring ext s
  | .planUnload p ring => Sys2Proof.Machine.execPlanUnload p ring s
  | .nodeDispatch wid => Sys2Proof.Machine.execNodeDispatch wid s
  | .nodeCompletion wid => Sys2Proof.Machine.execNodeCompletion wid s
  | .modelCreate p ring => Sys2Proof.Machine.execModelCreate p ring s
  | .modelLoad p ring => Sys2Proof.Machine.execModelLoad p ring s
  | .modelLoadEnd => Sys2Proof.Machine.execModelLoadEnd s
  | .modelSwapTimeout => Sys2Proof.Machine.execModelSwapTimeout s
  | .modelDestroy p ring => Sys2Proof.Machine.execModelDestroy p ring s
  | .serveStart p ring => Sys2Proof.Machine.execServeStart p ring s
  | .serveStop p ring => Sys2Proof.Machine.execServeStop p ring s
  | .request p ring => Sys2Proof.Machine.execRequest p ring s
  | .cancel p ring => Sys2Proof.Machine.execCancel p ring s
  | .stepBoundary ext => Sys2Proof.Machine.execStepBoundary ext s
  | .acctSel p value => Sys2Proof.Machine.execAcctSel p value s
  | .compress p ring => Sys2Proof.Machine.execCompress p ring s
  | .decompress p ring => Sys2Proof.Machine.execDecompress p ring s
  | .check p ring => Sys2Proof.Machine.execCheck p ring s
  | .crusherBlock engine ext upset => Sys2Proof.Machine.execCrusherBlock engine ext upset s
  | .crusherPreemption engine wid => Sys2Proof.Machine.execCrusherPreemption engine wid s
  | .feed unit port => Sys2Proof.Machine.execFeed unit port s
  | .alive unit port => Sys2Proof.Machine.execAlive unit port s
  | .markEnd unit port => Sys2Proof.Machine.execMarkEnd unit port s
  | .endNocheck unit port => Sys2Proof.Machine.execEndNocheck unit port s
  | .markRestart unit port => Sys2Proof.Machine.execMarkRestart unit port s
  | .snoopedMessage unit => Sys2Proof.Machine.execSnoopedMessage unit s
  | .markStall unit => Sys2Proof.Machine.execMarkStall unit s
  | .markRun p unit value => Sys2Proof.Machine.execMarkRun p unit value s
  | .markAttach unit value => Sys2Proof.Machine.execMarkAttach unit value s
  | .markGrant unit value => Sys2Proof.Machine.execMarkGrant unit value s
  | .flit port bytes => Sys2Proof.Machine.execFlit port bytes s
  | .retryTimeout port => Sys2Proof.Machine.execRetryTimeout port s
  | .symbolErrorWindow port errs => Sys2Proof.Machine.execSymbolErrorWindow port errs s
  | .training port => Sys2Proof.Machine.execTraining port s
  | .prbs31Test port good => Sys2Proof.Machine.execPrbs31Test port good s
  | .deviceIdExchange port id => Sys2Proof.Machine.execDeviceIdExchange port id s
  | .trainingDone port last => Sys2Proof.Machine.execTrainingDone port last s
  | .trainingTimeout port => Sys2Proof.Machine.execTrainingTimeout port s
  | .portDisable port => Sys2Proof.Machine.execPortDisable port s
  | .read port => Sys2Proof.Machine.execRead port s
  | .readReply port => Sys2Proof.Machine.execReadReply port s
  | .write port => Sys2Proof.Machine.execWrite port s
  | .writeAck port => Sys2Proof.Machine.execWriteAck port s
  | .importMsg port => Sys2Proof.Machine.execImportMsg port s
  | .importReply port => Sys2Proof.Machine.execImportReply port s
  | .releaseMessage port => Sys2Proof.Machine.execReleaseMessage port s
  | .haulReq port => Sys2Proof.Machine.execHaulReq port s
  | .haulBlock port => Sys2Proof.Machine.execHaulBlock port s
  | .stalled port => Sys2Proof.Machine.execStalled port s
  | .remoteTimeout tag => Sys2Proof.Machine.execRemoteTimeout tag s
  | .burstStall port vc => Sys2Proof.Machine.execBurstStall port vc s
  | .linkImportDrop value => Sys2Proof.Machine.execLinkImportDrop value s
  | .blRefclkLoss => Sys2Proof.Machine.execBlRefclkLoss s
  | .a2Request force => Sys2Proof.Machine.execA2Request force s
  | .a3Request force => Sys2Proof.Machine.execA3Request force s
  | .a4Request force => Sys2Proof.Machine.execA4Request force s
  | .pmeToAck d3hot => Sys2Proof.Machine.execPmeToAck d3hot s
  | .handshakeTimeout => Sys2Proof.Machine.execHandshakeTimeout s
  | .targetStateEntry => Sys2Proof.Machine.execTargetStateEntry s
  | .a1Entry => Sys2Proof.Machine.execA1Entry s
  | .a2Exit => Sys2Proof.Machine.execA2Exit s
  | .retainedDigestCheck good => Sys2Proof.Machine.execRetainedDigestCheck good s
  | .a2RefillEnd => Sys2Proof.Machine.execA2RefillEnd s
  | .a3Exit junction => Sys2Proof.Machine.execA3Exit junction s
  | .powerMean watts junction => Sys2Proof.Machine.execPowerMean watts junction s
  | .tclkThrottleStep => Sys2Proof.Machine.execTclkThrottleStep s
  | .tclkRaiseStep => Sys2Proof.Machine.execTclkRaiseStep s
  | .powerLimitAbort => Sys2Proof.Machine.execPowerLimitAbort s
  | .normalPlacementResume => Sys2Proof.Machine.execNormalPlacementResume s
  | .pwrCoolant value => Sys2Proof.Machine.execPwrCoolant value s
  | .coolantLoss => Sys2Proof.Machine.execCoolantLoss s
  | .coolantReportMissing => Sys2Proof.Machine.execCoolantReportMissing s
  | .coolantLossEnd => Sys2Proof.Machine.execCoolantLossEnd s
  | .thermalTrip => Sys2Proof.Machine.execThermalTrip s
  | .sample stream => Sys2Proof.Machine.execSample stream s
  | .sampleRecord stream bytes err => Sys2Proof.Machine.execSampleRecord stream bytes err s
  | .sampleStall stream got => Sys2Proof.Machine.execSampleStall stream got s
  | .weighbridgeWatchdog => Sys2Proof.Machine.execWeighbridgeWatchdog s
  | .weighbridgeResetEnd good => Sys2Proof.Machine.execWeighbridgeResetEnd good s
  | .classEvClear value => Sys2Proof.Machine.execClassEvClear value s
  | .stage pages => Sys2Proof.Machine.execStage pages s
  | .stageComplete r flashOk => Sys2Proof.Machine.execStageComplete r flashOk s
  | .activate => Sys2Proof.Machine.execActivate s
  | .standbySelfTest => Sys2Proof.Machine.execStandbySelfTest s
  | .roleMove => Sys2Proof.Machine.execRoleMove s
  | .confirm => Sys2Proof.Machine.execConfirm s
  | .selfConfirmation => Sys2Proof.Machine.execSelfConfirmation s
  | .healthWindowExpiry => Sys2Proof.Machine.execHealthWindowExpiry s
  | .restart => Sys2Proof.Machine.execRestart s
  | .fwCtlReserved => Sys2Proof.Machine.execFwCtlReserved s
  | .heartbeatMiss processor => Sys2Proof.Machine.execHeartbeatMiss processor s
  | .fwHaulEnable value => Sys2Proof.Machine.execFwHaulEnable value s
  | .haulRequestTimer => Sys2Proof.Machine.execHaulRequestTimer s
  | .getVersion msg => Sys2Proof.Machine.execGetVersion msg s
  | .getCapabilities msg => Sys2Proof.Machine.execGetCapabilities msg s
  | .negotiateAlgorithms msg => Sys2Proof.Machine.execNegotiateAlgorithms msg s
  | .getDigests msg => Sys2Proof.Machine.execGetDigests msg s
  | .getCertificate slot off len => Sys2Proof.Machine.execGetCertificate slot off len s
  | .challenge msg => Sys2Proof.Machine.execChallenge msg s
  | .getMeasurements index => Sys2Proof.Machine.execGetMeasurements index s
  | .keyExchange msg => Sys2Proof.Machine.execKeyExchange msg s
  | .finish session msg => Sys2Proof.Machine.execFinish session msg s
  | .endSession session msg => Sys2Proof.Machine.execEndSession session msg s
  | .keyUpdate session msg => Sys2Proof.Machine.execKeyUpdate session msg s
  | .heartbeat session msg => Sys2Proof.Machine.execHeartbeat session msg s
  | .vendorDefinedRequest known code nonce => Sys2Proof.Machine.execVendorDefinedRequest known code nonce s
  | .engineResetEnd engine => Sys2Proof.Machine.execEngineResetEnd engine s
  | .deferredWakeRelease junction => Sys2Proof.Machine.execDeferredWakeRelease junction s
  | .ideKm session op stream msg => Sys2Proof.Machine.execIdeKm session op stream msg s
  | .doeDiscovery index => Sys2Proof.Machine.execDoeDiscovery index s

end Sys2Proof.Machine
end

