-- ==== Sys2Proof/Machine/Step.lean ====
section
/-! DEFINITION. One step: the command at the front of the queue, or, with none waiting, one nanosecond of the block's own time. -/
namespace Sys2Proof.Machine

/-- One nanosecond passes: DTIME counts (01 R29), and the heads scan on (07 R270; DESIGN CHOICE: log 1). -/
def idle (s : State) : State :=
  tickHead (tickHead { s with dtime := (s.dtime + 1) % 2 ^ 64 } 0) 1

/-- The command at the front of the queue, if any, is taken and has its effect. -/
def step (s : State) : Host.Outcome State Fault Refusal :=
  match s.pending with
  | [] => .next (idle s)
  | c :: rest => exec c { s with pending := rest }

/-- The state with the command that a word spells in front of the queue; no word spells one (95). -/
def State.withFetchWord (s : State) (nbits w : Nat) : State :=
  match Sys2Proof.decodeTableWord nbits w with
  | some c => { s with pending := c :: s.pending }
  | none => s

end Sys2Proof.Machine
end

