-- ==== Sys2Proof/Safety.lean ====
section
/-! DEFINITION. What the statements call a safe step and a sound state. -/
namespace Sys2Proof.Machine

/-- A step that answers a next state: the block goes on. -/
def goesOn (o : Host.Outcome State Fault Refusal) : Prop :=
  ∃ t, o = .next t

/-- The canonical forms: registers and DRAM list nothing that an unlisted key would read as, in rising order; and the fixed parts of
the device are there (two heads, four link ports, two firmware slots). -/
def State.Sound (s : State) : Prop :=
  mwfD s.regs resetVal = true ∧ mwfD s.mem.dram (fun _ => 0) = true ∧ s.heads.length = 2 ∧ s.link.ports.length = 4 ∧
    s.sec.slots.length = 2

/-- Of the registers, only those at `ks` may differ between two states. -/
def onlyRegs (s t : State) (ks : List Nat) : Prop :=
  ∀ k, k ∉ ks → rd t k = rd s k

/-- The commands that host software sends as writes of BAR0 registers that recovery does not serve (16 R659). -/
def hostWritten (c : Instr) : Bool :=
  match c with
  | .msixUnmask _ _ | .pcieMsixAllocWrite _ _ | .partCreate _ _ _ | .partDestroy _ | .setGrant _ _ | .ringCreate _ _ _
  | .ringDestroy _ _ | .ringStop _ _ | .ringResume _ _ | .ringQuery _ _ | .ringCmdReserved _ _ | .gantryWake _ _
  | .geomBinGrant _ _ | .dressFlip _ _ _ | .headEnable _ _ | .headDisable _ | .dsiCommand _ | .memXlateInval _ _ | .readRaw _
  | .writeRaw _ | .encode _ | .errFrameRetire _ | .errCoreRetire _ | .objCreate _ _ _ | .addRef _ _ | .release _ _ | .signal _ _
  | .objRead _ _ | .objQuery _ _ | .arm _ _ | .kill _ _ | .ownerGone _ _ | .objCmdReserved _ _ | .faultqTail _ _ | .acctSel _ _
  | .markRun _ _ _ | .markAttach _ _ | .markGrant _ _ | .portDisable _ | .linkImportDrop _ | .a2Request _ | .a3Request _
  | .a4Request _ | .pwrCoolant _ | .classEvClear _ | .fwHaulEnable _ => true
  | _ => false

end Sys2Proof.Machine
end

