-- ==== Sys2Proof/Certificates/Slice0/Obligations.lean ====
section
/-! DEFINITION. The statements for the provers. A completion statement says, for each command it names, the next state that `exec`
answers under hypotheses on the state and the operands alone; where an answer is spelled as a state, everything that state does not
change is the frame. In the statements about commands that host software sends, `u` is the state that any inbound request leaves. -/

open Sys2Proof Sys2Proof.Machine

/-- A step with a command in front of the queue is that command's effect, with the rest of the queue
(95_what_each_step_holds.md). -/
def Obligations.StepRunsFrontCommand : Prop :=
  ∀ (s : State) (c : Instr), step { s with pending := c :: s.pending } = exec c s

/-- On an empty queue the block idles: one nanosecond passes, and the heads scan on (01 R29; 07 R270). -/
def Obligations.EmptyQueueIdles : Prop :=
  ∀ s : State, s.pending = [] → ∃ t, step s = .next t ∧ t.dtime = (s.dtime + 1) % 2 ^ 64 ∧ t.pending = [] ∧ t.mem = s.mem ∧
    t.host = s.host ∧ t.core = s.core ∧ t.sched = s.sched ∧ t.sec = s.sec ∧ t.power = s.power

/-- After reset every register but PWR_STATUS reads its reset value, DRAM is zero, nothing is created, and the state is sound
(PWR_STATUS at P1, DRAM and the values the spec does not give: DESIGN CHOICE, logs 4 and 5) (01 R29; 18 R716). -/
def Obligations.ResetState : Prop :=
  ((∀ k, k ≠ Reg.pwrStatus → rd State.reset k = resetVal k) ∧ (∀ pp i, rawByte State.reset pp i = 0) ∧ State.reset.pending = [] ∧
      (∀ p : Part, (partOf State.reset p.toNat).created = false) ∧ State.reset.host.rings = [] ∧ State.reset.sec.recovery = false) ∧
  (State.reset.Sound)

/-- Every step keeps the canonical forms and the fixed parts of the device (09 R349; 18 R703). -/
def Obligations.EveryStepKeepsSound : Prop :=
  ∀ s t : State, s.Sound → step s = .next t → t.Sound

/-- Commands are taken first in, first out: no command touches the rest of the queue (18 R714). -/
def Obligations.StepsTakeQueueInOrder : Prop :=
  ∀ (s t : State) (c : Instr) (rest : List Instr), s.pending = c :: rest → step s = .next t → t.pending = rest

/-- Every command goes on in every state: the block never stops (95_what_each_step_holds.md). -/
def Obligations.NoCommandStops : Prop :=
  ∀ (c : Instr) (s : State), goesOn (exec c s)

/-- In recovery a command that software sends as a write of a register changes nothing beyond what any inbound request does (16
R659). -/
def Obligations.RecoveryIgnoresHostCommands : Prop :=
  ∀ (c : Instr) (s : State), s.sec.recovery = true → hostWritten c = true → exec c s = .next (hostTouch s)

/-- The steps of start-up, each where it is the next one, the choices they make, and the record of repairs (01 R17; 09 R362,
R377; 14 R588; 16 R645, R647, R653, R654, R657, R658, R665, R667). -/
def Obligations.BootStepsComplete : Prop :=
  (∀ s : State,
      (bootStep s 2 = true → ∀ u : BitVec 128, ∃ t, exec (.keyDerivation (some u)) s = .next t ∧ t.sec.uid = u.toNat ∧ t.sec.ident = true ∧
        t.sec.step = 2 ∧ t.sec.recovery = false ∧ { t with sec := s.sec } = s) ∧
      (bootStep s 3 = true → ∀ (b0 b1 : BitVec 2) (x y : Nat), recJudge s 0 b0 = .inl x → recJudge s 1 b1 = .inl y →
        ∃ t, exec (.configurationRecordChoice b0 b1) s = .next t ∧ t.sec.taken = some (if x < y then 1 else 0) ∧ t.sec.step = 3 ∧
          { t with sec := s.sec } = s) ∧
      (bootStep s 4 = true → ∀ id : BitVec 3, ∃ t, exec (.stackTraining true id) s = .next t ∧ rdF t Reg.linkId 2 0 = id.toNat ∧
        t.sec.step = 4 ∧ t.mem = s.mem ∧ t.fresh = s.fresh + 1) ∧
      (bootStep s 5 = true → s.sec.filled = false →
        ∃ t, exec .memoryFill s = .next t ∧ t.sec.filled = true ∧ t.mem.dram = [] ∧ t.mem.claims = [] ∧
          { t with sec := s.sec, mem := s.mem } = s) ∧
      (bootStep s 5 = true → s.sec.filled = true → s.sec.verified = true → ∀ i, s.sec.running = some i →
        ∃ t, exec .gantryRelease s = .next t ∧ t.sec.step = 6 ∧ t.mem = s.mem ∧ t.regs = s.regs) ∧
      (bootStep s 8 = true → ∃ t, exec .ready s = .next t ∧ t.sec.step = 8 ∧ rdF t Reg.fwStatus 1 1 = 1 ∧ rdF t Reg.fwStatus 2 2 = 0 ∧
        t.mem = s.mem ∧ t.host = s.host)) ∧
  (∀ s : State,
      (bootStep s 5 = true → s.sec.verified = false → s.sec.trial = none → ∀ (a : FwSlot) (b : FwSlot),
        s.sec.slots = [a, b] → a.state = 3 → b.state ≠ 2 →
        ∃ t, exec .slotBootVerify s = .next t ∧ t.sec.verified = true ∧ t.mem = s.mem ∧
          ((checkImage (loadKeys s) a.img).result = 0 → t.sec.running = some 0 ∧ t.host = s.host)) ∧
      (bootStep s 7 = true → ∀ back, ∃ t, exec (.logicalCoreAssignment back) s = .next t ∧ t.sec.step = 7) ∧
      (∀ (i : Nat) (r : ConfigRec), s.sec.taken = some i → (s.sec.recs[i]?).join = some r → s.sec.repairs ≠ [] → s.sec.ident = true →
        lmsLeft s ≠ 0 → ∃ t, exec (.configurationRecordAppend true) s = .next t ∧ t.sec.cfgGen = r.gen + 1 ∧ t.sec.taken = some (1 - i) ∧
          t.sec.repairs = [] ∧ t.mem = s.mem))

/-- The supply and the reset pin (17 R681, R685, R686, R687, R688, R689, R690). -/
def Obligations.PinCommandsComplete : Prop :=
  ∀ s : State,
    (s.sec.pwrgd = false → ∀ f, ∃ t, exec (.powerOn f) s = .next t ∧ t.sec.pwrgd = true ∧ t.sec.boots = s.sec.boots + 1 ∧
      t.sec.step = (if f then 0 else 1) ∧ t.regs = State.reset.regs ∧ t.mem = State.reset.mem ∧ t.host = State.reset.host ∧
      t.sec.slots = s.sec.slots) ∧
    (s.sec.pwrgd = true → ∃ t, exec .pwrgdDeassert s = .next t ∧ exec .railUndervoltage s = .next t ∧ t.sec.pwrgd = false ∧ t.regs = State.reset.regs ∧ t.mem = State.reset.mem ∧ t.sec.slots = s.sec.slots ∧
        t.dtime = s.dtime) ∧
    (s.sec.pwrgd = true → s.sec.perst = false → pwrState s < 2 → s.sec.cause ≠ .powerOn →
      ∃ t, exec .perstAssert s = .next t ∧ t.sec.perst = true ∧ t.sec.held = true ∧ t.mem = State.reset.mem ∧
        t.regs = keptRegs s) ∧
    (s.sec.pwrgd = true → s.sec.perst = true → s.sec.held = true → s.sec.factory = true →
      ∃ t, exec .perstRelease s = .next t ∧ t.sec.perst = false ∧ t.mem = s.mem ∧ t.regs = s.regs)

/-- The resets of the functions (10 R395). -/
def Obligations.FunctionResetsComplete : Prop :=
  (∀ s, exec .hotReset s = .next (settle (resetPf s)) ∧ exec .linkDownReset s = exec .hotReset s ∧
      exec .pfFlr s = exec .hotReset (hostTouch s) ∧ (resetPf s).host.pcie = State.reset.host.pcie) ∧
  (∀ (n : Part) (s u : State), u = hostTouch s → n ≠ 0 → (partOf u n.toNat).created = false →
    ∃ t, exec (.vfFlr n) s = .next t ∧ (∀ k, inPage n.toNat k = true → rd t k = resetVal k) ∧
      (∀ k, inPage n.toNat k = false → rd t k = rd u k) ∧ (∀ i, i < 2048 → msixGet t n.toNat i = msixGet State.reset 0 0) ∧ t.mem = u.mem) ∧
  (∀ s u, u = hostTouch s → exec .vfEnableClear s = .next (settle (clearVfs u)) ∧ (clearVfs u).host.pcie.vfEnable = false)

/-- MSI-X and the accesses of the functions' BARs (00 R10; 10 R391, R398, R399, R426). -/
def Obligations.PcieCommandsComplete : Prop :=
  (∀ (fn : Part) (i : BitVec 11) (s u : State), s.sec.recovery = false → u = hostTouch s → i.toNat < msixSize u fn.toNat →
    ((msixGet u fn.toNat i.toNat).pend = true → u.host.pcie.funcMask.getLsbD fn.toNat = false → u.host.pcie.msixEnable.getLsbD fn.toNat = true →
      ∃ t, exec (.msixUnmask fn i) s = .next t ∧ t.out = u.out ++ [.msix fn.toNat i.toNat] ∧
        msixGet t fn.toNat i.toNat = { msixGet u fn.toNat i.toNat with masked := false, pend := false } ∧ t.regs = u.regs ∧ t.mem = u.mem) ∧
    ((msixGet u fn.toNat i.toNat).pend = false →
      ∃ t, exec (.msixUnmask fn i) s = .next t ∧ t.out = u.out ∧
        msixGet t fn.toNat i.toNat = { msixGet u fn.toNat i.toNat with masked := false } ∧ t.regs = u.regs ∧ t.mem = u.mem)) ∧
  (∀ (fn : Part) (v : Word32) (s u : State), s.sec.recovery = false → u = hostTouch s →
    allocRefused u fn.toNat (bitsN v.toNat 11 0) = false →
      ∃ t, exec (.pcieMsixAllocWrite fn v) s = .next t ∧ msixSize t fn.toNat = bitsN v.toNat 11 0 ∧
        (∀ k, k ≠ Reg.pcieMsixAlloc fn.toNat → rd t k = rd u k) ∧ { t with regs := u.regs } = u) ∧
  (∀ (p : Part) (i : BitVec 10) (s : State) (r : Ring), mget s.host.rings (rkey p.toNat i.toNat) = some r →
    due s r.pollAt (timeoutNs s.host.pcie.cto) = true → r.poll = true → r.state = .active →
      exec (.completionTimeout (.tail p i)) s = exec (.tailReadReturn p i (.fail .timeout)) s) ∧
  (∀ (fn : Part) (off : BitVec 26) (n : Nat) (s u : State), u = hostTouch s → accessOk fn.toNat off.toNat n = false →
    exec (.unsupportedBarAccess fn off n false) s = .next u ∧
      ∃ t, exec (.unsupportedBarAccess fn off n true) s = .next t ∧ t.out = u.out ++ [.barRead fn.toNat (zeroBytes n)] ∧ { t with out := u.out } = u)

/-- A write of a register by its access types, and of configuration space (00 R6, R8, R10, R11; 18 R713, R714). -/
def Obligations.RegisterWritesComplete : Prop :=
  ∀ (fn : Part) (s u : State), u = hostTouch s →
    (∀ (off : BitVec 26) (v : Word) k d, accessOk fn.toNat off.toNat 4 = true → inMbox fn.toNat off.toNat = false →
      ¬ (0x20000 ≤ off.toNat ∧ off.toNat < 0x28000) → barKey u fn.toNat off.toNat = some k → regAt k = some d → d.width = 32 →
      voidWrite u k d (v &&& 0xFFFFFFFF) = false → ∀ t, t = wr u k (putFields d (v &&& 0xFFFFFFFF) (lockSet u k d)
        (frozenField u k (v &&& 0xFFFFFFFF)) (rd u k)) →
      exec (.registerWrite (.bar fn off .b4 v)) s = .next (afterWrite u t k (v &&& 0xFFFFFFFF))) ∧
    (∀ (off : BitVec 26) (v : Word) k d, accessOk fn.toNat off.toNat 8 = true → inMbox fn.toNat off.toNat = false →
      barKey u fn.toNat off.toNat = some k → regAt k = some d → d.width = 64 → voidWrite u k d v = false →
      ∀ t, t = wr u k (putFields d v (lockSet u k d) (frozenField u k v) (rd u k)) →
      exec (.registerWrite (.bar fn off .b8 v)) s = .next (afterWrite u t k v)) ∧
    (∀ off z v, accessOk fn.toNat off.toNat (sizeBytes z) = false → exec (.registerWrite (.bar fn off z v)) s = .next u) ∧
    (∀ c v, exec (.registerWrite (.cfg fn c v)) s = .next (cfgWrite u fn.toNat c v))

/-- PART_CMD and the filling of claims (08 R306; 10 R400, R403, R404, R405, R406). -/
def Obligations.PartitionCommandsComplete : Prop :=
  ∀ (p : Part) (s u : State), s.sec.recovery = false → u = hostTouch s →
    (partTaken u = true → (partOf u p.toNat).created = true → (partOf u p.toNat).destroying = false →
      exec (.partDestroy p) s =
        .next (settle (destroyPart (wr { u with host := { u.host with partCmd := some p.toNat } } Reg.partStatus 1) p.toNat)) ∧
      ∀ g, ∃ t, exec (.setGrant p g) s = .next t ∧ t.mem.grant.getLsbD p.toNat = g ∧ rdF t Reg.partStatus 0 0 = 0 ∧
        rdF t Reg.partStatus 15 8 = PartRes.ok ∧ t.mem.dram = u.mem.dram ∧ t.host = u.host) ∧
    (partTaken u = true → ∀ h c r i, createJudge u p.toNat h c = (r, i) → r ≠ 0 →
      exec (.partCreate p h c) s = .next (settle (partResult u r i))) ∧
    (partTaken u = true → ∀ b l i, createJudge u p.toNat (.ok b) (.ok l) = (0, i) →
      exec (.partCreate p (.ok b) (.ok l)) s =
        .next (settle (partResult (createPart u p.toNat b (claimEntries l (hdrClaims b))) PartRes.ok 0))) ∧
    (∀ (n : BitVec 7) (rest : List Nat), s.mem.fillQ = n.toNat :: rest → (∀ q ∈ s.host.parts, q.2.destroying = false) →
      ∃ t, exec (.claimFillingEnd n) s = .next t ∧ t.mem.fillQ = rest ∧ (claimOf t n.toNat).kind = .free ∧ t.regs = s.regs)

/-- RING CREATE, DESTROY, STOP and RESUME of an accepted RING_CMD write (10 R410). -/
def Obligations.RingLifeCommandsComplete : Prop :=
  ∀ (p : Part) (ring : BitVec 10) (s u : State) (rk : Nat), s.sec.recovery = false → u = hostTouch s →
    ringCmdTaken u p.toNat = true → rk = rkey p.toNat ring.toNat →
    (∀ b, ringCreateResult u p.toNat ring.toNat (.ok b) = 0 →
      ∃ t, exec (.ringCreate p ring (.ok b)) s = .next t ∧ mget t.host.rings rk = some (newRing u b) ∧
        rd t (pkey p.toNat Reg.ringCmdStatus) = 2 ∧ t.mem = u.mem) ∧
    (∀ d, ringCreateResult u p.toNat ring.toNat d ≠ 0 →
      ∃ t, exec (.ringCreate p ring d) s = .next t ∧ { t with regs := u.regs } = u ∧ onlyRegs u t [pkey p.toNat Reg.ringCmdStatus] ∧
        rd t (pkey p.toNat Reg.ringCmdStatus) = BitVec.ofNat 64 (ringCode u rk * 2 + ringCreateResult u p.toNat ring.toNat d * 256)) ∧
    (∀ r, (partOf u p.toNat).created = true → mget u.host.rings rk = some r →
      exec (.ringDestroy p ring) s = .next (settle (stopRing u rk .destroy)) ∧
      (r.state = .active ∨ r.state = .idle → exec (.ringStop p ring) s = .next (settle (stopRing u rk .stop))) ∧
      (r.state = .stopped ∨ r.state = .error → ctxLive u r.ctx = true →
        exec (.ringResume p ring) s = .next (checkDrain (ringPending (setRing u rk { r with waitFor := some .resume }) p.toNat) rk)))

/-- What a ring's polls, its idle sequence and a WAKE do (10 R426, R427, R428, R431, R432). -/
def Obligations.RingTailCommandsComplete : Prop :=
  ∀ (p : Part) (i : BitVec 10) (s : State) (rk : Nat) (r : Ring), rk = rkey p.toNat i.toNat → mget s.host.rings rk = some r →
    (mayPoll s r = true → ∃ t, exec (.tailPoll p i) s = .next t ∧ t.out = s.out ++ [.hostRead p.toNat r.doorbell 4] ∧
      mget t.host.rings rk = some { r with poll := true, pollFresh := r.wake, pollAt := s.dtime } ∧
      { t with host := s.host, out := s.out } = s) ∧
    (mayIdle s r = true → ∃ t, exec (.idleSequence p i) s = .next t ∧
      t.out = s.out ++ [.hostWrite p.toNat (r.doorbell + 8) (leBytes 8 1), .hostRead p.toNat r.doorbell 4] ∧
      mget t.host.rings rk = some { r with d2 := true, d2Fresh := false, pollAt := s.dtime } ∧
      { t with host := s.host, out := s.out } = s) ∧
    (∀ b, r.poll = true → r.state = .active → tailValid r (fieldAt b 0 4) = true →
      exec (.tailReadReturn p i (.ok b)) s = .next (settle (setRing s rk { r with
        poll := false, pollFresh := false, wake := r.wake && ! r.pollFresh, lastTail := fieldAt b 0 4,
        tailSince := if fieldAt b 0 4 = r.lastTail then r.tailSince else s.dtime }))) ∧
    (∀ b, r.d2 = true → r.state = .active → r.wake = false → tailValid r (fieldAt b 0 4) = true → tailAhead r (fieldAt b 0 4) = false →
      exec (.idleTailReturn p i (.ok b)) s = .next (settle (setRing s rk { r with
        d2 := false, d2Fresh := false, state := .idle, lastTail := fieldAt b 0 4 }))) ∧
    (∀ (v : Word32), s.sec.recovery = false → v.toNat % 1024 = i.toNat → s = hostTouch s → (partOf s p.toNat).created = true →
      (partOf s p.toNat).destroying = false → r.state = .active →
      exec (.gantryWake p v) s = .next (settle (setRing s rk { r with wake := true })))

/-- Fetch, step 3, admission and retirement of entries, and RING_QUERY (10 R410, R412, R417, R418, R419, R433). -/
def Obligations.RingEntryCommandsComplete : Prop :=
  (∀ (p : Part) (i : BitVec 10) (s : State) (rk : Nat) (r : Ring), rk = rkey p.toNat i.toNat → mget s.host.rings rk = some r →
    (∀ b, fetchHalted s = false → r.state = .active → tailAhead r r.lastTail = true → lead r < 17 → r.inDevice = false →
      exec (.entryFetch p i false (.ok b)) s = .next (settle (bumpWid (setRing s rk { r with
        entries := r.entries ++ [newEntry s r.fetched none (padTo 64 b) (slotAddr r + 2 ^ 63)], fetched := (r.fetched + 1) % 2 ^ 32 })))) ∧
    (∀ e d, headEntry r = some e → e.step = .payload → mayAdvance r e = true →
      exec (.payloadRead p i d) s = .next (settle (readPayload s rk r e d))) ∧
    (∀ e, headEntry r = some e → e.step = .room → isCall e = true ∨ hasRoom s p.toNat = true → planRoom s p.toNat e = true →
      exec (.inFlightAdmission p i) s = .next (takeRoom s rk r e))) ∧
  (∀ (wid code rk : Nat) (s : State), mget s.host.finished wid = some code → ringOfWid s wid = some rk →
    exec (.entryRetirement wid) s = .next (settle (retireEntry s rk wid code))) ∧
  (∀ (p : Part) (i : BitVec 10) (s u : State), s.sec.recovery = false → u = hostTouch s → ringCmdTaken u p.toNat = true →
    ∃ t v, exec (.ringQuery p i) s = .next t ∧ exec (.ringCmdReserved p i) s = .next v ∧
      rd t (pkey p.toNat Reg.ringCmdStatus) =
        BitVec.ofNat 64 (ringCode u (rkey p.toNat i.toNat) * 2 + (if (partOf u p.toNat).created then 0 else 6) * 256) ∧
      rd v (pkey p.toNat Reg.ringCmdStatus) =
        BitVec.ofNat 64 (ringCode u (rkey p.toNat i.toNat) * 2 + (if (partOf u p.toNat).created then 2 else 6) * 256) ∧
      { t with regs := u.regs } = u ∧ onlyRegs u t [pkey p.toNat Reg.ringCmdStatus] ∧
      { v with regs := u.regs } = u ∧ onlyRegs u v [pkey p.toNat Reg.ringCmdStatus])

/-- The entries that retire at step 6, and CALL (10 R416, R419, R422, R423, R424). -/
def Obligations.PlainEntriesComplete : Prop :=
  ∀ (p : Part) (i : BitVec 10) (s : State) (rk : Nat) (r : Ring) (e : Entry), rk = rkey p.toNat i.toNat →
    (readyEntry s p.toNat i.toNat 0x00 = some (r, e) →
      exec (.nop p i) s = .next (settle (retireEntry (dispatched s rk r e) rk e.wid 0))) ∧
    (readyEntry s p.toNat i.toNat 0x0D = some (r, e) → exec (.call p i) s = .next (settle (dispatched s rk r e))) ∧
    (readyEntry s p.toNat i.toNat 0x09 = some (r, e) →
      exec (.segUpdate p i) s =
        .next (settle (retireEntry (dispatched (setTable s (updTable rk r e) ((segSlices e.desc).map parseSeg)) rk r e) rk e.wid 0))) ∧
    (∀ s1, readyEntry s p.toNat i.toNat 0x0E = some (r, e) → stampWrite s r.ctx (ePayload e.bytes) e.step2End = (s1, none) →
      exec (.timestamp p i) s = .next (settle (retireEntry (dispatched s1 rk r e) rk e.wid 0)))

/-- Entries dispatched to engines (03 R86; 05 R170, R182; 09 R364; 10 R416, R420, R421). -/
def Obligations.EngineEntriesComplete : Prop :=
  ∀ (p : Part) (i : BitVec 10) (s : State) (rk : Nat) (r : Ring) (e : Entry), rk = rkey p.toNat i.toNat →
    (readyEntry s p.toNat i.toNat 0x01 = some (r, e) →
      exec (.dispatch p i) s = .next (settle (startDispatch (dispatched s rk r e) (entryOrigin rk r e) e.desc))) ∧
    (readyEntry s p.toNat i.toNat 0x02 = some (r, e) →
      exec (.tensor p i) s = .next (settle (startTensor (dispatched s rk r e) (entryOrigin rk r e) e.desc (ePayload e.bytes)))) ∧
    (readyEntry s p.toNat i.toNat 0x07 = some (r, e) →
      ∃ t, exec (.loadModule p i) s = .next (settle t) ∧ { t with core := (dispatched s rk r e).core } = dispatched s rk r e ∧
        mgetD t.core.loads p.toNat [] = mgetD (dispatched s rk r e).core.loads p.toNat [] ++
          [{ org := entryOrigin rk r e, desc := e.desc, start := s.dtime }]) ∧
    (∀ k m, readyEntry s p.toNat i.toNat 0x08 = some (r, e) → findModule s p.toNat (eArg e.bytes % 2 ^ 32) = some (k, m) →
      ∃ t, exec (.unloadModule p i) s = .next (settle t) ∧ { t with core := (dispatched s rk r e).core } = dispatched s rk r e ∧
        mget t.core.modUnloads e.wid = some k) ∧
    (∀ q, readyEntry s p.toNat i.toNat 0x04 = some (r, e) → newCopy s (entryOrigin rk r e) .copy
        (fAt e.desc 0 47 0) (fAt e.desc 8 47 0) (fAt e.desc 16 31 0) 0 = q →
      exec (.copy p i) s = .next (settle (addCopy (dispatched s rk r e) q))) ∧
    (∀ q, readyEntry s p.toNat i.toNat 0x06 = some (r, e) → newCopy s (entryOrigin rk r e)
        (.scrub (fAt e.desc 0 0 0 = 1) (fAt e.desc 0 1 1 = 1)) (if fAt e.desc 0 0 0 = 1 then fAt e.desc 8 36 0 else fAt e.desc 8 47 0)
        0 (fAt e.desc 16 31 0) (fAt e.desc 24 47 0) = q →
      exec (.scrub p i) s = .next (settle (addCopy (dispatched s rk r e) q)))

/-- The five cache operations, each under its own code (08 R336). -/
def Obligations.CacheEntriesComplete : Prop :=
  ∀ (p : Part) (i : BitVec 10) (s : State) (rk : Nat) (r : Ring) (e : Entry) (q : CopyKind → CopyOp),
    rk = rkey p.toNat i.toNat → readyEntry s p.toNat i.toNat 0x05 = some (r, e) →
    (∀ k, q k = newCopy s (entryOrigin rk r e) k (fAt e.desc 8 47 0) 0 (fAt e.desc 16 31 0) (fAt e.desc 24 47 0)) →
    (fAt e.desc 0 3 0 = 1 → exec (.zero p i) s = .next (settle (addCopy (dispatched s rk r e) (q .zero)))) ∧
    (fAt e.desc 0 3 0 = 2 → exec (.preload p i) s = .next (settle (addCopy (dispatched s rk r e) (q .preload)))) ∧
    (fAt e.desc 0 3 0 = 3 → exec (.preloadLock p i) s = .next (settle (addCopy (dispatched s rk r e) (q .preloadLock)))) ∧
    (fAt e.desc 0 3 0 = 4 → exec (.unlock p i) s = .next (settle (addCopy (dispatched s rk r e) (q .unlock)))) ∧
    (fAt e.desc 0 3 0 = 5 → exec (.writeback p i) s = .next (settle (addCopy (dispatched s rk r e) (q .writeback))))

/-- The units of a copy engine, its preemption, the end of a module load, and the steps of tensor work (03 R75, R78, R81, R85,
R103, R108, R109, R111; 05 R174; 10 R718; 12 R516). -/
def Obligations.EngineStepsComplete : Prop :=
  (∀ (c : BitVec 2) (ext : HostRead) (s : State) (op : CopyOp), copyNext s c.toNat = some op →
    exec (.copyEngineBoundary c ext) s = .next (settle (copyStep s c.toNat op ext))) ∧
  (∀ (c : BitVec 2) (wid : Nat) (s : State) (op : CopyOp), (copiesOf s c.toNat).find? (fun q => q.org.wid = wid) = some op →
    (Engine.copy c.toNat, wid) ∈ s.sched.stopOps ∨ (Engine.copy c.toNat, op.org.ctx) ∈ s.sched.stopCtx →
    exec (.copyPreemption c wid) s = .next (preemptCopy (stopMade s (Engine.copy c.toNat) wid) c.toNat op)) ∧
  (∀ (p : Part) (a b : HostRead) (f : Findings) (s : State) (l : LoadOp) (rest : List LoadOp),
    mgetD s.core.loads p.toNat [] = l :: rest →
    exec (.moduleLoadEnd p a b f) s = .next (endLoad s p.toNat l rest a b f)) ∧
  (∀ (n : CoreId) (s : State),
    exec (.tensorResume n) s = .next (noteConds (placeRun s n.toNat (fun r => r.saved.isSome))) ∧
    (coreLive s n.toNat = true → headLive s n.toNat = true → exec (.kStep n) s = .next (arrayStep s n.toNat)) ∧
    ∀ r rest it, queueOf s n.toNat = r :: rest → headLive s n.toNat = true → (arrayFault s n.toNat r.item).isSome →
      itemOf ((faultingArrays s r.item).foldl (fun s n => arrayRecord s n r.item) s) r.item = some it →
      exec (.tensorFault n) s = .next (noteConds (stopItem ((faultingArrays s r.item).foldl (fun s n => arrayRecord s n r.item) s) r.item it))) ∧
  (∀ (item : Nat) (s : State) (it : TItem), itemOf s item = some it → it.runsLeft = 0 → itemFirst s item it = true →
    exec (.tensorCompletion item) s = .next (settle (endItem s item it))) ∧
  (∀ (n : CoreId) (item : Nat) (s : State) (r : TRun) (it : TItem),
    (queueOf s n.toNat).find? (fun r => r.item = item) = some r → itemOf s item = some it → arrayAsked s n.toNat item it = true →
    exec (.tensorPreemption n item) s = .next (noteConds (stopMade (saveRun s n.toNat r it) (Engine.tensor n.toNat) item)))

/-- A group's instruction: what each operation leaves in the registers of the active threads, and where it goes on (04 R124,
R135, R151). -/
def Obligations.GroupInstructionsComplete : Prop :=
  ∀ (n : CoreId) (gid : Nat) (op : CoreOp) (s : State) (w : WG) (g : Group) (z : Bool), readyGroup s n.toNat gid (opUses op) = some (w, g) →
    z = ftzOf s w →
    exec (.groupInstruction n gid op) s = .next (match op with
      | .int f b dst x y => nextInstr s n.toNat w (perThread g (fun t h =>
          regWrN h t dst (wideRegs b) (intFn f b (srcWide g t b x) (srcWide g t b y))))
      | .cmp f b dst x y => nextInstr s n.toNat w (perThread g (fun t h =>
          regWrN h t dst 1 (b2n (intCmp f b (srcWide g t b x) (srcWide g t b y)))))
      | .fp f dst x y c => nextInstr s n.toNat w (perThread g (fun t h =>
          regWrN h t dst 1 (fpFn f z (srcVal g t x) (srcVal g t y) (srcVal g t c))))
      | .fcmp f dst x y => nextInstr s n.toNat w (perThread g (fun t h =>
          regWrN h t dst 1 (b2n (fpCmp f z (srcVal g t x) (srcVal g t y)))))
      | .cvt f dst x => nextInstr s n.toNat w (perThread g (fun t h =>
          regWrN h t dst (cvtWidths f).2 (cvtFn f z (srcWide g t (32 * (cvtWidths f).1) x))))
      | .select b dst c x y => nextInstr s n.toNat w (perThread g (fun t h =>
          regWrN h t dst (wideRegs b) (if srcVal g t c ≠ 0 then srcWide g t b x else srcWide g t b y)))
      | .other dst k _ => nextInstr (draw s).2 n.toNat w (perThread g (fun t h =>
          (List.range k).foldl (fun h i => regWrN h t (dst + i) 1 (Config.freeNat ((draw s).1 + 256 * t + i))) h))
      | .switch sel cases d => setGroup s n.toNat w (branchSet (countIssue g) (branchTo g sel cases d))
      | .exit_ => exitSet s n.toNat w g false
      | .discard => exitSet s n.toNat w g true
      | .demote => nextInstr (updFrags s n.toNat w g.gid g.cur.mask (fun f => { f with killed := true })) n.toNat w g
      | .unreachable => settle (coreFaultAt s n.toNat w g Cond.groupTrap 0 g.cur.mask 0 0)
      | .badFetch => settle (coreFaultAt s n.toNat w g Cond.illegalInstr 0 g.cur.mask 0 0)
      | .builtIn b dst => writeOpt s n.toNat w g dst (builtInVal s n.toNat w g b)
      | .push off k dst => opPush s n.toNat w g off k dst
      | .output slot x => (threadsOf g.cur.mask).foldl (fun s t => putOutput s n.toNat w g.gid t slot (srcVal g t x))
          (nextInstr s n.toNat w g)
      | .vertexIn loc dst => opVertexIn s n.toNat w g loc dst
      | .stageIn slot inv dst => writeOpt s n.toNat w g dst (fun t => stageValue s n.toNat w slot t (srcVal g t inv))
      | .varying dst k => nextInstr (draw s).2 n.toNat w (perThread g (fun t h =>
          (List.range k).foldl (fun h i => regWrN h t (dst + i) 1 (Config.freeNat ((draw s).1 + 256 * t + i))) h))
      | .attachment plane sample dst => nextInstr (draw s).2 n.toNat w (writeFour g dst (draw s).1
          ((threadsOf g.cur.mask).map (fun t => (t, attachValue s n.toNat w g plane sample t))))
      | .interlockEnd => nextInstr s n.toNat w g)

/-- Loads, stores and atomics whose threads' accesses are all allowed, and the delivery of what a read returned (04 R144, R147,
R148, R150, R151, R158, R159, R163, R166; 05 R191; 08 R321, R330). -/
def Obligations.CoreAccessesComplete : Prop :=
  (∀ (n : CoreId) (gid : Nat) (p : MemPtr) (z : MemSize) (s u : State) (w : WG) (g : Group) (base : Nat × Nat) (reg : Nat),
    readyGroup s n.toNat gid (ptrUses p ++ (List.range (regsOfSize (Sys2Proof.Machine.sizeOf z))).map (reg + ·)) = some (w, g) →
    ptrBase s n.toNat w gid p = (u, .inr base) →
    (∀ vol nt, accessFaults u n.toNat w .read (Sys2Proof.Machine.sizeOf z) (targetsOf g (Sys2Proof.Machine.sizeOf z) p base) = [] →
      walkersFree u n.toNat w (targetsOf g (Sys2Proof.Machine.sizeOf z) p base) = true →
      exec (.load n gid p z reg vol nt) s =
        .next (startLoads u n.toNat w g (Sys2Proof.Machine.sizeOf z) reg vol nt (targetsOf g (Sys2Proof.Machine.sizeOf z) p base))) ∧
    (∀ (v : State) (l : List (Nat × Target × Loc)) (data : Nat → List Byte), prepare u n.toNat w .write (Sys2Proof.Machine.sizeOf z) (targetsOf g (Sys2Proof.Machine.sizeOf z) p base) = (v, [], l) →
      (∀ t, data t = (((List.range (regsOfSize (Sys2Proof.Machine.sizeOf z))).flatMap (fun i => leBytes 4 (regRd g t (reg + i)).toNat))).take (Sys2Proof.Machine.sizeOf z)) →
      exec (.store n gid p z reg) s = .next (sendPeers
        (l.foldl (fun s e => storeOne s n.toNat w.wgid e.2 (data e.1)) (nextInstr v n.toNat w g)) n.toNat gid w.org
        (l.filterMap (fun e => match e.2 with
          | (.dev va, .peer d a _) => some (d, a, va, data e.1)
          | _ => none))))) ∧
  (∀ (n : CoreId) (gid : Nat) (p : MemPtr) (f : AtomFn) (wide : Bool) (dst val cmp bits k : Nat) (s u v x : State) (w : WG) (g : Group)
      (base : Nat × Nat) (l : List (Nat × Target × Loc)), bits = (if wide then 64 else 32) →
    readyGroup s n.toNat gid (ptrUses p ++ (List.range (bits / 32)).map (dst + ·) ++ (List.range (bits / 32)).map (val + ·) ++
      (List.range (bits / 32)).map (cmp + ·)) = some (w, g) →
    ptrBase s n.toNat w gid p = (u, .inr base) →
    prepare u n.toNat w .atomic (bits / 8) (targetsOf g (bits / 8) p base) = (v, [], l) →
    k = extraPasses (compatOf s w && atomCombines f) (bits / 8) l →
    x = nextInstr (if k = 0 then v else bump64 v Reg.coreAtomicSerialCount Reg.coreStatus 1 k) n.toNat w g →
    exec (.atomic n gid p f wide dst val cmp) s = .next (l.foldl (fun s e =>
      atomStep s n.toNat w.wgid gid f bits dst e (srcWide g e.1 bits (.reg val)) (srcWide g e.1 bits (.reg cmp))) x)) ∧
  (∀ (n : CoreId) (gid tag t : Nat) (b : List Byte) (s : State) (w : WG) (g : Group) (r : PendRead), hostPend s gid tag t = some (w, g, r) →
    exec (.replyDelivery n gid tag t (.ok b)) s = .next (deliverRead s n.toNat gid tag t (padTo r.size b))) ∧
  (∀ (c : BitVec 4) (i : Nat) (s : State) (k : Walk), (walksOf s c.toNat)[i]? = some k →
    exec (.translationWalk c i) s = .next (endWalk (setWalks s c.toNat ((walksOf s c.toNat).eraseIdx i)) c.toNat k)) ∧
  (∀ (c : BitVec 5) (la : BitVec 30) (s : State) (m : MissReg), (missOf s c.toNat).find? (fun m => m.line = la.toNat) = some m →
    fillReady s m = true → exec (.lineFill c la) s = .next (endFill s c.toNat m))

/-- Barriers, the clock, group operations, rotation and the interlock (04 R127, R131, R132, R133, R134, R145, R146, R149; 05
R189; 06 R238, R240). -/
def Obligations.GroupSynchronisationCompletes : Prop :=
  ∀ (n : CoreId) (gid : Nat) (s : State) (w : WG) (g : Group),
    (readyGroup s n.toNat gid [] = some (w, g) →
      (∀ rel acq sc, (rel = true ∧ sc = .crossDevice → awaitsAck s n.toNat gid = false) →
        ∀ u, u = (if rel = true ∧ sc = .crossDevice then zeroRead s n.toNat w (stepSet (countIssue g)) else nextInstr s n.toNat w g) →
        exec (.memoryBarrier n gid rel acq sc) s = .next (if acq && scopeDevice sc then l1Clear u n.toNat else u)) ∧
      exec (.workgroupBarrier n gid) s = .next (setWG s n.toNat (settleBarrier (putGroup w (waitSet (countIssue g) .barrier)))) ∧
      exec (.subgroupBarrier n gid) s = .next (match joinSubgroup g with
        | some h => nextInstr s n.toNat w h
        | none => setGroup s n.toNat w (waitSet (countIssue g) .subgroup)) ∧
      ∀ t e, tileOfWG s n.toNat w = some t → entryOf s w.modKey w.entry = some e →
        (e.interlock = 0 ∨ (∀ x ∈ threadsOf g.cur.mask, mayEnter t e.interlock gid x = true) →
          exec (.beginInvocationInterlock n gid) s = .next (nextInstr s n.toNat w g)) ∧
        ∀ enter stay, enter = (threadsOf g.cur.mask).filter (mayEnter t e.interlock gid) →
          stay = (threadsOf g.cur.mask).filter (fun x => ! enter.contains x) → e.interlock ≠ 0 → stay ≠ [] →
          (enter = [] → exec (.beginInvocationInterlock n gid) s =
            .next (setGroup s n.toNat w (waitSet (countIssue g) .interlock))) ∧
          (enter ≠ [] → exec (.beginInvocationInterlock n gid) s = .next (setGroup s n.toNat w (mergeSets { countIssue g with
            cur := { g.cur with pc := g.cur.pc + 1, mask := maskOf enter },
            others := g.others ++ [{ pc := g.cur.pc, mask := maskOf stay, wait := .interlock }] })))) ∧
    (∀ dev dst, readyGroup s n.toNat gid [dst, dst + 1] = some (w, g) →
      exec (.opReadClockKhr n gid dev dst) s =
        .next (nextInstr s n.toNat w (regAll g g.cur.mask dst 2 (if dev then s.dtime else coreClock s n.toNat)))) ∧
    (∀ f dst a b, readyGroup s n.toNat gid (srcUses 32 a ++ srcUses 32 b ++ (List.range (groupRegs f)).map (dst + ·)) = some (w, g) →
      exec (.groupOperation n gid f false dst a b) s =
        .next (nextInstr (draw s).2 n.toNat w ((threadsOf g.cur.mask).foldl (fun h t =>
          regWrN h t dst (groupRegs f) (groupResult f g a b (Config.freeNat ((draw s).1 + t)) t)) g)) ∧
      ∀ h, joinSubgroup g = some h → exec (.groupOperation n gid f true dst a b) s =
        .next (nextInstr (draw s).2 n.toNat w ((threadsOf h.cur.mask).foldl (fun q t =>
          regWrN q t dst (groupRegs f) (groupResult f h a b (Config.freeNat ((draw s).1 + t)) t)) h))) ∧
    (findGroup s n.toNat gid = some (w, g) → rotateLimit s ≤ g.count → ∀ u, u = setGroup s n.toNat w { switchSet g with count := 0 } →
      exec (.rotation n gid) s = .next (if (switchSet g).cur = g.cur then u else bump64 u Reg.coreRotateCount Reg.coreStatus 0 1))

/-- Placement of workgroups, and the preemption of a context on a core (04 R122, R164, R165, R167; 06 R232, R258; 12 R507,
R509). -/
def Obligations.CorePlacementCompletes : Prop :=
  ∀ (n : CoreId) (s : State),
    (∀ w, bestCoreWork s n.toNat = some w →
      (isOld w = false → exec (.workgroupPlacement n) s = .next (noteConds (placeWork s n.toNat w))) ∧
      (isOld w = true → exec (.resumption n) s = .next (noteConds (placeWork s n.toNat w)))) ∧
    (∀ (p : Part) (c : BitVec 16), stopsOn s n.toNat (okey p.toNat c.toNat) = true →
      exec (.preemptionRequest n p c) s = .next (stopGroups s n.toNat (okey p.toNat c.toNat)) ∧
      ∀ w ws, savedAlone s n.toNat (okey p.toNat c.toNat) = w :: ws →
        (∀ x ∈ w :: ws, ∀ g ∈ x.groups, g.stopping = true ∧ drained g = true) →
        exec (.coreSave n p c) s = .next (noteConds ((w :: ws).foldl (fun s w => saveWG s n.toNat w) (countPreempt s w.org))))

/-- XMT.core instructions on tensor tickets, tiles, the cadence and the scan, and TRAP, YIELD and SLEEP (03 R84; 04 R127; 05
R196, R197, R198, R200, R201, R202, R208, R209). -/
def Obligations.XmtCoreInstructionsComplete : Prop :=
  ∀ (n : CoreId) (gid : Nat) (s : State) (w : WG) (g : Group),
    (∀ p dst u base ds, readyGroup s n.toNat gid (dst :: ptrUses p) = some (w, g) → tensorStage w = true → arrayFull s n.toNat = false →
      ptrBase s n.toNat w gid p = (u, .inr base) → descFaults u n.toNat w (targetsOf g 128 p base) = [] →
      ds = distinctTargets (targetsOf g 128 p base) →
      exec (.tensorIssue n gid p dst) s = .next (settle (ds.foldl (fun s x => issueOne s n.toNat w.wgid x)
        (nextInstr u n.toNat w ((targetsOf g 128 p base).foldl (fun h e =>
          regWrN h e.1 dst 1 (ticketAfter w.issued (ds.findIdx (fun x => x = e.2)))) g))))) ∧
    (∀ a dst, readyGroup s n.toNat gid (dst :: srcUses 32 a) = some (w, g) → tensorStage w = true →
      (∀ wait, wait = ((threadsOf g.cur.mask).map (fun t => srcVal g t a)).filter (fun t => ! ticketVoid t w.issued) →
        (∀ t, latest (wait.filter (fun t => ! ticketDone w t)) = some t →
          exec (.tensorWait n gid a dst) s = .next (setGroup s n.toNat w (waitSet (countIssue g) (.ticket t)))) ∧
        (latest (wait.filter (fun t => ! ticketDone w t)) = none →
          ∃ t, t = nextInstr s n.toNat w (perThread g (fun t h => regWrN h t dst 1 (b2n (! ticketVoid (srcVal g t a) w.issued)))) ∧
          exec (.tensorWait n gid a dst) s = .next (if wait = [] then t else l1Clear t n.toNat))) ∧
      (∀ ok t, (∀ x, ok x = (! ticketVoid (srcVal g x a) w.issued && ticketDone w (srcVal g x a))) →
        t = nextInstr s n.toNat w (perThread g (fun x h => regWrN h x dst 1 (b2n (ok x)))) →
        exec (.tensorPoll n gid a dst) s = .next (if (threadsOf g.cur.mask).any ok then l1Clear t n.toNat else t))) ∧
    (∀ p u base t l hs, readyGroup s n.toNat gid (ptrUses p) = some (w, g) → tileOfWG s n.toNat w = some t → t.banks ≠ 0 →
      ptrBase s n.toNat w gid p = (u, .inr base) →
      l = (targetsOf g 0 p base).filterMap (fun e => match e.2 with
        | .dev va => some (e.1, va)
        | _ => none) →
      addHandoffs t.handoffs (l.map (fun e => e.2)) = .inl hs →
      exec (.tileHandoff n gid p) s = .next (nextInstr (setTile u n.toNat { t with handoffs := hs }) n.toNat w g)) ∧
    (∀ dst, readyGroup s n.toNat gid [dst, dst + 1] = some (w, g) →
      exec (.cadenceRead n gid dst) s = .next (nextInstr s n.toNat w (regAll g g.cur.mask dst 2
        ((cadNow s).2 + ((cadNow s).1 % 2 ^ 31 + b2n s.sched.cadence.locked * 2 ^ 31) * 2 ^ 32)))) ∧
    (∀ h dst, readyGroup s n.toNat gid [dst] = some (w, g) →
      exec (.lineRead n gid h dst) s = .next (nextInstr s n.toNat w (regAll g g.cur.mask dst 1 (lineWord s h.toNat)))) ∧
    (readyGroup s n.toNat gid [] = some (w, g) →
      exec (.yield n gid) s = .next (setGroup s n.toNat w { switchSet (stepSet (countIssue g)) with count := 0 })) ∧
    (∀ a, readyGroup s n.toNat gid (srcUses 32 a) = some (w, g) →
      exec (.sleep n gid a) s =
        .next (nextInstr s n.toNat w (if sleepNs g a = 0 then g else { g with sleep := some (s.dtime, sleepNs g a) })) ∧
      exec (.trap n gid a) s =
        .next (settle (coreFaultAt s n.toNat w g Cond.groupTrap 0 g.cur.mask 1 (srcVal g ((threadsOf g.cur.mask).headD 0) a)))) ∧
    (findGroup s n.toNat gid = some (w, g) → exec (.sleepExpiry n gid) s = .next (setGroup s n.toNat w (wakeSleep s g)))

/-- XMT.core copies, prefetch and Mark feeds, and image instructions (05 R203, R204, R205, R206, R207; 06 R241, R247; 13 R567,
R568). -/
def Obligations.XmtCopiesAndImagesComplete : Prop :=
  ∀ (n : CoreId) (gid : Nat) (s : State) (w : WG) (g : Group),
    (∀ ptr a z u l, readyGroup s n.toNat gid ([ptr, ptr + 1] ++ srcUses 32 a) = some (w, g) →
      feedTargets s n.toNat w g ptr = (u, [], l) →
      (∀ e ∈ l, (markOf u e.2.1).queue.length + (l.filter (fun x => x.2.1 = e.2.1)).length ≤ 64) →
      exec (.markFeed n gid ptr a z) s = .next (l.foldl (fun s e =>
        queueMark s e.2.1 { kind := e.2.2, size := min (Sys2Proof.Machine.sizeOf z) 4, value := srcVal g e.1 a }) (nextInstr u n.toNat w g))) ∧
    (∀ dst src bytes out u v base, readyGroup s n.toNat gid (out :: (srcUses 32 dst ++ ptrUses src ++ srcUses 32 bytes)) = some (w, g) →
      w.stage = .compute → ptrBase s n.toNat w gid src = (u, .inr base) →
      asyncFaults u n.toNat w g dst bytes (copyTargets g src bytes base) = (v, []) →
      copyBytes s n.toNat + ((threadsOf g.cur.mask).map (fun t => srcVal g t bytes)).foldl (· + ·) 0 ≤ 65536 →
      exec (.asyncCopy n gid dst src bytes out) s = .next (nextInstr v n.toNat w (startCopies g dst bytes out (copyTargets g src bytes base)))) ∧
    (∀ k c, findGroup s n.toNat gid = some (w, g) → g.copies.find? (fun c => c.ticket = k) = some c → ctxLive s w.org.ctx = true →
      exec (.asyncCopyComplete n gid k) s = .next (copyArrives s n.toNat w g c)) ∧
    (∀ a wait, readyGroup s n.toNat gid (srcUses 32 a) = some (w, g) → w.stage = .compute →
      wait = ((threadsOf g.cur.mask).map (fun t => srcVal g t a)).filter (fun t => ! ticketVoid t g.copyIssued && ! copiesDone g t) →
      (wait = [] → exec (.copyWait n gid a) s = .next (nextInstr s n.toNat w g)) ∧
      ∀ t, latest wait = some t → exec (.copyWait n gid a) s = .next (setGroup s n.toNat w (waitSet (countIssue g) (.copy t)))) ∧
    (∀ p a u, readyGroup s n.toNat gid (ptrUses p ++ srcUses 32 a) = some (w, g) →
      (∀ base, ptrBase s n.toNat w gid p = (u, .inr base) →
        exec (.l1Prefetch n gid p a) s = .next ((targetsOf g 1 p base).foldl (fun s e =>
          prefetchRange s n.toNat w (srcVal g e.1 a) e.2) (nextInstr u n.toNat w g))) ∧
      ∀ f, ptrBase s n.toNat w gid p = (u, .inl f) → exec (.l1Prefetch n gid p a) s = .next (nextInstr u n.toNat w g)) ∧
    (∀ f set b dst u e, readyGroup s n.toNat gid (imageUses f dst) = some (w, g) →
      coreRead s n.toNat w (bindEntry s n.toNat w gid set b) 32 = (u, .inr e) → imageBad e (usesStorage f) = false →
      exec (.imageSample n gid f set b dst) s = .next (imageInstr f u n.toNat w g e dst))

/-- The geometry phase of a render pass (06 R211, R215, R217, R219, R225, R226, R227, R257; 10 R416). -/
def Obligations.GeometryCommandsComplete : Prop :=
  (∀ (p : Part) (i : BitVec 10) (s : State) (rk : Nat) (r : Ring) (e : Entry), rk = rkey p.toNat i.toNat →
    readyEntry s p.toNat i.toNat 0x03 = some (r, e) →
    exec (.render p i) s = .next (settle (startPass (dispatched s rk r e) (entryOrigin rk r e) e.desc))) ∧
  (∀ (id : Nat) (s : State) (q : RPass), passOf s id = some q → q.step = .geometry → ctxLive s q.org.ctx = true →
    (∀ u d, q.draws.length < pDrawCount q.desc →
      engineRead s 8 (.ctx q.org.ctx) .read (fAt q.desc 0x18 47 0 + 128 * q.draws.length) 128 (.fail .unsupported) = (u, .inr d) →
      drawFault u q.org.part d = none →
      exec (.drawRecordFetch id) s = .next (setPass u id { q with draws := q.draws ++ [d] })) ∧
    ∀ n : BitVec 3, unitSaved q n.toNat = false → mget q.stalls n.toNat = none →
      (engineUp s (Engine.geom n.toNat) = true → mget q.units n.toNat = none →
        ∀ tess, exec (.batch id n tess) s = .next (noteConds (takeBatch s id n.toNat q))) ∧
      (∀ b tess, engineUp s (Engine.geom n.toNat) = true → mget q.units n.toNat = some b →
        b.step = .setup ∨ jobsOver (batchJobs s q n.toNat) = true →
        exec (.batch id n tess) s = .next (settle (nextStage s id n.toNat q b (batchJobs s q n.toNat) tess))) ∧
      (∀ b, mget q.units n.toNat = some b → b.step = .setup → b.paged = true →
        (b.gen[b.pos]? = none → exec (.primitive id n) s = .next (settleGeometry (endBatch s id n.toNat q b) id)) ∧
        ∀ k v, b.gen[b.pos]? = some (k, v) →
          exec (.primitive id n) s = .next (settle (settleGeometry (binPrim s id n.toNat q b k v) id)))) ∧
  (∀ (p : Part) (v : Word32) (s u : State) (id : Nat) (q : RPass), s.sec.recovery = false → u = hostTouch s → pendingPass u p.toNat = some (id, q) →
    (q.commit < v.toNat / 4096 * 4096 → v.toNat / 4096 * 4096 ≤ pBinMax q.desc →
      exec (.geomBinGrant p v) s = .next (settle (grantPass u id q (v.toNat / 4096 * 4096)))) ∧
    (v.toNat / 4096 * 4096 ≤ q.commit ∨ pBinMax q.desc < v.toNat / 4096 * 4096 →
      exec (.geomBinGrant p v) s = .next (settle (denyPass u id q 1 (passNeed q))))) ∧
  (∀ (p : Part) (s : State) (id : Nat) (q : RPass), pendingPass s p.toNat = some (id, q) →
    due s (mgetD s.raster.postedAt p.toNat 0) (rdF s Reg.geomCfg 9 0 * 1000000) = true →
    exec (.binGrowthTimeout p) s = .next (settle (denyPass s id q 2 (passNeed q)))) ∧
  (∀ (id : Nat) (n : BitVec 3) (s t : State) (q : RPass) (b : Batch) (a : Nat), passOf s id = some q →
    unitAsked s n.toNat id q = true → mget q.units n.toNat = some b → unitSaved q n.toNat = false →
    saveUnit (countPreempt s q.org) q.org (Engine.geom n.toNat) 2048 = (t, a) →
    exec (.geometryPreemption id n) s = .next (noteConds (stopMade (setPass t id { q with
      preempts := q.preempts + 1, savedUnits := q.savedUnits ++ [(n.toNat, a, t.dtime)] }) (Engine.geom n.toNat) id)))

/-- The tile phase of a render pass and the composition of a display line (06 R230, R234, R254, R255, R256, R258; 07 R281). -/
def Obligations.TileCommandsComplete : Prop :=
  (∀ (id : Nat) (n : CoreId) (s u v w : State) (q q1 : RPass) (bank seed : Nat) (tb : Map Byte) (t : TileSt), u = closeGeometry s id →
    passOf u id = some q → q.step = .tiles → q.nextTile < passTiles q.desc → (passCores u q).contains n.toNat = true →
    tileSlot u n.toNat q = true → engineUp u (Engine.core n.toNat) = true → mayPlace u q.org.ctx (tileKib q.desc) = true →
    tilePlace u n.toNat q = some bank → startTile u n.toNat q q.nextTile = (v, .inr tb) →
    draw (takeBanks v n.toNat (bank * 32) (pBanks q.desc * 32)) = (seed, w) →
    t = {
      pass := id, tile := q.nextTile, bank := bank, banks := pBanks q.desc, tb := tb, seed := seed, pos := 0, frags := [],
      handoffs := [], ended := false, stored := false, items := [], placedAt := s.dtime, saved := none } →
    passOf w id = some q1 →
    exec (.tileHandout id n) s = .next (noteConds (setPass (reserve (setCoreOf w n.toNat { coreOf w n.toNat with
      tiles := (coreOf w n.toNat).tiles ++ [t] }) q.org.part (tileKib q.desc)) id { q1 with nextTile := q.nextTile + 1 }))) ∧
  (∀ (id : Nat) (n : CoreId) (k : Nat) (s : State) (q : RPass) (t : TileSt), passOf s id = some q → tileOn s n.toNat id k = some t →
    (∀ u v w q1, t.ended = false → t.frags = [] → (tileQuads s q k).length ≤ t.pos → tileBusy s n.toNat t = false →
      ctxLive s q.org.ctx = true → u = issueTile (setTile s n.toNat { t with ended := true }) n.toNat q t → ctxLive u q.org.ctx = true →
      storePlanes u n.toNat q t = (v, none) →
      w = bump64 (setTile v n.toNat { t with ended := true, stored := true }) Reg.rasterTileCount Reg.rasterStatus 0 1 →
      passOf w id = some q1 →
      exec (.tileEnd id n k) s = .next (setPass (claimReqs w q.org n.toNat 0xFFFF 0) id { q1 with stored := q1.stored + 1 })) ∧
    (t.stored = true → tileRead s t = false → ∀ u, u = setCoreOf s n.toNat { coreOf s n.toNat with
        tiles := (coreOf s n.toNat).tiles.filter (fun x => ! (x.pass = id && x.tile = k)) } →
      exec (.tileBankRelease id n k) s =
        .next (noteConds (unreserve (setPass u id { q with finished := q.finished + 1 }) q.org.part (tileKib q.desc))))) ∧
  (∀ (id : Nat) (s u : State) (q : RPass), passOf s id = some q → q.step = .tiles → passTiles q.desc ≤ q.finished →
    itemsOpen s q.org.wid = false → ctxLive s q.org.ctx = true → writeResult s q Cond.ok = (u, none) →
    exec (.renderPassComplete id) s = .next (settle (finish (dropPass u id q) q.org.wid 0))) ∧
  (∀ (id : Nat) (n : CoreId) (s : State) (q : RPass), passOf s id = some q → tileAsked s n.toNat id q = true →
    (∀ w ∈ (coreOf s n.toNat).wgs, w.stage = .fragment → w.job = id → ∀ g ∈ w.groups, drained g = true) →
    exec (.tilePhasePreemption id n) s = .next (noteConds (stopMade
      (((coreOf s n.toNat).tiles.filter (fun t => t.pass = id && ! t.ended)).foldl (fun s t => saveTile s n.toNat q t) s)
      (Engine.core n.toNat) id))) ∧
  (∀ (h : BitVec 1) (late : Bool) (s : State), (headOf s h.toNat).enabled = true → (headOf s h.toNat).fetchLine < vActive s h.toNat →
    exec (.layerFetch h late) s = .next (composeLine s h.toNat late))

/-- A head's enabling, flips, latch line, frames, DONE records and DSI packets, and the eDP hot-plug pin (07 R270, R271, R272,
R274, R287, R288, R289, R293, R295). -/
def Obligations.DisplayCommandsComplete : Prop :=
  (∀ (h : BitVec 1) (s u : State), s.sec.recovery = false → u = hostTouch s →
    (∀ train, rdF u (Reg.dressHeadCtl h.toNat) 0 0 = 0 → enableRefused u h.toNat train = false →
      exec (.headEnable h train) s = .next (startHead u h.toNat train)) ∧
    (∀ v, v = wrF u (Reg.dressHeadCtl h.toNat) 0 0 0 → exec (.headDisable h) s =
      .next (setHead v h.toNat { headOf u h.toNat with stopping := (headOf u h.toNat).enabled })) ∧
    (∀ (p : Part) v, headOwner u h.toNat = p.toNat → exec (.dressFlip p h v) s = .next (flipHead u h.toNat (wbits v 47 0))) ∧
    (∀ (p : Part) v, headOwner u h.toNat ≠ p.toNat → exec (.dressFlip p h v) s = .next u) ∧
    ∃ t, exec (.dsiCommand h) s = .next t ∧ rdF t (Reg.dressDsiCmd h.toNat) 31 31 = 1 ∧
      rdF t (Reg.dressDsiCmd h.toNat) 30 0 = rdF u (Reg.dressDsiCmd h.toNat) 30 0 ∧ { t with regs := u.regs } = u ∧
      onlyRegs u t [Reg.dressDsiCmd h.toNat]) ∧
  (∀ (h : BitVec 1) (s : State) (x : HeadSt), headOf s h.toNat = x →
    (x.enabled = true → x.latchMade = false → vActive s h.toNat ≤ x.line + x.lead → exec (.latchLine h) s = .next (latchHead s h.toNat)) ∧
    (x.enabled = true → vTotal s h.toNat ≤ x.line + 1 → lineClocks s h.toNat ≤ x.acc → exec (.frameStart h) s = .next (startFrame s h.toNat)) ∧
    (x.doneDue = true → exec (.doneRecord h) s = .next (writeDone s h.toNat)) ∧
    (∀ resp, rdF s (Reg.dressDsiCmd h.toNat) 31 31 = 1 → x.enabled = true → headOutput s h.toNat = 1 → vActive s h.toNat ≤ x.line →
      exec (.dsiPacketSend h resp) s = .next (dsiSend s h.toNat resp))) ∧
  (∀ (level : Bool) (train : Option (Nat × Nat)) (s u : State), u = wrF s Reg.dressEdpCfg 14 14 (b2n level) →
    ((∀ h, h < 2 → (headOf u h).enabled = false ∨ headOutput u h ≠ 2) → exec (.hpdInterrupt level train) s = .next u) ∧
    (∀ h v, h < 2 → (headOf u h).enabled = true → headOutput u h = 2 → v = bump32 u Reg.dressRetrainCount Reg.dressStatus 4 1 →
      exec (.hpdInterrupt level train) s = .next (setTrained v (trainOk u train))))

/-- Sector reads, decodes, writes and evictions of the stacked DRAM and the bench caches (08 R331; 09 R352, R353, R358). -/
def Obligations.MemoryStepsComplete : Prop :=
  (∀ (k : BitVec 31) (up : List (Nat × Byte)) (s u : State), wanted s k.toNat = true → decoding s k.toNat = false →
    u = applyUpset s (physPage s (k.toNat / 32)) up →
    (sectorMatches u (k.toNat * 64) = true →
      exec (.fastPathRead k up) s = .next (deliverSector u k.toNat (.bytes (rawSector u (physPage u (k.toNat / 32)) (k.toNat % 32))))) ∧
    (sectorMatches u (k.toNat * 64) = false → exec (.fastPathRead k up) s = .next (joinSlow u k.toNat))) ∧
  (∀ (page : BitVec 26) (up : List (Nat × Byte)) (s t : State) (q : SlowReq) (l : List (Nat × SectorData)),
    s.mem.slowQ.find? (fun q => q.page = page.toNat) = some q →
    slowDecode (setMem (applyUpset s (physPage s q.page) up) { (applyUpset s (physPage s q.page) up).mem with
      slowQ := (applyUpset s (physPage s q.page) up).mem.slowQ.filter (fun x => x.page != q.page) }) q.page q.sectors = (t, l) →
    exec (.slowPathDecode page up) s = .next (l.foldl (fun s e => deliverSector s (q.page * 32 + e.1) e.2) t)) ∧
  (∀ (c : BitVec 5) (i : Nat) (s : State) (e : EvEntry), (evOf s c.toNat)[i]? = some e →
    (∀ half, lget e.line.dirty (b2n half) false = true →
      ∃ t, exec (.sectorWrite c i half) s = .next t ∧
        t = setEv (writeSector s (e.line.addr * 128 + 64 * b2n half) (slice e.line.bytes (64 * b2n half) 64) false) c.toNat
          (lupd (evOf (writeSector s (e.line.addr * 128 + 64 * b2n half) (slice e.line.bytes (64 * b2n half) 64) false) c.toNat) i
            (fun e => { line := { e.line with dirty := lset e.line.dirty (b2n half) false }, issued := true }))) ∧
    (e.issued = true → (∀ d ∈ e.line.dirty, d = false) →
      exec (.evictionWriteComplete c i) s = .next (setEv s c.toNat ((evOf s c.toNat).eraseIdx i))))

/-- Invalidation of translations, the patrol, the threshold window, retirement and the test unit (08 R324; 09 R363, R368, R371,
R372, R384). -/
def Obligations.MemoryUpkeepCompletes : Prop :=
  (∀ (p : Part) (v : Word) (s u : State), s.sec.recovery = false → u = hostTouch s →
    ∃ t, exec (.memXlateInval p v) s = .next t ∧ rd t (pkey p.toNat Reg.memXlateStatus) = 1 ∧ { t with regs := u.regs, mem := u.mem } = u ∧
      onlyRegs u t [pkey p.toNat Reg.memXlateStatus] ∧
      mgetD t.mem.inval p.toNat [] = mgetD u.mem.inval p.toNat [] ++ [{ vframe := wbits v 47 21, count := wbits v 15 0 }] ∧
      t.mem.dram = u.mem.dram ∧ t.mem.xsets = u.mem.xsets) ∧
  (∀ (p : Part) (s : State), mgetD s.mem.inval p.toNat [] ≠ [] → oldAccess s p.toNat = false →
    ∃ t, exec (.invalidationComplete p) s = .next t ∧ rd t (pkey p.toNat Reg.memXlateStatus) = 0 ∧
      mget t.mem.inval p.toNat = none ∧ { t with regs := s.regs, mem := s.mem } = s ∧ onlyRegs s t [pkey p.toNat Reg.memXlateStatus] ∧ t.mem.dram = s.mem.dram ∧
      ∀ c es e, mget t.mem.xsets c = some es → e ∈ es → tablePart e.table = p.toNat →
        ∀ q ∈ mgetD s.mem.inval p.toNat [], inRange q e.vframe = false) ∧
  (∀ (up : List (Nat × Byte)) (s u : State), rdF s Reg.errCfg 7 0 ≠ 0 →
    s.mem.patrolPage ≠ 0 ∨ s.mem.patrolTime = 0 ∨ due s s.mem.patrolTime (rdF s Reg.errCfg 7 0 * 3600000000000) = true →
    u = applyUpset (if s.mem.patrolPage = 0 then setMem s { s.mem with patrolTime := s.dtime } else s) s.mem.patrolPage up →
    (∀ m, patrolTarget u s.mem.patrolPage = some m → exec (.patrolScrub up) s = .next (patrolNext (scrubPage u (m * 2048) true).1)) ∧
    (patrolTarget u s.mem.patrolPage = none → exec (.patrolScrub up) s = .next (patrolNext (patrolSpare u s.mem.patrolPage)))) ∧
  (∀ (v : Word32) (s u : State), s.sec.recovery = false → u = hostTouch s →
    (∀ w, w = wrF (wrF u Reg.errTestCtl 3 0 (bitsN v.toNat 3 0)) Reg.errTestCtl 6 6 0 → bitN v.toNat 4 = true →
      testAllowed (wrF u Reg.errTestCtl 3 0 (bitsN v.toNat 3 0)) = true →
      (bitsN v.toNat 1 0 = 1 → exec (.readRaw v) s = .next (readRawOp w)) ∧
      (bitsN v.toNat 1 0 = 2 → exec (.writeRaw v) s = .next (writeRawOp w)) ∧
      (bitsN v.toNat 1 0 = 3 → exec (.encode v) s = .next (encodeOp w))) ∧
    (bitsN v.toNat 15 0 ≤ 48895 → exec (.errFrameRetire v) s = .next (triggerFrame u (bitsN v.toNat 15 0) 4))) ∧
  (∀ s : State, due s s.mem.windowStart (rdF s Reg.errThresh 39 28 * 60000000000) = true →
    ∃ t, exec .thresholdWindow s = .next t ∧ t.mem.frameSyms = [] ∧ t.mem.coreErrs = [] ∧ t.site.sram = [] ∧
      t.mem.windowStart = s.dtime ∧ t.regs = s.regs ∧ t.mem.dram = s.mem.dram) ∧
  (∀ (s : State) (r : Retire) (rest : List Retire), s.mem.retireQ = r :: rest →
    (r.toFrame = none → exec .frameRetirement s = .next (beginRetire s r rest)) ∧
    (∀ q u, r.toFrame = some q → u = copyPage s (r.frame * 1024 + r.page) (q * 1024 + r.page) →
      ∃ t, t = setMem u { u.mem with retireQ := { r with page := r.page + 1 } :: u.mem.retireQ.tail } ∧
        exec .retirementPageCopy s = .next (if r.page < 1023 then t else endRetire t r q u.mem.retireQ.tail)))

/-- SRAM errors and the retirement of core sites (01 R19; 09 R369, R371, R374, R375, R377). -/
def Obligations.SpareCommandsComplete : Prop :=
  (∀ (a : SramArray) (row : BitVec 32) (s u : State),
    (u = bump64 s Reg.errSramCorrCount Reg.errStatus 7 1 →
      exec (.sramError a row true) s = .next (settle (countRow (countCore u a) row.toNat))) ∧
    (u = bump32 s Reg.errSramUncorrCount Reg.errStatus 8 1 →
      exec (.sramError a row false) s = .next (settle (sramLost (addRepair (countCore u a) 4 row.toNat) a)))) ∧
  (∀ (v : Word32) (s u : State), s.sec.recovery = false → u = hostTouch s →
    exec (.errCoreRetire v) s = .next (settle (triggerCore u (bitsN v.toNat 5 0) 3))) ∧
  (∀ (n : CoreId) (s u : State) (d : Drain), drainOf s n.toNat = some d →
    (∀ k, mget s.site.spares (n.toNat / 8) = some k → d.assigned = false → coreEmpty s n.toNat = true →
      u = setCore s { s.core with cores := mdel s.core.cores n.toNat } →
      exec (.spareAssignment n) s = .next (showSites { u with site := { u.site with
        sites := mset s.site.sites n.toNat k, spares := mdel s.site.spares (n.toNat / 8),
        drains := s.site.drains.map (fun x => if x.core = n.toNat then { x with assigned := true } else x) } })) ∧
    (∀ v, d.assigned = true → u = showSites { s with site := { s.site with drains := s.site.drains.filter (fun x => x.core ≠ n.toNat) } } →
      v = bump32 (retireSite u d) Reg.errCorePromoteCount Reg.errStatus 10 1 →
      exec (.promotionComplete n) s =
        .next (settle (appendRec v (coreRecord v Cond.corePromoted d (mgetD s.site.sites n.toNat 0))))) ∧
    (d.assigned = false → mget s.site.spares (n.toNat / 8) = none → coreEmpty s n.toNat = true →
      u = showSites { s with site := { s.site with
        sites := mdel s.site.sites n.toNat, drains := s.site.drains.filter (fun x => x.core ≠ n.toNat) } } →
      exec (.coreUnavailable n) s = .next (settle (appendRec (retireSite u d) (coreRecord u Cond.coreUnavailable d 0xFF)))))

/-- OBJ_CMD: the RESULT each operation ends with, and its effect where that is OK (11 R447, R448, R449, R450, R454, R463, R471,
R478, R481). -/
def Obligations.ObjectCommandsComplete : Prop :=
  ∀ (p : Part) (o : BitVec 16) (s u : State), s.sec.recovery = false → u = hostTouch s → objTaken u p.toNat = true → objOpen u p.toNat = true →
    (∀ b, createResult u p.toNat b = ObjRes.ok →
      exec (.objCreate p o (.ok b)) s = .next (objResult (createOk u p.toNat o.toNat b) p.toNat ObjRes.ok)) ∧
    (∀ b, createResult u p.toNat b ≠ ObjRes.ok → exec (.objCreate p o (.ok b)) s = .next (objResult u p.toNat (createResult u p.toNat b))) ∧
    (∀ e, exec (.objCreate p o (.fail e)) s = .next (objResult u p.toNat ObjRes.descFault)) ∧
    (∀ r, refsOf u p.toNat (objHandle u p.toNat) = some r →
      ((mget r.host o.toNat).isSome ∨ r.host.length < 8 → hostRefs r < 2 ^ 32 - 1 →
        exec (.addRef p o) s = .next (objResult (putRefs u (bitsN (objHandle u p.toNat) 23 21) (hKey (objHandle u p.toNat))
          { r with host := mset r.host o.toNat (mgetD r.host o.toNat 0 + 1) }) p.toNat ObjRes.ok)) ∧
      ((mget r.host o.toNat).isSome → exec (.release p o) s = .next (objResult (releaseOk u p.toNat o.toNat) p.toNat ObjRes.ok)) ∧
      ((mget r.host o.toNat).isNone → exec (.release p o) s = .next (objResult u p.toNat ObjRes.owners))) ∧
    (refsOf u p.toNat (objHandle u p.toNat) = none →
      exec (.addRef p o) s = .next (objResult u p.toNat ObjRes.handle) ∧ exec (.release p o) s = .next (objResult u p.toNat ObjRes.handle)) ∧
    (∀ f, hostFence u p.toNat = some f →
      (f.hostSignal = true → exec (.signal p o) s = .next (objResult
        (settle (signalFence u (hKey (objHandle u p.toNat)) (objArg u p.toNat) Engine.gantry)) p.toNat ObjRes.ok)) ∧
      ∃ t, exec (.objRead p o) s = .next t ∧ rd t (pkey p.toNat Reg.objOut) = f.value ∧
        rd t (pkey p.toNat Reg.objOutAux) = BitVec.ofNat 64 (f.err.getD 0) ∧ rdF t (pkey p.toNat Reg.objStatus) 15 8 = ObjRes.ok ∧
        { t with regs := u.regs } = u ∧ onlyRegs u t [pkey p.toNat Reg.objOut, pkey p.toNat Reg.objOutAux, pkey p.toNat Reg.objStatus]) ∧
    (∀ h d st, queryOut u p.toNat = some (h, d, st) →
      ∃ t, exec (.objQuery p o) s = .next t ∧ rd t (pkey p.toNat Reg.objOut) = BitVec.ofNat 64 (h % 2 ^ 32 + d % 2 ^ 32 * 2 ^ 32) ∧
        rd t (pkey p.toNat Reg.objOutAux) = BitVec.ofNat 64 st ∧ rdF t (pkey p.toNat Reg.objStatus) 15 8 = ObjRes.ok ∧
        { t with regs := u.regs } = u ∧ onlyRegs u t [pkey p.toNat Reg.objOut, pkey p.toNat Reg.objOutAux, pkey p.toNat Reg.objStatus]) ∧
    (∀ e, hostEvent u p.toNat = some e →
      exec (.arm p o) s = .next (objResult (armEvent u (hKey (objHandle u p.toNat)) e (objArg u p.toNat)) p.toNat ObjRes.ok)) ∧
    (killResult u p.toNat = ObjRes.ok → ∀ k, k = hKey (objHandle u p.toNat) →
      exec (.kill p o) s = .next (objBusy (killCtx u k (some Cond.contextKilled) []) p.toNat (.kill k))) ∧
    (o ≠ 0 → exec (.ownerGone p o) s =
      .next (settle (objWaitDone (objBusy (ownerGoneStart u p.toNat o.toNat) p.toNat (.ownerGone o.toNat)) p.toNat))) ∧
    (o = 0 → exec (.ownerGone p o) s = .next (objResult u p.toNat ObjRes.state)) ∧
    exec (.objCmdReserved p o) s = .next (objResult u p.toNat ObjRes.reservedSet)

/-- Time limits of waits and events, the deadlock scan, the fault queue's tail and hang capture (11 R461, R471, R474, R476,
R487, R491). -/
def Obligations.WaitCommandsComplete : Prop :=
  (∀ (p : Part) (k : BitVec 16) (s : State) (e : Event), mget s.host.events (okey p.toNat k.toNat) = some e → e.armed = true →
    e.timeoutMs ≠ 0 → due s e.armedAt (e.timeoutMs * 1000000) = true →
    exec (.eventTimeout p k) s = .next (fireEvent s (okey p.toNat k.toNat) e Cond.waitTimeout)) ∧
  (∀ (wid ms : Nat) (s : State) (w : WaitAt), (entryWaits s ++ nodeWaits s).find? (fun w => w.wid = wid) = some w →
    ms = ((mget s.host.ctxs w.org.ctx).map (fun c => c.waitTimeoutMs)).getD 0 → ms ≠ 0 → due s (waitSince s w) (ms * 1000000) = true →
    exec (.waitTimeout wid) s = .next (waitExpires s w)) ∧
  (∀ s : State, s.host.scanAt / 1000000 < s.dtime / 1000000 →
    ∃ t, exec .deadlockScan s = .next t ∧ t.host.scanAt = s.dtime ∧ t.host.scanSet = (closedSet s).map (fun w => w.wid) ∧
      { t with host := s.host } = s ∧ t.host.rings = s.host.rings ∧ t.host.ctxs = s.host.ctxs) ∧
  (∀ (s : State) (l : List WaitAt), s.host.scanSet ≠ [] → l = (blockedWaits s).filter (fun w => s.host.scanSet.any (· == w.wid)) →
    l.length = s.host.scanSet.length →
    exec .deadlockBreak s = .next (breakSet { s with host := { s.host with scanSet := [] } } l)) ∧
  (∀ (p : Part) (v : Word32) (s u : State), s.sec.recovery = false → u = hostTouch s →
    (cdiff v.toNat (rdF u (pkey p.toNat Reg.faultqTail) 31 0) ≤
        cdiff (rdF u (pkey p.toNat Reg.faultqHead) 31 0) (rdF u (pkey p.toNat Reg.faultqTail) 31 0) →
      ∃ t, exec (.faultqTail p v) s = .next t ∧ rdF t (pkey p.toNat Reg.faultqTail) 31 0 = v.toNat ∧
        rd t (pkey p.toNat Reg.faultqHead) = rd u (pkey p.toNat Reg.faultqHead) ∧ (partOf t p.toNat).notify = true ∧
        { t with regs := u.regs, host := u.host } = u ∧ onlyRegs u t [pkey p.toNat Reg.faultqTail]) ∧
    (cdiff (rdF u (pkey p.toNat Reg.faultqHead) 31 0) (rdF u (pkey p.toNat Reg.faultqTail) 31 0) <
        cdiff v.toNat (rdF u (pkey p.toNat Reg.faultqTail) 31 0) → exec (.faultqTail p v) s = .next u)) ∧
  (∀ (key : Nat) (s u : State) (c : Capture) (ok : Bool), mget s.host.captures key = some c →
    writeCapture { s with host := { s.host with captures := mdel s.host.captures key } } c = (u, ok) →
    (∀ p : Part, p.toNat = key → exec (.hangCapture (.record p)) s = .next (flagRecord u c.record (if ok then flagCapture else flagLost))) ∧
    (fatalKey = key → exec (.hangCapture .fatal) s = .next (flagRecord u c.record (if ok then flagCapture else flagLost))))

/-- Kills, watchdogs, hangs and engine resets (11 R460, R478, R490). -/
def Obligations.KillCommandsComplete : Prop :=
  (∀ (p : Part) (c : BitVec 16) (s : State) (k : Nat), k = okey p.toNat c.toNat →
    (∀ q, mget s.host.kills k = some q →
      (q.stopped = false → exec (.killEngineStop p c) s = .next (settle (killStop s k))) ∧
      (q.stopped = true → q.retiredAll = false → exec (.killRetirement p c) s = .next (settle (killRetire s k q))) ∧
      (q.retiredAll = true → exec (.killSummaryRecord p c) s = .next (settle (objWaitDone (killEnd s k q) p.toNat)))) ∧
    (∀ x, mget s.host.ctxs k = some x → x.live = true → x.wdSince.isSome → watchdogMs s x * 1000000 ≤ watchdogNow s x →
      exec (.contextWatchdog p c) s = .next (settle (watchdogBites s k x)))) ∧
  (∀ (n : BitVec 16) (s : State),
    (∀ q, hangRequest s n.toNat = some q → exec (.hang n) s = .next (settle (raiseHang s n.toNat q))) ∧
    ∃ t, exec (.engineResetEnd n) s = .next (settle t) ∧ (n.toNat ∉ t.sched.resetting) ∧ { t with sched := s.sched } = s)

/-- Slots, placement, time slices, virtual time and the accounts (12 R500, R502, R503, R507, R508, R509, R543, R544). -/
def Obligations.SchedulingCommandsComplete : Prop :=
  (∀ (n : BitVec 16) (s : State),
    exec (.placement n) s = .next (noteConds (makeRoom (placeOn s n.toNat) n.toNat)) ∧
    ∀ i v, bestIdx (victimRank s) (sliced s n.toNat) = some i → (sliced s n.toNat)[i]? = some v →
      exec (.timeSlice n) s = .next (askStop s n.toNat v.ctx)) ∧
  (∀ (p : Part) (c : BitVec 16) (s : State) (k : Nat), k = okey p.toNat c.toNat →
    (wantsSlot s k = true → holdsSlot (takeSlot s k) k = true → exec (.slotEviction p c) s = .next (noteConds (takeSlot s k))) ∧
    (∀ v x, wantsSlot s k = true → holdsSlot (takeSlot s k) k = false → easyVictim s k = some (v, x) →
      exec (.slotEviction p c) s = .next (evictSlot s k v x)) ∧
    (∀ q v x, mget s.host.ctxs k = some q → wantsSlot s k = true → holdsSlot (takeSlot s k) k = false → easyVictim s k = none →
      rotateVictim s k q = some (v, x) → exec (.slotRotation p c) s = .next (evictSlot s k v x)) ∧
    (∀ q kind ns, mget s.host.ctxs k = some q →
      exec (.virtualTimeUpdate p c kind ns false) s = .next (charge (addVtime s k ns) k (timeField kind) ns) ∧
      (s.sched.serve.step.isSome → s.sched.serve.ctx = k →
        exec (.virtualTimeUpdate p c kind ns true) s = .next (chargeRows (addVtime s k ns) (timeField kind) ns)))) ∧
  (∀ (p : Part) (v : Word32) (s u w : State), s.sec.recovery = false → u = hostTouch s →
    w = wr u (pkey p.toNat Reg.acctSel) (BitVec.ofNat 64 (v.toNat % 256)) →
    exec (.acctSel p v) s = .next (setSched w { w.sched with
      acctCopy := mset u.sched.acctCopy p.toNat (acctBytes (acctOf w p.toNat (v.toNat % 256))) }))

/-- The cadence unit and the gates and deadlines of plan nodes (12 R510, R511, R512, R514, R515). -/
def Obligations.CadenceCommandsComplete : Prop :=
  ∀ (s : State) (c : CadenceSt), s.sched.cadence = c →
    (c.glitch = true → ∀ r h, exec (.cadenceInEdge r h) s = .next (setCad s { c with glitch := false })) ∧
    (c.glitch = false → ∀ r h, h < 100 → exec (.cadenceInEdge r h) s = .next (setCad s { c with glitch := true })) ∧
    (c.glitch = false → ∀ r h, 100 ≤ h → selected s r = true → exec (.cadenceInEdge r h) s = .next (takeEdge s)) ∧
    (c.glitch = false → ∀ r h, 100 ≤ h → selected s r = false → exec (.cadenceInEdge r h) s = .next s) ∧
    (c.edge = none → missed s s.dtime = true → exec .missingPulse s = .next (missPulse s)) ∧
    (∀ e, c.edge = some e → due s e 100 = true → exec .pulse s = .next (pulseAct s e)) ∧
    (c.locked = false → cadPeriod s ≤ elapsed s c.t →
      ∃ t, exec .phaseWrap s = .next t ∧ t.sched.cadence.cycles = c.cycles + 1 ∧ t.sched.cadence.t = (c.t + cadPeriod s) % 2 ^ 64 ∧
        { t with sched := s.sched } = s) ∧
    (∀ wid g, mget s.sched.gates wid = some g → gateOpen s g = true → atGate s wid = true →
      exec (.gateOpen wid) s = .next (settle (passGate (countDead s g) wid))) ∧
    (∀ wid li l n d, findNode s wid = some (li, l, n) → n.deadline = some d → nodeOpen n = true → n.missed = false →
      deadlinePassed s d = true → exec (.deadlineMiss wid) s = .next (countMiss s li l wid))

/-- Plans and their nodes (12 R524, R526, R528, R530). -/
def Obligations.PlanCommandsComplete : Prop :=
  (∀ (p : Part) (i : BitVec 10) (s : State) (rk : Nat) (r : Ring) (e : Entry), rk = rkey p.toNat i.toNat →
    (∀ ext u v st k h c, readyPlan s p.toNat i.toNat 1 = some (r, e) → loadPlan (dispatched s rk r e) p.toNat r.ctx e.desc ext = (u, st, k, h) →
      planRecord u (entryOrigin rk r e) (plResult e.desc) (leBytes 2 st ++ leBytes 2 k ++ leBytes 4 h ++ leBytes 8 s.dtime ++ zeroBytes 48) = (v, c) →
      exec (.planLoad p i ext) s = .next (settle (finish v e.wid c))) ∧
    (∀ u, readyPlan s p.toNat i.toNat 2 = some (r, e) → u = dispatched s rk r e →
      exec (.planUnload p i) s = .next (settle (setSched u { u.sched with
        unloads := mset u.sched.unloads e.wid (p.toNat * 256 + bitsN (plHandle e.desc) 7 0) }))) ∧
    (∀ slot q, readyPlan s p.toNat i.toNat 0 = some (r, e) → findPlan s p.toNat (plHandle e.desc) = some (slot, q) →
      exec (.planLaunch p i) s = .next (settle (startLaunch (dispatched s rk r e) slot e.wid q (entryOrigin rk r e)
        (ePayload e.bytes) (plResult e.desc) (e.desc.drop 64))))) ∧
  (∀ (wid li : Nat) (l : Launch) (n : NodeSt) (s : State), findNode s wid = some (li, l, n) →
    (n.step = .ready → mayDispatch s l = true → mget s.host.finished wid = none →
      (∀ m ∈ l.nodes.takeWhile (fun m => m.wid ≠ wid), m.step ≠ .ready) →
      exec (.nodeDispatch wid) s = .next (settle (dispatchNode s li l n))) ∧
    (∀ code, mget s.host.finished wid = some code → nodeOpen n = true →
      exec (.nodeCompletion wid) s = .next (settle (completeNode s li l n code code))))

/-- The model object and serving (12 R532, R533, R534, R535, R536, R537, R538, R541). -/
def Obligations.ModelCommandsComplete : Prop :=
  (∀ (p : Part) (i : BitVec 10) (s u : State) (rk : Nat) (r : Ring) (e : Entry), rk = rkey p.toNat i.toNat → u = dispatched s rk r e →
    (readyModel s p.toNat i.toNat 1 = some (r, e) → s.sched.model = false →
      (∀ k, k < mCount e.desc → (claimOf s (mFirst e.desc + k)).kind = .free) →
      exec (.modelCreate p i) s = .next (modelDone (createModel s (mFirst e.desc) (mCount e.desc) (mStrength e.desc)) rk r e)) ∧
    (readyModel s p.toNat i.toNat 2 = some (r, e) → modelHere s = true → s.sched.load = none →
      fAt e.desc 0x10 39 0 ≤ s.mem.modelCount * 2 ^ 30 → exec (.modelLoad p i) s = .next (startLoad s rk r e)) ∧
    (readyModel s p.toNat i.toNat 3 = some (r, e) → modelHere s = true → s.sched.serve.active = false →
      exec (.modelDestroy p i) s = .next (modelDone (destroyModel s) rk r e)) ∧
    (readyModel s p.toNat i.toNat 4 = some (r, e) → serveFault s e.desc = none →
      exec (.serveStart p i) s = .next (modelDone (startServe s e.desc) rk r e)) ∧
    (readyModel s p.toNat i.toNat 5 = some (r, e) → s.sched.serve.active = true → s.sched.serve.step = none →
      exec (.serveStop p i) s = .next (modelDone (endSession s Cond.modelSwapped) rk r e)) ∧
    (readyModel s p.toNat i.toNat 5 = some (r, e) → s.sched.serve.active = true → s.sched.serve.step ≠ none →
      exec (.serveStop p i) s =
        .next (settle (setServe u { u.sched.serve with stopping := some (u.sched.serve.stopping.getD e.wid) }))) ∧
    (∀ q v, readyModel s p.toNat i.toNat 6 = some (r, e) → s.sched.serve.active = true → s.mem.grant.getLsbD p.toNat = true →
      (∀ off ∈ [0x08, 0x10, 0x18], inClaimOrHost s r.ctx (fAt e.desc off 47 0) = true) →
      q = newRequest s (entryOrigin rk r e) e.desc → writeProgress u q 0 Progress.queued = (v, 0) →
      exec (.request p i) s = .next (settle (setServe v { v.sched.serve with
        queues := mset v.sched.serve.queues p.toNat (mgetD v.sched.serve.queues p.toNat [] ++ [q]) }))) ∧
    (readyModel s p.toNat i.toNat 7 = some (r, e) →
      exec (.cancel p i) s = .next (modelDone (cancelTag s p.toNat (rqTag e.desc)) rk r e))) ∧
  (∀ (s u v : State) (l : ModelLoad) (c : Nat), s.sched.load = some l →
    (l.ended = true → u = setMem (setSched s { s.sched with
        modelGen := if s.sched.modelGen = 255 then 1 else s.sched.modelGen + 1, swapHeld := false, load := none })
        { s.mem with modelLive := true } → modelRecord u l.org l.result 0 = (v, c) →
      exec .modelLoadEnd s = .next (settle (finish v l.org.wid c))) ∧
    (due s l.start (rdF s Reg.schedCfg 25 20 * 1000000000) = true →
      u = appendRec (dropLoad s l) (workRec s l.org Cond.waitTimeout Engine.gantry 0 0 (zeroBytes 8 ++ leBytes 8 l.written)) →
      modelRecord u l.org l.result Cond.waitTimeout = (v, c) →
      exec .modelSwapTimeout s = .next (settle (finish v l.org.wid Cond.waitTimeout)))) ∧
  (∀ (s u : State) (ext : HostRead), s.sched.serve.active = true → s.sched.serve.suspended = false → s.sched.serve.step = none →
    ctxLive s s.sched.serve.ctx = true → u = admitSeqs 64 (endDone (deliverTokens s)) ext →
    exec (.stepBoundary ext) s = .next (settle (launchStep (fillRows (setServe u { u.sched.serve with rows := [] })))))

/-- The Crusher engines (13 R556, R558, R563). -/
def Obligations.CrusherCommandsComplete : Prop :=
  (∀ (p : Part) (i : BitVec 10) (s : State) (r : Ring) (e : Entry),
    (readyCrush s p.toNat i.toNat 0 = some (r, e) → exec (.compress p i) s = .next (dispatchCrush s p.toNat i.toNat r e)) ∧
    (readyCrush s p.toNat i.toNat 1 = some (r, e) → exec (.decompress p i) s = .next (dispatchCrush s p.toNat i.toNat r e)) ∧
    (readyCrush s p.toNat i.toNat 2 = some (r, e) → exec (.check p i) s = .next (dispatchCrush s p.toNat i.toNat r e))) ∧
  (∀ (n : BitVec 1) (ext : HostRead) (up : Bool) (s : State) (k : Nat) (op q : CrushOp),
    bestIdx (crushRank s) (crushOn s n.toNat) = some k → (crushOn s n.toNat)[k]? = some op →
    q = { op with start := some (op.start.getD s.dtime) } →
    (q.kind = .compress → exec (.crusherBlock n ext up) s = .next (settle (compressStep (updCrush s q) n.toNat q ext up))) ∧
    (q.kind ≠ .compress → exec (.crusherBlock n ext up) s = .next (settle (decodeStep (updCrush s q) n.toNat q ext)))) ∧
  (∀ (n : BitVec 1) (wid : Nat) (s : State) (op : CrushOp), (crushOn s n.toNat).find? (fun op => op.org.wid = wid) = some op →
    (Engine.crush n.toNat, wid) ∈ s.sched.stopOps ∨ (Engine.crush n.toNat, op.org.ctx) ∈ s.sched.stopCtx →
    exec (.crusherPreemption n wid) s = .next (preemptCrush (stopMade s (Engine.crush n.toNat) wid) n.toNat op))

/-- The Mark units: fed messages, snooped messages, the burst stall, and the three registers that claim a unit (13 R567, R569,
R570, R571, R573, R575, R577). -/
def Obligations.MarkCommandsComplete : Prop :=
  (∀ (n : BitVec 4) (s : State),
    (∀ z v, (markOf s n.toNat).queue.length < 64 → ∀ o : MarkOpKind → MarkOp, (∀ k, o k = { kind := k, size := min z 4, value := v }) →
      exec (.feed n (some (z, v))) s = .next (queueMark s n.toNat (o .feed)) ∧
      exec (.alive n (some (z, v))) s = .next (queueMark s n.toNat (o .alive)) ∧
      exec (.markEnd n (some (z, v))) s = .next (queueMark s n.toNat (o .finish)) ∧
      exec (.endNocheck n (some (z, v))) s = .next (queueMark s n.toNat (o .finishNoCheck)) ∧
      exec (.markRestart n (some (z, v))) s = .next (queueMark s n.toNat (o .restart))) ∧
    (∀ o rest, (markOf s n.toNat).queue = o :: rest →
      ∀ t, t = markOp (setMark s n.toNat { markOf s n.toNat with queue := rest }) n.toNat o →
      (o.kind = .feed → exec (.feed n none) s = .next t) ∧ (o.kind = .alive → exec (.alive n none) s = .next t) ∧
      (o.kind = .finish → exec (.markEnd n none) s = .next t) ∧ (o.kind = .finishNoCheck → exec (.endNocheck n none) s = .next t) ∧
      (o.kind = .restart → exec (.markRestart n none) s = .next t))) ∧
  (∀ (n : BitVec 3) (s : State) (u : Nat), u = 16 + n.toNat →
    (∀ e rest, (markOf s u).pieces = e :: rest →
      exec (.snoopedMessage n) s = .next (snoopPiece (setMark s u { markOf s u with pieces := rest }) u e)) ∧
    (∀ q t, unitParams s u = some q → runOpen s u = true → (markOf s u).pieces = [] → stallHeld s u = false →
      due s (markOf s u).byteAt (rdF s Reg.markCfg 13 0 * 1000) = true →
      t = dropMsg (markEvent s u 3 Cond.burstStall
        (markDetail s u (crcResult q (runCrc s u)) 0 ((markOf s u).alive.getD 0) (runLast s u))) u q →
      exec (.markStall n) s = .next (setMark t u { markOf t u with ignoring := true }))) ∧
  (∀ (n : BitVec 5) (s u : State), s.sec.recovery = false → u = hostTouch s →
    (∀ (p : Part) v, markReach u p.toNat n.toNat = true →
      ((n.toNat < 16 ∧ (markOf u n.toNat).queue = []) ∨ (16 ≤ n.toNat ∧ rdF u (Reg.markCtl n.toNat) 0 0 = 0) →
        exec (.markRun p n v) s = .next (wr u (Reg.markRun n.toNat) (BitVec.ofNat 64 (wbits v 49 0)))) ∧
      ((n.toNat < 16 ∧ (markOf u n.toNat).queue ≠ []) ∨ (16 ≤ n.toNat ∧ rdF u (Reg.markCtl n.toNat) 0 0 ≠ 0) →
        exec (.markRun p n v) s = .next (wrF u (Reg.markUnitStatus n.toNat) 10 10 1))) ∧
    (∀ v a, a = v.toNat % 2 ^ 24 → 16 ≤ n.toNat → n.toNat < 24 → rdF u (Reg.markCtl n.toNat) 0 0 = 0 →
      (attachOk u n.toNat a = true → exec (.markAttach n v) s = .next (wr u (Reg.markAttach n.toNat) (BitVec.ofNat 64 a))) ∧
      (attachOk u n.toNat a = false → exec (.markAttach n v) s =
        .next (wrF (wr u (Reg.markAttach n.toNat) (BitVec.ofNat 64 (a - a % 8))) (Reg.markUnitStatus n.toNat) 9 9 1))) ∧
    (∀ v g, g = v.toNat % 2 ^ 31 →
      (16 ≤ n.toNat → n.toNat < 24 → exec (.markGrant n v) s = .next (wr u (Reg.markGrant n.toNat) (BitVec.ofNat 64 (g % 32)))) ∧
      (n.toNat < 16 → ∀ c, c = claimOf u (bitsN g 30 6 * 4096 / 2 ^ 30) →
        (c.kind = .priv → c.owner = g % 32 → exec (.markGrant n v) s = .next (wr u (Reg.markGrant n.toNat) (BitVec.ofNat 64 g))) ∧
        (c.kind ≠ .priv ∨ c.owner ≠ g % 32 → exec (.markGrant n v) s = .next (wrF u (Reg.markUnitStatus n.toNat) 9 9 1)))))

/-- Flits, the retry buffer, the lanes and training of a link port (14 R583, R585, R586, R587, R607; 17 R692). -/
def Obligations.LinkPortCommandsComplete : Prop :=
  (∀ (n : BitVec 2) (s : State) (q : PortSt), q = portOf s n.toNat → portState s n.toNat = portUp →
    (∀ b bytes k, b = padTo 256 bytes → k = fieldAt b 0 2 / 4096 →
      (crcOf crcFlit (b.take 248) ≠ fieldAt b 248 8 → exec (.flit n bytes) s = .next (emitNak s n.toNat)) ∧
      (crcOf crcFlit (b.take 248) = fieldAt b 248 8 →
        (k = 0 → fieldAt b 0 2 % 4096 = q.rxNext → exec (.flit n bytes) s = .next (acceptFlit s n.toNat b)) ∧
        (k = 0 → fieldAt b 0 2 % 4096 ≠ q.rxNext → exec (.flit n bytes) s = .next (emitNak s n.toNat)) ∧
        (k = 1 → exec (.flit n bytes) s = .next (takeAck s n.toNat (fieldAt b 2 2 % 4096))) ∧
        (k = 2 → exec (.flit n bytes) s = .next (resend (takeAck s n.toNat ((fieldAt b 2 2 + 4095) % 4096)) n.toNat)))) ∧
    (q.unacked ≠ [] → due s q.ackAt (rdF s Reg.linkCfg 9 0) = true → exec (.retryTimeout n) s = .next (resend s n.toNat)) ∧
    (∀ errs, due s q.winAt 1000000 = true → exec (.symbolErrorWindow n errs) s =
      .next (judgeLanes (setPort s n.toNat { q with winAt := s.dtime }) n.toNat
        ((dataLanes s n.toNat).filter (fun i => rdF s Reg.linkCfg 41 34 ≤ lget errs i 0))))) ∧
  (∀ (n : BitVec 2) (s u : State) (q : PortSt), q = portOf s n.toNat →
    (q.want = true → rdF s (Reg.linkPortCtl n.toNat) 0 0 = 1 → exec (.training n) s =
      .next (setPortState (setPort s n.toNat { q with
        want := false, again := decide (portState s n.toNat = portUp), step := .t1, trainAt := s.dtime }) n.toNat portTraining)) ∧
    (portState s n.toNat = portTraining → q.step = .t1 → ∀ lanes : BitVec 9,
      (((List.range 9).filter (fun i => lanes.getLsbD i)).length < 4 → exec (.prbs31Test n lanes) s = .next (portDown s n.toNat)) ∧
      (4 ≤ ((List.range 9).filter (fun i => lanes.getLsbD i)).length →
        exec (.prbs31Test n lanes) s = .next (setPort s n.toNat { q with step := .t2, good := lanes.toNat }))) ∧
    (portState s n.toNat = portTraining → q.step = .t2 → ∀ id : BitVec 3,
      (id.toNat = ownId s → exec (.deviceIdExchange n id) s = .next (setPortState (setPort s n.toNat { q with step := .none }) n.toNat portConflict)) ∧
      (id.toNat ≠ ownId s → exec (.deviceIdExchange n id) s = .next (setPort s n.toNat { q with step := .t3, ident := id.toNat }))) ∧
    (portState s n.toNat = portTraining → q.step = .t3 → ∀ (last : BitVec 12) rest,
      rest = (if q.unacked.any (fun f => f.seq = last.toNat) then (q.unacked.dropWhile (fun f => f.seq ≠ last.toNat)).drop 1
        else q.unacked) →
      u = wrF (trainedStatus s n.toNat) (Reg.linkPortCtl n.toNat) 1 1 0 →
      exec (.trainingDone n last) s = .next (pump (rest.foldl (fun s f => emitFlit s n.toNat f) (setPort u n.toNat { q with
        step := .none, again := false, unacked := rest, rounds := 0, ackAt := s.dtime, winAt := s.dtime,
        txSeq := if rest = [] then (last.toNat + 1) % 4096 else q.txSeq })) n.toNat)) ∧
    (portState s n.toNat = portTraining → q.again = true → due s q.trainAt 10000000 = true →
      exec (.trainingTimeout n) s = .next (portDown s n.toNat))) ∧
  (∀ (n : BitVec 2) (s u : State), s.sec.recovery = false → u = hostTouch s →
    exec (.portDisable n) s = .next (dropPort (wrF u (Reg.linkPortCtl n.toNat) 0 0 0) n.toNat)) ∧
  (∀ s : State, exec .blRefclkLoss s = .next ([0, 1, 2, 3].foldl (fun s p =>
    if rdF s (Reg.linkPortCtl p) 0 0 = 1 ∧ portState s p ≠ portDownCode then portDown s p else s) s))

/-- The messages that a port delivers to this device, their timeouts and stalls, and the drop of imports (14 R592, R594, R595,
R596, R598, R600, R606). -/
def Obligations.LinkMessageCommandsComplete : Prop :=
  (∀ (n : BitVec 2) (s u : State) (m : List Byte), mDest m = ownId u →
    (nextMsg s n.toNat opRead = some (m, u) → exec (.read n) s = .next (serveReadMsg m u)) ∧
    (nextMsg s n.toNat opWrite = some (m, u) → exec (.write n) s = .next (serveWriteMsg n.toNat m u)) ∧
    (nextMsg s n.toNat opImport = some (m, u) → exec (.importMsg n) s = .next (serveImport m u)) ∧
    (nextMsg s n.toNat opRelease = some (m, u) → exec (.releaseMessage n) s = .next (serveRelease m u)) ∧
    ∀ r, mget u.link.reqs (mTag m) = some r → r.kind = .imp ∨ ctxLive u r.org.ctx = true →
      (nextMsg s n.toNat opReadReply = some (m, u) →
        (mStatus m ≠ 0 → exec (.readReply n) s = .next (failReq u (mTag m) r (.refused (mStatus m)))) ∧
        ∀ c g t th, mStatus m = 0 → r.kind = .coreRead c g t th →
          exec (.readReply n) s = .next (deliverRead (delReq u (mTag m)) c g t th (padTo r.n (mData m)))) ∧
      (nextMsg s n.toNat opWriteAck = some (m, u) →
        (mStatus m ≠ 0 → exec (.writeAck n) s = .next (failReq u (mTag m) r (.refused (mStatus m)))) ∧
        (mStatus m = 0 → exec (.writeAck n) s = .next (delReq u (mTag m)))) ∧
      (nextMsg s n.toNat opImportReply = some (m, u) → exec (.importReply n) s = .next (delReq u (mTag m))) ∧
      (nextMsg s n.toNat opStalled = some (m, u) → exec (.stalled n) s = .next (resendReq u (mTag m) r))) ∧
  (∀ (n : BitVec 2) (s u : State) (m : List Byte) (op : Nat), nextMsg s n.toNat op = some (m, u) → mDest m ≠ ownId u →
    (op = opRead → exec (.read n) s = .next (forward u m)) ∧ (op = opWrite → exec (.write n) s = .next (forward u m))) ∧
  (∀ (tag : Word32) (s : State) (r : LinkReq), mget s.link.reqs tag.toNat = some r → due s r.sentAt (rdF s Reg.linkCfg 33 20 * 100000) = true →
    exec (.remoteTimeout tag) s = .next (failReq (bump32 s Reg.linkTimeoutCount Reg.linkStatus 4 1) tag.toNat r .remoteTimeout)) ∧
  (∀ (n : BitVec 2) (vc : BitVec 3) (s u : State) (q : PortSt) (old : Burst → Bool) (b : Burst), q = portOf s n.toNat →
    (∀ b, old b = (decide (b.vc = vc.toNat) && ! b.dead && due s b.since (rdF s Reg.linkCfg 19 10 * 1000))) → q.bursts.find? old = some b →
    u = setPort s n.toNat { q with bursts := lset q.bursts (q.bursts.findIdx old) { b with dead := true, bytes := [] } } →
    exec (.burstStall n vc) s = .next (answerStall (appendRec (bump32 u Reg.linkStallCount Reg.linkStatus 2 1)
      (plainRec u Cond.burstStall (Engine.link n.toNat) 0 flagInfo 0 [])) b.bytes)) ∧
  (∀ (v : Word32) (s u : State), s.sec.recovery = false → u = hostTouch s →
    exec (.linkImportDrop v) s = .next (releaseImports u (fun i => i.src = v.toNat % 8)))

/-- The power states: requests, the handshake, entry, exit and the wake (15 R611, R614, R616, R618, R619, R620, R625). -/
def Obligations.PowerStateCommandsComplete : Prop :=
  (∀ (f : Bool) (s u v w : State) (n : Nat), s.sec.recovery = false → u = hostTouch s → u.power.req = none → pwrState u < 2 →
    v = wrF (wrF (leaveA1 u) Reg.pwrCtl 2 0 n) Reg.pwrCtl 3 3 (b2n f) → (refusers v).filter (fun k => ! f || k = 4) = [] →
    w = wrF (pwrResult (setPower v { v.power with req := some { target := n, at_ := v.dtime, commitAt := none } }) 1 0 0) Reg.pwrCtl 31 31 1 →
    (n = 2 → exec (.a2Request f) s = .next (if f then killWork w else w)) ∧
    (n = 3 → exec (.a3Request f) s = .next (if f then killWork w else w)) ∧
    (n = 4 → exec (.a4Request f) s = .next (if f then killWork w else w))) ∧
  (∀ (s u : State) (r : PwrReq), s.power.req = some r →
    (r.commitAt = none → u = pwrResult (flushDirty s) 1 0 0 →
      exec (.pmeToAck true) s = .next (setPower u { u.power with req := some { r with commitAt := some s.dtime } })) ∧
    (r.commitAt = none → exec (.pmeToAck false) s = .next (refuseEntry s [6])) ∧
    (r.commitAt = none → due s r.at_ 1000000000 = true → exec .handshakeTimeout s = .next (abortEntry s 6)) ∧
    (r.commitAt ≠ none → u = setPower s { s.power with req := none } →
      (r.target = 2 → exec .targetStateEntry s = .next (enterA2 u)) ∧ (r.target = 3 → exec .targetStateEntry s = .next (enterA3 u 0)) ∧
      (r.target = 4 → exec .targetStateEntry s = .next (enterA4 u)))) ∧
  (∀ (s u : State) (t : Nat), u = noteIdle s → u.power.idleSince = some t → pwrState u = 0 → u.power.req = none →
    due u t (rdF u Reg.pwrCfg 44 35 * 1000) = true → exec .a1Entry s = .next (setPwrState u 1)) ∧
  (∀ s : State,
    (pwrState s = 2 → s.power.wake.isSome → s.power.exit = 0 →
      ∃ t, exec .a2Exit s = .next t ∧ t.power.exit = 1 ∧ t.power.wake = none ∧ { t with power := s.power } = s) ∧
    (s.power.exit = 1 → exec (.retainedDigestCheck false) s = .next (beginBoot s .fundamental) ∧
      ∀ u, u = setTclk s tclkFull → exec (.retainedDigestCheck true) s = .next (setPower u { u.power with exit := 2, stepAt := s.dtime })) ∧
    (pwrState s = 3 → ∀ j : BitVec 8,
      (s.power.wake.isSome → 95 < j.toNat → exec (.a3Exit j) s = .next (setPower s { s.power with deferred := true })) ∧
      (s.power.wake.isSome → j.toNat ≤ 95 → exec (.a3Exit j) s = .next (beginBoot s .exitA3)) ∧
      (s.power.deferred = true → j.toNat ≤ 95 → exec (.deferredWakeRelease j) s = .next (beginBoot s .exitA3))))

/-- Power limits, coolant and temperature (15 R621, R622, R623, R624, R625; 17 R697). -/
def Obligations.PowerLimitCommandsComplete : Prop :=
  (∀ s : State,
    (pwrState s < 2 → ∀ (w : BitVec 10) (j : BitVec 8),
      exec (.powerMean w j) s = .next (judgePower (showTclk (wrF (wrF s Reg.pwrReading 9 0 w.toNat) Reg.pwrReading 17 10 j.toNat)))) ∧
    (pwrState s < 2 → overLimit s = true → tclkFloor < s.core.tclk → due s s.power.stepAt 10000 = true →
      exec .tclkThrottleStep s = .next (moveTclk s (max tclkFloor (s.core.tclk - 25)))) ∧
    (pwrState s < 2 → wattsNow s * 100 < effLimit s * 97 → junctionNow s < tjLimit s - 2 → s.core.tclk ≠ 0 → s.core.tclk < tclkFull →
      due s s.power.stepAt 100000 = true → exec .tclkRaiseStep s = .next (moveTclk s (min tclkFull (s.core.tclk + 25)))) ∧
    (∀ t u, s.power.overSince = some t → due s t 10000000 = true → s.sched.held = false →
      u = wrF (askNormal (setSched s { s.sched with held := true })) Reg.pwrStatus 26 26 1 →
      ∀ v, v = appendRec u (plainRec u Cond.powerAbort Engine.gantry 0 flagInfo 0 (leBytes 2 (wattsNow s) ++ leBytes 2 (effLimit s))) →
      exec .powerLimitAbort s = .next (sendMsix v 0 (rdF v Reg.errCtl 10 0))) ∧
    (∀ t, s.power.underSince = some t → due s t 10000000 = true → s.sched.held = true →
      exec .normalPlacementResume s = .next (settle (wrF (setSched s { s.sched with held := false }) Reg.pwrStatus 26 26 0))) ∧
    (coolantOn s = true → rdF s Reg.pwrStatus 25 25 = 0 →
      (holdExpired s s.power.inletBad = true → exec .coolantLoss s = .next (beginLoss s 1)) ∧
      (holdExpired s s.power.inletBad = false → holdExpired s s.power.flowBad = true → exec .coolantLoss s = .next (beginLoss s 2))) ∧
    (coolantOn s = true → due s s.power.coolAt 1000000000 = true → ∀ u, u = setPower s { s.power with coolGood := none } →
      (rdF s Reg.pwrStatus 25 25 = 0 → exec .coolantReportMissing s = .next (beginLoss u 3)) ∧
      (rdF s Reg.pwrStatus 25 25 = 1 → exec .coolantReportMissing s = .next u)) ∧
    (∀ t, s.power.coolGood = some t → rdF s Reg.pwrStatus 25 25 = 1 → due s t 5000000000 = true →
      exec .coolantLossEnd s = .next (judgePower (wrF s Reg.pwrStatus 25 25 0))) ∧
    (pwrState s < 2 → ∀ u, u = enterA3 s 1 →
      exec .thermalTrip s = .next (emit (setPower u { u.power with tripped := true, wake := none }) (.pin pinThermtrip false)))) ∧
  (∀ (v : Word32) (s u : State), s.sec.recovery = false → u = hostTouch s →
    ∃ t, exec (.pwrCoolant v) s = .next t ∧ rd t Reg.pwrCoolant = BitVec.ofNat 64 (v.toNat % 2 ^ 24) ∧ onlyRegs u t [Reg.pwrCoolant] ∧
      t.power.coolAt = u.dtime ∧
      t.power.inletBad = runTimer u (decide (720 < v.toNat % 4096)) u.power.inletBad ∧
      { t with regs := u.regs, power := u.power } = u)

/-- The Weighbridge: samples, their records, the stall, its watchdog and reset, and the classes (15 R613, R620, R627, R628,
R629, R631, R633, R641). -/
def Obligations.WeighbridgeCommandsComplete : Prop :=
  (∀ (n : BitVec 4) (s : State) (x : WbStream) (i : Nat), i = n.toNat → x = streamOf s i →
    (∀ u, wbRuns s = true → sOn s i = true → x.reading = none →
      sGpio s i = true ∨ x.last = none ∨ (∃ t, x.last = some t ∧ due s t (sPeriod s i * 1000) = true) →
      u = setStream s i { x with alive := (x.alive + 1) % 256, reading := some (s.dtime, x.alive), last := some s.dtime } →
      exec (.sample n) s = .next (snoopSensor (emit u (.bus i (sCmd s i))) i {
        first := true, last := false, bytes := wbHeader x.alive i 0 s.dtime })) ∧
    (∀ t a, x.reading = some (t, a) →
      (∀ b err bs, bs = wbHeader a i (b2n err) t ++ padTo (sBytes s i - 8) b →
        exec (.sampleRecord n b err) s = .next (evalRecord (deliverStream (snoopSensor (holdRec s i bs) i {
          first := false, last := true, bytes := padTo (sBytes s i - 8) b }) i) i bs)) ∧
      (∀ got v, due s t (rdF s Reg.wbCfg 16 0 * 1000) = true →
        v = bump32 (snoopSensor (setStream s i { x with reading := none }) i {
          first := false, last := false, bytes := got }) Reg.wbStallCount Reg.wbStatus 9 1 →
        exec (.sampleStall n got) s = .next (if pwrState v < 2 then appendRec v (plainRec v Cond.burstStall Engine.weighbridge (sOwner v i)
          flagInfo 0 (leBytes 1 i ++ leBytes 1 0 ++ leBytes 2 got.length)) else v)))) ∧
  (∀ s : State,
    (s.power.exit = 2 → ∀ u, u = (unretained s).foldl (fun s n => fillClaim s n (claimOf s n).strength) s →
      exec .a2RefillEnd s = .next (settle (deliverHeld (setPower (setPwrState u 0) { u.power with exit := 0, idleSince := none })))) ∧
    (wbRuns s = true → exec .weighbridgeWatchdog s = .next (resetWeigh s)) ∧
    (s.wb.resetAt.isSome → ∃ t, exec (.weighbridgeResetEnd true) s = .next t ∧ t.wb.resetAt = none ∧ { t with wb := s.wb } = s)) ∧
  (∀ (v : Word32) (s u : State), s.sec.recovery = false → u = hostTouch s →
    ∃ t, exec (.classEvClear v) s = .next t ∧ (∀ i, i < 8 → bitN (rdF t Reg.wbStatus 7 0) i = (bitN (rdF u Reg.wbStatus 7 0) i && ! bitN v.toNat i)) ∧
      onlyRegs u t [Reg.wbStatus] ∧ { t with regs := u.regs, wb := u.wb } = u)

/-- FW_CTL and the firmware slots (16 R666, R667, R668, R669, R672). -/
def Obligations.FirmwareCommandsComplete : Prop :=
  (∀ s u : State, u = hostTouch s → fwBusy u = false →
    (∀ (n : BitVec 14) a, slotIn u 2 = none → u.sec.ident = true → a = rdF u Reg.fwImageAddr 63 12 * 4096 →
      exec (.stage n) s = .next (emit (setSec (fwStart u) { (fwStart u).sec with
        op := some { op := 1, at_ := u.dtime, pages := n.toNat, addr := a } }) (.hostRead 0 a (n.toNat * 4096)))) ∧
    (∀ (n : BitVec 14), slotIn u 2 ≠ none ∨ u.sec.ident = false → exec (.stage n) s = .next (fwEnd u 5 0)) ∧
    (∀ i v, slotIn u 1 = some i → slotIn u 2 = none → imgStateMin (slotAt u i).img ≤ u.sec.book → u.sec.book ≤ imgFormat (slotAt u i).img →
      u.sec.standby ≠ none → v = setSlotState (fwStart u) i 2 →
      exec .activate s = .next (setSec v { v.sec with previous := slotIn u 3, hand := some {
        slot := i, back := false, tested := false, moved := 0, at_ := u.dtime } })) ∧
    (slotIn u 1 = none ∨ slotIn u 2 ≠ none → exec .activate s = .next (fwEnd u 5 0)) ∧
    (slotIn u 2 ≠ none → rdF u Reg.fwCfg 10 10 = 1 → exec .confirm s = .next (fwEnd (setSec u { u.sec with confirmed := true }) 0 0)) ∧
    (slotIn u 2 = none ∨ rdF u Reg.fwCfg 10 10 ≠ 1 → exec .confirm s = .next (fwEnd u 5 0)) ∧
    (u.sec.staged = none → exec .restart s = .next (beginBoot (setSec u { u.sec with trial := none }) .fundamental)) ∧
    exec .fwCtlReserved s = .next (fwEnd u 5 0)) ∧
  (∀ (s u v : State) (o : FwOp), s.sec.op = some o → u = setSec s { s.sec with op := none } →
    (∀ e ok, exec (.stageComplete (.fail e) ok) s = .next (fwEnd u 1 0)) ∧
    (∀ b, exec (.stageComplete (.ok b) false) s = .next (fwEnd u 8 0)) ∧
    (∀ b c, takeImage u (otherSlot u) (padTo (o.pages * 4096) b) (o.pages * 4096) = (v, c) →
      exec (.stageComplete (.ok b) true) s = .next (fwEnd v c.result c.code))) ∧
  (∀ (s : State) (h : Handover), s.sec.hand = some h →
    (h.tested = false → ∃ t, exec .standbySelfTest s = .next t ∧ t.sec.hand = some { h with tested := true, at_ := s.dtime } ∧
      { t with sec := s.sec } = s) ∧
    (∀ p u, s.sec.standby = some p → h.tested = true → h.moved = 0 ∨ due s h.at_ 1000000 = true →
      u = restartLoads (setSec s { s.sec with
        roles := lset s.sec.roles h.moved p, standby := s.sec.roles[h.moved]?, hand := some { h with moved := h.moved + 1, at_ := s.dtime } }) →
      exec .roleMove s = .next (if h.moved + 1 < 4 then u else settle (handoverEnd u h)))) ∧
  (∀ (s : State) (t i : Nat), s.sec.window = some t → slotIn s 2 = some i →
    (due s s.sec.heartAt 1000000000 = true → s.sec.standby ≠ none → rdF s Reg.fwCfg 10 10 = 0 ∨ s.sec.confirmed = true →
      exec .selfConfirmation s = .next (confirmSlot s i)) ∧
    (due s t (rdF s Reg.fwCfg 9 0 * 1000000000) = true → ∀ u v w,
      u = countFallback (setCode (appendRec s (fwRecord s Cond.notConfirmed i 0 (slotAt s i).img)) Cond.notConfirmed) →
      v = wrF (setSlotState u i 4) Reg.fwStatus 4 4 0 → w = setSec v { v.sec with window := none, trial := none } →
      (slotIn s 3 = none → exec .healthWindowExpiry s = .next w) ∧
      ∀ k, slotIn s 3 = some k → exec .healthWindowExpiry s = .next (setSec (fwStart w) { (fwStart w).sec with
        hand := some { slot := k, back := true, tested := false, moved := 0, at_ := s.dtime } }))) ∧
  (∀ (n : BitVec 3) (s : State), exec (.heartbeatMiss n) s = .next (loseProcessor s n.toNat))

/-- The haul of a firmware image over the link (14 R604; 16 R670). -/
def Obligations.HaulCommandsComplete : Prop :=
  (∀ (v : Word32) (s u w : State), s.sec.recovery = false → u = hostTouch s →
    w = wrF (wrF u Reg.fwHaul 1 1 (bitsN v.toNat 1 1)) Reg.fwHaul 3 2 (bitsN v.toNat 3 2) →
    (bitsN v.toNat 0 0 = 0 → exec (.fwHaulEnable v) s = .next (haulOff w)) ∧
    (bitsN v.toNat 0 0 = 1 → haulOn w = false → exec (.fwHaulEnable v) s = .next (askBlock (setHaulState (wrF w Reg.fwHaul 0 0 1) 1) {
      block := 0, tries := 0, at_ := u.dtime, bytes := [] })) ∧
    (bitsN v.toNat 0 0 = 1 → haulOn w = true → exec (.fwHaulEnable v) s = .next w)) ∧
  (∀ (s : State) (h : Haul), s.sec.haul = some h → haulOn s = true → h.block = 0 → h.bytes = [] → due s h.at_ 10000000 = true →
    exec .haulRequestTimer s = .next (askBlock s h)) ∧
  (∀ (n : BitVec 2) (s u : State) (m : List Byte), nextMsg s n.toNat opHaulReq = some (m, u) → mDest m = ownId u →
    exec (.haulReq n) s = .next (serveHaul n.toNat m u)) ∧
  (∀ (n : BitVec 2) (s u : State) (m : List Byte), nextMsg s n.toNat opHaulBlock = some (m, u) → mDest m = ownId u →
    exec (.haulBlock n) s = .next (takeBlock m u))

/-- SPDM messages, sessions, signed reports and IDE_KM (10 R388; 16 R661, R662, R663, R664, R665). -/
def Obligations.SpdmCommandsComplete : Prop :=
  (∀ s u : State, u = hostTouch s → ∀ m : List Byte,
      exec (.getVersion m) s = .next (answer (setSpdm u { u.sec.spdm with level := 1, sessions := [] }) 0x04 m) ∧
      (1 ≤ u.sec.spdm.level → exec (.getCapabilities m) s = .next (answer (setSpdm u { u.sec.spdm with level := 2 }) 0x61 m)) ∧
      (2 ≤ u.sec.spdm.level → exec (.negotiateAlgorithms m) s = .next (answer (setSpdm u { u.sec.spdm with level := 3 }) 0x63 m)) ∧
      (∀ b, baseSection u = some b →
        exec (.getDigests m) s = .next (emit u (.spdm 0x01 (Config.sha384 (Config.chainOf b)))) ∧
        ∀ o n, exec (.getCertificate 0 o n) s = .next (emit u (.spdm 0x02 (slice (Config.chainOf b) o.toNat n.toNat)))) ∧
      (u.sec.ident = true → exec (.challenge m) s = .next (answer u 0x03 m) ∧
        (∀ i : BitVec 8, 1 ≤ i.toNat → i.toNat ≤ 7 → exec (.getMeasurements i) s = .next (emit u (.spdm 0x60 (lget (measurements u) (i.toNat - 1) [])))) ∧
        (∀ i : BitVec 8, i.toNat = 0 ∨ 7 < i.toNat → exec (.getMeasurements i) s = .next (emit u (.spdm 0x60 (measurements u).flatten)))) ∧
      (∀ i : BitVec 8, exec (.doeDiscovery i) s =
        .next (emit u (.spdm 0x90 (if i.toNat < 4 then leBytes 1 i.toNat ++ leBytes 1 ((i.toNat + 1) % 4) else [])))) ∧
      (∀ hour r v, u.sec.ident = true → hour = u.sec.reports.filter (fun t => elapsed u t < 3600000000000) → hour.length < 60 →
        1024 < lmsLeft u → r = reportBytes u m → v = useKey (setSec u { u.sec with reports := hour ++ [u.dtime] }) →
        exec (.vendorDefinedRequest true 1 m) s = .next (emit v (.spdm 0x7E (r ++ Config.deviceSign r u.sec.nextQ)))) ∧
      (u.sec.ident = true → 60 ≤ (u.sec.reports.filter (fun t => elapsed u t < 3600000000000)).length →
        exec (.vendorDefinedRequest true 1 m) s = .next (spdmError u errBusy))) ∧
  (∀ (s u : State) (x : SpdmSt) (m : List Byte), u = hostTouch s → x = u.sec.spdm →
      (u.sec.ident = true → 3 ≤ x.level → exec (.keyExchange m) s = .next (answer (setSpdm u { x with
        sessions := x.sessions ++ [SpdmSession.mk x.nextId false 0], nextId := x.nextId + 1 }) 0x64 m)) ∧
      (∀ i : BitVec 32, sessionIs u i.toNat false = true → exec (.finish i m) s = .next (answer (setSpdm u { x with
        sessions := x.sessions.map (fun q => if q.id = i.toNat then { q with open_ := true } else q) }) 0x65 m)) ∧
      (∀ i : BitVec 32, sessionIs u i.toNat true = true →
        exec (.endSession i m) s = .next (answer (setSpdm u { x with sessions := x.sessions.filter (fun q => q.id ≠ i.toNat) }) 0x6C m) ∧
        exec (.keyUpdate i m) s = .next (answer (setSpdm u { x with
          sessions := x.sessions.map (fun q => if q.id = i.toNat then { q with updates := q.updates + 1 } else q) }) 0x69 m) ∧
        exec (.heartbeat i m) s = .next (answer u 0x68 m) ∧
        ∀ k : BitVec 8,
          exec (.ideKm i 0 k m) s = .next (answer u 0x80 m) ∧
          ((mget x.streams k.toNat).isSome ∨ x.streams.length < 4 →
            exec (.ideKm i 1 k m) s = .next (answer (setSpdm u { x with streams := mset x.streams k.toNat 1 }) 0x81 m)) ∧
          ((mget x.streams k.toNat).isSome →
            exec (.ideKm i 2 k m) s = .next (answer (setSpdm u { x with streams := mset x.streams k.toNat 2 }) 0x82 m) ∧
            exec (.ideKm i 3 k m) s = .next (answer (setSpdm u { x with streams := mset x.streams k.toNat 1 }) 0x83 m))))

/-- A signal to a fence that is not errored, its regression counted, every other fence unchanged (11 R463). -/
def Obligations.SignalsMoveFencesForward : Prop :=
  ∀ (s t : State) (k : Nat) (v : Word) (n : Nat) (f : Fence), mget s.host.fences k = some f → f.err = none → t = signalFence s k v n →
    (1 ≤ (v - f.value).toNat → (v - f.value).toNat ≤ 2 ^ 63 - 1 →
      ∃ g, mget t.host.fences k = some g ∧ g.value = v ∧ g.err = none ∧ g.refs = f.refs) ∧
    ((v - f.value).toNat = 0 → t = s) ∧
    (2 ^ 63 ≤ (v - f.value).toNat → (∃ g, mget t.host.fences k = some g ∧ g.value = f.value ∧ g.err = none ∧ g.refs = f.refs) ∧
      rdF t (pkey (k / 65536) Reg.objFenceRegressCount) 31 0 =
        min (rdF s (pkey (k / 65536) Reg.objFenceRegressCount) 31 0 + 1) (2 ^ 32 - 1)) ∧
    (∀ j, j ≠ k → mget t.host.fences j = mget s.host.fences j) ∧ t.mem = s.mem

/-- A fence has reached a value when it lies within 2^63 behind it: reached by the value itself, and no value is reached from
2^63 away (11 R462). -/
def Obligations.FenceReachedRule : Prop :=
  ∀ f v : Word, (reached f v = true ↔ (f.toNat + 2 ^ 64 - v.toNat) % 2 ^ 64 < 2 ^ 63) ∧ reached f f = true ∧
    (reached f v = true → reached v f = true → f = v)

/-- MSI-X messages: beyond the table they are dropped and counted; at a masked entry they set its pending bit; an unmasked entry
sends one message, however many events arrived (10 R398). -/
def Obligations.MaskedMessagesAreSentOnce : Prop :=
  (∀ (s : State) (f i : Nat), msixSize s f ≤ i → (rd s Reg.pcieMsiDropCount).toNat < 2 ^ 32 - 1 →
    ∃ t, t = sendMsix s f i ∧ rd t Reg.pcieMsiDropCount = rd s Reg.pcieMsiDropCount + 1 ∧ onlyRegs s t [Reg.pcieMsiDropCount] ∧
      { t with regs := s.regs } = s) ∧
  (∀ (s : State) (f i : Nat), i < msixSize s f → s.host.pcie.msixEnable.getLsbD f = true → (msixGet s f i).masked = true →
    sendMsix s f i = msixPut s f i { msixGet s f i with pend := true }) ∧
  (∀ (fn : Part) (i : BitVec 11) (s t : State) (n : Nat), i.toNat < msixSize s fn.toNat → s.host.pcie.msixEnable.getLsbD fn.toNat = true →
    s.host.pcie.funcMask.getLsbD fn.toNat = false → (msixGet s fn.toNat i.toNat).masked = true → s.sec.recovery = false →
    hostTouch s = s → t = Nat.repeat (fun u => sendMsix u fn.toNat i.toNat) (n + 1) s →
    t.out = s.out ∧ ∃ v, exec (.msixUnmask fn i) t = .next v ∧ v.out = s.out ++ [.msix fn.toNat i.toNat] ∧
      (msixGet v fn.toNat i.toNat).pend = false)

/-- What a write leaves in each field of a register, by the field's access type (00 R6, R8; 18 R713, R714). -/
def Obligations.RegisterFieldsFollowTheirTypes : Prop :=
  ∀ (k : Nat) (d : RegDesc) (f : FieldDesc) (data v w : Word) (locked : Bool) (frozen : FieldDesc → Bool), regAt k = some d → f ∈ d.fields →
    w = putFields d data locked frozen v →
    (f.ty = .ro ∨ f.ty = .own → wbits w f.hi f.lo = wbits v f.hi f.lo) ∧
    (f.ty = .rw ∨ f.ty = .rwl → locked = false → frozen f = false → holdsRange f (wbits data f.hi f.lo) = true →
      wbits w f.hi f.lo = wbits data f.hi f.lo) ∧
    (f.ty = .rwl → locked = true → wbits w f.hi f.lo = wbits v f.hi f.lo) ∧
    (f.ty = .rw ∨ f.ty = .rwl → frozen f = true ∨ holdsRange f (wbits data f.hi f.lo) = false → wbits w f.hi f.lo = wbits v f.hi f.lo) ∧
    (f.ty = .w1c → ∀ i, f.lo ≤ i → i ≤ f.hi → w.getLsbD i = (v.getLsbD i && ! data.getLsbD i)) ∧
    (f.ty = .w1s → ∀ i, f.lo ≤ i → i ≤ f.hi → w.getLsbD i = (v.getLsbD i || data.getLsbD i))

/-- A saturating counter adds every increment until it reaches its maximum, which it then holds; an increment that finds it
there sets its overflow bit (09 R378, R379). -/
def Obligations.CountersSaturate : Prop :=
  ∀ (s t : State) (key status bit n : Nat), key ∉ [status, Reg.errStatus, Reg.pcieStatus, Reg.pcieMsiDropCount] →
    status ∉ [Reg.pcieMsiDropCount] → 1 ≤ bit → bit < 64 → t = bump32 s key status bit n →
    rdF t key 31 0 = min (rdF s key 31 0 + n) (2 ^ 32 - 1) ∧
    (rdF s key 31 0 + n ≤ 2 ^ 32 - 1 → onlyRegs s t [key] ∧ { t with regs := s.regs } = s) ∧
    (2 ^ 32 - 1 < rdF s key 31 0 + n → rdF t status bit bit = 1 ∧ t.mem = s.mem)

/-- A handle holds its slot, partition, type and generation, and is never 0 (11 R444). -/
def Obligations.HandlesNameTheirSlot : Prop :=
  ∀ p i ty g : Nat, p < 32 → i < 65536 → 1 ≤ ty → ty ≤ 5 → 1 ≤ g → g < 256 → ∀ h, h = mkHandle ty (okey p i) g →
    bitsN h 15 0 = i ∧ bitsN h 20 16 = p ∧ bitsN h 23 21 = ty ∧ bitsN h 31 24 = g ∧ h < 2 ^ 32 ∧ h ≠ 0 ∧ hKey h = okey p i

/-- Multi-byte fields are little-endian: byte i of an n-byte field holds bits [8i+7:8i], and the field reads back (00 R2). -/
def Obligations.FieldsAreLittleEndian : Prop :=
  ∀ n x : Nat, (leBytes n x).length = n ∧ leNat (leBytes n x) = x % 256 ^ n ∧
    (∀ i, i < n → ((leBytes n x)[i]?).map BitVec.toNat = some (x / 256 ^ i % 256)) ∧
    ∀ a b : List Byte, fieldAt (a ++ leBytes n x ++ b) a.length n = x % 256 ^ n

/-- A sector written to a page of DRAM reads back on the fast path, and every byte outside it is as before (08 R303; 09 R350,
R351, R352, R358). -/
def Obligations.WrittenSectorsReadBack : Prop :=
  ∀ (s t : State) (page k : Nat) (data : List Byte), k < 32 → data.length = 64 → t = updateSector s page k data false →
    readSector t (page * 2048 + 64 * k) = (t, .bytes data) ∧
    (∀ pp i, i < 2048 → pp ≠ physPage s page ∨ i < 64 * k ∨ 64 * k + 64 ≤ i → rawByte t pp i = rawByte s pp i) ∧
    { t with mem := s.mem } = s ∧ physPage t page = physPage s page

/-- The pages of DRAM are spread one-to-one, and a frame's 1,024 pages visit each of the 128 pseudo-channels 8 times (08 R303).
-/
def Obligations.PagesSpreadOverChannels : Prop :=
  (∀ p, p < 2 ^ 26 → place p = (Nat.xor (p % 128) (p / 2 ^ 7 % 128) / 2 ^ 5, Nat.xor (p % 128) (p / 2 ^ 7 % 128) % 32, p / 2 ^ 7 % 64, p / 2 ^ 13)) ∧
  (∀ p q, p < 2 ^ 26 → q < 2 ^ 26 → place p = place q → p = q) ∧
  (∀ f stack channel, f < 49152 → stack < 4 → channel < 32 →
    ((List.range 1024).filter (fun i => (place (f * 1024 + i)).1 = stack && (place (f * 1024 + i)).2.1 = channel)).length = 8)

/-- E4M3: exponent field 0b1111 is normal with mantissa 0b000 to 0b110; 0x7F and 0xFF are the only NaNs; there is no infinity
(02 R35). -/
def Obligations.E4m3HasTwoNansAndNoInfinity : Prop :=
  ∀ x, x < 256 → (decodeFmt Fmt.E4M3 x = .nan ↔ x = 0x7F ∨ x = 0xFF) ∧ (∀ n, decodeFmt Fmt.E4M3 x ≠ .inf n) ∧
    (x / 8 % 16 = 15 → x % 8 ≤ 6 → decodeFmt Fmt.E4M3 x = .fin (decide (128 ≤ x)) (8 + x % 8) 5)

/-- Packed weights: element i of a run of a format of b bits lies in byte floor(i / p), p elements a byte, from bit 0 up (02
R41). -/
def Obligations.WeightsPackFromBitZero : Prop :=
  ∀ (fmt b p n i : Nat) (bs : List Byte),
    (fmt, b, p) ∈ [(Fmt.W1, 1, 8), (Fmt.W2T, 2, 4), (Fmt.W2C, 2, 4), (Fmt.W4I, 4, 2), (Fmt.W4C, 4, 2)] → i < n → n ≤ p * bs.length →
    (unpack fmt n bs)[i]? = ((bs[i / p]?).map (fun x => x.toNat / 2 ^ (b * (i % p)) % 2 ^ b))
end

