-- ==== Sys2Proof/Laws/Exec.lean ====
section
/-! SUPPORT. One equation per command: what `exec` does with it is its meaning. -/
namespace Sys2Proof.Machine

@[simp] theorem exec_registerWrite : ∀ t s, exec (.registerWrite t) s = execRegisterWrite t s := by
  intros; rfl
@[simp] theorem exec_unsupportedBarAccess : ∀ fn off bytes isRead s, exec (.unsupportedBarAccess fn off bytes isRead) s = execUnsupportedBarAccess fn off bytes isRead s := by
  intros; rfl
@[simp] theorem exec_powerOn : ∀ testEn s, exec (.powerOn testEn) s = execPowerOn testEn s := by
  intros; rfl
@[simp] theorem exec_pwrgdDeassert : ∀ s, exec (.pwrgdDeassert) s = execPwrgdDeassert s := by
  intros; rfl
@[simp] theorem exec_railUndervoltage : ∀ s, exec (.railUndervoltage) s = execRailUndervoltage s := by
  intros; rfl
@[simp] theorem exec_keyDerivation : ∀ puf s, exec (.keyDerivation puf) s = execKeyDerivation puf s := by
  intros; rfl
@[simp] theorem exec_configurationRecordChoice : ∀ bad0 bad1 s, exec (.configurationRecordChoice bad0 bad1) s = execConfigurationRecordChoice bad0 bad1 s := by
  intros; rfl
@[simp] theorem exec_stackTraining : ∀ refclk id s, exec (.stackTraining refclk id) s = execStackTraining refclk id s := by
  intros; rfl
@[simp] theorem exec_memoryFill : ∀ s, exec (.memoryFill) s = execMemoryFill s := by
  intros; rfl
@[simp] theorem exec_slotBootVerify : ∀ s, exec (.slotBootVerify) s = execSlotBootVerify s := by
  intros; rfl
@[simp] theorem exec_gantryRelease : ∀ s, exec (.gantryRelease) s = execGantryRelease s := by
  intros; rfl
@[simp] theorem exec_logicalCoreAssignment : ∀ back s, exec (.logicalCoreAssignment back) s = execLogicalCoreAssignment back s := by
  intros; rfl
@[simp] theorem exec_ready : ∀ s, exec (.ready) s = execReady s := by
  intros; rfl
@[simp] theorem exec_perstAssert : ∀ s, exec (.perstAssert) s = execPerstAssert s := by
  intros; rfl
@[simp] theorem exec_perstRelease : ∀ s, exec (.perstRelease) s = execPerstRelease s := by
  intros; rfl
@[simp] theorem exec_configurationRecordAppend : ∀ good s, exec (.configurationRecordAppend good) s = execConfigurationRecordAppend good s := by
  intros; rfl
@[simp] theorem exec_hotReset : ∀ s, exec (.hotReset) s = execHotReset s := by
  intros; rfl
@[simp] theorem exec_linkDownReset : ∀ s, exec (.linkDownReset) s = execLinkDownReset s := by
  intros; rfl
@[simp] theorem exec_pfFlr : ∀ s, exec (.pfFlr) s = execPfFlr s := by
  intros; rfl
@[simp] theorem exec_vfFlr : ∀ n s, exec (.vfFlr n) s = execVfFlr n s := by
  intros; rfl
@[simp] theorem exec_vfEnableClear : ∀ s, exec (.vfEnableClear) s = execVfEnableClear s := by
  intros; rfl
@[simp] theorem exec_msixUnmask : ∀ fn index s, exec (.msixUnmask fn index) s = execMsixUnmask fn index s := by
  intros; rfl
@[simp] theorem exec_pcieMsixAllocWrite : ∀ fn value s, exec (.pcieMsixAllocWrite fn value) s = execPcieMsixAllocWrite fn value s := by
  intros; rfl
@[simp] theorem exec_completionTimeout : ∀ req s, exec (.completionTimeout req) s = execCompletionTimeout req s := by
  intros; rfl
@[simp] theorem exec_partCreate : ∀ p hdr claims s, exec (.partCreate p hdr claims) s = execPartCreate p hdr claims s := by
  intros; rfl
@[simp] theorem exec_partDestroy : ∀ p s, exec (.partDestroy p) s = execPartDestroy p s := by
  intros; rfl
@[simp] theorem exec_setGrant : ∀ p grant s, exec (.setGrant p grant) s = execSetGrant p grant s := by
  intros; rfl
@[simp] theorem exec_claimFillingEnd : ∀ claim s, exec (.claimFillingEnd claim) s = execClaimFillingEnd claim s := by
  intros; rfl
@[simp] theorem exec_ringCreate : ∀ p ring desc s, exec (.ringCreate p ring desc) s = execRingCreate p ring desc s := by
  intros; rfl
@[simp] theorem exec_ringDestroy : ∀ p ring s, exec (.ringDestroy p ring) s = execRingDestroy p ring s := by
  intros; rfl
@[simp] theorem exec_ringStop : ∀ p ring s, exec (.ringStop p ring) s = execRingStop p ring s := by
  intros; rfl
@[simp] theorem exec_ringResume : ∀ p ring s, exec (.ringResume p ring) s = execRingResume p ring s := by
  intros; rfl
@[simp] theorem exec_ringQuery : ∀ p ring s, exec (.ringQuery p ring) s = execRingQuery p ring s := by
  intros; rfl
@[simp] theorem exec_ringCmdReserved : ∀ p ring s, exec (.ringCmdReserved p ring) s = execRingCmdReserved p ring s := by
  intros; rfl
@[simp] theorem exec_tailPoll : ∀ p ring s, exec (.tailPoll p ring) s = execTailPoll p ring s := by
  intros; rfl
@[simp] theorem exec_tailReadReturn : ∀ p ring r s, exec (.tailReadReturn p ring r) s = execTailReadReturn p ring r s := by
  intros; rfl
@[simp] theorem exec_entryFetch : ∀ p ring buffer r s, exec (.entryFetch p ring buffer r) s = execEntryFetch p ring buffer r s := by
  intros; rfl
@[simp] theorem exec_idleSequence : ∀ p ring s, exec (.idleSequence p ring) s = execIdleSequence p ring s := by
  intros; rfl
@[simp] theorem exec_idleTailReturn : ∀ p ring r s, exec (.idleTailReturn p ring r) s = execIdleTailReturn p ring r s := by
  intros; rfl
@[simp] theorem exec_gantryWake : ∀ fn value s, exec (.gantryWake fn value) s = execGantryWake fn value s := by
  intros; rfl
@[simp] theorem exec_payloadRead : ∀ p ring r s, exec (.payloadRead p ring r) s = execPayloadRead p ring r s := by
  intros; rfl
@[simp] theorem exec_inFlightAdmission : ∀ p ring s, exec (.inFlightAdmission p ring) s = execInFlightAdmission p ring s := by
  intros; rfl
@[simp] theorem exec_entryRetirement : ∀ wid s, exec (.entryRetirement wid) s = execEntryRetirement wid s := by
  intros; rfl
@[simp] theorem exec_nop : ∀ p ring s, exec (.nop p ring) s = execNop p ring s := by
  intros; rfl
@[simp] theorem exec_dispatch : ∀ p ring s, exec (.dispatch p ring) s = execDispatch p ring s := by
  intros; rfl
@[simp] theorem exec_tensor : ∀ p ring s, exec (.tensor p ring) s = execTensor p ring s := by
  intros; rfl
@[simp] theorem exec_render : ∀ p ring s, exec (.render p ring) s = execRender p ring s := by
  intros; rfl
@[simp] theorem exec_copy : ∀ p ring s, exec (.copy p ring) s = execCopy p ring s := by
  intros; rfl
@[simp] theorem exec_zero : ∀ p ring s, exec (.zero p ring) s = execZero p ring s := by
  intros; rfl
@[simp] theorem exec_preload : ∀ p ring s, exec (.preload p ring) s = execPreload p ring s := by
  intros; rfl
@[simp] theorem exec_preloadLock : ∀ p ring s, exec (.preloadLock p ring) s = execPreloadLock p ring s := by
  intros; rfl
@[simp] theorem exec_unlock : ∀ p ring s, exec (.unlock p ring) s = execUnlock p ring s := by
  intros; rfl
@[simp] theorem exec_writeback : ∀ p ring s, exec (.writeback p ring) s = execWriteback p ring s := by
  intros; rfl
@[simp] theorem exec_scrub : ∀ p ring s, exec (.scrub p ring) s = execScrub p ring s := by
  intros; rfl
@[simp] theorem exec_copyEngineBoundary : ∀ engine ext s, exec (.copyEngineBoundary engine ext) s = execCopyEngineBoundary engine ext s := by
  intros; rfl
@[simp] theorem exec_copyPreemption : ∀ engine wid s, exec (.copyPreemption engine wid) s = execCopyPreemption engine wid s := by
  intros; rfl
@[simp] theorem exec_loadModule : ∀ p ring s, exec (.loadModule p ring) s = execLoadModule p ring s := by
  intros; rfl
@[simp] theorem exec_moduleLoadEnd : ∀ p code spec f s, exec (.moduleLoadEnd p code spec f) s = execModuleLoadEnd p code spec f s := by
  intros; rfl
@[simp] theorem exec_unloadModule : ∀ p ring s, exec (.unloadModule p ring) s = execUnloadModule p ring s := by
  intros; rfl
@[simp] theorem exec_segUpdate : ∀ p ring s, exec (.segUpdate p ring) s = execSegUpdate p ring s := by
  intros; rfl
@[simp] theorem exec_call : ∀ p ring s, exec (.call p ring) s = execCall p ring s := by
  intros; rfl
@[simp] theorem exec_timestamp : ∀ p ring s, exec (.timestamp p ring) s = execTimestamp p ring s := by
  intros; rfl
@[simp] theorem exec_groupInstruction : ∀ core group op s, exec (.groupInstruction core group op) s = execGroupInstruction core group op s := by
  intros; rfl
@[simp] theorem exec_rotation : ∀ core group s, exec (.rotation core group) s = execRotation core group s := by
  intros; rfl
@[simp] theorem exec_workgroupBarrier : ∀ core group s, exec (.workgroupBarrier core group) s = execWorkgroupBarrier core group s := by
  intros; rfl
@[simp] theorem exec_subgroupBarrier : ∀ core group s, exec (.subgroupBarrier core group) s = execSubgroupBarrier core group s := by
  intros; rfl
@[simp] theorem exec_groupOperation : ∀ core group f uniform dst a b s, exec (.groupOperation core group f uniform dst a b) s = execGroupOperation core group f uniform dst a b s := by
  intros; rfl
@[simp] theorem exec_load : ∀ core group ptr size dst vol nt s, exec (.load core group ptr size dst vol nt) s = execLoad core group ptr size dst vol nt s := by
  intros; rfl
@[simp] theorem exec_store : ∀ core group ptr size src s, exec (.store core group ptr size src) s = execStore core group ptr size src s := by
  intros; rfl
@[simp] theorem exec_memoryBarrier : ∀ core group release acquire scope s, exec (.memoryBarrier core group release acquire scope) s = execMemoryBarrier core group release acquire scope s := by
  intros; rfl
@[simp] theorem exec_atomic : ∀ core group ptr f wide dst val cmp s, exec (.atomic core group ptr f wide dst val cmp) s = execAtomic core group ptr f wide dst val cmp s := by
  intros; rfl
@[simp] theorem exec_opReadClockKhr : ∀ core group device dst s, exec (.opReadClockKhr core group device dst) s = execOpReadClockKhr core group device dst s := by
  intros; rfl
@[simp] theorem exec_imageSample : ∀ core group f set binding dst s, exec (.imageSample core group f set binding dst) s = execImageSample core group f set binding dst s := by
  intros; rfl
@[simp] theorem exec_tensorIssue : ∀ core group ptr dst s, exec (.tensorIssue core group ptr dst) s = execTensorIssue core group ptr dst s := by
  intros; rfl
@[simp] theorem exec_tensorWait : ∀ core group ticket dst s, exec (.tensorWait core group ticket dst) s = execTensorWait core group ticket dst s := by
  intros; rfl
@[simp] theorem exec_tensorPoll : ∀ core group ticket dst s, exec (.tensorPoll core group ticket dst) s = execTensorPoll core group ticket dst s := by
  intros; rfl
@[simp] theorem exec_tileHandoff : ∀ core group ptr s, exec (.tileHandoff core group ptr) s = execTileHandoff core group ptr s := by
  intros; rfl
@[simp] theorem exec_cadenceRead : ∀ core group dst s, exec (.cadenceRead core group dst) s = execCadenceRead core group dst s := by
  intros; rfl
@[simp] theorem exec_lineRead : ∀ core group head dst s, exec (.lineRead core group head dst) s = execLineRead core group head dst s := by
  intros; rfl
@[simp] theorem exec_markFeed : ∀ core group ptr value size s, exec (.markFeed core group ptr value size) s = execMarkFeed core group ptr value size s := by
  intros; rfl
@[simp] theorem exec_asyncCopy : ∀ core group dst src bytes out s, exec (.asyncCopy core group dst src bytes out) s = execAsyncCopy core group dst src bytes out s := by
  intros; rfl
@[simp] theorem exec_asyncCopyComplete : ∀ core group ticket s, exec (.asyncCopyComplete core group ticket) s = execAsyncCopyComplete core group ticket s := by
  intros; rfl
@[simp] theorem exec_copyWait : ∀ core group ticket s, exec (.copyWait core group ticket) s = execCopyWait core group ticket s := by
  intros; rfl
@[simp] theorem exec_l1Prefetch : ∀ core group ptr bytes s, exec (.l1Prefetch core group ptr bytes) s = execL1Prefetch core group ptr bytes s := by
  intros; rfl
@[simp] theorem exec_yield : ∀ core group s, exec (.yield core group) s = execYield core group s := by
  intros; rfl
@[simp] theorem exec_sleep : ∀ core group ns s, exec (.sleep core group ns) s = execSleep core group ns s := by
  intros; rfl
@[simp] theorem exec_sleepExpiry : ∀ core group s, exec (.sleepExpiry core group) s = execSleepExpiry core group s := by
  intros; rfl
@[simp] theorem exec_trap : ∀ core group value s, exec (.trap core group value) s = execTrap core group value s := by
  intros; rfl
@[simp] theorem exec_workgroupPlacement : ∀ core s, exec (.workgroupPlacement core) s = execWorkgroupPlacement core s := by
  intros; rfl
@[simp] theorem exec_preemptionRequest : ∀ core p ctx s, exec (.preemptionRequest core p ctx) s = execPreemptionRequest core p ctx s := by
  intros; rfl
@[simp] theorem exec_coreSave : ∀ core p ctx s, exec (.coreSave core p ctx) s = execCoreSave core p ctx s := by
  intros; rfl
@[simp] theorem exec_resumption : ∀ core s, exec (.resumption core) s = execResumption core s := by
  intros; rfl
@[simp] theorem exec_replyDelivery : ∀ core group tag thread reply s, exec (.replyDelivery core group tag thread reply) s = execReplyDelivery core group tag thread reply s := by
  intros; rfl
@[simp] theorem exec_kStep : ∀ core s, exec (.kStep core) s = execKStep core s := by
  intros; rfl
@[simp] theorem exec_tensorCompletion : ∀ item s, exec (.tensorCompletion item) s = execTensorCompletion item s := by
  intros; rfl
@[simp] theorem exec_tensorFault : ∀ core s, exec (.tensorFault core) s = execTensorFault core s := by
  intros; rfl
@[simp] theorem exec_tensorPreemption : ∀ core item s, exec (.tensorPreemption core item) s = execTensorPreemption core item s := by
  intros; rfl
@[simp] theorem exec_tensorResume : ∀ core s, exec (.tensorResume core) s = execTensorResume core s := by
  intros; rfl
@[simp] theorem exec_drawRecordFetch : ∀ pass s, exec (.drawRecordFetch pass) s = execDrawRecordFetch pass s := by
  intros; rfl
@[simp] theorem exec_batch : ∀ pass unit tess s, exec (.batch pass unit tess) s = execBatch pass unit tess s := by
  intros; rfl
@[simp] theorem exec_primitive : ∀ pass unit s, exec (.primitive pass unit) s = execPrimitive pass unit s := by
  intros; rfl
@[simp] theorem exec_geomBinGrant : ∀ p value s, exec (.geomBinGrant p value) s = execGeomBinGrant p value s := by
  intros; rfl
@[simp] theorem exec_binGrowthTimeout : ∀ p s, exec (.binGrowthTimeout p) s = execBinGrowthTimeout p s := by
  intros; rfl
@[simp] theorem exec_tileHandout : ∀ pass core s, exec (.tileHandout pass core) s = execTileHandout pass core s := by
  intros; rfl
@[simp] theorem exec_beginInvocationInterlock : ∀ core group s, exec (.beginInvocationInterlock core group) s = execBeginInvocationInterlock core group s := by
  intros; rfl
@[simp] theorem exec_tileEnd : ∀ pass core tile s, exec (.tileEnd pass core tile) s = execTileEnd pass core tile s := by
  intros; rfl
@[simp] theorem exec_tileBankRelease : ∀ pass core tile s, exec (.tileBankRelease pass core tile) s = execTileBankRelease pass core tile s := by
  intros; rfl
@[simp] theorem exec_renderPassComplete : ∀ pass s, exec (.renderPassComplete pass) s = execRenderPassComplete pass s := by
  intros; rfl
@[simp] theorem exec_geometryPreemption : ∀ pass unit s, exec (.geometryPreemption pass unit) s = execGeometryPreemption pass unit s := by
  intros; rfl
@[simp] theorem exec_tilePhasePreemption : ∀ pass core s, exec (.tilePhasePreemption pass core) s = execTilePhasePreemption pass core s := by
  intros; rfl
@[simp] theorem exec_dressFlip : ∀ p head value s, exec (.dressFlip p head value) s = execDressFlip p head value s := by
  intros; rfl
@[simp] theorem exec_latchLine : ∀ head s, exec (.latchLine head) s = execLatchLine head s := by
  intros; rfl
@[simp] theorem exec_frameStart : ∀ head s, exec (.frameStart head) s = execFrameStart head s := by
  intros; rfl
@[simp] theorem exec_doneRecord : ∀ head s, exec (.doneRecord head) s = execDoneRecord head s := by
  intros; rfl
@[simp] theorem exec_layerFetch : ∀ head late s, exec (.layerFetch head late) s = execLayerFetch head late s := by
  intros; rfl
@[simp] theorem exec_headEnable : ∀ head train s, exec (.headEnable head train) s = execHeadEnable head train s := by
  intros; rfl
@[simp] theorem exec_headDisable : ∀ head s, exec (.headDisable head) s = execHeadDisable head s := by
  intros; rfl
@[simp] theorem exec_hpdInterrupt : ∀ level train s, exec (.hpdInterrupt level train) s = execHpdInterrupt level train s := by
  intros; rfl
@[simp] theorem exec_dsiCommand : ∀ port s, exec (.dsiCommand port) s = execDsiCommand port s := by
  intros; rfl
@[simp] theorem exec_dsiPacketSend : ∀ port resp s, exec (.dsiPacketSend port resp) s = execDsiPacketSend port resp s := by
  intros; rfl
@[simp] theorem exec_translationWalk : ∀ cache k s, exec (.translationWalk cache k) s = execTranslationWalk cache k s := by
  intros; rfl
@[simp] theorem exec_memXlateInval : ∀ p value s, exec (.memXlateInval p value) s = execMemXlateInval p value s := by
  intros; rfl
@[simp] theorem exec_invalidationComplete : ∀ p s, exec (.invalidationComplete p) s = execInvalidationComplete p s := by
  intros; rfl
@[simp] theorem exec_lineFill : ∀ slice line s, exec (.lineFill slice line) s = execLineFill slice line s := by
  intros; rfl
@[simp] theorem exec_evictionWriteComplete : ∀ slice k s, exec (.evictionWriteComplete slice k) s = execEvictionWriteComplete slice k s := by
  intros; rfl
@[simp] theorem exec_fastPathRead : ∀ sector upset s, exec (.fastPathRead sector upset) s = execFastPathRead sector upset s := by
  intros; rfl
@[simp] theorem exec_slowPathDecode : ∀ page upset s, exec (.slowPathDecode page upset) s = execSlowPathDecode page upset s := by
  intros; rfl
@[simp] theorem exec_sectorWrite : ∀ slice k half s, exec (.sectorWrite slice k half) s = execSectorWrite slice k half s := by
  intros; rfl
@[simp] theorem exec_patrolScrub : ∀ upset s, exec (.patrolScrub upset) s = execPatrolScrub upset s := by
  intros; rfl
@[simp] theorem exec_readRaw : ∀ value s, exec (.readRaw value) s = execReadRaw value s := by
  intros; rfl
@[simp] theorem exec_writeRaw : ∀ value s, exec (.writeRaw value) s = execWriteRaw value s := by
  intros; rfl
@[simp] theorem exec_encode : ∀ value s, exec (.encode value) s = execEncode value s := by
  intros; rfl
@[simp] theorem exec_sramError : ∀ array row correctable s, exec (.sramError array row correctable) s = execSramError array row correctable s := by
  intros; rfl
@[simp] theorem exec_thresholdWindow : ∀ s, exec (.thresholdWindow) s = execThresholdWindow s := by
  intros; rfl
@[simp] theorem exec_errFrameRetire : ∀ value s, exec (.errFrameRetire value) s = execErrFrameRetire value s := by
  intros; rfl
@[simp] theorem exec_errCoreRetire : ∀ value s, exec (.errCoreRetire value) s = execErrCoreRetire value s := by
  intros; rfl
@[simp] theorem exec_frameRetirement : ∀ s, exec (.frameRetirement) s = execFrameRetirement s := by
  intros; rfl
@[simp] theorem exec_retirementPageCopy : ∀ s, exec (.retirementPageCopy) s = execRetirementPageCopy s := by
  intros; rfl
@[simp] theorem exec_spareAssignment : ∀ core s, exec (.spareAssignment core) s = execSpareAssignment core s := by
  intros; rfl
@[simp] theorem exec_promotionComplete : ∀ core s, exec (.promotionComplete core) s = execPromotionComplete core s := by
  intros; rfl
@[simp] theorem exec_coreUnavailable : ∀ core s, exec (.coreUnavailable core) s = execCoreUnavailable core s := by
  intros; rfl
@[simp] theorem exec_objCreate : ∀ p owner desc s, exec (.objCreate p owner desc) s = execObjCreate p owner desc s := by
  intros; rfl
@[simp] theorem exec_addRef : ∀ p owner s, exec (.addRef p owner) s = execAddRef p owner s := by
  intros; rfl
@[simp] theorem exec_release : ∀ p owner s, exec (.release p owner) s = execRelease p owner s := by
  intros; rfl
@[simp] theorem exec_signal : ∀ p owner s, exec (.signal p owner) s = execSignal p owner s := by
  intros; rfl
@[simp] theorem exec_objRead : ∀ p owner s, exec (.objRead p owner) s = execObjRead p owner s := by
  intros; rfl
@[simp] theorem exec_objQuery : ∀ p owner s, exec (.objQuery p owner) s = execObjQuery p owner s := by
  intros; rfl
@[simp] theorem exec_arm : ∀ p owner s, exec (.arm p owner) s = execArm p owner s := by
  intros; rfl
@[simp] theorem exec_kill : ∀ p owner s, exec (.kill p owner) s = execKill p owner s := by
  intros; rfl
@[simp] theorem exec_ownerGone : ∀ p owner s, exec (.ownerGone p owner) s = execOwnerGone p owner s := by
  intros; rfl
@[simp] theorem exec_objCmdReserved : ∀ p owner s, exec (.objCmdReserved p owner) s = execObjCmdReserved p owner s := by
  intros; rfl
@[simp] theorem exec_killEngineStop : ∀ p ctx s, exec (.killEngineStop p ctx) s = execKillEngineStop p ctx s := by
  intros; rfl
@[simp] theorem exec_killRetirement : ∀ p ctx s, exec (.killRetirement p ctx) s = execKillRetirement p ctx s := by
  intros; rfl
@[simp] theorem exec_killSummaryRecord : ∀ p ctx s, exec (.killSummaryRecord p ctx) s = execKillSummaryRecord p ctx s := by
  intros; rfl
@[simp] theorem exec_contextWatchdog : ∀ p ctx s, exec (.contextWatchdog p ctx) s = execContextWatchdog p ctx s := by
  intros; rfl
@[simp] theorem exec_waitTimeout : ∀ wid s, exec (.waitTimeout wid) s = execWaitTimeout wid s := by
  intros; rfl
@[simp] theorem exec_eventTimeout : ∀ p event s, exec (.eventTimeout p event) s = execEventTimeout p event s := by
  intros; rfl
@[simp] theorem exec_deadlockScan : ∀ s, exec (.deadlockScan) s = execDeadlockScan s := by
  intros; rfl
@[simp] theorem exec_deadlockBreak : ∀ s, exec (.deadlockBreak) s = execDeadlockBreak s := by
  intros; rfl
@[simp] theorem exec_faultqTail : ∀ p value s, exec (.faultqTail p value) s = execFaultqTail p value s := by
  intros; rfl
@[simp] theorem exec_hang : ∀ engine s, exec (.hang engine) s = execHang engine s := by
  intros; rfl
@[simp] theorem exec_hangCapture : ∀ trig s, exec (.hangCapture trig) s = execHangCapture trig s := by
  intros; rfl
@[simp] theorem exec_slotEviction : ∀ p ctx s, exec (.slotEviction p ctx) s = execSlotEviction p ctx s := by
  intros; rfl
@[simp] theorem exec_slotRotation : ∀ p ctx s, exec (.slotRotation p ctx) s = execSlotRotation p ctx s := by
  intros; rfl
@[simp] theorem exec_placement : ∀ engine s, exec (.placement engine) s = execPlacement engine s := by
  intros; rfl
@[simp] theorem exec_virtualTimeUpdate : ∀ p ctx kind ns step s, exec (.virtualTimeUpdate p ctx kind ns step) s = execVirtualTimeUpdate p ctx kind ns step s := by
  intros; rfl
@[simp] theorem exec_timeSlice : ∀ engine s, exec (.timeSlice engine) s = execTimeSlice engine s := by
  intros; rfl
@[simp] theorem exec_cadenceInEdge : ∀ rising hold s, exec (.cadenceInEdge rising hold) s = execCadenceInEdge rising hold s := by
  intros; rfl
@[simp] theorem exec_pulse : ∀ s, exec (.pulse) s = execPulse s := by
  intros; rfl
@[simp] theorem exec_missingPulse : ∀ s, exec (.missingPulse) s = execMissingPulse s := by
  intros; rfl
@[simp] theorem exec_phaseWrap : ∀ s, exec (.phaseWrap) s = execPhaseWrap s := by
  intros; rfl
@[simp] theorem exec_gateOpen : ∀ wid s, exec (.gateOpen wid) s = execGateOpen wid s := by
  intros; rfl
@[simp] theorem exec_deadlineMiss : ∀ wid s, exec (.deadlineMiss wid) s = execDeadlineMiss wid s := by
  intros; rfl
@[simp] theorem exec_planLaunch : ∀ p ring s, exec (.planLaunch p ring) s = execPlanLaunch p ring s := by
  intros; rfl
@[simp] theorem exec_planLoad : ∀ p ring ext s, exec (.planLoad p ring ext) s = execPlanLoad p ring ext s := by
  intros; rfl
@[simp] theorem exec_planUnload : ∀ p ring s, exec (.planUnload p ring) s = execPlanUnload p ring s := by
  intros; rfl
@[simp] theorem exec_nodeDispatch : ∀ wid s, exec (.nodeDispatch wid) s = execNodeDispatch wid s := by
  intros; rfl
@[simp] theorem exec_nodeCompletion : ∀ wid s, exec (.nodeCompletion wid) s = execNodeCompletion wid s := by
  intros; rfl
@[simp] theorem exec_modelCreate : ∀ p ring s, exec (.modelCreate p ring) s = execModelCreate p ring s := by
  intros; rfl
@[simp] theorem exec_modelLoad : ∀ p ring s, exec (.modelLoad p ring) s = execModelLoad p ring s := by
  intros; rfl
@[simp] theorem exec_modelLoadEnd : ∀ s, exec (.modelLoadEnd) s = execModelLoadEnd s := by
  intros; rfl
@[simp] theorem exec_modelSwapTimeout : ∀ s, exec (.modelSwapTimeout) s = execModelSwapTimeout s := by
  intros; rfl
@[simp] theorem exec_modelDestroy : ∀ p ring s, exec (.modelDestroy p ring) s = execModelDestroy p ring s := by
  intros; rfl
@[simp] theorem exec_serveStart : ∀ p ring s, exec (.serveStart p ring) s = execServeStart p ring s := by
  intros; rfl
@[simp] theorem exec_serveStop : ∀ p ring s, exec (.serveStop p ring) s = execServeStop p ring s := by
  intros; rfl
@[simp] theorem exec_request : ∀ p ring s, exec (.request p ring) s = execRequest p ring s := by
  intros; rfl
@[simp] theorem exec_cancel : ∀ p ring s, exec (.cancel p ring) s = execCancel p ring s := by
  intros; rfl
@[simp] theorem exec_stepBoundary : ∀ ext s, exec (.stepBoundary ext) s = execStepBoundary ext s := by
  intros; rfl
@[simp] theorem exec_acctSel : ∀ p value s, exec (.acctSel p value) s = execAcctSel p value s := by
  intros; rfl
@[simp] theorem exec_compress : ∀ p ring s, exec (.compress p ring) s = execCompress p ring s := by
  intros; rfl
@[simp] theorem exec_decompress : ∀ p ring s, exec (.decompress p ring) s = execDecompress p ring s := by
  intros; rfl
@[simp] theorem exec_check : ∀ p ring s, exec (.check p ring) s = execCheck p ring s := by
  intros; rfl
@[simp] theorem exec_crusherBlock : ∀ engine ext upset s, exec (.crusherBlock engine ext upset) s = execCrusherBlock engine ext upset s := by
  intros; rfl
@[simp] theorem exec_crusherPreemption : ∀ engine wid s, exec (.crusherPreemption engine wid) s = execCrusherPreemption engine wid s := by
  intros; rfl
@[simp] theorem exec_feed : ∀ unit port s, exec (.feed unit port) s = execFeed unit port s := by
  intros; rfl
@[simp] theorem exec_alive : ∀ unit port s, exec (.alive unit port) s = execAlive unit port s := by
  intros; rfl
@[simp] theorem exec_markEnd : ∀ unit port s, exec (.markEnd unit port) s = execMarkEnd unit port s := by
  intros; rfl
@[simp] theorem exec_endNocheck : ∀ unit port s, exec (.endNocheck unit port) s = execEndNocheck unit port s := by
  intros; rfl
@[simp] theorem exec_markRestart : ∀ unit port s, exec (.markRestart unit port) s = execMarkRestart unit port s := by
  intros; rfl
@[simp] theorem exec_snoopedMessage : ∀ unit s, exec (.snoopedMessage unit) s = execSnoopedMessage unit s := by
  intros; rfl
@[simp] theorem exec_markStall : ∀ unit s, exec (.markStall unit) s = execMarkStall unit s := by
  intros; rfl
@[simp] theorem exec_markRun : ∀ p unit value s, exec (.markRun p unit value) s = execMarkRun p unit value s := by
  intros; rfl
@[simp] theorem exec_markAttach : ∀ unit value s, exec (.markAttach unit value) s = execMarkAttach unit value s := by
  intros; rfl
@[simp] theorem exec_markGrant : ∀ unit value s, exec (.markGrant unit value) s = execMarkGrant unit value s := by
  intros; rfl
@[simp] theorem exec_flit : ∀ port bytes s, exec (.flit port bytes) s = execFlit port bytes s := by
  intros; rfl
@[simp] theorem exec_retryTimeout : ∀ port s, exec (.retryTimeout port) s = execRetryTimeout port s := by
  intros; rfl
@[simp] theorem exec_symbolErrorWindow : ∀ port errs s, exec (.symbolErrorWindow port errs) s = execSymbolErrorWindow port errs s := by
  intros; rfl
@[simp] theorem exec_training : ∀ port s, exec (.training port) s = execTraining port s := by
  intros; rfl
@[simp] theorem exec_prbs31Test : ∀ port good s, exec (.prbs31Test port good) s = execPrbs31Test port good s := by
  intros; rfl
@[simp] theorem exec_deviceIdExchange : ∀ port id s, exec (.deviceIdExchange port id) s = execDeviceIdExchange port id s := by
  intros; rfl
@[simp] theorem exec_trainingDone : ∀ port last s, exec (.trainingDone port last) s = execTrainingDone port last s := by
  intros; rfl
@[simp] theorem exec_trainingTimeout : ∀ port s, exec (.trainingTimeout port) s = execTrainingTimeout port s := by
  intros; rfl
@[simp] theorem exec_portDisable : ∀ port s, exec (.portDisable port) s = execPortDisable port s := by
  intros; rfl
@[simp] theorem exec_read : ∀ port s, exec (.read port) s = execRead port s := by
  intros; rfl
@[simp] theorem exec_readReply : ∀ port s, exec (.readReply port) s = execReadReply port s := by
  intros; rfl
@[simp] theorem exec_write : ∀ port s, exec (.write port) s = execWrite port s := by
  intros; rfl
@[simp] theorem exec_writeAck : ∀ port s, exec (.writeAck port) s = execWriteAck port s := by
  intros; rfl
@[simp] theorem exec_importMsg : ∀ port s, exec (.importMsg port) s = execImportMsg port s := by
  intros; rfl
@[simp] theorem exec_importReply : ∀ port s, exec (.importReply port) s = execImportReply port s := by
  intros; rfl
@[simp] theorem exec_releaseMessage : ∀ port s, exec (.releaseMessage port) s = execReleaseMessage port s := by
  intros; rfl
@[simp] theorem exec_haulReq : ∀ port s, exec (.haulReq port) s = execHaulReq port s := by
  intros; rfl
@[simp] theorem exec_haulBlock : ∀ port s, exec (.haulBlock port) s = execHaulBlock port s := by
  intros; rfl
@[simp] theorem exec_stalled : ∀ port s, exec (.stalled port) s = execStalled port s := by
  intros; rfl
@[simp] theorem exec_remoteTimeout : ∀ tag s, exec (.remoteTimeout tag) s = execRemoteTimeout tag s := by
  intros; rfl
@[simp] theorem exec_burstStall : ∀ port vc s, exec (.burstStall port vc) s = execBurstStall port vc s := by
  intros; rfl
@[simp] theorem exec_linkImportDrop : ∀ value s, exec (.linkImportDrop value) s = execLinkImportDrop value s := by
  intros; rfl
@[simp] theorem exec_blRefclkLoss : ∀ s, exec (.blRefclkLoss) s = execBlRefclkLoss s := by
  intros; rfl
@[simp] theorem exec_a2Request : ∀ force s, exec (.a2Request force) s = execA2Request force s := by
  intros; rfl
@[simp] theorem exec_a3Request : ∀ force s, exec (.a3Request force) s = execA3Request force s := by
  intros; rfl
@[simp] theorem exec_a4Request : ∀ force s, exec (.a4Request force) s = execA4Request force s := by
  intros; rfl
@[simp] theorem exec_pmeToAck : ∀ d3hot s, exec (.pmeToAck d3hot) s = execPmeToAck d3hot s := by
  intros; rfl
@[simp] theorem exec_handshakeTimeout : ∀ s, exec (.handshakeTimeout) s = execHandshakeTimeout s := by
  intros; rfl
@[simp] theorem exec_targetStateEntry : ∀ s, exec (.targetStateEntry) s = execTargetStateEntry s := by
  intros; rfl
@[simp] theorem exec_a1Entry : ∀ s, exec (.a1Entry) s = execA1Entry s := by
  intros; rfl
@[simp] theorem exec_a2Exit : ∀ s, exec (.a2Exit) s = execA2Exit s := by
  intros; rfl
@[simp] theorem exec_retainedDigestCheck : ∀ good s, exec (.retainedDigestCheck good) s = execRetainedDigestCheck good s := by
  intros; rfl
@[simp] theorem exec_a2RefillEnd : ∀ s, exec (.a2RefillEnd) s = execA2RefillEnd s := by
  intros; rfl
@[simp] theorem exec_a3Exit : ∀ junction s, exec (.a3Exit junction) s = execA3Exit junction s := by
  intros; rfl
@[simp] theorem exec_powerMean : ∀ watts junction s, exec (.powerMean watts junction) s = execPowerMean watts junction s := by
  intros; rfl
@[simp] theorem exec_tclkThrottleStep : ∀ s, exec (.tclkThrottleStep) s = execTclkThrottleStep s := by
  intros; rfl
@[simp] theorem exec_tclkRaiseStep : ∀ s, exec (.tclkRaiseStep) s = execTclkRaiseStep s := by
  intros; rfl
@[simp] theorem exec_powerLimitAbort : ∀ s, exec (.powerLimitAbort) s = execPowerLimitAbort s := by
  intros; rfl
@[simp] theorem exec_normalPlacementResume : ∀ s, exec (.normalPlacementResume) s = execNormalPlacementResume s := by
  intros; rfl
@[simp] theorem exec_pwrCoolant : ∀ value s, exec (.pwrCoolant value) s = execPwrCoolant value s := by
  intros; rfl
@[simp] theorem exec_coolantLoss : ∀ s, exec (.coolantLoss) s = execCoolantLoss s := by
  intros; rfl
@[simp] theorem exec_coolantReportMissing : ∀ s, exec (.coolantReportMissing) s = execCoolantReportMissing s := by
  intros; rfl
@[simp] theorem exec_coolantLossEnd : ∀ s, exec (.coolantLossEnd) s = execCoolantLossEnd s := by
  intros; rfl
@[simp] theorem exec_thermalTrip : ∀ s, exec (.thermalTrip) s = execThermalTrip s := by
  intros; rfl
@[simp] theorem exec_sample : ∀ stream s, exec (.sample stream) s = execSample stream s := by
  intros; rfl
@[simp] theorem exec_sampleRecord : ∀ stream bytes err s, exec (.sampleRecord stream bytes err) s = execSampleRecord stream bytes err s := by
  intros; rfl
@[simp] theorem exec_sampleStall : ∀ stream got s, exec (.sampleStall stream got) s = execSampleStall stream got s := by
  intros; rfl
@[simp] theorem exec_weighbridgeWatchdog : ∀ s, exec (.weighbridgeWatchdog) s = execWeighbridgeWatchdog s := by
  intros; rfl
@[simp] theorem exec_weighbridgeResetEnd : ∀ good s, exec (.weighbridgeResetEnd good) s = execWeighbridgeResetEnd good s := by
  intros; rfl
@[simp] theorem exec_classEvClear : ∀ value s, exec (.classEvClear value) s = execClassEvClear value s := by
  intros; rfl
@[simp] theorem exec_stage : ∀ pages s, exec (.stage pages) s = execStage pages s := by
  intros; rfl
@[simp] theorem exec_stageComplete : ∀ r flashOk s, exec (.stageComplete r flashOk) s = execStageComplete r flashOk s := by
  intros; rfl
@[simp] theorem exec_activate : ∀ s, exec (.activate) s = execActivate s := by
  intros; rfl
@[simp] theorem exec_standbySelfTest : ∀ s, exec (.standbySelfTest) s = execStandbySelfTest s := by
  intros; rfl
@[simp] theorem exec_roleMove : ∀ s, exec (.roleMove) s = execRoleMove s := by
  intros; rfl
@[simp] theorem exec_confirm : ∀ s, exec (.confirm) s = execConfirm s := by
  intros; rfl
@[simp] theorem exec_selfConfirmation : ∀ s, exec (.selfConfirmation) s = execSelfConfirmation s := by
  intros; rfl
@[simp] theorem exec_healthWindowExpiry : ∀ s, exec (.healthWindowExpiry) s = execHealthWindowExpiry s := by
  intros; rfl
@[simp] theorem exec_restart : ∀ s, exec (.restart) s = execRestart s := by
  intros; rfl
@[simp] theorem exec_fwCtlReserved : ∀ s, exec (.fwCtlReserved) s = execFwCtlReserved s := by
  intros; rfl
@[simp] theorem exec_heartbeatMiss : ∀ processor s, exec (.heartbeatMiss processor) s = execHeartbeatMiss processor s := by
  intros; rfl
@[simp] theorem exec_fwHaulEnable : ∀ value s, exec (.fwHaulEnable value) s = execFwHaulEnable value s := by
  intros; rfl
@[simp] theorem exec_haulRequestTimer : ∀ s, exec (.haulRequestTimer) s = execHaulRequestTimer s := by
  intros; rfl
@[simp] theorem exec_getVersion : ∀ msg s, exec (.getVersion msg) s = execGetVersion msg s := by
  intros; rfl
@[simp] theorem exec_getCapabilities : ∀ msg s, exec (.getCapabilities msg) s = execGetCapabilities msg s := by
  intros; rfl
@[simp] theorem exec_negotiateAlgorithms : ∀ msg s, exec (.negotiateAlgorithms msg) s = execNegotiateAlgorithms msg s := by
  intros; rfl
@[simp] theorem exec_getDigests : ∀ msg s, exec (.getDigests msg) s = execGetDigests msg s := by
  intros; rfl
@[simp] theorem exec_getCertificate : ∀ slot off len s, exec (.getCertificate slot off len) s = execGetCertificate slot off len s := by
  intros; rfl
@[simp] theorem exec_challenge : ∀ msg s, exec (.challenge msg) s = execChallenge msg s := by
  intros; rfl
@[simp] theorem exec_getMeasurements : ∀ index s, exec (.getMeasurements index) s = execGetMeasurements index s := by
  intros; rfl
@[simp] theorem exec_keyExchange : ∀ msg s, exec (.keyExchange msg) s = execKeyExchange msg s := by
  intros; rfl
@[simp] theorem exec_finish : ∀ session msg s, exec (.finish session msg) s = execFinish session msg s := by
  intros; rfl
@[simp] theorem exec_endSession : ∀ session msg s, exec (.endSession session msg) s = execEndSession session msg s := by
  intros; rfl
@[simp] theorem exec_keyUpdate : ∀ session msg s, exec (.keyUpdate session msg) s = execKeyUpdate session msg s := by
  intros; rfl
@[simp] theorem exec_heartbeat : ∀ session msg s, exec (.heartbeat session msg) s = execHeartbeat session msg s := by
  intros; rfl
@[simp] theorem exec_vendorDefinedRequest : ∀ known code nonce s, exec (.vendorDefinedRequest known code nonce) s = execVendorDefinedRequest known code nonce s := by
  intros; rfl
@[simp] theorem exec_engineResetEnd : ∀ engine s, exec (.engineResetEnd engine) s = execEngineResetEnd engine s := by
  intros; rfl
@[simp] theorem exec_deferredWakeRelease : ∀ junction s, exec (.deferredWakeRelease junction) s = execDeferredWakeRelease junction s := by
  intros; rfl
@[simp] theorem exec_ideKm : ∀ session op stream msg s, exec (.ideKm session op stream msg) s = execIdeKm session op stream msg s := by
  intros; rfl
@[simp] theorem exec_doeDiscovery : ∀ index s, exec (.doeDiscovery index) s = execDoeDiscovery index s := by
  intros; rfl

end Sys2Proof.Machine
end

