-- ==== Sys2Proof/Laws/Keep.lean ====
section
/-! SUPPORT. What every operation keeps: the queue, and the canonical forms and fixed parts of `State.Sound`. This file holds the
relation and the rules by which it passes through updates, branches and folds. -/
namespace Sys2Proof.Machine

/-- From `a` to `b` the queue is the same, and soundness is kept. -/
def Keep (a b : State) : Prop :=
  b.pending = a.pending ∧ (a.Sound → b.Sound)

/-- The same of an outcome: where it is a next state. -/
def KeepO (a : State) (o : Host.Outcome State Fault Refusal) : Prop :=
  ∀ t, o = .next t → Keep a t

/-- The same of a state that may be there. -/
def KeepS (a : State) (o : Option State) : Prop :=
  ∀ t, o = some t → Keep a t

theorem Keep.refl (s : State) : Keep s s :=
  ⟨rfl, id⟩

theorem next_keep {a t : State} (h : Keep a t) : KeepO a (.next t) := by
  intro u e
  cases e
  exact h

theorem ite_keep {a b c : State} {p : Prop} [Decidable p] (hb : Keep a b) (hc : Keep a c) : Keep a (if p then b else c) := by
  split
  · exact hb
  · exact hc

theorem ite_keepO {a : State} {b c : Host.Outcome State Fault Refusal} {p : Prop} [Decidable p] (hb : KeepO a b) (hc : KeepO a c) :
    KeepO a (if p then b else c) := by
  split
  · exact hb
  · exact hc

theorem none_keep {a : State} : KeepS a none :=
  fun _ e => nomatch e

theorem some_keep {a t : State} (h : Keep a t) : KeepS a (some t) := by
  intro u e
  cases e
  exact h

theorem ite_keepS {a : State} {b c : Option State} {p : Prop} [Decidable p] (hb : KeepS a b) (hc : KeepS a c) :
    KeepS a (if p then b else c) := by
  split
  · exact hb
  · exact hc

theorem getD_keep {a b : State} {o : Option State} (ho : KeepS a o) (h : Keep a b) : Keep a (o.getD b) := by
  cases o with
  | none => exact h
  | some t => exact ho t rfl

theorem ite_fst_keep {α : Type} {a : State} {b c : State × α} {p : Prop} [Decidable p] (hb : Keep a b.1) (hc : Keep a c.1) :
    Keep a (if p then b else c).1 := by
  split
  · exact hb
  · exact hc

theorem ite_snd_keep {α : Type} {a : State} {b c : α × State} {p : Prop} [Decidable p] (hb : Keep a b.2) (hc : Keep a c.2) :
    Keep a (if p then b else c).2 := by
  split
  · exact hb
  · exact hc

theorem fst_keep {α : Type} {a t : State} {r : α} (h : Keep a t) : Keep a (t, r).1 :=
  h

theorem snd_keep {α : Type} {a t : State} {r : α} (h : Keep a t) : Keep a (r, t).2 :=
  h

/-- The state of a pair that a call answers. -/
theorem pair_keep {α : Type} {a t : State} {p : State × α} {r : α} (e : p = (t, r)) (h : Keep a p.1) : Keep a t := by
  cases e
  exact h

theorem pair_keep' {α : Type} {a t : State} {p : α × State} {r : α} (e : p = (r, t)) (h : Keep a p.2) : Keep a t := by
  cases e
  exact h

theorem foldl_keep {α : Type} {a s : State} {f : State → α → State} {l : List α} (h : Keep a s)
    (hf : ∀ s x, Keep a s → Keep a (f s x)) : Keep a (l.foldl f s) := by
  induction l generalizing s with
  | nil => exact h
  | cons x l ih => exact ih (hf s x h)

theorem foldl_fst_keep {α β : Type} {a : State} {f : State × β → α → State × β} {l : List α} {s : State × β} (h : Keep a s.1)
    (hf : ∀ s x, Keep a s.1 → Keep a (f s x).1) : Keep a (l.foldl f s).1 := by
  induction l generalizing s with
  | nil => exact h
  | cons x l ih => exact ih (hf s x h)

theorem foldN_keep {a s : State} {f : Nat → State → State} {n : Nat} (h : Keep a s) (hf : ∀ k s, Keep a s → Keep a (f k s)) :
    Keep a (foldN n f s) := by
  induction n with
  | zero => exact h
  | succ n ih => exact hf n _ ih

theorem foldN_fst_keep {β : Type} {a : State} {f : Nat → State × β → State × β} {n : Nat} {s : State × β} (h : Keep a s.1)
    (hf : ∀ k s, Keep a s.1 → Keep a (f k s).1) : Keep a (foldN n f s).1 := by
  induction n with
  | zero => exact h
  | succ n ih => exact hf n _ ih

/-- An update of parts that neither the queue nor soundness looks at. -/
theorem upd_keep {a b : State} {fr dt : Nat} {out : List Output} {m : MemSt} {ho : HostSt} {sc : SchedSt} {co : CoreAll} {l : LinkSt}
    {ma : Map MarkUnit} {ra : RasterSt} {po : PowerSt} {wb : WbSt} {se : SecSt} {si : SiteSt} (h : Keep a b)
    (hd : m.dram = b.mem.dram) (hl : l.ports.length = b.link.ports.length) (hs : se.slots.length = b.sec.slots.length) :
    Keep a { pending := b.pending, fresh := fr, dtime := dt, out := out, regs := b.regs, mem := m, host := ho, sched := sc, core := co,
             heads := b.heads, link := l, marks := ma, raster := ra, power := po, wb := wb, sec := se, site := si } := by
  refine ⟨h.1, fun ha => ?_⟩
  obtain ⟨h1, h2, h3, h4, h5⟩ := h.2 ha
  exact ⟨h1, hd ▸ h2, h3, hl.trans h4, hs.trans h5⟩

end Sys2Proof.Machine
end

