-- ==== Sys2Proof/Laws/Store.lean ====
section
/-! SUPPORT. Laws of the stores: what a read after a write gives, and that every operation keeps the canonical form. -/
namespace Sys2Proof

theorem mget_mset_same {α : Type} (m : Map α) (k : Nat) (v : α) : mget (mset m k v) k = some v := by
  induction m with
  | nil => simp [mset, mget]
  | cons e r ih =>
    obtain ⟨k', v'⟩ := e
    unfold mset
    split
    · simp [mget]
    · split
      · simp [mget]
      · simp [mget, *]

theorem mget_mset_ne {α : Type} (m : Map α) {k j : Nat} (v : α) (h : j ≠ k) : mget (mset m k v) j = mget m j := by
  induction m with
  | nil => simp [mset, mget, Ne.symm h]
  | cons e r ih =>
    obtain ⟨k', v'⟩ := e
    unfold mset
    split
    · simp [mget, Ne.symm h]
    · split
      · subst_vars
        simp [mget, Ne.symm h]
      · simp [mget, ih]

theorem mget_mkeep {α : Type} (m : Map α) (p : Nat → Bool) (k : Nat) :
    mget (mkeep m (fun j _ => p j)) k = if p k then mget m k else none := by
  induction m with
  | nil => simp [mkeep, mget]
  | cons e r ih =>
    obtain ⟨k', v'⟩ := e
    simp only [mkeep] at ih
    by_cases hk : k' = k
    · subst hk
      by_cases hp : p k' <;> simp [mkeep, mget, List.filter, hp, ih]
    · by_cases hp : p k' <;> simp [mkeep, mget, List.filter, hp, hk, ih]

theorem mget_mdel {α : Type} (m : Map α) (k j : Nat) : mget (mdel m k) j = if j = k then none else mget m j := by
  have h := mget_mkeep m (fun i => i != k) j
  simp only [mdel]
  simp only [mkeep] at h
  by_cases e : j = k <;> simp_all

/-- Reading after a write that takes the default as absence. -/
theorem mgetD_msetD_same {α : Type} [DecidableEq α] (m : Map α) (k : Nat) (v d : α) : mgetD (msetD m k v d) k d = v := by
  unfold msetD mgetD
  split
  · subst_vars
    simp [mget_mdel]
  · simp [mget_mset_same]

theorem mgetD_msetD_ne {α : Type} [DecidableEq α] (m : Map α) {k j : Nat} (v d e : α) (h : j ≠ k) :
    mgetD (msetD m k v d) j e = mgetD m j e := by
  unfold msetD mgetD
  split
  · simp [mget_mdel, h]
  · simp [mget_mset_ne m v h]

/-! The canonical form. -/

theorem mabove_mset {α : Type} {m : Map α} {j k : Nat} {v : α} (h : mabove j m = true) (hk : j < k) : mabove j (mset m k v) = true := by
  induction m with
  | nil => simpa [mset, mabove] using hk
  | cons e r ih =>
    obtain ⟨k', v'⟩ := e
    simp only [mabove, List.all_cons, Bool.and_eq_true, decide_eq_true_eq] at h ih
    unfold mset
    split
    · simp only [mabove, List.all_cons, Bool.and_eq_true, decide_eq_true_eq]
      exact ⟨hk, h⟩
    · split
      · simp only [mabove, List.all_cons, Bool.and_eq_true, decide_eq_true_eq]
        exact ⟨hk, h.2⟩
      · simp only [mabove, List.all_cons, Bool.and_eq_true, decide_eq_true_eq]
        exact ⟨h.1, ih h.2⟩

theorem mabove_trans {α : Type} {m : Map α} {j k : Nat} (h : mabove k m = true) (hk : j ≤ k) : mabove j m = true := by
  simp only [mabove, List.all_eq_true, decide_eq_true_eq] at *
  exact fun x hx => lt_of_le_of_lt hk (h x hx)

theorem mwf_mset {α : Type} {m : Map α} (k : Nat) (v : α) (h : mwf m = true) : mwf (mset m k v) = true := by
  induction m with
  | nil => rfl
  | cons e r ih =>
    obtain ⟨k', v'⟩ := e
    simp only [mwf, Bool.and_eq_true] at h
    unfold mset
    split
    · rename_i hk
      simp only [mwf, Bool.and_eq_true]
      refine ⟨?_, h⟩
      simp only [mabove, List.all_cons, Bool.and_eq_true, decide_eq_true_eq]
      exact ⟨hk, mabove_trans h.1 (le_of_lt hk)⟩
    · split
      · subst_vars
        simpa [mwf] using h
      · rename_i h1 h2
        simp only [mwf, Bool.and_eq_true]
        exact ⟨mabove_mset h.1 (by omega), ih h.2⟩

theorem mwf_filter {α : Type} {m : Map α} (p : Nat × α → Bool) (h : mwf m = true) : mwf (m.filter p) = true := by
  induction m with
  | nil => rfl
  | cons e r ih =>
    simp only [mwf, Bool.and_eq_true] at h
    simp only [List.filter]
    split
    · simp only [mwf, Bool.and_eq_true]
      refine ⟨?_, ih h.2⟩
      have h1 := h.1
      simp only [mabove, List.all_eq_true, decide_eq_true_eq] at *
      exact fun x hx => h1 x (List.mem_filter.mp hx).1
    · exact ih h.2

theorem mwf_mdel {α : Type} {m : Map α} (k : Nat) (h : mwf m = true) : mwf (mdel m k) = true :=
  mwf_filter _ h

theorem mwf_mkeep {α : Type} {m : Map α} (p : Nat → α → Bool) (h : mwf m = true) : mwf (mkeep m p) = true :=
  mwf_filter _ h

theorem mem_mset {α : Type} {m : Map α} {k : Nat} {v : α} {e : Nat × α} (h : e ∈ mset m k v) : e = (k, v) ∨ e ∈ m := by
  induction m with
  | nil => simpa [mset] using h
  | cons x r ih =>
    obtain ⟨k', v'⟩ := x
    unfold mset at h
    split at h
    · rcases List.mem_cons.mp h with h | h
      · exact .inl h
      · exact .inr h
    · split at h
      · rcases List.mem_cons.mp h with h | h
        · exact .inl h
        · exact .inr (List.mem_cons_of_mem _ h)
      · rcases List.mem_cons.mp h with h | h
        · exact .inr (h ▸ List.mem_cons_self)
        · exact (ih h).imp id (List.mem_cons_of_mem _)

theorem mwfD_filter {α : Type} [DecidableEq α] {m : Map α} {d : Nat → α} (p : Nat × α → Bool) (h : mwfD m d = true) :
    mwfD (m.filter p) d = true := by
  simp only [mwfD, Bool.and_eq_true, List.all_eq_true] at *
  exact ⟨mwf_filter p h.1, fun e he => h.2 e (List.mem_filter.mp he).1⟩

theorem mwfD_mkeep {α : Type} [DecidableEq α] {m : Map α} {d : Nat → α} (p : Nat → α → Bool) (h : mwfD m d = true) :
    mwfD (mkeep m p) d = true :=
  mwfD_filter _ h

/-- A write keeps the canonical form. -/
theorem mwfD_msetD {α : Type} [DecidableEq α] {m : Map α} {d : Nat → α} (k : Nat) (v : α) (h : mwfD m d = true) :
    mwfD (msetD m k v (d k)) d = true := by
  unfold msetD
  split
  · exact mwfD_filter _ h
  · rename_i hv
    simp only [mwfD, Bool.and_eq_true, List.all_eq_true] at *
    refine ⟨mwf_mset k v h.1, fun e he => ?_⟩
    rcases mem_mset he with rfl | he
    · simpa using hv
    · exact h.2 e he

theorem lset_length {α : Type} (l : List α) (i : Nat) (v : α) : (lset l i v).length = l.length := by
  induction l generalizing i with
  | nil => rfl
  | cons a r ih => cases i <;> simp [lset, ih]

theorem lupd_length {α : Type} (l : List α) (i : Nat) (f : α → α) : (lupd l i f).length = l.length := by
  induction l generalizing i with
  | nil => rfl
  | cons a r ih => cases i <;> simp [lupd, ih]

end Sys2Proof
end

