-- ==== Sys2Proof/Laws/KeepOps.lean ====
section
/-! SUPPORT. The state functions keep the queue and soundness: registers, memory and translation. One lemma per function: where the state it is given keeps,
so does the state it answers. -/
set_option linter.tactic.unusedName false
namespace Sys2Proof.Machine

theorem wr_keep {s0 s : State} {key : Nat} {v : Word} (h : Keep s0 s) : Keep s0 (wr s key v) :=
  ⟨h.1, fun ha => ⟨mwfD_msetD key v (h.2 ha).1, (h.2 ha).2⟩⟩

theorem wrF_keep {s0 s : State} {key : Nat} {hi : Nat} {lo : Nat} {x : Nat} (h : Keep s0 s) :
    Keep s0 (wrF s key hi lo x) := by
  unfold wrF
  exact wr_keep h

theorem emit_keep {s0 s : State} {o : Output} (h : Keep s0 s) :
    Keep s0 (emit s o) := by
  unfold emit
  exact upd_keep h rfl rfl rfl

theorem draw_keep {s0 s : State} (h : Keep s0 s) :
    Keep s0 (draw s).2 := by
  unfold draw
  exact upd_keep h rfl rfl rfl

theorem msixPut_keep {s0 s : State} {f : Nat} {i : Nat} {e : Msix} (h : Keep s0 s) :
    Keep s0 (msixPut s f i e) := by
  unfold msixPut
  exact upd_keep h rfl rfl rfl

theorem deliverMsix_keep {s0 s : State} {f : Nat} {i : Nat} (h : Keep s0 s) :
    Keep s0 (deliverMsix s f i) := by
  unfold deliverMsix
  exact ite_keep (ite_keep (msixPut_keep h) (emit_keep h)) h

theorem dropMsix_keep {s0 s : State} (h : Keep s0 s) :
    Keep s0 (dropMsix s) := by
  unfold dropMsix
  refine ite_keep (wr_keep h) ?_
  refine ite_keep h ?_
  extract_lets +onlyGivenNames x1
  have k2 : Keep s0 x1 := wrF_keep (wrF_keep h)
  clear_value x1
  exact ite_keep (deliverMsix_keep k2) k2

theorem sendMsix_keep {s0 s : State} {f : Nat} {i : Nat} (h : Keep s0 s) :
    Keep s0 (sendMsix s f i) := by
  unfold sendMsix
  exact ite_keep (deliverMsix_keep h) (dropMsix_keep h)

theorem counterEvent_keep {s0 s : State} (h : Keep s0 s) :
    Keep s0 (counterEvent s) := by
  unfold counterEvent
  exact sendMsix_keep (wrF_keep h)

theorem setOverflow_keep {s0 s : State} {status : Nat} {bit : Nat} (h : Keep s0 s) :
    Keep s0 (setOverflow s status bit) := by
  unfold setOverflow
  exact ite_keep h (counterEvent_keep (wrF_keep h))

theorem bumpF_keep {s0 s : State} {key : Nat} {hi : Nat} {lo : Nat} {status : Nat} {bit : Nat} {n : Nat} (h : Keep s0 s) :
    Keep s0 (bumpF s key hi lo status bit n) := by
  unfold bumpF
  exact ite_keep (wrF_keep h) (setOverflow_keep (wrF_keep h))

theorem bump32_keep {s0 s : State} {key : Nat} {status : Nat} {bit : Nat} {n : Nat} (h : Keep s0 s) :
    Keep s0 (bump32 s key status bit n) := by
  unfold bump32
  exact bumpF_keep h

theorem bump64_keep {s0 s : State} {key : Nat} {status : Nat} {bit : Nat} {n : Nat} (h : Keep s0 s) :
    Keep s0 (bump64 s key status bit n) := by
  unfold bump64
  exact bumpF_keep h

theorem setMark_keep {s0 s : State} {u : Nat} {m : MarkUnit} (h : Keep s0 s) :
    Keep s0 (setMark s u m) := by
  unfold setMark
  exact upd_keep h rfl rfl rfl

theorem snoop_keep {s0 s : State} {sel : Nat → Nat → Bool} {q : MarkPiece} (h : Keep s0 s) :
    Keep s0 (snoop s sel q) := by
  unfold snoop
  exact foldl_keep h (fun _ _ k1 => (ite_keep (setMark_keep k1) k1))

theorem snoopLink_keep {s0 s : State} {port : Nat} {vc : Nat} {dir : Nat} {bs : List Byte} (h : Keep s0 s) :
    Keep s0 (snoopLink s port vc dir bs) := by
  unfold snoopLink
  exact snoop_keep h

theorem snoopRing_keep {s0 s : State} {part : Nat} {ring : Nat} {first : Bool} {last : Bool} {bs : List Byte} (h : Keep s0 s) :
    Keep s0 (snoopRing s part ring first last bs) := by
  unfold snoopRing
  exact snoop_keep h

theorem setLink_keep {s0 s : State} {x : LinkSt} (h : Keep s0 s) (hp : x.ports.length = s.link.ports.length) : Keep s0 (setLink s x) :=
  upd_keep h rfl hp rfl

theorem setPort_keep {s0 s : State} {p : Nat} {x : PortSt} (h : Keep s0 s) : Keep s0 (setPort s p x) :=
  setLink_keep h (lset_length s.link.ports p x)

theorem emitFlit_keep {s0 s : State} {p : Nat} {f : Flit} (h : Keep s0 s) :
    Keep s0 (emitFlit s p f) := by
  unfold emitFlit
  exact emit_keep h

theorem emitAck_keep {s0 s : State} {p : Nat} (h : Keep s0 s) :
    Keep s0 (emitAck s p) := by
  unfold emitAck
  exact emit_keep h

theorem emitNak_keep {s0 s : State} {p : Nat} (h : Keep s0 s) :
    Keep s0 (emitNak s p) := by
  unfold emitNak
  exact emit_keep h

theorem pump_keep {s0 s : State} {p : Nat} (h : Keep s0 s) :
    Keep s0 (pump s p) := by
  unfold pump
  extract_lets +onlyGivenNames x1
  clear_value x1
  refine ite_keep h ?_
  extract_lets +onlyGivenNames x2 x3 x4 x5
  clear_value x2
  clear_value x3
  clear_value x4
  have k6 : Keep s0 x5 := setPort_keep h
  clear_value x5
  exact foldl_keep k6 (fun _ _ k7 => (emitFlit_keep k7))

theorem sendOn_keep {s0 s : State} {p : Nat} {vc : Nat} {bs : List Byte} (h : Keep s0 s) :
    Keep s0 (sendOn s p vc bs) := by
  unfold sendOn
  exact pump_keep (setPort_keep (snoopLink_keep h))

theorem sendTo_keep {s0 s : State} {dest : Nat} {op : Nat} {bs : List Byte} (h : Keep s0 s) :
    Keep s0 (sendTo s dest op bs) := by
  unfold sendTo
  split
  · exact sendOn_keep h
  · exact bump32_keep h

theorem sendReq_keep {s0 s : State} {op : Nat} {r : LinkReq} {len : Nat} {data : List Byte} (h : Keep s0 s) :
    KeepS s0 (sendReq s op r len data) := by
  unfold sendReq
  split
  · exact none_keep
  · extract_lets +onlyGivenNames x1 x2 x3
    clear_value x1
    clear_value x2
    extract_lets +onlyGivenNames x4
    have k5 : Keep s0 x4 := setLink_keep h rfl
    clear_value x4
    exact some_keep (sendOn_keep k5)

theorem peerWrite_keep {s0 s : State} {fuel part ctx device mem va : Nat} {bs : List Byte} (h : Keep s0 s) :
    KeepS s0 (peerWrite s fuel part ctx device mem va bs) := by
  induction fuel generalizing s mem va bs with
  | zero => exact some_keep h
  | succ n ih =>
    unfold peerWrite
    refine ite_keepS (some_keep h) ?_
    dsimp only
    split
    · exact none_keep
    · rename_i e
      exact ih (sendReq_keep h _ e)

theorem claimReqs_keep {s0 s : State} {o : Origin} {engine : Nat} {core : Nat} {gid : Nat} (h : Keep s0 s) :
    Keep s0 (claimReqs s o engine core gid) := by
  unfold claimReqs
  exact setLink_keep h rfl

theorem importSegs_keep {s0 s : State} {part : Nat} {l : List Seg} (h : Keep s0 s) :
    Keep s0 (importSegs s part l) := by
  unfold importSegs
  exact foldl_keep h (fun _ _ k1 => (ite_keep (getD_keep (sendReq_keep k1) k1) k1))

theorem releaseSegs_keep {s0 s : State} {part : Nat} {l : List Seg} (h : Keep s0 s) :
    Keep s0 (releaseSegs s part l) := by
  unfold releaseSegs
  exact foldl_keep h (fun _ _ k1 => (ite_keep (sendTo_keep k1) k1))

theorem setPart_keep {s0 s : State} {p : Nat} {x : Partition} (h : Keep s0 s) :
    Keep s0 (setPart s p x) := by
  unfold setPart
  exact upd_keep h rfl rfl rfl

theorem setCtx_keep {s0 s : State} {k : Nat} {x : Ctx} (h : Keep s0 s) :
    Keep s0 (setCtx s k x) := by
  unfold setCtx
  exact upd_keep h rfl rfl rfl

theorem setFence_keep {s0 s : State} {k : Nat} {x : Fence} (h : Keep s0 s) :
    Keep s0 (setFence s k x) := by
  unfold setFence
  exact upd_keep h rfl rfl rfl

theorem setEvent_keep {s0 s : State} {k : Nat} {x : Event} (h : Keep s0 s) :
    Keep s0 (setEvent s k x) := by
  unfold setEvent
  exact upd_keep h rfl rfl rfl

theorem setMemObj_keep {s0 s : State} {k : Nat} {x : MemObj} (h : Keep s0 s) :
    Keep s0 (setMemObj s k x) := by
  unfold setMemObj
  exact upd_keep h rfl rfl rfl

theorem setRing_keep {s0 s : State} {k : Nat} {x : Ring} (h : Keep s0 s) :
    Keep s0 (setRing s k x) := by
  unfold setRing
  exact upd_keep h rfl rfl rfl

theorem setKill_keep {s0 s : State} {k : Nat} {x : Kill} (h : Keep s0 s) :
    Keep s0 (setKill s k x) := by
  unfold setKill
  exact upd_keep h rfl rfl rfl

theorem finish_keep {s0 s : State} {wid : Nat} {code : Nat} (h : Keep s0 s) :
    Keep s0 (finish s wid code) := by
  unfold finish
  exact ite_keep h (upd_keep h rfl rfl rfl)

theorem notifyFaultq_keep {s0 s : State} {p : Nat} (h : Keep s0 s) :
    Keep s0 (notifyFaultq s p) := by
  unfold notifyFaultq
  refine ite_keep ?_ ?_
  · extract_lets +onlyGivenNames x1
    clear_value x1
    extract_lets +onlyGivenNames x2
    have k3 : Keep s0 x2 := setPart_keep h
    clear_value x2
    exact ite_keep (sendMsix_keep k3) k3
  · exact h

theorem appendRec_keep {s0 s : State} {r : ErrRec} (h : Keep s0 s) :
    Keep s0 (appendRec s r) := by
  unfold appendRec
  extract_lets +onlyGivenNames x1 x2
  clear_value x1
  clear_value x2
  refine ite_keep (notifyFaultq_keep (bump32_keep h)) ?_
  extract_lets +onlyGivenNames x3
  clear_value x3
  extract_lets +onlyGivenNames x4
  have k5 : Keep s0 x4 := setPart_keep h
  clear_value x4
  exact notifyFaultq_keep (wr_keep k5)

theorem killCtx_keep {s0 s : State} {k : Nat} {cause : Option Nat} {recs : List ErrRec} (h : Keep s0 s) :
    Keep s0 (killCtx s k cause recs) := by
  unfold killCtx
  split
  · refine ite_keep (setKill_keep (setCtx_keep h)) ?_
    split
    · exact ite_keep h (setKill_keep h)
    · exact h
  · exact h

theorem raise_keep {s0 s : State} {o : Origin} {code : Nat} {engine : Nat} {fault : Nat} {detail : List Byte} (h : Keep s0 s) :
    Keep s0 (raise s o code engine fault detail) := by
  unfold raise
  exact ite_keep (killCtx_keep h) (appendRec_keep h)

theorem failWork_keep {s0 s : State} {o : Origin} {code : Nat} {engine : Nat} {fault : Nat} {detail : List Byte} (h : Keep s0 s) :
    Keep s0 (failWork s o code engine fault detail) := by
  unfold failWork
  exact finish_keep (raise_keep h)

theorem setGen_keep {s0 s : State} {ty : Nat} {k : Nat} {g : Nat} (h : Keep s0 s) :
    Keep s0 (setGen s ty k g) := by
  unfold setGen
  exact upd_keep h rfl rfl rfl

theorem freeFence_keep {s0 s : State} {k : Nat} (h : Keep s0 s) :
    Keep s0 (freeFence s k) := by
  unfold freeFence
  split
  · exact ite_keep (upd_keep h rfl rfl rfl) h
  · exact h

theorem freeMemObj_keep {s0 s : State} {k : Nat} (h : Keep s0 s) :
    Keep s0 (freeMemObj s k) := by
  unfold freeMemObj
  split
  · exact ite_keep (upd_keep h rfl rfl rfl) h
  · exact h

theorem importFence_keep {s0 s : State} {k : Nat} (h : Keep s0 s) :
    Keep s0 (importFence s k) := by
  unfold importFence
  split
  · refine ite_keep ?_ ?_
    · extract_lets +onlyGivenNames x1 x2
      clear_value x1
      clear_value x2
      extract_lets +onlyGivenNames x3
      have k4 : Keep s0 x3 := setFence_keep h
      clear_value x3
      exact setLink_keep k4 rfl
    · exact h
  · exact h

theorem holdFence_keep {s0 s : State} {k : Nat} (h : Keep s0 s) :
    Keep s0 (holdFence s k) := by
  unfold holdFence
  split
  · exact setFence_keep h
  · exact h

theorem dropFence_keep {s0 s : State} {k : Nat} (h : Keep s0 s) :
    Keep s0 (dropFence s k) := by
  unfold dropFence
  split
  · exact freeFence_keep (setFence_keep h)
  · exact h

theorem freeEvent_keep {s0 s : State} {k : Nat} (h : Keep s0 s) :
    Keep s0 (freeEvent s k) := by
  unfold freeEvent
  split
  · exact ite_keep (dropFence_keep (upd_keep h rfl rfl rfl)) h
  · exact h

theorem dropTable_keep {s0 s : State} {t : TableId} (h : Keep s0 s) :
    Keep s0 (dropTable s t) := by
  unfold dropTable
  exact upd_keep h rfl rfl rfl

theorem freeCtx_keep {s0 s : State} {k : Nat} (h : Keep s0 s) :
    Keep s0 (freeCtx s k) := by
  unfold freeCtx
  split
  · exact ite_keep (releaseSegs_keep (dropTable_keep (upd_keep h rfl rfl rfl))) h
  · exact h

theorem holdCtx_keep {s0 s : State} {k : Nat} (h : Keep s0 s) :
    Keep s0 (holdCtx s k) := by
  unfold holdCtx
  split
  · exact setCtx_keep h
  · exact h

theorem dropCtx_keep {s0 s : State} {k : Nat} (h : Keep s0 s) :
    Keep s0 (dropCtx s k) := by
  unfold dropCtx
  split
  · exact freeCtx_keep (setCtx_keep h)
  · exact h

theorem writeMirror_keep {s0 s : State} {k : Nat} (h : Keep s0 s) :
    Keep s0 (writeMirror s k) := by
  unfold writeMirror
  split
  · exact ite_keep h (emit_keep h)
  · exact h

theorem fireEvent_keep {s0 s : State} {k : Nat} {e : Event} {code : Nat} (h : Keep s0 s) :
    Keep s0 (fireEvent s k e code) := by
  unfold fireEvent
  extract_lets +onlyGivenNames x1 x2 x3 x4
  clear_value x1
  clear_value x2
  have k5 : Keep s0 x3 := setEvent_keep h
  clear_value x3
  have k6 : Keep s0 x4 := emit_keep k5
  clear_value x4
  exact ite_keep (sendMsix_keep k6) k6

theorem judgeEvent_keep {s0 s : State} {k : Nat} (h : Keep s0 s) :
    Keep s0 (judgeEvent s k) := by
  unfold judgeEvent
  split
  · exact h
  · split
    · exact h
    · refine ite_keep h ?_
      refine ite_keep (fireEvent_keep h) ?_
      split
      · exact fireEvent_keep h
      · exact h

theorem judgeEvents_keep {s0 s : State} {fence : Nat} (h : Keep s0 s) :
    Keep s0 (judgeEvents s fence) := by
  unfold judgeEvents
  exact foldl_keep h (fun _ _ k1 => (judgeEvent_keep k1))

theorem regress_keep {s0 s : State} {k : Nat} {f : Fence} {v : Word} {engine : Nat} (h : Keep s0 s) :
    Keep s0 (regress s k f v engine) := by
  unfold regress
  extract_lets +onlyGivenNames x1 x2
  clear_value x1
  have k3 : Keep s0 x2 := bump32_keep h
  clear_value x2
  refine ite_keep k3 ?_
  extract_lets +onlyGivenNames x4
  have k5 : Keep s0 x4 := setFence_keep k3
  clear_value x4
  exact appendRec_keep k5

theorem signalFence_keep {s0 s : State} {k : Nat} {v : Word} {engine : Nat} (h : Keep s0 s) :
    Keep s0 (signalFence s k v engine) := by
  unfold signalFence
  split
  · exact h
  · exact ite_keep h (ite_keep h (ite_keep (judgeEvents_keep (writeMirror_keep (setFence_keep h))) (regress_keep h)))

theorem errorFence_keep {s0 s : State} {k : Nat} {code : Nat} (h : Keep s0 s) :
    Keep s0 (errorFence s k code) := by
  unfold errorFence
  split
  · exact h
  · exact ite_keep h (judgeEvents_keep (writeMirror_keep (setFence_keep h)))

theorem triggerCapture_keep {s0 s : State} {key : Nat} {r : ErrRec} {hung : Option Nat} (h : Keep s0 s) :
    Keep s0 (triggerCapture s key r hung) := by
  unfold triggerCapture
  split
  rename_i e1
  have k2 := pair_keep' e1 (draw_keep h)
  extract_lets +onlyGivenNames x3
  clear_value x3
  exact bump32_keep (upd_keep k2 rfl rfl rfl)

/-- A new memory side keeps what is kept where the cells of DRAM do. -/
theorem setMem_keepD {s0 s : State} {m : MemSt} (h : Keep s0 s)
    (hd : mwfD s.mem.dram (fun _ => 0) = true → mwfD m.dram (fun _ => 0) = true) : Keep s0 (setMem s m) :=
  ⟨h.1, fun ha => ⟨(h.2 ha).1, hd (h.2 ha).2.1, (h.2 ha).2.2⟩⟩

theorem setMem_keep {s0 s : State} {m : MemSt} (h : Keep s0 s) (hd : m.dram = s.mem.dram) : Keep s0 (setMem s m) :=
  setMem_keepD h fun hm => hd ▸ hm

theorem setDev_keep {s0 s : State} {pp : Nat} {d : PageDev} (h : Keep s0 s) :
    Keep s0 (setDev s pp d) := by
  unfold setDev
  exact setMem_keep h rfl

theorem putBytes_keep {s0 s : State} {pp i : Nat} {bs : List Byte} (h : Keep s0 s) : Keep s0 (putBytes s pp i bs) := by
  refine setMem_keepD h fun hd => ?_
  dsimp only
  generalize bs.zip (List.range bs.length) = l
  generalize s.mem.dram = m at hd
  induction l generalizing m with
  | nil => exact hd
  | cons e r ih => exact ih _ (mwfD_msetD (d := fun _ => (0 : Byte)) _ e.1 hd)

theorem applyUpset_keep {s0 s : State} {pp : Nat} {ups : List (Nat × Byte)} (h : Keep s0 s) :
    Keep s0 (applyUpset s pp ups) := by
  unfold applyUpset
  refine foldl_keep h (fun x1 x2 k3 => ?_)
  refine ite_keep ?_ ?_
  · extract_lets +onlyGivenNames x4
    have k5 : Keep s0 x4 := ite_keep (putBytes_keep k3) k3
    clear_value x4
    exact setDev_keep k5
  · exact k3

theorem spareExhausted_keep {s0 s : State} {f : Nat} {reason : Nat} (h : Keep s0 s) :
    Keep s0 (spareExhausted s f reason) := by
  unfold spareExhausted
  exact ite_keep h (appendRec_keep (setMem_keep h rfl))

theorem triggerFrame_keep {s0 s : State} {f : Nat} {reason : Nat} (h : Keep s0 s) :
    Keep s0 (triggerFrame s f reason) := by
  unfold triggerFrame
  exact ite_keep h (ite_keep (spareExhausted_keep h) (setMem_keep h rfl))

theorem addRepair_keep {s0 s : State} {kind : Nat} {loc : Nat} (h : Keep s0 s) :
    Keep s0 (addRepair s kind loc) := by
  unfold addRepair
  extract_lets +onlyGivenNames x1
  clear_value x1
  exact ite_keep h (upd_keep h rfl rfl rfl)

theorem countSymbols_keep {z0 : State} {s0 : State} {page : Nat} {t : Nat} {n : Nat} (h : Keep z0 s0) :
    Keep z0 (countSymbols s0 page t n) := by
  unfold countSymbols
  extract_lets +onlyGivenNames x1 x2 x3 x4
  clear_value x1
  have k5 : Keep z0 x2 := ite_keep (addRepair_keep h) h
  clear_value x2
  clear_value x3
  extract_lets +onlyGivenNames x6
  have k7 : Keep z0 x6 := setMem_keep (bump64_keep k5) rfl
  clear_value x6
  exact ite_keep (triggerFrame_keep k7) (ite_keep (triggerFrame_keep k7) k7)

theorem setFatal_keep {s0 s : State} {r : ErrRec} (h : Keep s0 s) :
    Keep s0 (setFatal s r) := by
  unfold setFatal
  extract_lets +onlyGivenNames x1
  have k2 : Keep s0 x1 := wrF_keep h
  clear_value x1
  exact triggerCapture_keep (sendMsix_keep k2)

theorem uncorrNote_keep {s0 s : State} {mem : Nat} {outcome : Nat} (h : Keep s0 s) :
    Keep s0 (uncorrNote s mem outcome) := by
  unfold uncorrNote
  extract_lets +onlyGivenNames x1 x2
  have k3 : Keep s0 x1 := bump32_keep h
  clear_value x1
  extract_lets +onlyGivenNames x4
  have k5 : Keep s0 x4 := ite_keep k3 (appendRec_keep (setMem_keep k3 rfl))
  clear_value x4
  exact triggerFrame_keep k5

theorem uncorrectable_keep {s0 s : State} {mem : Nat} {outcome : Nat} (h : Keep s0 s) :
    Keep s0 (uncorrectable s mem outcome) := by
  unfold uncorrectable
  exact ite_keep (setFatal_keep (uncorrNote_keep h)) (uncorrNote_keep h)

theorem writeBack_keep {s0 s : State} {pp : Nat} {mem : Nat} {t : Nat} {pattern : Map Byte} (h : Keep s0 s) :
    Keep s0 (writeBack s pp mem t pattern) := by
  unfold writeBack
  extract_lets +onlyGivenNames x1 x2 x3 x4 x5
  clear_value x1
  clear_value x2
  have k6 : Keep s0 x3 := foldl_keep h (fun _ _ k7 => (ite_keep (putBytes_keep k7) k7))
  clear_value x3
  have k8 : Keep s0 x4 := setDev_keep k6
  clear_value x4
  clear_value x5
  exact setDev_keep k8

theorem decodeFull_keep {s0 s : State} {pp : Nat} {mem : Nat} {t : Nat} {sectors : List Nat} {back : Bool} (h : Keep s0 s) :
    Keep s0 (decodeFull s pp mem t sectors back).1 := by
  unfold decodeFull
  split
  · exact h
  · extract_lets +onlyGivenNames x1
    have k2 : Keep s0 x1 := writeBack_keep h
    clear_value x1
    exact ite_keep k2 h
  · exact h

theorem slowDecode_keep {s0 s : State} {page : Nat} {sectors : List Nat} (h : Keep s0 s) :
    Keep s0 (slowDecode s page sectors).1 := by
  unfold slowDecode
  extract_lets +onlyGivenNames x1 x2
  clear_value x1
  have k3 : Keep s0 x2 := bump64_keep h
  clear_value x2
  split
  rename_i e4
  have k5 := pair_keep e4 (decodeFull_keep k3)
  extract_lets +onlyGivenNames x6
  have k7 : Keep s0 x6 := ite_keep k5 (countSymbols_keep k5)
  clear_value x6
  split
  · exact k7
  · exact uncorrectable_keep k7

theorem readSector_keep {s0 s : State} {mem : Nat} (h : Keep s0 s) :
    Keep s0 (readSector s mem).1 := by
  unfold readSector
  extract_lets +onlyGivenNames x1 x2
  clear_value x1
  clear_value x2
  refine ite_fst_keep h ?_
  split
  · rename_i e3
    have k4 := pair_keep e3 (slowDecode_keep h)
    exact k4
  · rename_i e5
    have k6 := pair_keep e5 (slowDecode_keep h)
    exact k6

theorem encodeFresh_keep {s0 s : State} {pp : Nat} {chk : Map (BitVec 16)} (h : Keep s0 s) :
    Keep s0 (encodeFresh s pp chk) := by
  unfold encodeFresh
  exact setDev_keep h

theorem countLost_keep {s0 s : State} {n : Nat} (h : Keep s0 s) :
    Keep s0 (countLost s n) := by
  unfold countLost
  exact ite_keep h (bump32_keep h)

theorem updateSector_keep {s0 s : State} {page : Nat} {k : Nat} {data : List Byte} {complement : Bool} (h : Keep s0 s) :
    Keep s0 (updateSector s page k data complement) := by
  unfold updateSector
  extract_lets +onlyGivenNames x1 x2 x3 x4
  clear_value x1
  clear_value x2
  have k5 : Keep s0 x3 := putBytes_keep h
  clear_value x3
  clear_value x4
  exact setDev_keep k5

theorem writeSector_keep {s0 s : State} {mem : Nat} {data : List Byte} {lost : Bool} (h : Keep s0 s) :
    Keep s0 (writeSector s mem data lost) := by
  unfold writeSector
  extract_lets +onlyGivenNames x1 x2 x3 x4 x5
  clear_value x1
  clear_value x2
  clear_value x3
  have k6 : Keep s0 x5 := setMem_keep h rfl
  clear_value x5
  extract_lets +onlyGivenNames x7
  have k8 : Keep s0 x7 := ite_keep (countLost_keep k6) k6
  clear_value x7
  refine ite_keep (updateSector_keep k8) ?_
  extract_lets +onlyGivenNames x9
  have k10 : Keep s0 x9 := bump64_keep k8
  clear_value x9
  split
  · exact updateSector_keep k10
  · exact updateSector_keep (writeBack_keep (countSymbols_keep k10))
  · extract_lets +onlyGivenNames x11 x12 x13
    clear_value x11
    have k14 : Keep s0 x12 := uncorrNote_keep (countLost_keep k10)
    clear_value x12
    have k15 : Keep s0 x13 := encodeFresh_keep k14
    clear_value x13
    exact updateSector_keep k15

theorem setLine_keep {s0 s : State} {si : Nat} {w : Nat} {l : Line} (h : Keep s0 s) :
    Keep s0 (setLine s si w l) := by
  unfold setLine
  exact setMem_keep h rfl

theorem touch_keep {s0 s : State} {si : Nat} {w : Nat} (h : Keep s0 s) :
    Keep s0 (touch s si w) := by
  unfold touch
  exact setMem_keep h rfl

theorem setEv_keep {s0 s : State} {slice : Nat} {l : List EvEntry} (h : Keep s0 s) :
    Keep s0 (setEv s slice l) := by
  unfold setEv
  exact setMem_keep h rfl

theorem writeDirty_keep {s0 s : State} {l : Line} (h : Keep s0 s) :
    Keep s0 (writeDirty s l) := by
  unfold writeDirty
  exact foldl_keep h (fun _ _ k1 => (ite_keep (writeSector_keep k1) k1))

theorem drainEv_keep {s0 s : State} {slice : Nat} {i : Nat} (h : Keep s0 s) :
    Keep s0 (drainEv s slice i) := by
  unfold drainEv
  split
  · exact setEv_keep (writeDirty_keep h)
  · exact h

theorem pushEv_keep {s0 s : State} {l : Line} (h : Keep s0 s) :
    Keep s0 (pushEv s l) := by
  unfold pushEv
  extract_lets +onlyGivenNames x1 x2
  clear_value x1
  have k3 : Keep s0 x2 := ite_keep h (drainEv_keep h)
  clear_value x2
  exact setEv_keep k3

theorem evict_keep {s0 s : State} {si : Nat} {w : Nat} (h : Keep s0 s) :
    Keep s0 (evict s si w) := by
  unfold evict
  split
  · exact h
  · extract_lets +onlyGivenNames x1
    extract_lets +onlyGivenNames x2
    have k3 : Keep s0 x2 := setMem_keep h rfl
    clear_value x2
    exact ite_keep (pushEv_keep k3) k3

theorem allocate_keep {s0 s : State} {la : Nat} (h : Keep s0 s) :
    Keep s0 (allocate s la).1 := by
  unfold allocate
  extract_lets +onlyGivenNames x1 x2
  clear_value x1
  clear_value x2
  exact setLine_keep (evict_keep h)

theorem wayFor_keep {s0 s : State} {la : Nat} (h : Keep s0 s) :
    Keep s0 (wayFor s la).1 := by
  unfold wayFor
  split
  · exact h
  · exact allocate_keep h

theorem installSector_keep {s0 s : State} {la : Nat} {h : Nat} {bs : List Byte} {dirty : Bool} (hk : Keep s0 s) :
    Keep s0 (installSector s la h bs dirty) := by
  unfold installSector
  split
  rename_i e1
  have k2 := pair_keep e1 (wayFor_keep hk)
  split
  · exact k2
  · exact touch_keep (setLine_keep k2)

theorem countEvHit_keep {s0 s : State} (h : Keep s0 s) :
    Keep s0 (countEvHit s) := by
  unfold countEvHit
  exact bump64_keep h

theorem sectorInBy_keep {s0 : State} {alloc : Bool} {s : State} {mem : Nat} (h : Keep s0 s) :
    Keep s0 (sectorInBy alloc s mem).1 := by
  unfold sectorInBy
  split
  · split
    · exact touch_keep h
    · exact h
  · split
    · exact countEvHit_keep h
    · split
      · rename_i e1
        have k2 := pair_keep e1 (readSector_keep h)
        exact ite_keep (installSector_keep k2) k2
      · rename_i e3
        have k4 := pair_keep e3 (readSector_keep h)
        exact k4

theorem sectorIn_keep {s0 s : State} {mem : Nat} (h : Keep s0 s) :
    Keep s0 (sectorIn s mem).1 := by
  unfold sectorIn
  exact sectorInBy_keep h

theorem mergeEv_keep {s0 s : State} {i : Nat} {mem : Nat} {old : List Byte} {bs : List Byte} (h : Keep s0 s) :
    Keep s0 (mergeEv s i mem old bs) := by
  unfold mergeEv
  extract_lets +onlyGivenNames x1 x2
  clear_value x1
  clear_value x2
  exact setEv_keep (countEvHit_keep h)

theorem sectorOut_keep {s0 s : State} {mem : Nat} {bs : List Byte} (h : Keep s0 s) :
    Keep s0 (sectorOut s mem bs).1 := by
  unfold sectorOut
  extract_lets +onlyGivenNames x1 x2 x3
  clear_value x1
  clear_value x2
  have k4 : Keep s0 x3 := by
    subst x3
    split
    · exact ite_keep (drainEv_keep h) h
    · exact h
  clear_value x3
  split
  · split
    · exact mergeEv_keep k4
    · refine ite_fst_keep (mergeEv_keep k4) ?_
      split
      · rename_i e5
        have k6 := pair_keep e5 (readSector_keep k4)
        exact mergeEv_keep k6
      · rename_i e7
        have k8 := pair_keep e7 (readSector_keep k4)
        exact k8
  · refine ite_fst_keep (installSector_keep k4) ?_
    split
    · rename_i e9
      have k10 := pair_keep e9 (sectorIn_keep k4)
      exact installSector_keep k10
    · rename_i e11
      have k12 := pair_keep e11 (sectorIn_keep k4)
      exact k12

theorem readSpans_keep {s0 s : State} {alloc : Bool} {l : List (Nat × Nat)} {acc : List Byte} (h : Keep s0 s) :
    Keep s0 (readSpans alloc s l acc).1 := by
  induction l generalizing s acc with
  | nil => exact h
  | cons x r ih =>
    unfold readSpans
    split
    · rename_i e
      exact ih (pair_keep e (sectorInBy_keep h))
    · rename_i e
      exact fst_keep (pair_keep e (sectorInBy_keep h))

theorem memReadBy_keep {s0 : State} {alloc : Bool} {s : State} {mem : Nat} {n : Nat} (h : Keep s0 s) :
    Keep s0 (memReadBy alloc s mem n).1 := by
  unfold memReadBy
  exact readSpans_keep h

theorem memRead_keep {s0 s : State} {mem : Nat} {n : Nat} (h : Keep s0 s) :
    Keep s0 (memRead s mem n).1 := by
  unfold memRead
  exact memReadBy_keep h

theorem writeSpans_keep {s0 s : State} {l : List (Nat × Nat)} {bs : List Byte} (h : Keep s0 s) : Keep s0 (writeSpans s l bs).1 := by
  induction l generalizing s bs with
  | nil => exact h
  | cons x r ih =>
    unfold writeSpans
    split
    · rename_i e
      exact ih (pair_keep e (sectorOut_keep h))
    · rename_i e
      exact fst_keep (pair_keep e (sectorOut_keep h))

theorem memWrite_keep {s0 s : State} {mem : Nat} {bs : List Byte} (h : Keep s0 s) :
    Keep s0 (memWrite s mem bs).1 := by
  unfold memWrite
  exact writeSpans_keep h

theorem lockLine_keep {s0 s : State} {la : Nat} {p : Nat} (h : Keep s0 s) :
    Keep s0 (lockLine s la p).1 := by
  unfold lockLine
  split
  · exact h
  · split
    · exact h
    · exact ite_fst_keep h (ite_fst_keep (bump32_keep h) (setLine_keep h))

theorem unlockLine_keep {s0 s : State} {la : Nat} {p : Nat} (h : Keep s0 s) :
    Keep s0 (unlockLine s la p) := by
  unfold unlockLine
  split
  · exact h
  · split
    · exact h
    · exact ite_keep (setLine_keep h) h

theorem unlockWhere_keep {s0 s : State} {q : Line → Bool} (h : Keep s0 s) :
    Keep s0 (unlockWhere s q) := by
  unfold unlockWhere
  exact setMem_keep h rfl

theorem zeroLine_keep {s0 s : State} {la : Nat} (h : Keep s0 s) :
    Keep s0 (zeroLine s la) := by
  unfold zeroLine
  extract_lets +onlyGivenNames x1
  have k2 : Keep s0 x1 := by
    subst x1
    split
    · exact setEv_keep h
    · exact h
  clear_value x1
  exact installSector_keep (installSector_keep k2)

theorem preloadLine_keep {s0 s : State} {la : Nat} (h : Keep s0 s) :
    Keep s0 (preloadLine s la).1 := by
  unfold preloadLine
  split
  · rename_i e1
    have k2 := pair_keep e1 (memRead_keep h)
    exact k2
  · rename_i e3
    have k4 := pair_keep e3 (memRead_keep h)
    exact k4

theorem writebackLine_keep {s0 s : State} {la : Nat} (h : Keep s0 s) :
    Keep s0 (writebackLine s la) := by
  unfold writebackLine
  split
  · exact h
  · split
    · exact h
    · exact ite_keep (setLine_keep (writeDirty_keep h)) h

theorem flushLine_keep {s0 s : State} {la : Nat} (h : Keep s0 s) :
    Keep s0 (flushLine s la) := by
  unfold flushLine
  extract_lets +onlyGivenNames x1 x2
  have k3 : Keep s0 x1 := writebackLine_keep h
  clear_value x1
  have k4 : Keep s0 x2 := by
    subst x2
    split
    · exact drainEv_keep k3
    · exact k3
  clear_value x2
  split
  · exact setMem_keep k4 rfl
  · exact k4

theorem dropLines_keep {s0 s : State} {lo : Nat} {hi : Nat} (h : Keep s0 s) :
    Keep s0 (dropLines s lo hi) := by
  unfold dropLines
  extract_lets +onlyGivenNames x1
  clear_value x1
  exact setMem_keep h rfl

theorem fillClaim_keep {s0 s : State} {n strength : Nat} (h : Keep s0 s) : Keep s0 (fillClaim s n strength) := by
  unfold fillClaim
  extract_lets +onlyGivenNames s1 mine
  have k : Keep s0 s1 := dropLines_keep h
  clear_value s1 mine
  refine setMem_keepD k (fun hd => ?_)
  dsimp only
  exact mwfD_mkeep _ hd

theorem xput_keep {s0 s : State} {cache : Nat} {e : XEntry} (h : Keep s0 s) :
    Keep s0 (xput s cache e) := by
  unfold xput
  extract_lets +onlyGivenNames x1 x2
  clear_value x1
  clear_value x2
  exact setMem_keep h rfl

theorem walkFrame_keep {s0 s : State} {cache : Nat} {t : TableId} {g : Seg} {vf : Nat} (h : Keep s0 s) :
    Keep s0 (walkFrame s cache t g vf).1 := by
  unfold walkFrame
  extract_lets +onlyGivenNames x1 x2 x3
  clear_value x1
  clear_value x2
  have k4 : Keep s0 x3 := bump64_keep h
  clear_value x3
  split
  · rename_i e5
    have k6 := pair_keep e5 (memRead_keep k4)
    exact k6
  · rename_i e7
    have k8 := pair_keep e7 (memRead_keep k4)
    split
    · exact k8
    · exact xput_keep k8

theorem xlate_keep {s0 s : State} {cache : Nat} {t : TableId} {a : Machine.Acc} {va : Nat} {n : Nat} (h : Keep s0 s) :
    Keep s0 (xlate s cache t a va n).1 := by
  unfold xlate
  split
  · exact h
  · split
    · exact h
    · split
      · exact xput_keep h
      · split
        · rename_i e1
          have k2 := pair_keep e1 (walkFrame_keep h)
          exact k2
        · rename_i e3
          have k4 := pair_keep e3 (walkFrame_keep h)
          exact k4
    · extract_lets +onlyGivenNames x5
      clear_value x5
      exact ite_fst_keep h h
    · exact h
    · exact h

theorem xlatePieces_keep {s0 s : State} {cache : Nat} {t : TableId} {a : Acc} {l : List (Nat × Nat)} (h : Keep s0 s) :
    Keep s0 (xlatePieces s cache t a l).1 := by
  induction l generalizing s with
  | nil => exact h
  | cons x r ih =>
    unfold xlatePieces
    split
    · rename_i e
      exact fst_keep (pair_keep e (xlate_keep h))
    · rename_i e
      have k := pair_keep e (xlate_keep h)
      split
      · rename_i e2
        exact fst_keep (pair_keep e2 (ih k))
      · rename_i e2
        exact fst_keep (pair_keep e2 (ih k))

theorem xlateRange_keep {s0 s : State} {cache : Nat} {t : TableId} {a : Machine.Acc} {va : Nat} {n : Nat} (h : Keep s0 s) :
    Keep s0 (xlateRange s cache t a va n).1 := by
  unfold xlateRange
  split
  · rename_i e1
    have k2 := pair_keep e1 (xlatePieces_keep h)
    exact k2
  · exact xlatePieces_keep h

theorem readLocs_keep {s0 s : State} {alloc : Bool} {t : TableId} {va : Nat} {l : List Loc} {ext : HostRead} {acc : List Byte}
    (h : Keep s0 s) : Keep s0 (readLocs alloc s t va l ext acc).1 := by
  induction l generalizing s ext acc with
  | nil => exact h
  | cons x r ih =>
    cases x with
    | mem a n =>
      unfold readLocs
      split
      · rename_i e
        exact ih (pair_keep e (memReadBy_keep h))
      · rename_i e
        exact fst_keep (pair_keep e (memReadBy_keep h))
    | host a n =>
      unfold readLocs
      split
      · exact ih h
      · exact h
    | peer d a n =>
      unfold readLocs
      refine ite_fst_keep h ?_
      split
      · exact ih h
      · exact h

theorem engineReadBy_keep {s0 : State} {alloc : Bool} {s : State} {cache : Nat} {t : TableId} {a : Machine.Acc} {va : Nat} {n : Nat} {ext : HostRead} (h : Keep s0 s) :
    Keep s0 (engineReadBy alloc s cache t a va n ext).1 := by
  unfold engineReadBy
  split
  · rename_i e1
    have k2 := pair_keep e1 (xlateRange_keep h)
    exact k2
  · rename_i e3
    have k4 := pair_keep e3 (xlateRange_keep h)
    exact readLocs_keep k4

theorem engineRead_keep {s0 s : State} {cache : Nat} {t : TableId} {a : Machine.Acc} {va : Nat} {n : Nat} {ext : HostRead} (h : Keep s0 s) :
    Keep s0 (engineRead s cache t a va n ext).1 := by
  unfold engineRead
  exact engineReadBy_keep h

theorem writeLocs_keep {s0 s : State} {t : TableId} {va : Nat} {l : List Loc} {bs : List Byte} (h : Keep s0 s) :
    Keep s0 (writeLocs s t va l bs).1 := by
  induction l generalizing s bs with
  | nil => exact h
  | cons x r ih =>
    cases x with
    | mem a n =>
      unfold writeLocs
      split
      · rename_i e
        exact ih (pair_keep e (memWrite_keep h))
      · rename_i e
        exact fst_keep (pair_keep e (memWrite_keep h))
    | host a n => exact ih (emit_keep h)
    | peer d a n =>
      unfold writeLocs
      split
      · rename_i e
        exact ih (peerWrite_keep h _ e)
      · exact h

theorem engineWrite_keep {s0 s : State} {cache : Nat} {t : TableId} {a : Machine.Acc} {va : Nat} {bs : List Byte} (h : Keep s0 s) :
    Keep s0 (engineWrite s cache t a va bs).1 := by
  unfold engineWrite
  split
  · rename_i e1
    have k2 := pair_keep e1 (xlateRange_keep h)
    exact k2
  · rename_i e3
    have k4 := pair_keep e3 (xlateRange_keep h)
    exact writeLocs_keep k4

theorem engineFault_keep {s0 s : State} {o : Origin} {engine : Nat} {f : XFault} (h : Keep s0 s) :
    Keep s0 (engineFault s o engine f) := by
  unfold engineFault
  exact failWork_keep h

theorem setPower_keep {s0 s : State} {x : PowerSt} (h : Keep s0 s) :
    Keep s0 (setPower s x) := by
  unfold setPower
  exact upd_keep h rfl rfl rfl

theorem setPwrState_keep {s0 s : State} {n : Nat} (h : Keep s0 s) :
    Keep s0 (setPwrState s n) := by
  unfold setPwrState
  exact wrF_keep h

theorem pwrResult_keep {s0 s : State} {result : Nat} {party : Nat} {refusers : Nat} (h : Keep s0 s) :
    Keep s0 (pwrResult s result party refusers) := by
  unfold pwrResult
  exact wrF_keep (wrF_keep (wrF_keep (wrF_keep h)))

theorem abortEntry_keep {s0 s : State} {party : Nat} (h : Keep s0 s) :
    Keep s0 (abortEntry s party) := by
  unfold abortEntry
  split
  · exact ite_keep (bump32_keep (pwrResult_keep (setPower_keep h))) h
  · exact h

theorem leaveA1_keep {s0 s : State} (h : Keep s0 s) :
    Keep s0 (leaveA1 s) := by
  unfold leaveA1
  exact ite_keep (setPower_keep (setPwrState_keep h)) h

theorem hostTouch_keep {s0 s : State} (h : Keep s0 s) :
    Keep s0 (hostTouch s) := by
  unfold hostTouch
  exact leaveA1_keep (abortEntry_keep h)

theorem setSched_keep {s0 s : State} {x : SchedSt} (h : Keep s0 s) :
    Keep s0 (setSched s x) := by
  unfold setSched
  exact upd_keep h rfl rfl rfl

theorem chargeAcct_keep {s0 s : State} {p : Nat} {a : Nat} {f : AcctField} {n : Nat} (h : Keep s0 s) :
    Keep s0 (chargeAcct s p a f n) := by
  unfold chargeAcct
  exact setSched_keep h

theorem charge_keep {s0 s : State} {k : Nat} {f : AcctField} {n : Nat} (h : Keep s0 s) :
    Keep s0 (charge s k f n) := by
  unfold charge
  exact chargeAcct_keep h

theorem giveSlot_keep {s0 s : State} {k : Nat} {n : Nat} (h : Keep s0 s) :
    Keep s0 (giveSlot s k n) := by
  unfold giveSlot
  split
  · exact setCtx_keep h
  · exact h

theorem takeSlot_keep {s0 s : State} {k : Nat} (h : Keep s0 s) :
    Keep s0 (takeSlot s k) := by
  unfold takeSlot
  refine ite_keep h ?_
  split
  · exact ite_keep (giveSlot_keep h) h
  · exact h

theorem dropSlot_keep {s0 s : State} {k : Nat} (h : Keep s0 s) :
    Keep s0 (dropSlot s k) := by
  unfold dropSlot
  split
  · exact ite_keep (dropTable_keep (setCtx_keep h)) h
  · exact h

theorem reserve_keep {s0 s : State} {p : Nat} {kib : Nat} (h : Keep s0 s) :
    Keep s0 (reserve s p kib) := by
  unfold reserve
  exact setSched_keep h

theorem unreserve_keep {s0 s : State} {p : Nat} {kib : Nat} (h : Keep s0 s) :
    Keep s0 (unreserve s p kib) := by
  unfold unreserve
  exact setSched_keep h

theorem savePlace_keep {s0 s : State} {p : Nat} {n : Nat} (h : Keep s0 s) :
    Keep s0 (savePlace s p n).2 := by
  unfold savePlace
  split
  rename_i e1
  have k2 := pair_keep' e1 (draw_keep h)
  exact k2

theorem undefWrite_keep {s0 s : State} {p : Nat} {a : Nat} {n : Nat} (h : Keep s0 s) :
    Keep s0 (undefWrite s p a n).1 := by
  unfold undefWrite
  split
  · rename_i e1
    have k2 := pair_keep e1 (xlateRange_keep h)
    exact k2
  · rename_i e3
    have k4 := pair_keep e3 (xlateRange_keep h)
    exact writeLocs_keep k4

theorem saveUnit_keep {s0 s : State} {o : Origin} {engine : Nat} {n : Nat} (h : Keep s0 s) :
    Keep s0 (saveUnit s o engine n).1 := by
  unfold saveUnit
  split
  rename_i e1
  have k2 := pair_keep' e1 (savePlace_keep h)
  split
  · rename_i e3
    have k4 := pair_keep e3 (undefWrite_keep k2)
    exact k4
  · rename_i e5
    have k6 := pair_keep e5 (undefWrite_keep k2)
    exact raise_keep k6

theorem restoreUnit_keep {s0 s : State} {o : Origin} {engine : Nat} {a : Nat} {n : Nat} (h : Keep s0 s) :
    Keep s0 (restoreUnit s o engine a n) := by
  unfold restoreUnit
  split
  · rename_i e1
    have k2 := pair_keep e1 (engineRead_keep h)
    exact raise_keep k2
  · rename_i e3
    have k4 := pair_keep e3 (engineRead_keep h)
    exact k4

theorem noteAsk_keep {s0 s : State} {e : Nat} (h : Keep s0 s) :
    Keep s0 (noteAsk s e) := by
  unfold noteAsk
  exact ite_keep h (setSched_keep h)

theorem askStop_keep {s0 s : State} {e : Nat} {k : Nat} (h : Keep s0 s) :
    Keep s0 (askStop s e k) := by
  unfold askStop
  exact ite_keep h (setSched_keep (noteAsk_keep h))

theorem askOp_keep {s0 s : State} {e : Nat} {wid : Nat} (h : Keep s0 s) :
    Keep s0 (askOp s e wid) := by
  unfold askOp
  exact ite_keep h (setSched_keep (noteAsk_keep h))

theorem pruneStops_keep {s0 s : State} (h : Keep s0 s) :
    Keep s0 (pruneStops s) := by
  unfold pruneStops
  exact setSched_keep h

theorem noteCond_keep {s0 s : State} {k : Nat} (h : Keep s0 s) :
    Keep s0 (noteCond s k) := by
  unfold noteCond
  split
  · exact h
  · extract_lets +onlyGivenNames x1 x2
    clear_value x1
    clear_value x2
    refine ite_keep (setCtx_keep h) ?_
    extract_lets +onlyGivenNames x3
    clear_value x3
    exact setCtx_keep h

theorem noteConds_keep {s0 s : State} (h : Keep s0 s) :
    Keep s0 (noteConds s) := by
  unfold noteConds
  exact foldl_keep (pruneStops_keep h) (fun _ _ k1 => (noteCond_keep k1))

theorem updNode_keep {s0 s : State} {wid : Nat} {f : NodeSt → NodeSt} (h : Keep s0 s) :
    Keep s0 (updNode s wid f) := by
  unfold updNode
  exact setSched_keep h

theorem countPreempt_keep {s0 s : State} {o : Origin} (h : Keep s0 s) :
    Keep s0 (countPreempt s o) := by
  unfold countPreempt
  extract_lets +onlyGivenNames x1
  have k2 : Keep s0 x1 := charge_keep (bump64_keep h)
  clear_value x1
  exact setSched_keep k2

theorem dbWrite_keep {s0 s : State} {rk : Nat} {r : Ring} {off : Nat} {v : Nat} (h : Keep s0 s) :
    Keep s0 (dbWrite s rk r off v) := by
  unfold dbWrite
  exact emit_keep h

theorem releaseEntry_keep {s0 s : State} {rk : Nat} {r : Ring} {e : Entry} (h : Keep s0 s) :
    Keep s0 (releaseEntry s rk r e) := by
  unfold releaseEntry
  extract_lets +onlyGivenNames x1 x2 x3
  clear_value x1
  have k4 : Keep s0 x2 := ite_keep (dropFence_keep h) h
  clear_value x2
  have k5 : Keep s0 x3 := ite_keep (dropFence_keep k4) k4
  clear_value x3
  exact ite_keep (dropCtx_keep k5) k5

theorem entrySignal_keep {s0 s : State} {rk : Nat} {e : Entry} {code : Nat} (h : Keep s0 s) :
    Keep s0 (entrySignal s rk e code) := by
  unfold entrySignal
  exact ite_keep (ite_keep (signalFence_keep h) (errorFence_keep h)) h

theorem finishCalls_keep {s0 s : State} {rk : Nat} (h : Keep s0 s) :
    Keep s0 (finishCalls s rk) := by
  unfold finishCalls
  split
  · exact h
  · refine foldl_keep h (fun x1 x2 k3 => ?_)
    extract_lets +onlyGivenNames x4 x5
    clear_value x4
    clear_value x5
    exact ite_keep (finish_keep k3) k3

theorem popRetired_keep {s0 s : State} {rk : Nat} (h : Keep s0 s) :
    Keep s0 (popRetired s rk) := by
  unfold popRetired
  split
  · exact h
  · split
    refine ite_keep h ?_
    extract_lets +onlyGivenNames x1 x2
    clear_value x1
    have k3 : Keep s0 x2 := dbWrite_keep (setRing_keep h)
    clear_value x2
    exact foldN_keep k3 (fun _ _ k4 => (sendMsix_keep k4))

theorem ringResult_keep {s0 s : State} {rk : Nat} {result : Nat} (h : Keep s0 s) :
    Keep s0 (ringResult s rk result) := by
  unfold ringResult
  exact wr_keep h

theorem freeRing_keep {s0 s : State} {rk : Nat} (h : Keep s0 s) :
    Keep s0 (freeRing s rk) := by
  unfold freeRing
  split
  · exact h
  · exact dropCtx_keep (upd_keep h rfl rfl rfl)

theorem doResume_keep {s0 s : State} {rk : Nat} {r : Ring} (h : Keep s0 s) :
    Keep s0 (doResume s rk r) := by
  unfold doResume
  exact dbWrite_keep (setRing_keep h)

theorem checkDrain_keep {s0 s : State} {rk : Nat} (h : Keep s0 s) :
    Keep s0 (checkDrain s rk) := by
  unfold checkDrain
  split
  · exact h
  · refine ite_keep h ?_
    split
    · exact h
    · exact ringResult_keep (setRing_keep h)
    · exact ringResult_keep (freeRing_keep h)
    · exact ite_keep (ringResult_keep (doResume_keep h)) (ringResult_keep (setRing_keep h))

theorem restartWatchdog_keep {s0 s : State} {k : Nat} (h : Keep s0 s) :
    Keep s0 (restartWatchdog s k) := by
  unfold restartWatchdog
  split
  · exact setCtx_keep h
  · exact h

theorem countJob_keep {s0 s : State} {r : Ring} {e : Entry} (h : Keep s0 s) :
    Keep s0 (countJob s r e) := by
  unfold countJob
  exact ite_keep (chargeAcct_keep h) (charge_keep h)

theorem retireEntry_keep {s0 s : State} {rk : Nat} {wid : Nat} {code : Nat} (h : Keep s0 s) :
    Keep s0 (retireEntry s rk wid code) := by
  unfold retireEntry
  split
  · exact h
  · split
    · exact h
    · refine ite_keep h ?_
      extract_lets +onlyGivenNames x1 x2 x3 x4
      have k5 : Keep s0 x1 := setRing_keep h
      clear_value x1
      clear_value x2
      have k6 : Keep s0 x3 := upd_keep k5 rfl rfl rfl
      clear_value x3
      have k7 : Keep s0 x4 := restartWatchdog_keep (releaseEntry_keep (countJob_keep (entrySignal_keep k6)))
      clear_value x4
      extract_lets +onlyGivenNames x8
      have k9 : Keep s0 x8 := ite_keep (sendMsix_keep k7) k7
      clear_value x8
      exact checkDrain_keep (popRetired_keep (finishCalls_keep k9))

theorem discard_keep {s0 s : State} {rk : Nat} {keepCall : Bool} (h : Keep s0 s) :
    Keep s0 (discard s rk keepCall) := by
  unfold discard
  split
  · exact h
  · extract_lets +onlyGivenNames x1 x2 x3
    clear_value x1
    clear_value x2
    have k4 : Keep s0 x3 := foldl_keep h (fun _ _ k5 => (releaseEntry_keep k5))
    clear_value x3
    split
    · exact k4
    · exact setRing_keep k4

theorem ringError_keep {s0 s : State} {rk : Nat} {code : Nat} {count : Nat} (h : Keep s0 s) :
    Keep s0 (ringError s rk code count) := by
  unfold ringError
  extract_lets +onlyGivenNames x1
  have k2 : Keep s0 x1 := discard_keep h
  clear_value x1
  split
  · exact k2
  · refine ite_keep k2 ?_
    extract_lets +onlyGivenNames x3 x4
    clear_value x3
    have k5 : Keep s0 x4 := setRing_keep k2
    clear_value x4
    exact checkDrain_keep (finishCalls_keep (sendMsix_keep (dbWrite_keep k5)))

theorem formatError_keep {s0 s : State} {rk : Nat} {r : Ring} {e : Entry} {reason : Nat} {source : Nat} {off : Nat} (h : Keep s0 s) :
    Keep s0 (formatError s rk r e reason source off) := by
  unfold formatError
  extract_lets +onlyGivenNames x1 x2
  clear_value x1
  have k3 : Keep s0 x2 := appendRec_keep h
  clear_value x2
  exact ringError_keep (retireEntry_keep k3)

theorem tailError_keep {s0 s : State} {rk : Nat} {r : Ring} (h : Keep s0 s) :
    Keep s0 (tailError s rk r) := by
  unfold tailError
  extract_lets +onlyGivenNames x1
  clear_value x1
  exact ringError_keep (appendRec_keep h)

theorem abortRecord_keep {s0 s : State} {rk : Nat} {r : Ring} {entry : Nat} {what : Nat} {failure : Nat} {code : Nat} {addr : Nat} (h : Keep s0 s) :
    Keep s0 (abortRecord s rk r entry what failure code addr) := by
  unfold abortRecord
  extract_lets +onlyGivenNames x1
  clear_value x1
  exact appendRec_keep h

theorem tailAbort_keep {s0 s : State} {rk : Nat} {r : Ring} {w : ReadFail} (h : Keep s0 s) :
    Keep s0 (tailAbort s rk r w) := by
  unfold tailAbort
  exact ringError_keep (abortRecord_keep h)

theorem payloadAbort_keep {s0 s : State} {rk : Nat} {r : Ring} {e : Entry} {f : XFault} (h : Keep s0 s) :
    Keep s0 (payloadAbort s rk r e f) := by
  unfold payloadAbort
  split
  extract_lets +onlyGivenNames x1
  have k2 : Keep s0 x1 := abortRecord_keep h
  clear_value x1
  exact ringError_keep (retireEntry_keep k2)

theorem handleInvalid_keep {s0 s : State} {rk : Nat} {r : Ring} {e : Entry} {h : Nat} (hk : Keep s0 s) :
    Keep s0 (handleInvalid s rk r e h) := by
  unfold handleInvalid
  exact retireEntry_keep (appendRec_keep hk)

theorem advanceHead_keep {s0 s : State} {rk : Nat} {r : Ring} {e : Entry} (h : Keep s0 s) :
    Keep s0 (advanceHead s rk r e) := by
  unfold advanceHead
  extract_lets +onlyGivenNames x1 x2 x3
  clear_value x1
  have k4 : ∀ y0 y1 y2, Keep s0 y0 → Keep s0 (x2 y0 y1 y2) := fun _ _ _ k5 => (ite_keep (setRing_keep k5) (setRing_keep k5))
  clear_value x2
  have k6 : ∀ y0 y1 y2, Keep s0 y0 → Keep s0 (x3 y0 y1 y2) := by
    intro y7 y8 y9 k10
    subst x3
    beta_reduce
    split
    · exact handleInvalid_keep k10
    · refine ite_keep (k4 _ _ _ k10) ?_
      split
      · exact retireEntry_keep k10
      · exact setRing_keep k10
  clear_value x3
  split
  · refine ite_keep (k4 _ _ _ h) ?_
    split
    · exact handleInvalid_keep h
    · extract_lets +onlyGivenNames x11 x12
      have k13 : Keep s0 x11 := holdFence_keep h
      clear_value x11
      clear_value x12
      exact k6 _ _ _ k13
  · exact k6 _ _ _ h
  · exact ite_keep (k4 _ _ _ h) h
  · exact h

theorem settleRound_keep {s0 s : State} (h : Keep s0 s) :
    Keep s0 (settleRound s) := by
  unfold settleRound
  refine foldl_keep h (fun x1 x2 k3 => ?_)
  split
  · exact k3
  · split
    · exact k3
    · exact ite_keep (advanceHead_keep k3) k3

theorem settleUnloads_keep {s0 s : State} (h : Keep s0 s) :
    Keep s0 (settleUnloads s) := by
  unfold settleUnloads
  exact foldl_keep h (fun _ _ k1 => (ite_keep k1 (finish_keep (upd_keep k1 rfl rfl rfl))))

theorem noteIdle_keep {s0 s : State} (h : Keep s0 s) :
    Keep s0 (noteIdle s) := by
  unfold noteIdle
  refine ite_keep ?_ ?_
  · split
    · exact h
    · exact setPower_keep h
  · exact setPower_keep h

theorem settleModel_keep {s0 s : State} (h : Keep s0 s) :
    Keep s0 (settleModel s) := by
  unfold settleModel
  exact ite_keep (setSched_keep h) h

theorem freePlan_keep {s0 s : State} {slot : Nat} (h : Keep s0 s) :
    Keep s0 (freePlan s slot) := by
  unfold freePlan
  split
  · exact h
  · extract_lets +onlyGivenNames x1
    clear_value x1
    extract_lets +onlyGivenNames x2
    have k3 : Keep s0 x2 := setSched_keep h
    clear_value x2
    exact settleModel_keep (dropCtx_keep k3)

theorem settlePlans_keep {s0 s : State} (h : Keep s0 s) :
    Keep s0 (settlePlans s) := by
  unfold settlePlans
  exact foldl_keep h (fun _ _ k1 => (ite_keep k1 (finish_keep (setSched_keep (freePlan_keep k1)))))

theorem nodeInvalid_keep {s0 s : State} {l : Launch} {n : NodeSt} {h : Nat} (hk : Keep s0 s) :
    Keep s0 (nodeInvalid s l n h) := by
  unfold nodeInvalid
  exact finish_keep (appendRec_keep hk)

theorem judgeNode_keep {s0 s : State} {l : Launch} {n : NodeSt} (h : Keep s0 s) :
    Keep s0 (judgeNode s l n) := by
  unfold judgeNode
  extract_lets +onlyGivenNames x1
  have k2 : Keep s0 x1 := updNode_keep h
  clear_value x1
  refine ite_keep k2 ?_
  split
  · exact nodeInvalid_keep h
  · refine ite_keep k2 ?_
    split
    · exact finish_keep h
    · exact updNode_keep h

theorem advanceNode_keep {s0 s : State} {l : Launch} {n : NodeSt} (h : Keep s0 s) :
    Keep s0 (advanceNode s l n) := by
  unfold advanceNode
  refine ite_keep h ?_
  split
  · split
    · exact h
    · split
      · exact finish_keep h
      · exact judgeNode_keep (updNode_keep h)
  · exact judgeNode_keep h
  · exact h

theorem settleNodes_keep {s0 s : State} (h : Keep s0 s) :
    Keep s0 (settleNodes s) := by
  unfold settleNodes
  exact foldl_keep h (fun _ _ k1 => (ite_keep (foldl_keep k1 (fun _ _ k2 => (advanceNode_keep k2))) k1))

theorem settle_keep {s0 s : State} (h : Keep s0 s) :
    Keep s0 (settle s) := by
  unfold settle
  exact noteIdle_keep (leaveA1_keep (noteConds_keep (settleNodes_keep (settlePlans_keep (settleUnloads_keep (foldN_keep h (fun _ _ k1 => (settleRound_keep k1))))))))

theorem dispatched_keep {s0 s : State} {rk : Nat} {r : Ring} {e : Entry} (h : Keep s0 s) :
    Keep s0 (dispatched s rk r e) := by
  unfold dispatched
  exact holdCtx_keep (setRing_keep h)

theorem doneAtOnce_keep {s0 s : State} {rk : Nat} {r : Ring} {e : Entry} {code : Nat} (h : Keep s0 s) :
    Keep s0 (doneAtOnce s rk r e code) := by
  unfold doneAtOnce
  exact settle_keep (retireEntry_keep (dispatched_keep h))

theorem setCopies_keep {s0 s : State} {c : Nat} {l : List CopyOp} (h : Keep s0 s) :
    Keep s0 (setCopies s c l) := by
  unfold setCopies
  exact setSched_keep h

theorem chargePlaced_keep {s0 s : State} {op : CopyOp} (h : Keep s0 s) :
    Keep s0 (chargePlaced s op) := by
  unfold chargePlaced
  split
  · exact charge_keep h
  · exact charge_keep h

theorem freeSaved_keep {s0 s : State} {op : CopyOp} (h : Keep s0 s) :
    Keep s0 (freeSaved s op) := by
  unfold freeSaved
  exact ite_keep (unreserve_keep h) h

theorem holdStall_keep {s0 s : State} {op : CopyOp} {t : Nat} (h : Keep s0 s) :
    Keep s0 (holdStall s op t) := by
  unfold holdStall
  refine foldl_keep h (fun x1 x2 k3 => ?_)
  extract_lets +onlyGivenNames x4
  clear_value x4
  exact ite_keep (setMark_keep k3) k3

theorem putCopy_keep {s0 s : State} {op : CopyOp} (h : Keep s0 s) :
    Keep s0 (putCopy s op) := by
  unfold putCopy
  extract_lets +onlyGivenNames x1 x2 x3
  clear_value x1
  have k4 : Keep s0 x2 := reserve_keep (freeSaved_keep (chargePlaced_keep h))
  clear_value x2
  have k5 : Keep s0 x3 := by
    subst x3
    split
    · exact holdStall_keep (restoreUnit_keep k4)
    · exact k4
  clear_value x3
  exact setCopies_keep k5

theorem addCopy_keep {s0 s : State} {op : CopyOp} (h : Keep s0 s) :
    Keep s0 (addCopy s op) := by
  unfold addCopy
  extract_lets +onlyGivenNames x1
  have k2 : Keep s0 x1 := takeSlot_keep h
  clear_value x1
  exact ite_keep (putCopy_keep k2) (setSched_keep k2)

theorem placeCopy_keep {s0 s : State} (h : Keep s0 s) :
    Keep s0 (placeCopy s) := by
  unfold placeCopy
  extract_lets +onlyGivenNames x1
  clear_value x1
  split
  · exact h
  · split
    · exact h
    · extract_lets +onlyGivenNames x2
      have k3 : Keep s0 x2 := takeSlot_keep h
      clear_value x2
      exact putCopy_keep (setSched_keep k3)

theorem writeCompl_keep {s0 s : State} {op : CopyOp} {code : Nat} (h : Keep s0 s) :
    Keep s0 (writeCompl s op code).1 := by
  unfold writeCompl
  exact ite_fst_keep h (engineWrite_keep h)

theorem leaveCopy_keep {s0 s : State} {c : Nat} {op : CopyOp} (h : Keep s0 s) :
    Keep s0 (leaveCopy s c op) := by
  unfold leaveCopy
  exact setCopies_keep (unreserve_keep h)

theorem endCopy_keep {s0 s : State} {c : Nat} {op : CopyOp} (h : Keep s0 s) :
    Keep s0 (endCopy s c op) := by
  unfold endCopy
  split
  · rename_i e1
    have k2 := pair_keep e1 (writeCompl_keep (leaveCopy_keep h))
    exact finish_keep k2
  · rename_i e3
    have k4 := pair_keep e3 (writeCompl_keep (leaveCopy_keep h))
    exact engineFault_keep k4

theorem faultCopy_keep {s0 s : State} {c : Nat} {op : CopyOp} {f : XFault} (h : Keep s0 s) :
    Keep s0 (faultCopy s c op f) := by
  unfold faultCopy
  exact engineFault_keep (writeCompl_keep (leaveCopy_keep h))

theorem copyBlock_keep {s0 s : State} {op : CopyOp} {ext : HostRead} (h : Keep s0 s) :
    Keep s0 (copyBlock s op ext).1 := by
  unfold copyBlock
  extract_lets +onlyGivenNames x1
  clear_value x1
  split
  · rename_i e2
    have k3 := pair_keep e2 (engineRead_keep h)
    exact k3
  · rename_i e4
    have k5 := pair_keep e4 (engineRead_keep h)
    split
    rename_i e6
    have k7 := pair_keep' e6 (draw_keep k5)
    extract_lets +onlyGivenNames x8
    have k9 : Keep s0 x8 := ite_keep (snoopRing_keep k7) k7
    clear_value x8
    split
    · rename_i e10
      have k11 := pair_keep e10 (engineWrite_keep k9)
      exact k11
    · rename_i e12
      have k13 := pair_keep e12 (engineWrite_keep k9)
      exact k13

theorem cacheLine_keep {s0 s : State} {k : CopyKind} {la : Nat} {p : Nat} (h : Keep s0 s) :
    Keep s0 (cacheLine s k la p).1 := by
  unfold cacheLine
  split
  · exact zeroLine_keep h
  · exact preloadLine_keep h
  · split
    · rename_i e1
      have k2 := pair_keep e1 (preloadLine_keep h)
      exact k2
    · rename_i e3
      have k4 := pair_keep e3 (preloadLine_keep h)
      exact lockLine_keep k4
  · exact unlockLine_keep h
  · exact writebackLine_keep h
  · exact h

theorem cacheBlock_keep {s0 s : State} {op : CopyOp} (h : Keep s0 s) :
    Keep s0 (cacheBlock s op).1 := by
  unfold cacheBlock
  extract_lets +onlyGivenNames x1
  clear_value x1
  split
  · rename_i e2
    have k3 := pair_keep e2 (xlate_keep h)
    exact k3
  · rename_i e4
    have k5 := pair_keep e4 (xlate_keep h)
    split
    · rename_i e6
      have k7 := pair_keep e6 (cacheLine_keep k5)
      exact k7
    · rename_i e8
      have k9 := pair_keep e8 (cacheLine_keep k5)
      exact k9
  · rename_i e10
    have k11 := pair_keep e10 (xlate_keep h)
    exact k11

theorem scrubPage_keep {s0 s : State} {mem : Nat} {back : Bool} (h : Keep s0 s) :
    Keep s0 (scrubPage s mem back).1 := by
  unfold scrubPage
  extract_lets +onlyGivenNames x1 x2 x3
  clear_value x1
  clear_value x2
  have k4 : Keep s0 x3 := bump64_keep h
  clear_value x3
  split
  rename_i e5
  have k6 := pair_keep e5 (decodeFull_keep k4)
  extract_lets +onlyGivenNames x7
  have k8 : Keep s0 x7 := ite_keep k6 (countSymbols_keep k6)
  clear_value x7
  split
  · exact k8
  · exact uncorrNote_keep k8

theorem scrubBlock_keep {s0 s : State} {op : CopyOp} {byMem : Bool} {reportOnly : Bool} (h : Keep s0 s) :
    Keep s0 (scrubBlock s op byMem reportOnly).1 := by
  unfold scrubBlock
  extract_lets +onlyGivenNames x1 x2
  clear_value x1
  have k3 : ∀ y0 y1, Keep s0 y0 → Keep s0 (x2 y0 y1).1 := by
    intro y4 y5 k6
    subst x2
    beta_reduce
    extract_lets +onlyGivenNames x7
    clear_value x7
    split
    rename_i e8
    have k9 := pair_keep e8 (scrubPage_keep k6)
    exact k9
  clear_value x2
  refine ite_fst_keep (k3 _ _ h) ?_
  split
  · rename_i e10
    have k11 := pair_keep e10 (xlate_keep h)
    exact k11
  · rename_i e12
    have k13 := pair_keep e12 (xlate_keep h)
    exact k3 _ _ k13
  · rename_i e14
    have k15 := pair_keep e14 (xlate_keep h)
    exact k15

theorem loadBlock_keep {s0 s : State} {op : CopyOp} {ext : HostRead} (h : Keep s0 s) :
    Keep s0 (loadBlock s op ext).1 := by
  unfold loadBlock
  extract_lets +onlyGivenNames x1
  clear_value x1
  split
  · rename_i e2
    have k3 := pair_keep e2 (engineRead_keep h)
    exact k3
  · rename_i e4
    have k5 := pair_keep e4 (engineRead_keep h)
    extract_lets +onlyGivenNames x6
    have k7 : Keep s0 x6 := memWrite_keep k5
    clear_value x6
    exact setSched_keep k7

theorem copyUnit_keep {s0 s : State} {op : CopyOp} {ext : HostRead} (h : Keep s0 s) :
    Keep s0 (copyUnit s op ext).1 := by
  unfold copyUnit
  split
  · exact copyBlock_keep h
  · exact scrubBlock_keep h
  · exact loadBlock_keep h
  · exact cacheBlock_keep h

theorem modelRecord_keep {s0 s : State} {o : Origin} {addr : Nat} {code : Nat} (h : Keep s0 s) :
    Keep s0 (modelRecord s o addr code).1 := by
  unfold modelRecord
  extract_lets +onlyGivenNames x1
  clear_value x1
  refine ite_fst_keep h ?_
  split
  · rename_i e2
    have k3 := pair_keep e2 (engineWrite_keep h)
    exact k3
  · rename_i e4
    have k5 := pair_keep e4 (engineWrite_keep h)
    exact raise_keep k5

theorem endLoadCopy_keep {s0 s : State} {c : Nat} {op : CopyOp} (h : Keep s0 s) :
    Keep s0 (endLoadCopy s c op) := by
  unfold endLoadCopy
  extract_lets +onlyGivenNames x1
  have k2 : Keep s0 x1 := leaveCopy_keep h
  clear_value x1
  exact setSched_keep k2

theorem failLoadCopy_keep {s0 s : State} {c : Nat} {op : CopyOp} {f : XFault} (h : Keep s0 s) :
    Keep s0 (failLoadCopy s c op f) := by
  unfold failLoadCopy
  extract_lets +onlyGivenNames x1
  have k2 : Keep s0 x1 := leaveCopy_keep h
  clear_value x1
  exact engineFault_keep (setSched_keep k2)

theorem copyEnd_keep {s0 s : State} {c : Nat} {op : CopyOp} (h : Keep s0 s) :
    Keep s0 (copyEnd s c op) := by
  unfold copyEnd
  split
  · exact endLoadCopy_keep h
  · exact endCopy_keep h

theorem copyFault_keep {s0 s : State} {c : Nat} {op : CopyOp} {f : XFault} (h : Keep s0 s) :
    Keep s0 (copyFault s c op f) := by
  unfold copyFault
  split
  · exact failLoadCopy_keep h
  · exact faultCopy_keep h

theorem copyStep_keep {s0 s : State} {c : Nat} {op : CopyOp} {ext : HostRead} (h : Keep s0 s) :
    Keep s0 (copyStep s c op ext) := by
  unfold copyStep
  extract_lets +onlyGivenNames x1
  clear_value x1
  refine ite_keep (copyEnd_keep h) ?_
  split
  · rename_i e2
    have k3 := pair_keep e2 (copyUnit_keep h)
    exact copyFault_keep (claimReqs_keep k3)
  · rename_i e4
    have k5 := pair_keep e4 (copyUnit_keep h)
    extract_lets +onlyGivenNames x6
    have k7 : Keep s0 x6 := claimReqs_keep k5
    clear_value x6
    exact ite_keep (copyEnd_keep k7) (setCopies_keep k7)

theorem execCopyEngineBoundary_keep {s0 : State} {engine : BitVec 2} {ext : HostRead} {s : State} (h : Keep s0 s) :
    KeepO s0 (execCopyEngineBoundary engine ext s) := by
  unfold execCopyEngineBoundary
  split
  · exact next_keep (settle_keep (copyStep_keep h))
  · exact next_keep h

theorem preemptCopy_keep {s0 s : State} {c : Nat} {op : CopyOp} (h : Keep s0 s) :
    Keep s0 (preemptCopy s c op) := by
  unfold preemptCopy
  extract_lets +onlyGivenNames x1
  have k2 : Keep s0 x1 := setCopies_keep h
  clear_value x1
  split
  rename_i e3
  have k4 := pair_keep e3 (saveUnit_keep (countPreempt_keep k2))
  exact noteConds_keep (setSched_keep k4)

theorem stopMade_keep {s0 s : State} {engine : Nat} {wid : Nat} (h : Keep s0 s) :
    Keep s0 (stopMade s engine wid) := by
  unfold stopMade
  exact setSched_keep h

theorem execCopyPreemption_keep {s0 : State} {engine : BitVec 2} {wid : Nat} {s : State} (h : Keep s0 s) :
    KeepO s0 (execCopyPreemption engine wid s) := by
  unfold execCopyPreemption
  split
  · refine ite_keepO ?_ ?_
    · exact next_keep (preemptCopy_keep (stopMade_keep h))
    · exact next_keep h
  · exact next_keep h

theorem dispatchCopy_keep {s0 s : State} {p : Nat} {i : Nat} {r : Ring} {e : Entry} {op : CopyOp} (h : Keep s0 s) :
    Keep s0 (dispatchCopy s p i r e op) := by
  unfold dispatchCopy
  exact settle_keep (addCopy_keep (dispatched_keep h))

theorem execCopy_keep {s0 : State} {p : Part} {ring : BitVec 10} {s : State} (h : Keep s0 s) :
    KeepO s0 (execCopy p ring s) := by
  unfold execCopy
  split
  · exact next_keep (dispatchCopy_keep h)
  · exact next_keep h

theorem dispatchCache_keep {s0 s : State} {p : Nat} {i : Nat} {r : Ring} {e : Entry} (h : Keep s0 s) :
    Keep s0 (dispatchCache s p i r e) := by
  unfold dispatchCache
  exact dispatchCopy_keep h

theorem execZero_keep {s0 : State} {p : Part} {ring : BitVec 10} {s : State} (h : Keep s0 s) :
    KeepO s0 (execZero p ring s) := by
  unfold execZero
  split
  · exact next_keep (dispatchCache_keep h)
  · exact next_keep h

theorem execPreload_keep {s0 : State} {p : Part} {ring : BitVec 10} {s : State} (h : Keep s0 s) :
    KeepO s0 (execPreload p ring s) := by
  unfold execPreload
  split
  · exact next_keep (dispatchCache_keep h)
  · exact next_keep h

theorem execPreloadLock_keep {s0 : State} {p : Part} {ring : BitVec 10} {s : State} (h : Keep s0 s) :
    KeepO s0 (execPreloadLock p ring s) := by
  unfold execPreloadLock
  split
  · exact next_keep (dispatchCache_keep h)
  · exact next_keep h

theorem execUnlock_keep {s0 : State} {p : Part} {ring : BitVec 10} {s : State} (h : Keep s0 s) :
    KeepO s0 (execUnlock p ring s) := by
  unfold execUnlock
  split
  · exact next_keep (dispatchCache_keep h)
  · exact next_keep h

theorem execWriteback_keep {s0 : State} {p : Part} {ring : BitVec 10} {s : State} (h : Keep s0 s) :
    KeepO s0 (execWriteback p ring s) := by
  unfold execWriteback
  split
  · exact next_keep (dispatchCache_keep h)
  · exact next_keep h

theorem execScrub_keep {s0 : State} {p : Part} {ring : BitVec 10} {s : State} (h : Keep s0 s) :
    KeepO s0 (execScrub p ring s) := by
  unfold execScrub
  split
  · exact next_keep (dispatchCopy_keep h)
  · exact next_keep h

end Sys2Proof.Machine
end

