-- ==== Sys2Proof/Laws/KeepCore.lean ====
section
/-! SUPPORT. The state functions keep the queue and soundness: the tensor units, the cores, the tiles and the link. One lemma per function: where the state it is given keeps,
so does the state it answers. -/
set_option linter.tactic.unusedName false
namespace Sys2Proof.Machine

theorem setCore_keep {s0 s : State} {x : CoreAll} (h : Keep s0 s) :
    Keep s0 (setCore s x) := by
  unfold setCore
  exact upd_keep h rfl rfl rfl

theorem setItem_keep {s0 s : State} {id : Nat} {x : TItem} (h : Keep s0 s) :
    Keep s0 (setItem s id x) := by
  unfold setItem
  exact setCore_keep h

theorem setQueue_keep {s0 s : State} {n : Nat} {l : List TRun} (h : Keep s0 s) :
    Keep s0 (setQueue s n l) := by
  unfold setQueue
  exact setCore_keep h

theorem setCoreOf_keep {s0 s : State} {n : Nat} {c : CoreSt} (h : Keep s0 s) :
    Keep s0 (setCoreOf s n c) := by
  unfold setCoreOf
  exact setCore_keep h

theorem tRead_keep {s0 : State} {alloc : Bool} {s : State} {n : Nat} {it : TItem} {va : Nat} {len : Nat} (h : Keep s0 s) :
    Keep s0 (tRead alloc s n it va len).1 := by
  unfold tRead
  exact engineReadBy_keep h

theorem readAct_keep {s0 s : State} {n : Nat} {it : TItem} {i : Nat} {k0 : Nat} {len : Nat} (h : Keep s0 s) :
    Keep s0 (readAct s n it i k0 len).1 := by
  unfold readAct
  extract_lets +onlyGivenNames x1 x2 x3 x4
  clear_value x1
  clear_value x2
  clear_value x3
  clear_value x4
  refine ite_fst_keep ?_ ?_
  · split
    · split
      · exact h
      · exact h
    · split
      · exact h
      · exact h
    · exact h
  · split
    · rename_i e5
      have k6 := pair_keep e5 (tRead_keep h)
      exact k6
    · rename_i e7
      have k8 := pair_keep e7 (tRead_keep h)
      refine ite_fst_keep ?_ ?_
      · split
        · rename_i e9
          have k10 := pair_keep e9 (tRead_keep k8)
          exact k10
        · rename_i e11
          have k12 := pair_keep e11 (tRead_keep k8)
          exact k12
      · exact k8

theorem readWeights_keep {s0 s : State} {n : Nat} {it : TItem} {c : Nat} {k0 : Nat} {len : Nat} (h : Keep s0 s) :
    Keep s0 (readWeights s n it c k0 len).1 := by
  unfold readWeights
  extract_lets +onlyGivenNames x1 x2 x3
  clear_value x1
  clear_value x2
  clear_value x3
  split
  · rename_i e4
    have k5 := pair_keep e4 (tRead_keep h)
    exact k5
  · rename_i e6
    have k7 := pair_keep e6 (tRead_keep h)
    refine ite_fst_keep ?_ ?_
    · extract_lets +onlyGivenNames x8
      clear_value x8
      split
      · rename_i e9
        have k10 := pair_keep e9 (tRead_keep k7)
        exact k10
      · rename_i e11
        have k12 := pair_keep e11 (tRead_keep k7)
        exact k12
    · refine ite_fst_keep ?_ ?_
      · split
        · rename_i e13
          have k14 := pair_keep e13 (tRead_keep k7)
          exact k14
        · rename_i e15
          have k16 := pair_keep e15 (tRead_keep k7)
          exact k16
      · exact k7

theorem readAll_keep {s0 : State} {α : Type} {n : Nat} {f : State → Nat → State × (XFault ⊕ α)} {s : State} (hf : ∀ y0 y1, Keep s0 y0 → Keep s0 (f y0 y1).1) (h : Keep s0 s) :
    Keep s0 (readAll n f s).1 := by
  unfold readAll
  refine foldl_fst_keep h (fun x1 x2 k3 => ?_)
  split
  · exact k3
  · split
    · rename_i e4
      have k5 := pair_keep e4 (hf _ _ k3)
      exact k5
    · rename_i e6
      have k7 := pair_keep e6 (hf _ _ k3)
      exact k7

theorem readAux_keep {s0 s : State} {n : Nat} {it : TItem} {t : Nat} (h : Keep s0 s) :
    Keep s0 (readAux s n it t).1 := by
  unfold readAux
  extract_lets +onlyGivenNames x1 x2 x3 x4
  clear_value x1
  clear_value x2
  clear_value x3
  clear_value x4
  split
  refine ite_fst_keep ?_ ?_
  · split
    · rename_i e5
      have k6 := pair_keep e5 (readAll_keep (fun _ _ k7 => (tRead_keep k7)) h)
      exact k6
    · rename_i e8
      have k9 := pair_keep e8 (readAll_keep (fun _ _ k10 => (tRead_keep k10)) h)
      extract_lets +onlyGivenNames x11
      clear_value x11
      exact k9
  · split
    · rename_i e12
      have k13 := pair_keep e12 (readAll_keep (fun _ _ k14 => (tRead_keep k14)) h)
      exact k13
    · rename_i e15
      have k16 := pair_keep e15 (readAll_keep (fun _ _ k17 => (tRead_keep k17)) h)
      exact k16

theorem startAcc_keep {s0 s : State} {n : Nat} {it : TItem} {t : Nat} (h : Keep s0 s) :
    Keep s0 (startAcc s n it t).1 := by
  unfold startAcc
  split
  refine ite_fst_keep ?_ ?_
  · split
    · rename_i e1
      have k2 := pair_keep e1 (readAux_keep h)
      exact k2
    · rename_i e3
      have k4 := pair_keep e3 (readAux_keep h)
      exact k4
  · exact h

theorem gemmStep_keep {s0 s : State} {n : Nat} {it : TItem} {t : Nat} {k : Nat} {acc : List Val} (h : Keep s0 s) :
    Keep s0 (gemmStep s n it t k acc).1 := by
  unfold gemmStep
  extract_lets +onlyGivenNames x1 x2 x3
  clear_value x1
  clear_value x2
  clear_value x3
  split
  split
  · rename_i e4
    have k5 := pair_keep e4 (readAll_keep (fun _ _ k6 => (readAct_keep k6)) h)
    exact k5
  · rename_i e7
    have k8 := pair_keep e7 (readAll_keep (fun _ _ k9 => (readAct_keep k9)) h)
    split
    · rename_i e10
      have k11 := pair_keep e10 (readAll_keep (fun _ _ k12 => (readWeights_keep k12)) k8)
      exact k11
    · rename_i e13
      have k14 := pair_keep e13 (readAll_keep (fun _ _ k15 => (readWeights_keep k15)) k8)
      extract_lets +onlyGivenNames x16 x17
      clear_value x16
      clear_value x17
      exact k14

theorem ewiseStep_keep {s0 s : State} {n : Nat} {it : TItem} {t : Nat} (h : Keep s0 s) :
    Keep s0 (ewiseStep s n it t).1 := by
  unfold ewiseStep
  split
  split
  · rename_i e1
    have k2 := pair_keep (a := s0) e1 (by
      refine readAll_keep (fun x3 x4 k5 => ?_) h
      split
      · rename_i e6
        have k7 := pair_keep e6 (readAct_keep k5)
        exact k7
      · rename_i e8
        have k9 := pair_keep e8 (readAct_keep k5)
        refine ite_fst_keep k9 ?_
        split
        · rename_i e10
          have k11 := pair_keep e10 (readAct_keep k9)
          exact k11
        · rename_i e12
          have k13 := pair_keep e12 (readAct_keep k9)
          exact k13)
    exact k2
  · rename_i e14
    have k15 := pair_keep (a := s0) e14 (by
      refine readAll_keep (fun x16 x17 k18 => ?_) h
      split
      · rename_i e19
        have k20 := pair_keep e19 (readAct_keep k18)
        exact k20
      · rename_i e21
        have k22 := pair_keep e21 (readAct_keep k18)
        refine ite_fst_keep k22 ?_
        split
        · rename_i e23
          have k24 := pair_keep e23 (readAct_keep k22)
          exact k24
        · rename_i e25
          have k26 := pair_keep e25 (readAct_keep k22)
          exact k26)
    exact k15

theorem readVecField_keep {s0 s : State} {n : Nat} {it : TItem} {on : Bool} {va : Nat} (h : Keep s0 s) :
    Keep s0 (readVecField s n it on va).1 := by
  unfold readVecField
  refine ite_fst_keep ?_ ?_
  · split
    · rename_i e1
      have k2 := pair_keep e1 (tRead_keep h)
      exact k2
    · rename_i e3
      have k4 := pair_keep e3 (tRead_keep h)
      exact k4
  · exact h

theorem readVec_keep {s0 s : State} {n : Nat} {it : TItem} {c : Nat} (h : Keep s0 s) :
    Keep s0 (readVec s n it c).1 := by
  unfold readVec
  extract_lets +onlyGivenNames x1
  clear_value x1
  split
  · rename_i e2
    have k3 := pair_keep e2 (readVecField_keep h)
    exact k3
  · rename_i e4
    have k5 := pair_keep e4 (readVecField_keep h)
    split
    · rename_i e6
      have k7 := pair_keep e6 (readVecField_keep k5)
      exact k7
    · rename_i e8
      have k9 := pair_keep e8 (readVecField_keep k5)
      exact k9

theorem tWrite_keep {s0 s : State} {n : Nat} {it : TItem} {areas : List Area} {size va : Nat} {bs : List Byte} (h : Keep s0 s) :
    Keep s0 (tWrite s n it areas size va bs).1 := by
  unfold tWrite
  exact ite_fst_keep h (ite_fst_keep (engineWrite_keep (draw_keep h)) (engineWrite_keep h))

theorem writeLine_keep {s0 s : State} {n : Nat} {it : TItem} {line : Nat} {pos : Nat} {l : List (Val × Rnd)} (h : Keep s0 s) :
    Keep s0 (writeLine s n it line pos l).1 := by
  unfold writeLine
  extract_lets +onlyGivenNames x1 x2
  clear_value x1 x2
  split
  split
  · rename_i e2
    have k3 := pair_keep e2 (tWrite_keep h)
    exact k3
  · rename_i e4
    have k5 := pair_keep e4 (tWrite_keep h)
    split
    · rename_i e6
      have k7 := pair_keep e6 (tWrite_keep k5)
      exact k7
    · rename_i e8
      have k9 := pair_keep e8 (tWrite_keep k5)
      exact k9

theorem writeTile_keep {s0 s : State} {n : Nat} {it : TItem} {t : Nat} {y : List (List Val)} (h : Keep s0 s) :
    Keep s0 (writeTile s n it t y).1 := by
  unfold writeTile
  extract_lets +onlyGivenNames x1 x2 x3
  clear_value x1
  clear_value x2
  clear_value x3
  split
  extract_lets +onlyGivenNames x4
  clear_value x4
  refine foldl_fst_keep h (fun x5 x6 k7 => ?_)
  split
  · exact k7
  · split
    exact writeLine_keep k7

theorem epilogue_keep {s0 s : State} {n : Nat} {it : TItem} {t : Nat} {acc : List Val} (h : Keep s0 s) :
    Keep s0 (epilogue s n it t acc).1 := by
  unfold epilogue
  extract_lets +onlyGivenNames x1
  clear_value x1
  split
  split
  · rename_i e2
    have k3 := pair_keep e2 (readAll_keep (fun _ _ k4 => (readVec_keep k4)) h)
    exact k3
  · rename_i e5
    have k6 := pair_keep e5 (readAll_keep (fun _ _ k7 => (readVec_keep k7)) h)
    split
    · rename_i e8
      have k9 := pair_keep e8 (ite_fst_keep (readAux_keep k6) k6)
      exact k9
    · rename_i e10
      have k11 := pair_keep e10 (ite_fst_keep (readAux_keep k6) k6)
      extract_lets +onlyGivenNames x12 x13 x14
      clear_value x12
      clear_value x13
      clear_value x14
      split
      · rename_i e15
        have k16 := pair_keep e15 (ite_fst_keep k11 (writeTile_keep k11))
        exact k16
      · rename_i e17
        have k18 := pair_keep e17 (ite_fst_keep k11 (writeTile_keep k11))
        exact k18

theorem openSet_keep {s0 s : State} {n : Nat} {it : TItem} {r : TRun} (h : Keep s0 s) :
    Keep s0 (openSet s n it r).1 := by
  unfold openSet
  refine ite_fst_keep h ?_
  extract_lets +onlyGivenNames x1
  clear_value x1
  split
  · rename_i e2
    have k3 := pair_keep e2 (readAll_keep (fun _ _ k4 => (startAcc_keep k4)) h)
    exact k3
  · rename_i e5
    have k6 := pair_keep e5 (readAll_keep (fun _ _ k7 => (startAcc_keep k7)) h)
    exact k6

theorem endSet_keep {s0 s : State} {n : Nat} {it : TItem} {r : TRun} {steps : Nat} (h : Keep s0 s) :
    Keep s0 (endSet s n it r steps).1 := by
  unfold endSet
  split
  · rename_i e1
    have k2 := pair_keep (a := s0) e1 (by
      refine foldl_fst_keep h (fun x3 x4 k5 => ?_)
      split
      · exact k5
      · exact epilogue_keep k5)
    exact k2
  · rename_i e6
    have k7 := pair_keep (a := s0) e6 (by
      refine foldl_fst_keep h (fun x8 x9 k10 => ?_)
      split
      · exact k10
      · exact epilogue_keep k10)
    extract_lets +onlyGivenNames x11
    clear_value x11
    exact k7

theorem stepRun_keep {s0 s : State} {n : Nat} {it : TItem} {r : TRun} (h : Keep s0 s) :
    Keep s0 (stepRun s n it r).1 := by
  unfold stepRun
  extract_lets +onlyGivenNames x1
  clear_value x1
  refine ite_fst_keep (endSet_keep h) ?_
  split
  · rename_i e2
    have k3 := pair_keep (a := s0) e2 (by
      refine ite_fst_keep (gemmStep_keep h) ?_
      split
      · rename_i e4
        have k5 := pair_keep e4 (ewiseStep_keep h)
        exact k5
      · rename_i e6
        have k7 := pair_keep e6 (ewiseStep_keep h)
        exact k7)
    exact k3
  · rename_i e8
    have k9 := pair_keep (a := s0) e8 (by
      refine ite_fst_keep (gemmStep_keep h) ?_
      split
      · rename_i e10
        have k11 := pair_keep e10 (ewiseStep_keep h)
        exact k11
      · rename_i e12
        have k13 := pair_keep e12 (ewiseStep_keep h)
        exact k13)
    extract_lets +onlyGivenNames x14 x15 x16
    clear_value x14
    clear_value x15
    clear_value x16
    exact ite_fst_keep k9 (endSet_keep k9)

theorem advanceRun_keep {s0 s : State} {n : Nat} {it : TItem} {r : TRun} (h : Keep s0 s) :
    Keep s0 (advanceRun s n it r).1 := by
  unfold advanceRun
  extract_lets +onlyGivenNames x1
  clear_value x1
  split
  · rename_i e2
    have k3 := pair_keep e2 (openSet_keep h)
    exact k3
  · rename_i e4
    have k5 := pair_keep e4 (openSet_keep h)
    exact stepRun_keep k5

theorem setWG_keep {s0 s : State} {core : Nat} {w : WG} (h : Keep s0 s) :
    Keep s0 (setWG s core w) := by
  unfold setWG
  extract_lets +onlyGivenNames x1
  clear_value x1
  exact setCoreOf_keep h

theorem setGroup_keep {s0 s : State} {core : Nat} {w : WG} {g : Group} (h : Keep s0 s) :
    Keep s0 (setGroup s core w g) := by
  unfold setGroup
  exact setWG_keep h

theorem nextInstr_keep {s0 s : State} {core : Nat} {w : WG} {g : Group} (h : Keep s0 s) :
    Keep s0 (nextInstr s core w g) := by
  unfold nextInstr
  exact setGroup_keep h

theorem coreFaultAt_keep {s0 s : State} {core : Nat} {w : WG} {g : Group} {code : Nat} {fault : Nat} {mask : Nat} {what : Nat} {trap : Nat} (h : Keep s0 s) :
    Keep s0 (coreFaultAt s core w g code fault mask what trap) := by
  unfold coreFaultAt
  split
  rename_i e1
  have k2 := pair_keep' e1 (draw_keep h)
  exact failWork_keep k2

theorem coreFault_keep {s0 s : State} {core : Nat} {w : WG} {g : Group} {code : Nat} {fault : Nat} {mask : Nat} (h : Keep s0 s) :
    Keep s0 (coreFault s core w g code fault mask) := by
  unfold coreFault
  exact coreFaultAt_keep h

theorem coreXFault_keep {s0 s : State} {core : Nat} {w : WG} {g : Group} {f : XFault} {mask : Nat} (h : Keep s0 s) :
    Keep s0 (coreXFault s core w g f mask) := by
  unfold coreXFault
  exact coreFault_keep h

theorem takeBanks_keep {s0 s : State} {core : Nat} {a : Nat} {n : Nat} (h : Keep s0 s) :
    Keep s0 (takeBanks s core a n) := by
  unfold takeBanks
  extract_lets +onlyGivenNames x1 x2 x3 x4
  clear_value x1
  clear_value x2
  clear_value x3
  have k5 : Keep s0 x4 := setCoreOf_keep h
  clear_value x4
  exact ite_keep k5 (bump32_keep k5)

theorem l1Put_keep {s0 s : State} {core : Nat} {sector : Nat} {bs : List Byte} (h : Keep s0 s) :
    Keep s0 (l1Put s core sector bs) := by
  unfold l1Put
  extract_lets +onlyGivenNames x1 x2
  clear_value x1
  clear_value x2
  split
  rename_i e3
  have k4 := pair_keep' e3 (draw_keep h)
  extract_lets +onlyGivenNames x5 x6 x7 x8
  clear_value x5
  clear_value x6
  clear_value x7
  clear_value x8
  exact ite_keep h (setCoreOf_keep k4)

theorem l1Clear_keep {s0 s : State} {core : Nat} (h : Keep s0 s) :
    Keep s0 (l1Clear s core) := by
  unfold l1Clear
  exact setCoreOf_keep h

theorem setJob_keep {s0 s : State} {id : Nat} {j : Job} (h : Keep s0 s) :
    Keep s0 (setJob s id j) := by
  unfold setJob
  exact setCore_keep h

theorem delJob_keep {s0 s : State} {id : Nat} (h : Keep s0 s) :
    Keep s0 (delJob s id) := by
  unfold delJob
  exact setCore_keep h

theorem settleJob_keep {s0 s : State} {id : Nat} (h : Keep s0 s) :
    Keep s0 (settleJob s id) := by
  unfold settleJob
  split
  · exact ite_keep (finish_keep (delJob_keep h)) h
  · exact h

theorem chargeStart_keep {s0 s : State} {ctx : Nat} {readyAt : Nat} {saved : Option (Nat × Nat)} (h : Keep s0 s) :
    Keep s0 (chargeStart s ctx readyAt saved) := by
  unfold chargeStart
  split
  · exact charge_keep h
  · exact charge_keep h

theorem leaveWG_keep {s0 s : State} {core : Nat} {w : WG} (h : Keep s0 s) :
    Keep s0 (leaveWG s core w) := by
  unfold leaveWG
  extract_lets +onlyGivenNames x1
  clear_value x1
  exact unreserve_keep (setCoreOf_keep h)

theorem addItem_keep {s0 s : State} {id : Nat} {it : TItem} (h : Keep s0 s) :
    Keep s0 (addItem s id it) := by
  unfold addItem
  extract_lets +onlyGivenNames x1 x2 x3
  clear_value x1
  clear_value x2
  have k4 : Keep s0 x3 := setItem_keep h
  clear_value x3
  exact setCore_keep k4

theorem startTensor_keep {s0 s : State} {o : Origin} {desc : List Byte} {addr : Nat} (h : Keep s0 s) :
    Keep s0 (startTensor s o desc addr) := by
  unfold startTensor
  extract_lets +onlyGivenNames x1
  have k2 : Keep s0 x1 := takeSlot_keep h
  clear_value x1
  exact addItem_keep k2

theorem execTensor_keep {s0 : State} {p : Part} {ring : BitVec 10} {s : State} (h : Keep s0 s) :
    KeepO s0 (execTensor p ring s) := by
  unfold execTensor
  split
  · extract_lets +onlyGivenNames x1
    clear_value x1
    exact next_keep (settle_keep (startTensor_keep (dispatched_keep h)))
  · exact next_keep h

theorem putRun_keep {s0 s : State} {n : Nat} {r : TRun} {it : TItem} (h : Keep s0 s) :
    Keep s0 (putRun s n r it) := by
  unfold putRun
  extract_lets +onlyGivenNames x1 x2 x3 x4
  have k5 : Keep s0 x1 := ite_keep (chargeStart_keep h) h
  clear_value x1
  have k6 : Keep s0 x2 := reserve_keep (ite_keep (unreserve_keep k5) k5)
  clear_value x2
  have k7 : Keep s0 x3 := by
    subst x3
    split
    · exact restoreUnit_keep k6
    · exact k6
  clear_value x3
  have k8 : Keep s0 x4 := setItem_keep k7
  clear_value x4
  exact setQueue_keep k8

theorem placeRun_keep {s0 s : State} {n : Nat} {p : TRun → Bool} (h : Keep s0 s) :
    Keep s0 (placeRun s n p) := by
  unfold placeRun
  extract_lets +onlyGivenNames x1
  clear_value x1
  split
  · exact h
  · split
    · exact h
    · split
      · exact h
      · exact putRun_keep (setCore_keep h)

theorem execTensorResume_keep {s0 : State} {core : CoreId} {s : State} (h : Keep s0 s) :
    KeepO s0 (execTensorResume core s) := by
  unfold execTensorResume
  exact next_keep (noteConds_keep (placeRun_keep h))

theorem endRun_keep {s0 s : State} {n : Nat} {r : TRun} {it : TItem} (h : Keep s0 s) :
    Keep s0 (endRun s n r it) := by
  unfold endRun
  extract_lets +onlyGivenNames x1
  have k2 : Keep s0 x1 := unreserve_keep h
  clear_value x1
  exact setItem_keep (setQueue_keep k2)

theorem arrayStep_keep {s0 s : State} {n : Nat} (h : Keep s0 s) :
    Keep s0 (arrayStep s n) := by
  unfold arrayStep
  split
  · exact h
  · split
    · exact h
    · split
      · rename_i e1
        have k2 := pair_keep e1 (advanceRun_keep h)
        exact h
      · rename_i e3
        have k4 := pair_keep e3 (advanceRun_keep h)
        extract_lets +onlyGivenNames x5 x6
        have k7 : Keep s0 x5 := claimReqs_keep k4
        clear_value x5
        have k8 : Keep s0 x6 := ite_keep k7 (bump64_keep k7)
        clear_value x6
        split
        · exact setQueue_keep (setItem_keep k8)
        · exact endRun_keep k8

theorem execKStep_keep {s0 : State} {core : CoreId} {s : State} (h : Keep s0 s) :
    KeepO s0 (execKStep core s) := by
  unfold execKStep
  refine ite_keepO ?_ ?_
  · exact next_keep (arrayStep_keep h)
  · exact next_keep h

theorem mapWGs_keep {s0 s : State} {f : WG → WG} (h : Keep s0 s) :
    Keep s0 (mapWGs s f) := by
  unfold mapWGs
  extract_lets +onlyGivenNames x1
  clear_value x1
  extract_lets +onlyGivenNames x2
  have k3 : Keep s0 x2 := setCore_keep h
  clear_value x2
  exact upd_keep k3 rfl rfl rfl

theorem endTicket_keep {s0 s : State} {wgid : Nat} {t : Nat} (h : Keep s0 s) :
    Keep s0 (endTicket s wgid t) := by
  unfold endTicket
  exact mapWGs_keep h

theorem tComplete_keep {s0 s : State} {it : TItem} (h : Keep s0 s) :
    Keep s0 (tComplete s it).1 := by
  unfold tComplete
  exact ite_fst_keep h (engineWrite_keep h)

theorem dropItem_keep {s0 s : State} {id : Nat} {it : TItem} {code : Nat} (h : Keep s0 s) :
    Keep s0 (dropItem s id it code) := by
  unfold dropItem
  extract_lets +onlyGivenNames x1
  clear_value x1
  extract_lets +onlyGivenNames x2
  have k3 : Keep s0 x2 := setCore_keep h
  clear_value x2
  split
  · exact finish_keep k3
  · extract_lets +onlyGivenNames x4
    have k5 : Keep s0 x4 := endTicket_keep k3
    clear_value x4
    exact foldl_keep k5 (fun _ _ k6 => (settleJob_keep k6))
  · exact k3

theorem endItem_keep {s0 s : State} {id : Nat} {it : TItem} (h : Keep s0 s) :
    Keep s0 (endItem s id it) := by
  unfold endItem
  extract_lets +onlyGivenNames x1
  clear_value x1
  split
  · rename_i e2
    have k3 := pair_keep e2 (tComplete_keep h)
    exact dropItem_keep (claimReqs_keep k3)
  · rename_i e4
    have k5 := pair_keep e4 (tComplete_keep h)
    extract_lets +onlyGivenNames x6
    have k7 : Keep s0 x6 := raise_keep k5
    clear_value x6
    exact dropItem_keep k7

theorem execTensorCompletion_keep {s0 : State} {item : Nat} {s : State} (h : Keep s0 s) :
    KeepO s0 (execTensorCompletion item s) := by
  unfold execTensorCompletion
  split
  · refine ite_keepO ?_ ?_
    · exact next_keep (settle_keep (endItem_keep h))
    · exact next_keep h
  · exact next_keep h

theorem stopItem_keep {s0 s : State} {id : Nat} {it : TItem} (h : Keep s0 s) :
    Keep s0 (stopItem s id it) := by
  unfold stopItem
  extract_lets +onlyGivenNames x1 x2 x3
  clear_value x1
  clear_value x2
  clear_value x3
  extract_lets +onlyGivenNames x4
  have k5 : Keep s0 x4 := setCore_keep h
  clear_value x4
  exact unreserve_keep k5

theorem arrayFault_keep {s0 s s1 : State} {n id : Nat} {f : XFault} (h : Keep s0 s) (e : arrayFault s n id = some (s1, f)) : Keep s0 s1 := by
  unfold arrayFault at e
  split at e
  · cases e
  · split at e
    · cases e
    · split at e
      · cases e
      · split at e
        · rename_i e2
          cases e
          exact pair_keep e2 (advanceRun_keep h)
        · cases e

theorem arrayRecord_keep {s0 s : State} {n id : Nat} (h : Keep s0 s) : Keep s0 (arrayRecord s n id) := by
  unfold arrayRecord
  split
  · rename_i e _
    exact setItem_keep (raise_keep (arrayFault_keep h e))
  · exact h

theorem execTensorFault_keep {s0 : State} {core : CoreId} {s : State} (h : Keep s0 s) :
    KeepO s0 (execTensorFault core s) := by
  unfold execTensorFault
  split
  · exact next_keep h
  · refine ite_keepO ?_ ?_
    · exact next_keep h
    · extract_lets +onlyGivenNames x1
      have k2 : Keep s0 x1 := foldl_keep h (fun _ _ k3 => (arrayRecord_keep k3))
      clear_value x1
      split
      · exact next_keep (noteConds_keep (stopItem_keep k2))
      · exact next_keep k2

theorem saveRun_keep {s0 s : State} {n : Nat} {r : TRun} {it : TItem} (h : Keep s0 s) :
    Keep s0 (saveRun s n r it) := by
  unfold saveRun
  extract_lets +onlyGivenNames x1 x2 x3 x4
  have k5 : Keep s0 x1 := setQueue_keep h
  clear_value x1
  clear_value x2
  clear_value x3
  have k6 : Keep s0 x4 := countPreempt_keep (setItem_keep k5)
  clear_value x4
  extract_lets +onlyGivenNames x7
  have k8 : Keep s0 x7.1 := saveUnit_keep k6
  clear_value x7
  exact setCore_keep k8

theorem execTensorPreemption_keep {s0 : State} {core : CoreId} {item : Nat} {s : State} (h : Keep s0 s) :
    KeepO s0 (execTensorPreemption core item s) := by
  unfold execTensorPreemption
  split
  · refine ite_keepO ?_ ?_
    · exact next_keep (noteConds_keep (stopMade_keep (saveRun_keep h)))
    · exact next_keep h
  · exact next_keep h

theorem readCode_keep {s0 s : State} {cache : Nat} {t : TableId} {x : XSurf} {k : Nat} (h : Keep s0 s) :
    Keep s0 (readCode s cache t x k).1 := by
  unfold readCode
  split
  · rename_i e1
    have k2 := pair_keep e1 (engineRead_keep h)
    exact k2
  · rename_i e3
    have k4 := pair_keep e3 (engineRead_keep h)
    exact k4

theorem countDecodeErr_keep {s0 s : State} {bad : Bool} (h : Keep s0 s) :
    Keep s0 (countDecodeErr s bad) := by
  unfold countDecodeErr
  exact ite_keep (bump32_keep h) h

theorem readBlockBy_keep {s0 : State} {count : Bool} {s : State} {cache : Nat} {t : TableId} {x : XSurf} {k : Nat} (h : Keep s0 s) :
    Keep s0 (readBlockBy count s cache t x k).1 := by
  unfold readBlockBy
  split
  · rename_i e1
    have k2 := pair_keep e1 (readCode_keep h)
    exact k2
  · rename_i e3
    have k4 := pair_keep e3 (readCode_keep h)
    split
    · rename_i e5
      have k6 := pair_keep e5 (ite_fst_keep k4 (engineRead_keep k4))
      exact k6
    · rename_i e7
      have k8 := pair_keep e7 (ite_fst_keep k4 (engineRead_keep k4))
      extract_lets +onlyGivenNames x9
      clear_value x9
      exact countDecodeErr_keep k8

theorem readBlock_keep {s0 s : State} {cache : Nat} {t : TableId} {x : XSurf} {k : Nat} (h : Keep s0 s) :
    Keep s0 (readBlock s cache t x k).1 := by
  unfold readBlock
  exact readBlockBy_keep h

theorem writeBlock_keep {s0 s : State} {cache : Nat} {t : TableId} {x : XSurf} {k : Nat} {l : List (Option (List Byte))} (h : Keep s0 s) :
    Keep s0 (writeBlock s cache t x k l).1 := by
  unfold writeBlock
  extract_lets +onlyGivenNames x1
  clear_value x1
  split
  · rename_i e2
    have k3 := pair_keep e2 (ite_fst_keep h (engineWrite_keep h))
    exact k3
  · rename_i e4
    have k5 := pair_keep e4 (ite_fst_keep h (engineWrite_keep h))
    split
    · rename_i e6
      have k7 := pair_keep e6 (engineRead_keep k5)
      exact k7
    · rename_i e8
      have k9 := pair_keep e8 (engineRead_keep k5)
      extract_lets +onlyGivenNames x10 x11
      clear_value x10
      clear_value x11
      exact engineWrite_keep k9

theorem setRaster_keep {s0 s : State} {x : RasterSt} (h : Keep s0 s) :
    Keep s0 (setRaster s x) := by
  unfold setRaster
  exact upd_keep h rfl rfl rfl

theorem setPass_keep {s0 s : State} {id : Nat} {p : RPass} (h : Keep s0 s) :
    Keep s0 (setPass s id p) := by
  unfold setPass
  exact setRaster_keep h

theorem writeResult_keep {s0 s : State} {p : RPass} {code : Nat} (h : Keep s0 s) :
    Keep s0 (writeResult s p code).1 := by
  unfold writeResult
  exact ite_fst_keep h (engineWrite_keep h)

theorem dropPass_keep {s0 s : State} {id : Nat} {p : RPass} (h : Keep s0 s) :
    Keep s0 (dropPass s id p) := by
  unfold dropPass
  extract_lets +onlyGivenNames x1 x2 x3 x4 x5 x6 x7
  clear_value x1
  clear_value x3
  clear_value x4
  clear_value x5
  clear_value x6
  have k8 : Keep s0 x7 := setCore_keep h
  clear_value x7
  extract_lets +onlyGivenNames x9
  have k10 : Keep s0 x9 := unreserve_keep k8
  clear_value x9
  exact setRaster_keep k10

theorem showRequest_keep {s0 s : State} {part : Nat} {p : RPass} {need : Nat} (h : Keep s0 s) :
    Keep s0 (showRequest s part p need) := by
  unfold showRequest
  extract_lets +onlyGivenNames x1
  have k2 : Keep s0 x1 := wr_keep h
  clear_value x1
  exact wr_keep k2

theorem postGrowth_keep {s0 s : State} {part : Nat} (h : Keep s0 s) :
    Keep s0 (postGrowth s part) := by
  unfold postGrowth
  split
  · exact wr_keep (wrF_keep h)
  · split
    · exact h
    · extract_lets +onlyGivenNames x1
      clear_value x1
      extract_lets +onlyGivenNames x2
      have k3 : Keep s0 x2 := setRaster_keep (showRequest_keep h)
      clear_value x2
      exact sendMsix_keep k3

theorem leaveGrowth_keep {s0 s : State} {part : Nat} {id : Nat} (h : Keep s0 s) :
    Keep s0 (leaveGrowth s part id) := by
  unfold leaveGrowth
  extract_lets +onlyGivenNames x1 x2
  clear_value x1
  clear_value x2
  extract_lets +onlyGivenNames x3
  have k4 : Keep s0 x3 := setRaster_keep h
  clear_value x3
  exact ite_keep (postGrowth_keep k4) k4

theorem endPass_keep {s0 s : State} {id : Nat} {p : RPass} {code : Nat} (h : Keep s0 s) :
    Keep s0 (endPass s id p code) := by
  unfold endPass
  extract_lets +onlyGivenNames x1
  have k2 : Keep s0 x1 := dropPass_keep (leaveGrowth_keep h)
  clear_value x1
  split
  · rename_i e3
    have k4 := pair_keep e3 (writeResult_keep k2)
    exact k4
  · rename_i e5
    have k6 := pair_keep e5 (writeResult_keep k2)
    exact raise_keep k6

theorem nodeFormat_keep {s0 s : State} {wid : Nat} {reason : Nat} {off : Nat} (h : Keep s0 s) :
    Keep s0 (nodeFormat s wid reason off) := by
  unfold nodeFormat
  split
  · exact h
  · extract_lets +onlyGivenNames x1
    clear_value x1
    exact finish_keep (appendRec_keep h)

theorem workFormat_keep {s0 s : State} {o : Origin} {off : Nat} (h : Keep s0 s) :
    Keep s0 (workFormat s o off) := by
  unfold workFormat
  split
  · exact formatError_keep h
  · exact nodeFormat_keep h

theorem denyPass_keep {s0 s : State} {id : Nat} {p : RPass} {reason : Nat} {need : Nat} (h : Keep s0 s) :
    Keep s0 (denyPass s id p reason need) := by
  unfold denyPass
  extract_lets +onlyGivenNames x1 x2
  clear_value x1
  have k3 : Keep s0 x2 := bump32_keep (appendRec_keep h)
  clear_value x2
  exact finish_keep (endPass_keep k3)

theorem startPass_keep {s0 s : State} {o : Origin} {d : List Byte} (h : Keep s0 s) :
    Keep s0 (startPass s o d) := by
  unfold startPass
  split
  · rename_i e1
    have k2 := pair_keep e1 (engineRead_keep h)
    exact engineFault_keep k2
  · rename_i e3
    have k4 := pair_keep e3 (engineRead_keep h)
    extract_lets +onlyGivenNames x5
    clear_value x5
    split
    · exact workFormat_keep k4
    · exact setPass_keep (takeSlot_keep k4)

theorem execRender_keep {s0 : State} {p : Part} {ring : BitVec 10} {s : State} (h : Keep s0 s) :
    KeepO s0 (execRender p ring s) := by
  unfold execRender
  split
  · exact next_keep (settle_keep (startPass_keep (dispatched_keep h)))
  · exact next_keep h

theorem execDrawRecordFetch_keep {s0 : State} {pass : Nat} {s : State} (h : Keep s0 s) :
    KeepO s0 (execDrawRecordFetch pass s) := by
  unfold execDrawRecordFetch
  split
  · exact next_keep h
  · refine ite_keepO ?_ ?_
    · exact next_keep h
    · split
      · rename_i e1
        have k2 := pair_keep e1 (engineRead_keep h)
        exact next_keep (engineFault_keep k2)
      · rename_i e3
        have k4 := pair_keep e3 (engineRead_keep h)
        split
        · exact next_keep (settle_keep (workFormat_keep (endPass_keep k4)))
        · exact next_keep (setPass_keep k4)

theorem drawStream_keep {s0 s : State} {b : Nat} {p : RPass} {d : List Byte} (h : Keep s0 s) :
    Keep s0 (drawStream s b p d).1 := by
  unfold drawStream
  refine ite_fst_keep ?_ ?_
  · extract_lets +onlyGivenNames x1
    clear_value x1
    split
    · rename_i e2
      have k3 := pair_keep e2 (engineRead_keep h)
      exact k3
    · rename_i e4
      have k5 := pair_keep e4 (engineRead_keep h)
      exact k5
  · exact h

theorem drawPrims_keep {s0 s : State} {b : Nat} {p : RPass} {d : List Byte} (h : Keep s0 s) :
    Keep s0 (drawPrims s b p d).1 := by
  unfold drawPrims
  split
  · rename_i e1
    have k2 := pair_keep e1 (drawStream_keep h)
    exact k2
  · rename_i e3
    have k4 := pair_keep e3 (drawStream_keep h)
    extract_lets +onlyGivenNames x5 x6 x7
    clear_value x5
    clear_value x6
    clear_value x7
    exact k4

theorem fillBatch_keep {s0 s : State} {fuel b : Nat} {p : RPass} {acc : List (Nat × Nat × List Nat)} {at_ : Nat × Nat × Nat}
    (h : Keep s0 s) : Keep s0 (fillBatch fuel s b p acc at_).1 := by
  induction fuel generalizing s acc at_ with
  | zero => exact h
  | succ n ih =>
    unfold fillBatch
    refine ite_fst_keep h ?_
    split
    · exact h
    · refine ite_fst_keep (ih h) ?_
      split
      · rename_i e
        exact fst_keep (pair_keep e (drawPrims_keep h))
      · rename_i e
        have k := pair_keep e (drawPrims_keep h)
        exact ite_fst_keep (ih k) (ih k)

theorem startJobs_keep {s0 s : State} {p : RPass} {bench : Nat} {b : Batch} {stage : Stage} {entry : List Byte → Nat} {n : Nat} (h : Keep s0 s) :
    Keep s0 (startJobs s p bench b stage entry n).1 := by
  unfold startJobs
  extract_lets +onlyGivenNames x1 x2
  clear_value x1
  clear_value x2
  refine foldl_keep h (fun x3 x4 k5 => ?_)
  extract_lets +onlyGivenNames x6 x7 x8
  clear_value x6
  clear_value x7
  clear_value x8
  extract_lets +onlyGivenNames x9
  have k10 : Keep s0 x9 := upd_keep k5 rfl rfl rfl
  clear_value x9
  exact setJob_keep k10

theorem takeOuts_keep {s0 s : State} {l : Map Job} {base : Nat} {m : Map Word32} (h : Keep s0 s) :
    Keep s0 (takeOuts s l base m).1 := by
  unfold takeOuts
  exact foldl_keep h (fun _ _ k1 => (delJob_keep k1))

theorem writeBin_keep {s0 s : State} {unit : Nat} {p : RPass} {lo : Nat} {n : Nat} (h : Keep s0 s) :
    Keep s0 (writeBin s unit p lo n).1 := by
  unfold writeBin
  split
  rename_i e1
  have k2 := pair_keep' e1 (draw_keep h)
  exact engineWrite_keep k2

theorem stallUnit_keep {s0 s : State} {id : Nat} {unit : Nat} {p : RPass} {e : Nat} (h : Keep s0 s) :
    Keep s0 (stallUnit s id unit p e) := by
  unfold stallUnit
  refine ite_keep (denyPass_keep h) ?_
  extract_lets +onlyGivenNames x1 x2 x3
  clear_value x1
  clear_value x2
  have k4 : Keep s0 x3 := setPass_keep h
  clear_value x3
  refine ite_keep k4 ?_
  extract_lets +onlyGivenNames x5
  clear_value x5
  extract_lets +onlyGivenNames x6
  have k7 : Keep s0 x6 := setRaster_keep k4
  clear_value x6
  exact ite_keep (postGrowth_keep k7) k7

theorem geomFault_keep {s0 s : State} {unit : Nat} {p : RPass} {f : XFault} (h : Keep s0 s) :
    Keep s0 (geomFault s unit p f) := by
  unfold geomFault
  exact engineFault_keep h

theorem setBatch_keep {s0 s : State} {id : Nat} {p : RPass} {unit : Nat} {b : Batch} (h : Keep s0 s) :
    Keep s0 (setBatch s id p unit b) := by
  unfold setBatch
  exact setPass_keep h

theorem takeBatch_keep {s0 s : State} {id : Nat} {unit : Nat} {p : RPass} (h : Keep s0 s) :
    Keep s0 (takeBatch s id unit p) := by
  unfold takeBatch
  extract_lets +onlyGivenNames x1
  clear_value x1
  refine ite_keep h ?_
  split
  · rename_i e2
    have k3 := pair_keep e2 (fillBatch_keep h)
    exact geomFault_keep k3
  · rename_i e4
    have k5 := pair_keep e4 (fillBatch_keep h)
    refine ite_keep (setPass_keep k5) ?_
    extract_lets +onlyGivenNames x6 x7
    clear_value x6
    have k8 : Keep s0 x7 := ite_keep (chargeStart_keep k5) k5
    clear_value x7
    split
    rename_i e9
    have k10 := pair_keep e9 (startJobs_keep (reserve_keep k8))
    exact setBatch_keep k10

theorem pageBatch_keep {s0 s : State} {id : Nat} {unit : Nat} {p : RPass} {b : Batch} (h : Keep s0 s) :
    Keep s0 (pageBatch s id unit p b) := by
  unfold pageBatch
  extract_lets +onlyGivenNames x1
  clear_value x1
  refine ite_keep h ?_
  refine ite_keep (stallUnit_keep h) ?_
  split
  · rename_i e2
    have k3 := pair_keep e2 (writeBin_keep h)
    exact geomFault_keep k3
  · rename_i e4
    have k5 := pair_keep e4 (writeBin_keep h)
    exact setBatch_keep k5

theorem nextStage_keep {s0 s : State} {id : Nat} {unit : Nat} {p : RPass} {b : Batch} {jobs : Map Job} {tess : List (List (Nat × Nat × Nat) × List (List Nat))} (h : Keep s0 s) :
    Keep s0 (nextStage s id unit p b jobs tess) := by
  unfold nextStage
  split
  · split
    rename_i e1
    have k2 := pair_keep e1 (takeOuts_keep h)
    refine ite_keep ?_ ?_
    · split
      rename_i e3
      have k4 := pair_keep e3 (startJobs_keep k2)
      exact setBatch_keep k4
    · exact setBatch_keep k2
  · split
    rename_i e5
    have k6 := pair_keep e5 (takeOuts_keep h)
    extract_lets +onlyGivenNames x7
    clear_value x7
    split
    · exact h
    · split
      rename_i e8
      have k9 := pair_keep e8 (startJobs_keep k6)
      exact setBatch_keep k9
  · split
    rename_i e10
    have k11 := pair_keep e10 (takeOuts_keep h)
    exact setBatch_keep k11
  · exact pageBatch_keep h

theorem execBatch_keep {s0 : State} {pass : Nat} {unit : BitVec 3} {tess : List (List (Nat × Nat × Nat) × List (List Nat))} {s : State} (h : Keep s0 s) :
    KeepO s0 (execBatch pass unit tess s) := by
  unfold execBatch
  split
  · exact next_keep h
  · refine ite_keepO ?_ ?_
    · exact next_keep h
    · split
      · exact next_keep (noteConds_keep (takeBatch_keep h))
      · extract_lets +onlyGivenNames x1
        clear_value x1
        refine ite_keepO ?_ ?_
        · exact next_keep (settle_keep (nextStage_keep h))
        · exact next_keep h

theorem endBatch_keep {s0 s : State} {id : Nat} {unit : Nat} {p : RPass} {b : Batch} (h : Keep s0 s) :
    Keep s0 (endBatch s id unit p b) := by
  unfold endBatch
  exact ite_keep (setBatch_keep h) (unreserve_keep (setPass_keep h))

theorem binPrim_keep {s0 s : State} {id : Nat} {unit : Nat} {p : RPass} {b : Batch} {draw_ : Nat} {verts : List Nat} (h : Keep s0 s) :
    Keep s0 (binPrim s id unit p b draw_ verts) := by
  unfold binPrim
  extract_lets +onlyGivenNames x1 x2 x3 x4
  clear_value x1
  clear_value x2
  clear_value x3
  have k5 : Keep s0 x4 := endBatch_keep h
  clear_value x4
  refine ite_keep k5 ?_
  split
  · exact k5
  · extract_lets +onlyGivenNames x6
    clear_value x6
    refine ite_keep k5 ?_
    split
    refine ite_keep (stallUnit_keep h) ?_
    split
    · rename_i e7
      have k8 := pair_keep e7 (writeBin_keep h)
      exact geomFault_keep k8
    · rename_i e9
      have k10 := pair_keep e9 (writeBin_keep h)
      extract_lets +onlyGivenNames x11
      clear_value x11
      exact endBatch_keep k10

theorem settleGeometry_keep {s0 s : State} {id : Nat} (h : Keep s0 s) :
    Keep s0 (settleGeometry s id) := by
  unfold settleGeometry
  split
  · exact h
  · extract_lets +onlyGivenNames x1
    clear_value x1
    exact ite_keep (setPass_keep h) h

theorem closeGeometry_keep {s0 s : State} {id : Nat} (h : Keep s0 s) :
    Keep s0 (closeGeometry s id) := by
  unfold closeGeometry
  split
  · exact h
  · refine ite_keep h ?_
    split
    · rename_i e1
      have k2 := pair_keep e1 (fillBatch_keep h)
      exact settleGeometry_keep (setPass_keep k2)
    · exact h

theorem execPrimitive_keep {s0 : State} {pass : Nat} {unit : BitVec 3} {s : State} (h : Keep s0 s) :
    KeepO s0 (execPrimitive pass unit s) := by
  unfold execPrimitive
  split
  · exact next_keep h
  · refine ite_keepO ?_ ?_
    · exact next_keep h
    · split
      · exact next_keep (closeGeometry_keep h)
      · refine ite_keepO ?_ ?_
        · exact next_keep h
        · split
          · exact next_keep (settleGeometry_keep (endBatch_keep h))
          · exact next_keep (settle_keep (settleGeometry_keep (binPrim_keep h)))

theorem grantPass_keep {s0 s : State} {id : Nat} {p : RPass} {c : Nat} (h : Keep s0 s) :
    Keep s0 (grantPass s id p c) := by
  unfold grantPass
  extract_lets +onlyGivenNames x1 x2 x3 x4
  clear_value x1
  clear_value x2
  have k5 : Keep s0 x3 := bump32_keep (setPass_keep h)
  clear_value x3
  have k6 : Keep s0 x4 := wrF_keep k5
  clear_value x4
  exact ite_keep (leaveGrowth_keep k6) (ite_keep (denyPass_keep k6) (postGrowth_keep k6))

theorem execGeomBinGrant_keep {s0 : State} {p : Part} {value : Word32} {s : State} (h : Keep s0 s) :
    KeepO s0 (execGeomBinGrant p value s) := by
  unfold execGeomBinGrant
  refine ite_keepO ?_ ?_
  · exact next_keep (hostTouch_keep h)
  · extract_lets +onlyGivenNames x1
    have k2 : Keep s0 x1 := hostTouch_keep h
    clear_value x1
    split
    · exact next_keep k2
    · extract_lets +onlyGivenNames x3
      clear_value x3
      refine ite_keepO ?_ ?_
      · exact next_keep (settle_keep (grantPass_keep k2))
      · exact next_keep (settle_keep (denyPass_keep k2))

theorem execBinGrowthTimeout_keep {s0 : State} {p : Part} {s : State} (h : Keep s0 s) :
    KeepO s0 (execBinGrowthTimeout p s) := by
  unfold execBinGrowthTimeout
  split
  · exact next_keep h
  · refine ite_keepO ?_ ?_
    · exact next_keep (settle_keep (denyPass_keep h))
    · exact next_keep h

theorem execGeometryPreemption_keep {s0 : State} {pass : Nat} {unit : BitVec 3} {s : State} (h : Keep s0 s) :
    KeepO s0 (execGeometryPreemption pass unit s) := by
  unfold execGeometryPreemption
  split
  · exact next_keep h
  · refine ite_keepO ?_ ?_
    · extract_lets +onlyGivenNames x1
      have k2 : Keep s0 x1 := countPreempt_keep h
      clear_value x1
      split
      rename_i e3
      have k4 := pair_keep e3 (saveUnit_keep k2)
      exact next_keep (noteConds_keep (stopMade_keep (setPass_keep k4)))
    · exact next_keep h

theorem resumeUnit_keep {s0 s : State} {id : Nat} {unit : Nat} {p : RPass} (h : Keep s0 s) :
    Keep s0 (resumeUnit s id unit p) := by
  unfold resumeUnit
  split
  · exact h
  · extract_lets +onlyGivenNames x1
    have k2 : Keep s0 x1 := unreserve_keep h
    clear_value x1
    refine ite_keep h ?_
    extract_lets +onlyGivenNames x3
    have k4 : Keep s0 x3 := restoreUnit_keep (reserve_keep (chargeStart_keep k2))
    clear_value x3
    exact setPass_keep k4

theorem setTile_keep {s0 s : State} {core : Nat} {t : TileSt} (h : Keep s0 s) :
    Keep s0 (setTile s core t) := by
  unfold setTile
  extract_lets +onlyGivenNames x1
  clear_value x1
  exact setCoreOf_keep h

theorem tileFault_keep {s0 s : State} {core : Nat} {p : RPass} {f : XFault} (h : Keep s0 s) :
    Keep s0 (tileFault s core p f) := by
  unfold tileFault
  exact failWork_keep h

theorem loadPlane_keep {s0 s : State} {core : Nat} {p : RPass} {e : List Byte} {t : Nat} (h : Keep s0 s) :
    Keep s0 (loadPlane s core p e t).1 := by
  unfold loadPlane
  extract_lets +onlyGivenNames x1 x2 x3 x4 x5
  clear_value x1
  clear_value x2
  clear_value x3
  clear_value x4
  clear_value x5
  refine ite_fst_keep ?_ ?_
  · extract_lets +onlyGivenNames x6
    clear_value x6
    refine foldl_fst_keep h (fun x7 x8 k9 => ?_)
    split
    · exact k9
    · split
      · rename_i e10
        have k11 := pair_keep e10 (readBlock_keep k9)
        exact k11
      · rename_i e12
        have k13 := pair_keep e12 (readBlock_keep k9)
        extract_lets +onlyGivenNames x14
        have k15 : Keep s0 x14 := by
          subst x14
          refine ite_keep ?_ ?_
          · split
            · exact setPass_keep k13
            · exact k13
          · exact k13
        clear_value x14
        exact k15
  · refine foldl_fst_keep h (fun x16 x17 k18 => ?_)
    split
    · exact k18
    · extract_lets +onlyGivenNames x19
      clear_value x19
      split
      · rename_i e20
        have k21 := pair_keep e20 (engineRead_keep k18)
        exact k21
      · rename_i e22
        have k23 := pair_keep e22 (engineRead_keep k18)
        exact k23

theorem startPlane_keep {s0 s : State} {core : Nat} {p : RPass} {i : Nat} {e : List Byte} {t : Nat} (h : Keep s0 s) :
    Keep s0 (startPlane s core p i e t).1 := by
  unfold startPlane
  extract_lets +onlyGivenNames x1
  clear_value x1
  split
  · extract_lets +onlyGivenNames x2
    clear_value x2
    exact h
  · refine ite_fst_keep h ?_
    split
    · rename_i e3
      have k4 := pair_keep e3 (loadPlane_keep h)
      exact k4
    · rename_i e5
      have k6 := pair_keep e5 (loadPlane_keep h)
      exact k6
  · exact h

theorem startTile_keep {s0 s : State} {core : Nat} {p : RPass} {t : Nat} (h : Keep s0 s) :
    Keep s0 (startTile s core p t).1 := by
  unfold startTile
  refine foldl_fst_keep h (fun x1 x2 k3 => ?_)
  split
  · exact k3
  · split
    · rename_i e4
      have k5 := pair_keep e4 (startPlane_keep k3)
      exact k5
    · rename_i e6
      have k7 := pair_keep e6 (startPlane_keep k3)
      exact k7

theorem execTileHandout_keep {s0 : State} {pass : Nat} {core : CoreId} {s : State} (h : Keep s0 s) :
    KeepO s0 (execTileHandout pass core s) := by
  unfold execTileHandout
  extract_lets +onlyGivenNames x1 x2
  clear_value x1
  have k3 : Keep s0 x2 := closeGeometry_keep h
  clear_value x2
  split
  · exact next_keep k3
  · refine ite_keepO ?_ ?_
    · exact next_keep k3
    · split
      · exact next_keep k3
      · split
        · rename_i e4
          have k5 := pair_keep e4 (startTile_keep k3)
          exact next_keep (settle_keep (tileFault_keep k5))
        · rename_i e6
          have k7 := pair_keep e6 (startTile_keep k3)
          split
          rename_i e8
          have k9 := pair_keep' e8 (draw_keep (takeBanks_keep k7))
          extract_lets +onlyGivenNames x10 x11 x12
          clear_value x10
          clear_value x11
          have k13 : Keep s0 x12 := reserve_keep (setCoreOf_keep k9)
          clear_value x12
          split
          · exact next_keep (noteConds_keep (setPass_keep k13))
          · exact next_keep k13

theorem retireTile_keep {s0 s : State} {core : Nat} {pass : Nat} {tile : Nat} (h : Keep s0 s) :
    Keep s0 (retireTile s core pass tile) := by
  unfold retireTile
  split
  · extract_lets +onlyGivenNames x1 x2
    have k3 : Keep s0 x1 := setTile_keep h
    clear_value x1
    clear_value x2
    exact setCoreOf_keep k3
  · exact h

theorem updFrags_keep {s0 s : State} {core : Nat} {w : WG} {gid : Nat} {mask : Nat} {f : Frag → Frag} (h : Keep s0 s) :
    Keep s0 (updFrags s core w gid mask f) := by
  unfold updFrags
  split
  · exact setTile_keep h
  · exact h

theorem takeWid_keep {s0 s : State} (h : Keep s0 s) :
    Keep s0 (takeWid s).2 := by
  unfold takeWid
  exact upd_keep h rfl rfl rfl

theorem placeFrags_keep {s0 s : State} {core : Nat} {pass : Nat} {tile : Nat} (h : Keep s0 s) :
    Keep s0 (placeFrags s core pass tile) := by
  unfold placeFrags
  split
  · split
    · exact h
    · extract_lets +onlyGivenNames x1
      clear_value x1
      split
      · split
        exact retireTile_keep (setTile_keep h)
      · extract_lets +onlyGivenNames x2 x3
        clear_value x2
        clear_value x3
        split
        · refine ite_keep h ?_
          split
          split
          rename_i e4
          have k5 := pair_keep' e4 (takeWid_keep h)
          split
          rename_i e6
          have k7 := pair_keep' e6 (draw_keep k5)
          extract_lets +onlyGivenNames x8 x9
          clear_value x8
          have k10 : Keep s0 x9 := setTile_keep k7
          clear_value x9
          refine ite_keep k10 ?_
          extract_lets +onlyGivenNames x11 x12
          clear_value x11
          clear_value x12
          exact reserve_keep (setCoreOf_keep k10)
        · exact h
  · exact h

theorem acceptItem_keep {s0 s : State} {core : Nat} {o : Origin} {path : TPath} {d : List Byte} {addr : Nat} {tileSize : Nat} (h : Keep s0 s) :
    Keep s0 (acceptItem s core o path d addr tileSize) := by
  unfold acceptItem
  split
  rename_i e1
  have k2 := pair_keep' e1 (takeWid_keep h)
  extract_lets +onlyGivenNames x3 x4
  clear_value x3
  clear_value x4
  split
  · exact addItem_keep k2
  · extract_lets +onlyGivenNames x5 x6 x7
    have k8 : Keep s0 x5 := bump32_keep k2
    clear_value x5
    clear_value x6
    have k9 : Keep s0 x7 := ite_keep (tComplete_keep k8) k8
    clear_value x7
    exact failWork_keep k9

theorem issueItem_keep {s0 s : State} {core : Nat} {o : Origin} {path : TPath} {addr : Nat} {tileSize : Nat} {patch : List Byte → List Byte} (h : Keep s0 s) :
    Keep s0 (issueItem s core o path addr tileSize patch) := by
  unfold issueItem
  split
  · rename_i e1
    have k2 := pair_keep e1 (engineRead_keep h)
    exact engineFault_keep k2
  · rename_i e3
    have k4 := pair_keep e3 (engineRead_keep h)
    exact acceptItem_keep k4

theorem issueTile_keep {s0 s : State} {core : Nat} {p : RPass} {t : TileSt} (h : Keep s0 s) :
    Keep s0 (issueTile s core p t) := by
  unfold issueTile
  extract_lets +onlyGivenNames x1 x2 x3
  clear_value x1
  clear_value x2
  have k4 : Keep s0 x3 := foldl_keep h (fun _ _ k5 => (ite_keep (issueItem_keep k5) k5))
  clear_value x3
  exact ite_keep k4 (issueItem_keep k4)

theorem storeFold_keep {α : Type} {s0 s : State} {l : List α} {f : State → α → State × Option XFault} (h : Keep s0 s)
    (hf : ∀ t x, Keep s0 t → Keep s0 (f t x).1) :
    Keep s0 (l.foldl (fun acc a => match acc with
      | (s, some x) => (s, some x)
      | (s, none) => f s a) ((s, none) : State × Option XFault)).1 := by
  refine foldl_fst_keep h (fun acc a k => ?_)
  obtain ⟨t, o⟩ := acc
  cases o with
  | none => exact hf t a k
  | some x => exact k

theorem storePlane_keep {s0 s : State} {core : Nat} {p : RPass} {t : TileSt} {e : List Byte} (h : Keep s0 s) :
    Keep s0 (storePlane s core p t e).1 := by
  unfold storePlane
  refine ite_fst_keep h (ite_fst_keep (storeFold_keep h fun _ _ k => engineWrite_keep k) (ite_fst_keep ?_ ?_))
  · exact storeFold_keep h fun _ _ k => writeBlock_keep k
  · exact storeFold_keep h fun _ _ k => engineWrite_keep k

theorem storePlanes_keep {s0 s : State} {core : Nat} {p : RPass} {t : TileSt} (h : Keep s0 s) :
    Keep s0 (storePlanes s core p t).1 := by
  unfold storePlanes
  refine foldl_fst_keep h (fun x1 x2 k3 => ?_)
  split
  · exact k3
  · exact storePlane_keep k3

theorem execTileEnd_keep {s0 : State} {pass : Nat} {core : CoreId} {tile : Nat} {s : State} (h : Keep s0 s) :
    KeepO s0 (execTileEnd pass core tile s) := by
  unfold execTileEnd
  extract_lets +onlyGivenNames x1
  clear_value x1
  split
  · refine ite_keepO ?_ ?_
    · exact next_keep h
    · extract_lets +onlyGivenNames x2
      have k3 : Keep s0 x2 := issueTile_keep (setTile_keep h)
      clear_value x2
      refine ite_keepO ?_ ?_
      · exact next_keep (settle_keep k3)
      · split
        · rename_i e4
          have k5 := pair_keep e4 (storePlanes_keep k3)
          exact next_keep (settle_keep (tileFault_keep k5))
        · rename_i e6
          have k7 := pair_keep e6 (storePlanes_keep k3)
          extract_lets +onlyGivenNames x8
          have k9 : Keep s0 x8 := bump64_keep (setTile_keep k7)
          clear_value x8
          split
          · exact next_keep (setPass_keep (claimReqs_keep k9))
          · exact next_keep k9
  · exact next_keep h

theorem execTileBankRelease_keep {s0 : State} {pass : Nat} {core : CoreId} {tile : Nat} {s : State} (h : Keep s0 s) :
    KeepO s0 (execTileBankRelease pass core tile s) := by
  unfold execTileBankRelease
  extract_lets +onlyGivenNames x1
  clear_value x1
  split
  · refine ite_keepO ?_ ?_
    · exact next_keep h
    · extract_lets +onlyGivenNames x2 x3
      clear_value x2
      have k4 : Keep s0 x3 := setCoreOf_keep h
      clear_value x3
      exact next_keep (noteConds_keep (unreserve_keep (setPass_keep k4)))
  · exact next_keep h

theorem execRenderPassComplete_keep {s0 : State} {pass : Nat} {s : State} (h : Keep s0 s) :
    KeepO s0 (execRenderPassComplete pass s) := by
  unfold execRenderPassComplete
  split
  · exact next_keep h
  · refine ite_keepO ?_ ?_
    · exact next_keep h
    · split
      · rename_i e1
        have k2 := pair_keep e1 (writeResult_keep h)
        exact next_keep (settle_keep (finish_keep (dropPass_keep k2)))
      · rename_i e3
        have k4 := pair_keep e3 (writeResult_keep h)
        exact next_keep (settle_keep (engineFault_keep k4))

theorem saveTile_keep {s0 s : State} {core : Nat} {p : RPass} {t : TileSt} (h : Keep s0 s) :
    Keep s0 (saveTile s core p t) := by
  unfold saveTile
  extract_lets +onlyGivenNames x1 x2 x3 x4 x5
  clear_value x1
  clear_value x2
  clear_value x3
  have k6 : Keep s0 x4 := setCoreOf_keep h
  clear_value x4
  have k7 : Keep s0 x5 := countPreempt_keep k6
  clear_value x5
  split
  rename_i e8
  have k9 := pair_keep e8 (saveUnit_keep k7)
  split
  · exact setPass_keep k9
  · exact k9

theorem execTilePhasePreemption_keep {s0 : State} {pass : Nat} {core : CoreId} {s : State} (h : Keep s0 s) :
    KeepO s0 (execTilePhasePreemption pass core s) := by
  unfold execTilePhasePreemption
  extract_lets +onlyGivenNames x1
  clear_value x1
  split
  · exact next_keep h
  · extract_lets +onlyGivenNames x2 x3
    clear_value x2
    clear_value x3
    refine ite_keepO ?_ ?_
    · exact next_keep (noteConds_keep (stopMade_keep (foldl_keep h (fun _ _ k4 => (saveTile_keep k4)))))
    · exact next_keep h

theorem resumeTile_keep {s0 s : State} {core : Nat} {pass : Nat} {tile : Nat} (h : Keep s0 s) :
    Keep s0 (resumeTile s core pass tile) := by
  unfold resumeTile
  split
  · exact h
  · split
    · exact h
    · extract_lets +onlyGivenNames x1 x2 x3 x4
      clear_value x1
      have k5 : Keep s0 x2 := unreserve_keep h
      clear_value x2
      clear_value x3
      clear_value x4
      split
      · refine ite_keep h ?_
        extract_lets +onlyGivenNames x6 x7 x8 x9
        have k10 : Keep s0 x6 := takeBanks_keep (reserve_keep (chargeStart_keep k5))
        clear_value x6
        have k11 : Keep s0 x7 := by
          subst x7
          split
          · exact restoreUnit_keep k10
          · exact k10
        clear_value x7
        clear_value x8
        have k12 : Keep s0 x9 := setCoreOf_keep k11
        clear_value x9
        split
        · exact setPass_keep k12
        · exact k12
      · exact h

theorem settleWG_keep {s0 s : State} {core : Nat} {wgid : Nat} (h : Keep s0 s) :
    Keep s0 (settleWG s core wgid) := by
  unfold settleWG
  split
  · exact h
  · refine ite_keep h ?_
    extract_lets +onlyGivenNames x1
    have k2 : Keep s0 x1 := leaveWG_keep h
    clear_value x1
    refine ite_keep k2 ?_
    split
    · exact settleJob_keep (setJob_keep k2)
    · exact k2

theorem settleCore_keep {s0 s : State} {core : Nat} (h : Keep s0 s) :
    Keep s0 (settleCore s core) := by
  unfold settleCore
  exact foldl_keep h (fun _ _ k1 => (settleWG_keep k1))

theorem coreRead_keep {s0 s : State} {core : Nat} {w : WG} {va : Nat} {n : Nat} (h : Keep s0 s) :
    Keep s0 (coreRead s core w va n).1 := by
  unfold coreRead
  exact engineRead_keep h

theorem ptrBase_keep {s0 s : State} {core : Nat} {w : WG} {gid : Nat} {p : MemPtr} (h : Keep s0 s) :
    Keep s0 (ptrBase s core w gid p).1 := by
  unfold ptrBase
  split
  · split
    · rename_i e1
      have k2 := pair_keep e1 (coreRead_keep h)
      exact k2
    · rename_i e3
      have k4 := pair_keep e3 (coreRead_keep h)
      exact k4
  · exact h

theorem raiseFaults_keep {s0 s : State} {core : Nat} {w : WG} {g : Group} {l : List (Nat × TFault)} (h : Keep s0 s) :
    Keep s0 (raiseFaults s core w g l) := by
  unfold raiseFaults
  split
  · exact h
  · exact coreFaultAt_keep h

theorem deliverRead_keep {s0 s : State} {core : Nat} {gid : Nat} {tag : Nat} {thread : Nat} {bs : List Byte} (h : Keep s0 s) :
    Keep s0 (deliverRead s core gid tag thread bs) := by
  unfold deliverRead
  exact settleCore_keep (mapWGs_keep h)

theorem faultReads_keep {s0 s : State} {l : List (Waiter × XFault)} (h : Keep s0 s) :
    Keep s0 (faultReads s l) := by
  unfold faultReads
  refine foldl_keep h (fun x1 x2 k3 => ?_)
  extract_lets +onlyGivenNames x4
  clear_value x4
  split
  · exact ite_keep (settle_keep (coreFault_keep k3)) k3
  · exact k3

theorem setMiss_keep {s0 s : State} {sl : Nat} {l : List MissReg} (h : Keep s0 s) :
    Keep s0 (setMiss s sl l) := by
  unfold setMiss
  exact setMem_keep h rfl

theorem setInput_keep {s0 s : State} {sl : Nat} {l : List Waiter} (h : Keep s0 s) :
    Keep s0 (setInput s sl l) := by
  unfold setInput
  exact setMem_keep h rfl

theorem serveRead_keep {s0 s : State} {w : Waiter} {sec : List Byte} (h : Keep s0 s) :
    Keep s0 (serveRead s w sec) := by
  unfold serveRead
  extract_lets +onlyGivenNames x1
  have k2 : Keep s0 x1 := ite_keep (l1Put_keep h) h
  clear_value x1
  exact deliverRead_keep k2

theorem missRead_keep {s0 s : State} {w : Waiter} (h : Keep s0 s) :
    Keep s0 (missRead s w) := by
  unfold missRead
  extract_lets +onlyGivenNames x1 x2 x3 x4
  clear_value x1
  clear_value x2
  clear_value x3
  clear_value x4
  split
  · exact ite_keep (setMiss_keep h) (setInput_keep h)
  · exact ite_keep (setMiss_keep h) (setInput_keep h)

theorem issueRead_keep {s0 s : State} {w : Waiter} (h : Keep s0 s) :
    Keep s0 (issueRead s w) := by
  unfold issueRead
  split
  · exact deliverRead_keep h
  · split
    · extract_lets +onlyGivenNames x1
      have k2 : Keep s0 x1 := by
        subst x1
        split
        · exact touch_keep h
        · exact h
      clear_value x1
      exact serveRead_keep k2
    · split
      · exact serveRead_keep (countEvHit_keep h)
      · exact missRead_keep h

theorem setWalks_keep {s0 s : State} {cache : Nat} {l : List Walk} (h : Keep s0 s) :
    Keep s0 (setWalks s cache l) := by
  unfold setWalks
  exact setMem_keep h rfl

theorem joinWalk_keep {s0 s : State} {cache : Nat} {w : Waiter} (h : Keep s0 s) :
    Keep s0 (joinWalk s cache w) := by
  unfold joinWalk
  extract_lets +onlyGivenNames x1 x2
  clear_value x1
  clear_value x2
  exact ite_keep (setWalks_keep h) (setWalks_keep h)

theorem sendRead_keep {s0 s : State} {w : Waiter} (h : Keep s0 s) :
    Keep s0 (sendRead s w) := by
  unfold sendRead
  split
  · exact faultReads_keep h
  · exact issueRead_keep h

theorem startRead_keep {s0 s : State} {core : Nat} {w : WG} {gid : Nat} {tag : Nat} {n : Nat} {vol : Bool} {nt : Bool} {e : Nat × Target} (h : Keep s0 s) :
    Keep s0 (startRead s core w gid tag n vol nt e) := by
  unfold startRead
  split
  · extract_lets +onlyGivenNames x1 x2 x3
    clear_value x1
    clear_value x2
    clear_value x3
    split
    · exact h
    · split
      · exact h
      · exact emit_keep h
      · exact getD_keep (sendReq_keep h) h
      · split
        · exact sendRead_keep (xput_keep h)
        · exact joinWalk_keep h
      · split
        · rename_i e4
          have k5 := pair_keep e4 (xlate_keep h)
          exact issueRead_keep k5
        · rename_i e6
          have k7 := pair_keep e6 (xlate_keep h)
          exact k7
  · exact h

theorem startLoads_keep {s0 s : State} {n : Nat} {w : WG} {g : Group} {size : Nat} {dst : Nat} {vol : Bool} {nt : Bool} {l : List (Nat × Target)} (h : Keep s0 s) :
    Keep s0 (startLoads s n w g size dst vol nt l) := by
  unfold startLoads
  extract_lets +onlyGivenNames x1 x2 x3
  clear_value x1
  clear_value x2
  have k4 : Keep s0 x3 := setGroup_keep h
  clear_value x3
  exact foldl_keep k4 (fun _ _ k5 => (startRead_keep k5))

theorem execLoad_keep {s0 : State} {core : CoreId} {group : Nat} {ptr : MemPtr} {size : MemSize} {dst : Nat} {vol : Bool} {nt : Bool} {s : State} (h : Keep s0 s) :
    KeepO s0 (execLoad core group ptr size dst vol nt s) := by
  unfold execLoad
  extract_lets +onlyGivenNames x1 x2
  clear_value x1
  clear_value x2
  split
  · exact next_keep h
  · split
    · rename_i e3
      have k4 := pair_keep e3 (ptrBase_keep h)
      exact next_keep (settle_keep (coreXFault_keep k4))
    · rename_i e5
      have k6 := pair_keep e5 (ptrBase_keep h)
      extract_lets +onlyGivenNames x7
      clear_value x7
      split
      · refine ite_keepO ?_ ?_
        · exact next_keep (startLoads_keep k6)
        · exact next_keep h
      · exact next_keep (settle_keep (raiseFaults_keep k6))

theorem endWalk_keep {s0 s : State} {cache : Nat} {k : Walk} (h : Keep s0 s) :
    Keep s0 (endWalk s cache k) := by
  unfold endWalk
  split
  · exact faultReads_keep h
  · split
    · rename_i e1
      have k2 := pair_keep e1 (walkFrame_keep h)
      exact faultReads_keep k2
    · rename_i e3
      have k4 := pair_keep e3 (walkFrame_keep h)
      exact foldl_keep k4 (fun _ _ k5 => (sendRead_keep k5))

theorem execTranslationWalk_keep {s0 : State} {cache : BitVec 4} {i : Nat} {s : State} (h : Keep s0 s) :
    KeepO s0 (execTranslationWalk cache i s) := by
  unfold execTranslationWalk
  split
  · exact next_keep (endWalk_keep (setWalks_keep h))
  · exact next_keep h

theorem installFill_keep {s0 s : State} {sector : Nat} (h : Keep s0 s) :
    Keep s0 (installFill s sector) := by
  unfold installFill
  split
  · exact ite_keep h (installSector_keep h)
  · exact h

theorem endFill_keep {s0 s : State} {sl : Nat} {m : MissReg} (h : Keep s0 s) :
    Keep s0 (endFill s sl m) := by
  unfold endFill
  extract_lets +onlyGivenNames x1 x2 x3 x4 x5 x6
  clear_value x1
  have k7 : Keep s0 x2 := foldl_keep h (fun _ _ k8 => (ite_keep (installFill_keep k8) k8))
  clear_value x2
  have k9 : Keep s0 x3 := setMiss_keep k7
  clear_value x3
  have k10 : Keep s0 x5 := setMem_keep k9 rfl
  clear_value x5
  have k11 : Keep s0 x6 := foldl_keep k10 (fun _ _ k12 => (serveRead_keep k12))
  clear_value x6
  extract_lets +onlyGivenNames x13
  have k14 : Keep s0 x13 := faultReads_keep k11
  clear_value x13
  exact foldl_keep (setInput_keep k14) (fun _ _ k15 => (issueRead_keep k15))

theorem execLineFill_keep {s0 : State} {slice : BitVec 5} {line : BitVec 30} {s : State} (h : Keep s0 s) :
    KeepO s0 (execLineFill slice line s) := by
  unfold execLineFill
  split
  · refine ite_keepO ?_ ?_
    · exact next_keep (endFill_keep h)
    · exact next_keep h
  · exact next_keep h

theorem hostReply_keep {s0 s : State} {core : Nat} {gid : Nat} {tag : Nat} {thread : Nat} {reply : HostRead} (h : Keep s0 s) :
    Keep s0 (hostReply s core gid tag thread reply) := by
  unfold hostReply
  split
  · exact h
  · split
    · exact deliverRead_keep h
    · exact ite_keep (settle_keep (coreFault_keep h)) h

theorem execReplyDelivery_keep {s0 : State} {core : CoreId} {group : Nat} {tag : Nat} {thread : Nat} {reply : HostRead} {s : State} (h : Keep s0 s) :
    KeepO s0 (execReplyDelivery core group tag thread reply s) := by
  unfold execReplyDelivery
  exact next_keep (hostReply_keep h)

theorem xlateTargets_keep {s0 s : State} {core : Nat} {w : WG} {a : Machine.Acc} {n : Nat} {l : List (Nat × Target)} (h : Keep s0 s) :
    Keep s0 (xlateTargets s core w a n l).1 := by
  unfold xlateTargets
  refine foldl_fst_keep h (fun x1 x2 k3 => ?_)
  split
  · split
    · rename_i e4
      have k5 := pair_keep e4 (xlate_keep k3)
      exact k5
    · rename_i e6
      have k7 := pair_keep e6 (xlate_keep k3)
      exact k7
  · exact k3

theorem fetchFirst_keep {s0 s : State} {l : List (Nat × Target × Loc)} (h : Keep s0 s) :
    Keep s0 (fetchFirst s l).1 := by
  unfold fetchFirst
  refine foldl_fst_keep h (fun x1 x2 k3 => ?_)
  split
  · split
    · rename_i e4
      have k5 := pair_keep e4 (sectorIn_keep k3)
      exact k5
    · rename_i e6
      have k7 := pair_keep e6 (sectorIn_keep k3)
      exact k7
  · exact k3

theorem prepare_keep {s0 s : State} {core : Nat} {w : WG} {a : Machine.Acc} {n : Nat} {l : List (Nat × Target)} (h : Keep s0 s) :
    Keep s0 (prepare s core w a n l).1 := by
  unfold prepare
  split
  · exact h
  · split
    · rename_i e1
      have k2 := pair_keep e1 (xlateTargets_keep h)
      exact k2
    · rename_i e3
      have k4 := pair_keep e3 (xlateTargets_keep h)
      split
      rename_i e5
      have k6 := pair_keep e5 (fetchFirst_keep k4)
      exact k6

theorem putTile_keep {s0 s : State} {core : Nat} {w : WG} {off : Nat} {bs : List Byte} (h : Keep s0 s) :
    Keep s0 (putTile s core w off bs) := by
  unfold putTile
  split
  · exact setTile_keep h
  · exact h

theorem coreWrite_keep {s0 s : State} {core : Nat} {mem : Nat} {bs : List Byte} (h : Keep s0 s) :
    Keep s0 (coreWrite s core mem bs) := by
  unfold coreWrite
  split
  rename_i e1
  have k2 := pair_keep e1 (memWrite_keep h)
  exact setCoreOf_keep k2

theorem storeOne_keep {s0 s : State} {core : Nat} {wgid : Nat} {e : Target × Loc} {bs : List Byte} (h : Keep s0 s) :
    Keep s0 (storeOne s core wgid e bs) := by
  unfold storeOne
  split
  · exact h
  · split
    · exact h
    · exact setWG_keep h
    · exact putTile_keep h
    · split
      · exact coreWrite_keep h
      · exact emit_keep h
      · exact h

theorem sendPeers_keep {s0 s : State} {core : Nat} {gid : Nat} {o : Origin} {l : List (Nat × Nat × Nat × List Byte)} (h : Keep s0 s) :
    Keep s0 (sendPeers s core gid o l) := by
  unfold sendPeers
  exact claimReqs_keep (foldl_keep h (fun _ _ k1 => (getD_keep (peerWrite_keep k1) k1)))

theorem execStore_keep {s0 : State} {core : CoreId} {group : Nat} {ptr : MemPtr} {size : MemSize} {src : Nat} {s : State} (h : Keep s0 s) :
    KeepO s0 (execStore core group ptr size src s) := by
  unfold execStore
  extract_lets +onlyGivenNames x1 x2
  clear_value x1
  clear_value x2
  split
  · exact next_keep h
  · split
    · rename_i e3
      have k4 := pair_keep e3 (ptrBase_keep h)
      exact next_keep (settle_keep (coreXFault_keep k4))
    · rename_i e5
      have k6 := pair_keep e5 (ptrBase_keep h)
      split
      · rename_i e7
        have k8 := pair_keep e7 (prepare_keep k6)
        exact next_keep (settle_keep (raiseFaults_keep k8))
      · rename_i e9
        have k10 := pair_keep e9 (prepare_keep k6)
        extract_lets +onlyGivenNames x11 x12
        clear_value x11
        have k13 : Keep s0 x12 := foldl_keep (nextInstr_keep k10) (fun _ _ k14 => (storeOne_keep k14))
        clear_value x12
        exact next_keep (sendPeers_keep k13)

theorem atomOld_keep {s0 s : State} {core : Nat} {wgid : Nat} {e : Target × Loc} {n : Nat} (h : Keep s0 s) :
    Keep s0 (atomOld s core wgid e n).1 := by
  unfold atomOld
  split
  · split
    · rename_i e1
      have k2 := pair_keep e1 (memRead_keep h)
      exact k2
    · rename_i e3
      have k4 := pair_keep e3 (memRead_keep h)
      exact k4
  · split
    · exact h
    · exact h
  · exact h

theorem writeReg_keep {s0 s : State} {core : Nat} {gid : Nat} {t : Nat} {dst : Nat} {n : Nat} {x : Nat} (h : Keep s0 s) :
    Keep s0 (writeReg s core gid t dst n x) := by
  unfold writeReg
  split
  · exact setGroup_keep h
  · exact h

theorem atomStep_keep {s0 s : State} {core : Nat} {wgid : Nat} {gid : Nat} {f : AtomFn} {bits : Nat} {dst : Nat} {e : Nat × Target × Loc} {v : Nat} {c : Nat} (h : Keep s0 s) :
    Keep s0 (atomStep s core wgid gid f bits dst e v c) := by
  unfold atomStep
  split
  · exact writeReg_keep h
  · split
    rename_i e1
    have k2 := pair_keep e1 (atomOld_keep h)
    extract_lets +onlyGivenNames x3
    have k4 : Keep s0 x3 := storeOne_keep k2
    clear_value x3
    exact writeReg_keep k4

theorem execAtomic_keep {s0 : State} {core : CoreId} {group : Nat} {ptr : MemPtr} {f : AtomFn} {wide : Bool} {dst : Nat} {val : Nat} {cmp : Nat} {s : State} (h : Keep s0 s) :
    KeepO s0 (execAtomic core group ptr f wide dst val cmp s) := by
  unfold execAtomic
  extract_lets +onlyGivenNames x1 x2 x3
  clear_value x1
  clear_value x2
  clear_value x3
  split
  · exact next_keep h
  · split
    · rename_i e4
      have k5 := pair_keep e4 (ptrBase_keep h)
      exact next_keep (settle_keep (coreXFault_keep k5))
    · rename_i e6
      have k7 := pair_keep e6 (ptrBase_keep h)
      split
      · rename_i e8
        have k9 := pair_keep e8 (prepare_keep k7)
        exact next_keep (settle_keep (raiseFaults_keep k9))
      · rename_i e10
        have k11 := pair_keep e10 (prepare_keep k7)
        extract_lets +onlyGivenNames x12 x13
        clear_value x12
        have k14 : Keep s0 x13 := ite_keep k11 (bump64_keep k11)
        clear_value x13
        exact next_keep (foldl_keep (nextInstr_keep k14) (fun _ _ k15 => (atomStep_keep k15)))

theorem zeroRead_keep {s0 s : State} {n : Nat} {w : WG} {g : Group} (h : Keep s0 s) :
    Keep s0 (zeroRead s n w g) := by
  unfold zeroRead
  extract_lets +onlyGivenNames x1 x2 x3
  clear_value x1
  clear_value x2
  clear_value x3
  exact emit_keep (setGroup_keep h)

theorem execMemoryBarrier_keep {s0 : State} {core : CoreId} {group : Nat} {release : Bool} {acquire : Bool} {scope : MemScope} {s : State} (h : Keep s0 s) :
    KeepO s0 (execMemoryBarrier core group release acquire scope s) := by
  unfold execMemoryBarrier
  extract_lets +onlyGivenNames x1
  clear_value x1
  split
  · exact next_keep h
  · refine ite_keepO ?_ ?_
    · exact next_keep h
    · extract_lets +onlyGivenNames x2 x3
      clear_value x2
      have k4 : Keep s0 x3 := ite_keep (zeroRead_keep h) (setGroup_keep h)
      clear_value x3
      exact next_keep (ite_keep (l1Clear_keep k4) k4)

theorem execOpReadClockKhr_keep {s0 : State} {core : CoreId} {group : Nat} {device : Bool} {dst : Nat} {s : State} (h : Keep s0 s) :
    KeepO s0 (execOpReadClockKhr core group device dst s) := by
  unfold execOpReadClockKhr
  extract_lets +onlyGivenNames x1
  clear_value x1
  split
  · exact next_keep h
  · exact next_keep (nextInstr_keep h)

theorem execWorkgroupBarrier_keep {s0 : State} {core : CoreId} {group : Nat} {s : State} (h : Keep s0 s) :
    KeepO s0 (execWorkgroupBarrier core group s) := by
  unfold execWorkgroupBarrier
  extract_lets +onlyGivenNames x1
  clear_value x1
  split
  · exact next_keep h
  · exact next_keep (setWG_keep h)

theorem execSubgroupBarrier_keep {s0 : State} {core : CoreId} {group : Nat} {s : State} (h : Keep s0 s) :
    KeepO s0 (execSubgroupBarrier core group s) := by
  unfold execSubgroupBarrier
  extract_lets +onlyGivenNames x1
  clear_value x1
  split
  · exact next_keep h
  · split
    · exact next_keep (nextInstr_keep h)
    · exact next_keep (setGroup_keep h)

theorem execGroupOperation_keep {s0 : State} {core : CoreId} {group : Nat} {f : GroupFn} {uniform : Bool} {dst : Nat} {a : Src} {b : Src} {s : State} (h : Keep s0 s) :
    KeepO s0 (execGroupOperation core group f uniform dst a b s) := by
  unfold execGroupOperation
  extract_lets +onlyGivenNames x1
  clear_value x1
  split
  · exact next_keep h
  · split
    · exact next_keep (setGroup_keep h)
    · split
      rename_i e2
      have k3 := pair_keep' e2 (draw_keep h)
      exact next_keep (nextInstr_keep k3)

theorem execRotation_keep {s0 : State} {core : CoreId} {group : Nat} {s : State} (h : Keep s0 s) :
    KeepO s0 (execRotation core group s) := by
  unfold execRotation
  split
  · exact next_keep h
  · refine ite_keepO ?_ ?_
    · exact next_keep h
    · extract_lets +onlyGivenNames x1 x2
      clear_value x1
      have k3 : Keep s0 x2 := setGroup_keep h
      clear_value x2
      exact next_keep (ite_keep k3 (bump64_keep k3))

theorem execBeginInvocationInterlock_keep {s0 : State} {core : CoreId} {group : Nat} {s : State} (h : Keep s0 s) :
    KeepO s0 (execBeginInvocationInterlock core group s) := by
  unfold execBeginInvocationInterlock
  extract_lets +onlyGivenNames x1
  clear_value x1
  split
  · exact next_keep h
  · split
    · extract_lets +onlyGivenNames x2 x3 x4
      clear_value x2
      clear_value x3
      clear_value x4
      refine ite_keepO ?_ ?_
      · exact next_keep (nextInstr_keep h)
      · refine ite_keepO ?_ ?_
        · exact next_keep (setGroup_keep h)
        · exact next_keep (setGroup_keep h)
    · exact next_keep h

theorem setSec_keep {s0 s : State} {x : SecSt} (h : Keep s0 s) (hs : x.slots.length = s.sec.slots.length) : Keep s0 (setSec s x) :=
  upd_keep h rfl rfl hs

theorem setCode_keep {s0 s : State} {code : Nat} (h : Keep s0 s) :
    Keep s0 (setCode s code) := by
  unfold setCode
  exact wrF_keep h

theorem fwEnd_keep {s0 s : State} {result : Nat} {code : Nat} (h : Keep s0 s) :
    Keep s0 (fwEnd s result code) := by
  unfold fwEnd
  extract_lets +onlyGivenNames x1
  have k2 : Keep s0 x1 := wrF_keep (wrF_keep h)
  clear_value x1
  exact ite_keep k2 (setCode_keep k2)

theorem setHaulState_keep {s0 s : State} {n : Nat} (h : Keep s0 s) :
    Keep s0 (setHaulState s n) := by
  unfold setHaulState
  exact wrF_keep h

theorem askBlock_keep {s0 s : State} {h : Haul} (hk : Keep s0 s) :
    Keep s0 (askBlock s h) := by
  unfold askBlock
  extract_lets +onlyGivenNames x1
  extract_lets +onlyGivenNames x2
  have k3 : Keep s0 x2 := setSec_keep hk rfl
  clear_value x2
  exact ite_keep (sendOn_keep k3) k3

theorem haulEnd_keep {s0 s : State} {result : Nat} {code : Nat} (h : Keep s0 s) :
    Keep s0 (haulEnd s result code) := by
  unfold haulEnd
  exact fwEnd_keep (setSec_keep (setHaulState_keep (wrF_keep h)) rfl)

theorem haulOff_keep {s0 s : State} (h : Keep s0 s) :
    Keep s0 (haulOff s) := by
  unfold haulOff
  exact ite_keep (setSec_keep (setHaulState_keep (wrF_keep h)) rfl) h

theorem retryBlock_keep {s0 s : State} {h : Haul} (hk : Keep s0 s) :
    Keep s0 (retryBlock s h) := by
  unfold retryBlock
  exact ite_keep (haulEnd_keep hk) (askBlock_keep hk)

theorem delReq_keep {s0 s : State} {tag : Nat} (h : Keep s0 s) :
    Keep s0 (delReq s tag) := by
  unfold delReq
  exact setLink_keep h rfl

theorem failReq_keep {s0 s : State} {tag : Nat} {r : LinkReq} {w : ReadFail} (h : Keep s0 s) :
    Keep s0 (failReq s tag r w) := by
  unfold failReq
  extract_lets +onlyGivenNames x1
  have k2 : Keep s0 x1 := delReq_keep h
  clear_value x1
  refine ite_keep k2 ?_
  split
  · exact k2
  · split
    · exact ite_keep (settle_keep (coreFault_keep k2)) k2
    · exact k2
  · refine ite_keep ?_ ?_
    · split
      · exact settle_keep (coreFault_keep k2)
      · exact settle_keep (raise_keep k2)
    · exact settle_keep (failWork_keep k2)

theorem failPort_keep {s0 s : State} {p : Nat} (h : Keep s0 s) :
    Keep s0 (failPort s p) := by
  unfold failPort
  refine foldl_keep h (fun x1 x2 k3 => ?_)
  split
  · exact failReq_keep k3
  · exact k3

theorem setPortState_keep {s0 s : State} {p : Nat} {st : Nat} (h : Keep s0 s) :
    Keep s0 (setPortState s p st) := by
  unfold setPortState
  extract_lets +onlyGivenNames x1 x2
  have k3 : Keep s0 x1 := ite_keep (abortEntry_keep h) h
  clear_value x1
  have k4 : Keep s0 x2 := wrF_keep k3
  clear_value x2
  exact ite_keep k4 (wrF_keep (wrF_keep k4))

theorem portDown_keep {s0 s : State} {p : Nat} (h : Keep s0 s) :
    Keep s0 (portDown s p) := by
  unfold portDown
  extract_lets +onlyGivenNames x1 x2 x3
  have k4 : Keep s0 x1 := wrF_keep (setPortState_keep h)
  clear_value x1
  clear_value x2
  have k5 : Keep s0 x3 := setPort_keep k4
  clear_value x3
  extract_lets +onlyGivenNames x6
  have k7 : Keep s0 x6 := appendRec_keep (bump32_keep k5)
  clear_value x6
  exact failPort_keep k7

theorem takeAck_keep {s0 s : State} {p : Nat} {ack : Nat} (h : Keep s0 s) :
    Keep s0 (takeAck s p ack) := by
  unfold takeAck
  extract_lets +onlyGivenNames x1
  clear_value x1
  exact ite_keep (pump_keep (setPort_keep h)) h

theorem resend_keep {s0 s : State} {p : Nat} (h : Keep s0 s) :
    Keep s0 (resend s p) := by
  unfold resend
  extract_lets +onlyGivenNames x1
  clear_value x1
  refine ite_keep h ?_
  refine ite_keep (setPort_keep h) ?_
  extract_lets +onlyGivenNames x2
  have k3 : Keep s0 x2 := bump64_keep (setPort_keep h)
  clear_value x2
  exact foldl_keep k3 (fun _ _ k4 => (emitFlit_keep k4))

theorem execRetryTimeout_keep {s0 : State} {port : BitVec 2} {s : State} (h : Keep s0 s) :
    KeepO s0 (execRetryTimeout port s) := by
  unfold execRetryTimeout
  extract_lets +onlyGivenNames x1
  clear_value x1
  refine ite_keepO ?_ ?_
  · exact next_keep (resend_keep h)
  · exact next_keep h

theorem forward_keep {s0 s : State} {m : List Byte} (h : Keep s0 s) :
    Keep s0 (forward s m) := by
  unfold forward
  split
  · exact sendOn_keep h
  · exact bump32_keep h

theorem reply_keep {s0 s : State} {m : List Byte} {op : Nat} {status : Nat} {len : Nat} {data : List Byte} (h : Keep s0 s) :
    Keep s0 (reply s m op status len data) := by
  unfold reply
  exact sendTo_keep h

theorem refuse_keep {s0 s : State} {m : List Byte} {op : Nat} {reason : Nat} (h : Keep s0 s) :
    Keep s0 (refuse s m op reason) := by
  unfold refuse
  exact reply_keep (bump32_keep h)

theorem takeWhole_keep {s0 s : State} {p : Nat} {vc : Nat} {m : List Byte} (h : Keep s0 s) :
    Keep s0 (takeWhole s p vc m) := by
  unfold takeWhole
  extract_lets +onlyGivenNames x1
  have k2 : Keep s0 x1 := snoopLink_keep h
  clear_value x1
  exact ite_keep k2 (ite_keep (ite_keep (refuse_keep k2) (forward_keep k2)) (ite_keep k2 (setPort_keep k2)))

theorem acceptFlit_keep {s0 s : State} {p : Nat} {b : List Byte} (h : Keep s0 s) :
    Keep s0 (acceptFlit s p b) := by
  unfold acceptFlit
  extract_lets +onlyGivenNames x1 x2 x3
  clear_value x1
  have k4 : Keep s0 x2 := takeAck_keep (setPort_keep h)
  clear_value x2
  clear_value x3
  split
  extract_lets +onlyGivenNames x5
  clear_value x5
  extract_lets +onlyGivenNames x6
  have k7 : Keep s0 x6 := emitAck_keep (setPort_keep k4)
  clear_value x6
  split
  · exact takeWhole_keep k7
  · exact k7

theorem execFlit_keep {s0 : State} {port : BitVec 2} {bytes : List Byte} {s : State} (h : Keep s0 s) :
    KeepO s0 (execFlit port bytes s) := by
  unfold execFlit
  extract_lets +onlyGivenNames x1 x2 x3
  clear_value x1
  clear_value x2
  clear_value x3
  refine ite_keepO ?_ ?_
  · exact next_keep h
  · refine ite_keepO ?_ ?_
    · exact next_keep (emitNak_keep h)
    · refine ite_keepO ?_ ?_
      · refine ite_keepO ?_ ?_
        · exact next_keep (acceptFlit_keep h)
        · exact next_keep (emitNak_keep h)
      · refine ite_keepO ?_ ?_
        · exact next_keep (takeAck_keep h)
        · refine ite_keepO ?_ ?_
          · exact next_keep (resend_keep (takeAck_keep h))
          · exact next_keep (emitNak_keep h)

theorem swapLane_keep {s0 s : State} {p : Nat} {lane : Nat} (h : Keep s0 s) :
    Keep s0 (swapLane s p lane) := by
  unfold swapLane
  extract_lets +onlyGivenNames x1 x2 x3
  clear_value x1
  have k4 : Keep s0 x2 := setPort_keep h
  clear_value x2
  have k5 : Keep s0 x3 := wrF_keep (wrF_keep k4)
  clear_value x3
  exact bump32_keep k5

theorem judgeLanes_keep {s0 s : State} {p : Nat} {l : List Nat} (h : Keep s0 s) :
    Keep s0 (judgeLanes s p l) := by
  unfold judgeLanes
  exact foldl_keep h (fun _ _ k1 => (ite_keep (swapLane_keep k1) (setPort_keep k1)))

theorem execSymbolErrorWindow_keep {s0 : State} {port : BitVec 2} {errs : List Nat} {s : State} (h : Keep s0 s) :
    KeepO s0 (execSymbolErrorWindow port errs s) := by
  unfold execSymbolErrorWindow
  extract_lets +onlyGivenNames x1 x2
  clear_value x1
  clear_value x2
  refine ite_keepO ?_ ?_
  · exact next_keep (judgeLanes_keep (setPort_keep h))
  · exact next_keep h

theorem execTraining_keep {s0 : State} {port : BitVec 2} {s : State} (h : Keep s0 s) :
    KeepO s0 (execTraining port s) := by
  unfold execTraining
  extract_lets +onlyGivenNames x1 x2
  clear_value x1
  clear_value x2
  refine ite_keepO ?_ ?_
  · exact next_keep (setPortState_keep (setPort_keep h))
  · exact next_keep h

theorem execPrbs31Test_keep {s0 : State} {port : BitVec 2} {good : BitVec 9} {s : State} (h : Keep s0 s) :
    KeepO s0 (execPrbs31Test port good s) := by
  unfold execPrbs31Test
  extract_lets +onlyGivenNames x1 x2
  clear_value x1
  clear_value x2
  refine ite_keepO ?_ ?_
  · exact next_keep h
  · refine ite_keepO ?_ ?_
    · exact next_keep (portDown_keep h)
    · exact next_keep (setPort_keep h)

theorem execDeviceIdExchange_keep {s0 : State} {port : BitVec 2} {id : BitVec 3} {s : State} (h : Keep s0 s) :
    KeepO s0 (execDeviceIdExchange port id s) := by
  unfold execDeviceIdExchange
  extract_lets +onlyGivenNames x1 x2
  clear_value x1
  clear_value x2
  refine ite_keepO ?_ ?_
  · exact next_keep h
  · refine ite_keepO ?_ ?_
    · exact next_keep (setPortState_keep (setPort_keep h))
    · exact next_keep (setPort_keep h)

theorem trainedStatus_keep {s0 s : State} {p : Nat} (h : Keep s0 s) :
    Keep s0 (trainedStatus s p) := by
  unfold trainedStatus
  extract_lets +onlyGivenNames x1 x2 x3 x4 x5 x6
  clear_value x1
  clear_value x2
  clear_value x3
  clear_value x4
  clear_value x5
  clear_value x6
  exact wrF_keep (wrF_keep (wrF_keep (wrF_keep (setPortState_keep h))))

theorem execTrainingDone_keep {s0 : State} {port : BitVec 2} {last : BitVec 12} {s : State} (h : Keep s0 s) :
    KeepO s0 (execTrainingDone port last s) := by
  unfold execTrainingDone
  extract_lets +onlyGivenNames x1 x2
  clear_value x1
  clear_value x2
  refine ite_keepO ?_ ?_
  · exact next_keep h
  · extract_lets +onlyGivenNames x3 x4 x5
    clear_value x3
    have k6 : Keep s0 x4 := wrF_keep (trainedStatus_keep h)
    clear_value x4
    have k7 : Keep s0 x5 := setPort_keep k6
    clear_value x5
    exact next_keep (pump_keep (foldl_keep k7 (fun _ _ k8 => (emitFlit_keep k8))))

theorem execTrainingTimeout_keep {s0 : State} {port : BitVec 2} {s : State} (h : Keep s0 s) :
    KeepO s0 (execTrainingTimeout port s) := by
  unfold execTrainingTimeout
  extract_lets +onlyGivenNames x1
  clear_value x1
  refine ite_keepO ?_ ?_
  · exact next_keep (portDown_keep h)
  · exact next_keep h

theorem dropPort_keep {s0 s : State} {p : Nat} (h : Keep s0 s) :
    Keep s0 (dropPort s p) := by
  unfold dropPort
  exact ite_keep (setPort_keep h) (portDown_keep h)

theorem execPortDisable_keep {s0 : State} {port : BitVec 2} {s : State} (h : Keep s0 s) :
    KeepO s0 (execPortDisable port s) := by
  unfold execPortDisable
  refine ite_keepO ?_ ?_
  · exact next_keep (hostTouch_keep h)
  · extract_lets +onlyGivenNames x1
    have k2 : Keep s0 x1 := hostTouch_keep h
    clear_value x1
    exact next_keep (dropPort_keep (wrF_keep k2))

theorem execBlRefclkLoss_keep {s0 s : State} (h : Keep s0 s) :
    KeepO s0 (execBlRefclkLoss s) := by
  unfold execBlRefclkLoss
  exact next_keep (foldl_keep h (fun _ _ k1 => (ite_keep (portDown_keep k1) k1)))

theorem nextMsg_keep {s0 s s1 : State} {p op : Nat} {m : List Byte} (h : Keep s0 s) (e : nextMsg s p op = some (m, s1)) : Keep s0 s1 := by
  unfold nextMsg at e
  dsimp only at e
  split at e
  · split at e
    · cases e
      exact setPort_keep h
    · cases e
  · cases e

theorem onMsg_keep {s0 s : State} {p op : Nat} {f : List Byte → State → State} (h : Keep s0 s)
    (hf : ∀ m t, Keep s0 t → Keep s0 (f m t)) : Keep s0 (onMsg s p op f) := by
  unfold onMsg
  split
  · exact h
  · rename_i e
    have k := nextMsg_keep h e
    exact ite_keep (hf _ _ k) (forward_keep k)

theorem serveReadMsg_keep {s0 : State} {m : List Byte} {s : State} (h : Keep s0 s) :
    Keep s0 (serveReadMsg m s) := by
  unfold serveReadMsg
  split
  · split
    · rename_i e1
      have k2 := pair_keep e1 (memReadBy_keep h)
      exact reply_keep k2
    · rename_i e3
      have k4 := pair_keep e3 (memReadBy_keep h)
      exact refuse_keep k4
  · exact refuse_keep h

theorem execRead_keep {s0 : State} {port : BitVec 2} {s : State} (h : Keep s0 s) :
    KeepO s0 (execRead port s) := by
  unfold execRead
  exact next_keep (onMsg_keep h (fun _ _ k1 => (serveReadMsg_keep k1)))

theorem serveWriteMsg_keep {s0 : State} {port : Nat} {m : List Byte} {s : State} (h : Keep s0 s) :
    Keep s0 (serveWriteMsg port m s) := by
  unfold serveWriteMsg
  refine ite_keep ?_ ?_
  · split
    · exact reply_keep (settle_keep (signalFence_keep h))
    · exact reply_keep (settle_keep (errorFence_keep h))
    · exact refuse_keep h
  · split
    · split
      · rename_i e1
        have k2 := pair_keep e1 (memWrite_keep h)
        exact reply_keep k2
      · rename_i e3
        have k4 := pair_keep e3 (memWrite_keep h)
        exact refuse_keep k4
    · exact refuse_keep h

theorem execWrite_keep {s0 : State} {port : BitVec 2} {s : State} (h : Keep s0 s) :
    KeepO s0 (execWrite port s) := by
  unfold execWrite
  exact next_keep (onMsg_keep h (fun _ _ k1 => (serveWriteMsg_keep k1)))

theorem dropMem_keep {s0 s : State} {k : Nat} (h : Keep s0 s) :
    Keep s0 (dropMem s k) := by
  unfold dropMem
  split
  · exact freeMemObj_keep (setMemObj_keep h)
  · exact h

theorem holdMem_keep {s0 s : State} {k : Nat} (h : Keep s0 s) :
    Keep s0 (holdMem s k) := by
  unfold holdMem
  split
  · exact setMemObj_keep h
  · exact h

theorem dropImport_keep {s0 s : State} {m : Import} (h : Keep s0 s) :
    Keep s0 (dropImport s m) := by
  unfold dropImport
  exact foldl_keep (foldl_keep h (fun _ _ k2 => (dropMem_keep k2))) (fun _ _ k1 => (dropFence_keep k1))

theorem releaseImports_keep {s0 s : State} {q : Import → Bool} (h : Keep s0 s) :
    Keep s0 (releaseImports s q) := by
  unfold releaseImports
  exact foldl_keep (setLink_keep h rfl) (fun _ _ k1 => (dropImport_keep k1))

theorem serveImport_keep {s0 : State} {m : List Byte} {s : State} (h : Keep s0 s) :
    Keep s0 (serveImport m s) := by
  unfold serveImport
  extract_lets +onlyGivenNames x1 x2 x3 x4 x5
  clear_value x1
  have k6 : Keep s0 x2 := releaseImports_keep h
  clear_value x2
  clear_value x3
  clear_value x4
  clear_value x5
  refine ite_keep (refuse_keep k6) ?_
  extract_lets +onlyGivenNames x7
  have k8 : Keep s0 x7 := foldl_keep (foldl_keep k6 (fun _ _ k10 => (holdMem_keep k10))) (fun _ _ k9 => (holdFence_keep k9))
  clear_value x7
  exact reply_keep (setLink_keep k8 rfl)

theorem execImportMsg_keep {s0 : State} {port : BitVec 2} {s : State} (h : Keep s0 s) :
    KeepO s0 (execImportMsg port s) := by
  unfold execImportMsg
  exact next_keep (onMsg_keep h (fun _ _ k1 => (serveImport_keep k1)))

theorem serveRelease_keep {s0 : State} {m : List Byte} {s : State} (h : Keep s0 s) :
    Keep s0 (serveRelease m s) := by
  unfold serveRelease
  extract_lets +onlyGivenNames x1
  clear_value x1
  split
  · exact dropImport_keep (setLink_keep h rfl)
  · exact h

theorem execReleaseMessage_keep {s0 : State} {port : BitVec 2} {s : State} (h : Keep s0 s) :
    KeepO s0 (execReleaseMessage port s) := by
  unfold execReleaseMessage
  exact next_keep (onMsg_keep h (fun _ _ k1 => (serveRelease_keep k1)))

theorem execLinkImportDrop_keep {s0 : State} {value : Word32} {s : State} (h : Keep s0 s) :
    KeepO s0 (execLinkImportDrop value s) := by
  unfold execLinkImportDrop
  refine ite_keepO ?_ ?_
  · exact next_keep (hostTouch_keep h)
  · extract_lets +onlyGivenNames x1
    have k2 : Keep s0 x1 := hostTouch_keep h
    clear_value x1
    exact next_keep (releaseImports_keep k2)

theorem onReply_keep {s0 : State} {m : List Byte} {s : State} {f : Nat → LinkReq → State} (h : Keep s0 s) (hf : ∀ y0 y1, Keep s0 (f y0 y1)) :
    Keep s0 (onReply m s f) := by
  unfold onReply
  extract_lets +onlyGivenNames x1
  have k2 : ∀ y0, Keep s0 y0 → Keep s0 (x1 y0) := fun _ k3 => (bump32_keep k3)
  clear_value x1
  split
  · exact k2 _ h
  · exact ite_keep (hf _ _) (k2 _ (delReq_keep h))

theorem execReadReply_keep {s0 : State} {port : BitVec 2} {s : State} (h : Keep s0 s) :
    KeepO s0 (execReadReply port s) := by
  unfold execReadReply
  refine next_keep ?_
  refine onMsg_keep h (fun x1 x2 k3 => ?_)
  refine onReply_keep k3 (fun x4 x5 => ?_)
  refine ite_keep (failReq_keep k3) ?_
  split
  · exact deliverRead_keep (delReq_keep k3)
  · exact delReq_keep k3

theorem execWriteAck_keep {s0 : State} {port : BitVec 2} {s : State} (h : Keep s0 s) :
    KeepO s0 (execWriteAck port s) := by
  unfold execWriteAck
  exact next_keep (onMsg_keep h (fun _ _ k1 => (onReply_keep k1 (fun _ _ => (ite_keep (failReq_keep k1) (delReq_keep k1))))))

theorem execImportReply_keep {s0 : State} {port : BitVec 2} {s : State} (h : Keep s0 s) :
    KeepO s0 (execImportReply port s) := by
  unfold execImportReply
  exact next_keep (onMsg_keep h (fun _ _ k1 => (onReply_keep k1 (fun _ _ => (delReq_keep k1)))))

theorem resendReq_keep {s0 s : State} {tag : Nat} {r : LinkReq} (h : Keep s0 s) :
    Keep s0 (resendReq s tag r) := by
  unfold resendReq
  refine ite_keep (failReq_keep h) ?_
  split
  · exact failReq_keep h
  · extract_lets +onlyGivenNames x1
    clear_value x1
    exact sendOn_keep (setLink_keep h rfl)

theorem execStalled_keep {s0 : State} {port : BitVec 2} {s : State} (h : Keep s0 s) :
    KeepO s0 (execStalled port s) := by
  unfold execStalled
  exact next_keep (onMsg_keep h (fun _ _ k1 => (onReply_keep k1 (fun _ _ => (resendReq_keep k1)))))

theorem execRemoteTimeout_keep {s0 : State} {tag : Word32} {s : State} (h : Keep s0 s) :
    KeepO s0 (execRemoteTimeout tag s) := by
  unfold execRemoteTimeout
  split
  · refine ite_keepO ?_ ?_
    · exact next_keep (failReq_keep (bump32_keep h))
    · exact next_keep h
  · exact next_keep h

theorem answerStall_keep {s0 s : State} {m : List Byte} (h : Keep s0 s) :
    Keep s0 (answerStall s m) := by
  unfold answerStall
  refine ite_keep h ?_
  refine ite_keep h ?_
  refine ite_keep ?_ ?_
  · split
    · exact resendReq_keep h
    · exact h
  · refine ite_keep ?_ ?_
    · split
      · exact ite_keep (retryBlock_keep h) h
      · exact h
    · exact ite_keep (reply_keep h) h

theorem execBurstStall_keep {s0 : State} {port : BitVec 2} {vc : BitVec 3} {s : State} (h : Keep s0 s) :
    KeepO s0 (execBurstStall port vc s) := by
  unfold execBurstStall
  extract_lets +onlyGivenNames x1 x2 x3
  clear_value x1
  clear_value x2
  clear_value x3
  split
  · exact next_keep h
  · extract_lets +onlyGivenNames x4 x5
    have k6 : Keep s0 x4 := setPort_keep h
    clear_value x4
    have k7 : Keep s0 x5 := appendRec_keep (bump32_keep k6)
    clear_value x5
    exact next_keep (answerStall_keep k7)

theorem setTclk_keep {s0 s : State} {mhz : Nat} (h : Keep s0 s) :
    Keep s0 (setTclk s mhz) := by
  unfold setTclk
  exact setCore_keep h

theorem mwfD_keptRegs {s : State} (h : mwfD s.regs resetVal = true) : mwfD (keptRegs s) resetVal = true := by
  have e : resetVal Reg.pwrStatus = 0 := by decide
  unfold keptRegs
  dsimp only
  generalize wput 0 28 27 (rdF s Reg.pwrStatus 28 27) = v
  have k := mwfD_mkeep (fun k _ => decide (0x1E0000 ≤ k) && decide (k < 0x1F0000)) h
  generalize mkeep s.regs _ = m at k
  have r := mwfD_msetD (d := resetVal) Reg.pwrStatus v k
  rw [e] at r
  exact r

/-- The state right after reset with the queue, what only power-on resets and the firmware slots carried over. -/
theorem reset_keep {s0 s : State} {fr dt : Nat} {out : List Output} {r : Map Word} {wb : WbSt} {x : SecSt} {p : PowerSt} (h : Keep s0 s)
    (hr : mwfD s.regs resetVal = true → mwfD r resetVal = true) (hs : x.slots.length = s.sec.slots.length) :
    Keep s0 { State.reset with pending := s.pending, fresh := fr, dtime := dt, out := out, regs := r, wb := wb, sec := x, power := p } :=
  ⟨h.1, fun ha => ⟨hr (h.2 ha).1, rfl, rfl, rfl, hs.trans (h.2 ha).2.2.2.2⟩⟩

theorem loseAll_keep {s0 s : State} (h : Keep s0 s) : Keep s0 (loseAll s) := by
  unfold loseAll
  exact reset_keep h mwfD_keptRegs rfl

theorem beginBoot_keep {s0 s : State} {cause : BootCause} (h : Keep s0 s) :
    Keep s0 (beginBoot s cause) := by
  unfold beginBoot
  extract_lets +onlyGivenNames x1
  have k2 : Keep s0 x1 := ite_keep (emit_keep (loseAll_keep h)) (loseAll_keep h)
  clear_value x1
  exact setPower_keep (setSec_keep k2 rfl)

theorem enterA3_keep {s0 s : State} {lastExit : Nat} (h : Keep s0 s) :
    Keep s0 (enterA3 s lastExit) := by
  unfold enterA3
  exact setPwrState_keep (wrF_keep (loseAll_keep h))

end Sys2Proof.Machine
end

