-- ==== Sys2Proof/Laws/KeepBoot.lean ====
section
/-! SUPPORT. The state functions keep the queue and soundness: codecs, power, boot, heads and core placement. One lemma per function: where the state it is given keeps,
so does the state it answers. -/
set_option linter.tactic.unusedName false
namespace Sys2Proof.Machine

theorem setCrush_keep {s0 s : State} {l : List CrushOp} (h : Keep s0 s) :
    Keep s0 (setCrush s l) := by
  unfold setCrush
  exact setSched_keep h

theorem freeCrush_keep {s0 s : State} {op : CrushOp} (h : Keep s0 s) :
    Keep s0 (freeCrush s op) := by
  unfold freeCrush
  exact ite_keep (unreserve_keep h) h

theorem putCrush_keep {s0 s : State} {op : CrushOp} (h : Keep s0 s) :
    Keep s0 (putCrush s op) := by
  unfold putCrush
  extract_lets +onlyGivenNames x1 x2 x3 x4
  clear_value x1
  have k5 : Keep s0 x2 := by
    subst x2
    split
    · exact charge_keep h
    · exact charge_keep h
  clear_value x2
  have k6 : Keep s0 x3 := reserve_keep (freeCrush_keep k5)
  clear_value x3
  have k7 : Keep s0 x4 := by
    subst x4
    split
    · exact restoreUnit_keep k6
    · exact k6
  clear_value x4
  exact setCrush_keep k7

theorem addCrush_keep {s0 s : State} {op : CrushOp} (h : Keep s0 s) :
    Keep s0 (addCrush s op) := by
  unfold addCrush
  extract_lets +onlyGivenNames x1
  have k2 : Keep s0 x1 := takeSlot_keep h
  clear_value x1
  exact ite_keep (putCrush_keep k2) (setSched_keep k2)

theorem placeCrush_keep {s0 s : State} (h : Keep s0 s) :
    Keep s0 (placeCrush s) := by
  unfold placeCrush
  extract_lets +onlyGivenNames x1
  clear_value x1
  split
  · exact h
  · extract_lets +onlyGivenNames x2
    have k3 : Keep s0 x2 := takeSlot_keep h
    clear_value x2
    exact putCrush_keep (setSched_keep k3)

theorem leaveCrush_keep {s0 s : State} {op : CrushOp} (h : Keep s0 s) :
    Keep s0 (leaveCrush s op) := by
  unfold leaveCrush
  exact setCrush_keep (unreserve_keep h)

theorem writeCrush_keep {s0 s : State} {op : CrushOp} {code : Nat} {fail : Nat} (h : Keep s0 s) :
    Keep s0 (writeCrush s op code fail).1 := by
  unfold writeCrush
  exact ite_fst_keep h (engineWrite_keep h)

theorem loadOver_keep {s0 s : State} {op : CrushOp} (h : Keep s0 s) :
    Keep s0 (loadOver s op) := by
  unfold loadOver
  exact ite_keep (setSched_keep h) h

theorem faultCrush_keep {s0 s : State} {e : Nat} {op : CrushOp} {f : XFault} (h : Keep s0 s) :
    Keep s0 (faultCrush s e op f) := by
  unfold faultCrush
  exact engineFault_keep (writeCrush_keep (loadOver_keep (leaveCrush_keep h)))

theorem endCrush_keep {s0 s : State} {e : Nat} {op : CrushOp} (h : Keep s0 s) :
    Keep s0 (endCrush s e op) := by
  unfold endCrush
  extract_lets +onlyGivenNames x1
  have k2 : Keep s0 x1 := leaveCrush_keep h
  clear_value x1
  refine ite_keep (setSched_keep k2) ?_
  split
  · rename_i e3
    have k4 := pair_keep e3 (writeCrush_keep k2)
    exact finish_keep k4
  · rename_i e5
    have k6 := pair_keep e5 (writeCrush_keep k2)
    exact engineFault_keep k6

theorem loadFailed_keep {s0 s : State} {op : CrushOp} {code : Nat} (h : Keep s0 s) :
    Keep s0 (loadFailed s op code) := by
  unfold loadFailed
  refine ite_keep ?_ ?_
  · split
    · exact modelRecord_keep h
    · exact h
  · exact h

theorem strayBlocks_keep {s0 s : State} {e : Nat} {op : CrushOp} (h : Keep s0 s) :
    Keep s0 (strayBlocks s e op) := by
  unfold strayBlocks
  split
  · exact claimReqs_keep (ite_keep (draw_keep h) (engineWrite_keep (draw_keep h)))
  · exact h

theorem failCrush_keep {s0 s : State} {e : Nat} {op : CrushOp} {f : CodecFail} {fault : Nat} {off : Nat} (h : Keep s0 s) :
    Keep s0 (failCrush s e op f fault off) := by
  unfold failCrush
  extract_lets +onlyGivenNames x1 x2 x3 x4
  clear_value x1
  have k4 : Keep s0 x2 := appendRec_keep h
  clear_value x2
  have k5' : Keep s0 x3 := ite_keep (bump32_keep k4) (bump32_keep k4)
  clear_value x3
  have k5 : Keep s0 x4 := strayBlocks_keep k5'
  clear_value x4
  split
  · rename_i e6
    have k7 := pair_keep e6 (writeCrush_keep (loadOver_keep (leaveCrush_keep (loadFailed_keep k5))))
    exact finish_keep k7
  · rename_i e8
    have k9 := pair_keep e8 (writeCrush_keep (loadOver_keep (leaveCrush_keep (loadFailed_keep k5))))
    exact engineFault_keep k9

theorem snoopCrush_keep {s0 s : State} {e : Nat} {bs : List Byte} (h : Keep s0 s) :
    Keep s0 (snoopCrush s e bs) := by
  unfold snoopCrush
  exact snoop_keep h

theorem putBlock_keep {s0 s : State} {op : CrushOp} {bs : List Byte} (h : Keep s0 s) :
    Keep s0 (putBlock s op bs).1 := by
  unfold putBlock
  split
  · exact h
  · extract_lets +onlyGivenNames x1
    have k2 : Keep s0 x1 := memWrite_keep h
    clear_value x1
    exact setSched_keep k2
  · exact engineWrite_keep h

theorem updCrush_keep {s0 s : State} {op : CrushOp} (h : Keep s0 s) :
    Keep s0 (updCrush s op) := by
  unfold updCrush
  exact setCrush_keep h

theorem finishBlock_keep {s0 s : State} {e : Nat} {op : CrushOp} {h : List Byte} {bs : List Byte} {size : Nat} (hk : Keep s0 s) :
    Keep s0 (finishBlock s e op h bs size) := by
  unfold finishBlock
  extract_lets +onlyGivenNames x1
  clear_value x1
  refine ite_keep (failCrush_keep hk) ?_
  refine ite_keep (failCrush_keep hk) ?_
  split
  · rename_i e2
    have k3 := pair_keep e2 (putBlock_keep hk)
    exact faultCrush_keep (claimReqs_keep k3)
  · rename_i e4
    have k5 := pair_keep e4 (putBlock_keep hk)
    extract_lets +onlyGivenNames x6 x7 x8 x9
    have k10 : Keep s0 x6 := claimReqs_keep k5
    clear_value x6
    have k11 : Keep s0 x7 := ite_keep (snoopCrush_keep k10) k10
    clear_value x7
    clear_value x8
    have k12 : Keep s0 x9 := updCrush_keep (bump64_keep k11)
    clear_value x9
    exact ite_keep k12 (ite_keep (ite_keep (failCrush_keep k12) (endCrush_keep k12)) (ite_keep (failCrush_keep k12) (endCrush_keep k12)))

theorem decodeStep_keep {s0 s : State} {e : Nat} {op : CrushOp} {ext : HostRead} (h : Keep s0 s) :
    Keep s0 (decodeStep s e op ext) := by
  unfold decodeStep
  extract_lets +onlyGivenNames x1 x2 x3
  clear_value x1
  clear_value x2
  have k4 : ∀ y0 y1, Keep s0 y0 → Keep s0 (x3 y0 y1) := fun _ _ k5 => (failCrush_keep k5)
  clear_value x3
  refine ite_keep (k4 _ _ h) ?_
  split
  · rename_i e6
    have k7 := pair_keep e6 (engineRead_keep h)
    exact faultCrush_keep k7
  · rename_i e8
    have k9 := pair_keep e8 (engineRead_keep h)
    split
    · exact k4 _ _ k9
    · refine ite_keep (k4 _ _ k9) ?_
      split
      · rename_i e10
        have k11 := pair_keep e10 (engineRead_keep k9)
        exact faultCrush_keep k11
      · rename_i e12
        have k13 := pair_keep e12 (engineRead_keep k9)
        split
        · exact k4 _ _ k13
        · exact finishBlock_keep k13

theorem compressStep_keep {s0 s : State} {e : Nat} {op : CrushOp} {ext : HostRead} {upset : Bool} (h : Keep s0 s) :
    Keep s0 (compressStep s e op ext upset) := by
  unfold compressStep
  extract_lets +onlyGivenNames x1
  clear_value x1
  split
  · rename_i e2
    have k3 := pair_keep e2 (engineRead_keep h)
    exact faultCrush_keep k3
  · rename_i e4
    have k5 := pair_keep e4 (engineRead_keep h)
    extract_lets +onlyGivenNames x6 x7
    clear_value x7
    refine ite_keep (failCrush_keep k5) ?_
    refine ite_keep (failCrush_keep k5) ?_
    split
    · rename_i e8
      have k9 := pair_keep e8 (engineWrite_keep k5)
      exact faultCrush_keep (claimReqs_keep k9)
    · rename_i e10
      have k11 := pair_keep e10 (engineWrite_keep k5)
      extract_lets +onlyGivenNames x12 x13 x14 x15 x16
      have k17 : Keep s0 x12 := snoopCrush_keep (claimReqs_keep k11)
      clear_value x12
      clear_value x13
      have k18 : Keep s0 x14 := bump64_keep k17
      clear_value x14
      have k19 : Keep s0 x15 := ite_keep (bump32_keep k18) k18
      clear_value x15
      clear_value x16
      exact ite_keep (endCrush_keep (updCrush_keep k19)) (updCrush_keep k19)

theorem execCrusherBlock_keep {s0 : State} {engine : BitVec 1} {ext : HostRead} {upset : Bool} {s : State} (h : Keep s0 s) :
    KeepO s0 (execCrusherBlock engine ext upset s) := by
  unfold execCrusherBlock
  extract_lets +onlyGivenNames x1
  clear_value x1
  split
  · exact next_keep h
  · extract_lets +onlyGivenNames x2
    exact next_keep (settle_keep (ite_keep (compressStep_keep (updCrush_keep h)) (decodeStep_keep (updCrush_keep h))))

theorem preemptCrush_keep {s0 s : State} {e : Nat} {op : CrushOp} (h : Keep s0 s) :
    Keep s0 (preemptCrush s e op) := by
  unfold preemptCrush
  extract_lets +onlyGivenNames x1
  have k2 : Keep s0 x1 := setCrush_keep h
  clear_value x1
  split
  rename_i e3
  have k4 := pair_keep e3 (saveUnit_keep (countPreempt_keep k2))
  extract_lets +onlyGivenNames x5
  clear_value x5
  exact noteConds_keep (setSched_keep k4)

theorem execCrusherPreemption_keep {s0 : State} {engine : BitVec 1} {wid : Nat} {s : State} (h : Keep s0 s) :
    KeepO s0 (execCrusherPreemption engine wid s) := by
  unfold execCrusherPreemption
  extract_lets +onlyGivenNames x1
  clear_value x1
  split
  · refine ite_keepO ?_ ?_
    · exact next_keep (preemptCrush_keep (stopMade_keep h))
    · exact next_keep h
  · exact next_keep h

theorem dispatchCrush_keep {s0 s : State} {p : Nat} {i : Nat} {r : Ring} {e : Entry} (h : Keep s0 s) :
    Keep s0 (dispatchCrush s p i r e) := by
  unfold dispatchCrush
  exact settle_keep (addCrush_keep (dispatched_keep h))

theorem execCompress_keep {s0 : State} {p : Part} {ring : BitVec 10} {s : State} (h : Keep s0 s) :
    KeepO s0 (execCompress p ring s) := by
  unfold execCompress
  split
  · exact next_keep (dispatchCrush_keep h)
  · exact next_keep h

theorem execDecompress_keep {s0 : State} {p : Part} {ring : BitVec 10} {s : State} (h : Keep s0 s) :
    KeepO s0 (execDecompress p ring s) := by
  unfold execDecompress
  split
  · exact next_keep (dispatchCrush_keep h)
  · exact next_keep h

theorem execCheck_keep {s0 : State} {p : Part} {ring : BitVec 10} {s : State} (h : Keep s0 s) :
    KeepO s0 (execCheck p ring s) := by
  unfold execCheck
  split
  · exact next_keep (dispatchCrush_keep h)
  · exact next_keep h

theorem refuseEntry_keep {s0 s : State} {l : List Nat} (h : Keep s0 s) :
    Keep s0 (refuseEntry s l) := by
  unfold refuseEntry
  exact foldl_keep (pwrResult_keep (setPower_keep h)) (fun _ _ k1 => (bump32_keep k1))

theorem killWork_keep {s0 s : State} (h : Keep s0 s) :
    Keep s0 (killWork s) := by
  unfold killWork
  exact foldl_keep h (fun _ _ k1 => (killCtx_keep k1))

theorem requestState_keep {s0 s : State} {target : Nat} {force : Bool} (h : Keep s0 s) :
    Keep s0 (requestState s target force) := by
  unfold requestState
  refine ite_keep h ?_
  extract_lets +onlyGivenNames x1 x2
  have k3 : Keep s0 x1 := wrF_keep (wrF_keep (leaveA1_keep h))
  clear_value x1
  clear_value x2
  refine ite_keep ?_ ?_
  · extract_lets +onlyGivenNames x4
    clear_value x4
    extract_lets +onlyGivenNames x5
    have k6 : Keep s0 x5 := wrF_keep (pwrResult_keep (setPower_keep k3))
    clear_value x5
    exact ite_keep (killWork_keep k6) k6
  · exact refuseEntry_keep k3

theorem execA2Request_keep {s0 : State} {force : Bool} {s : State} (h : Keep s0 s) :
    KeepO s0 (execA2Request force s) := by
  unfold execA2Request
  refine ite_keepO ?_ ?_
  · exact next_keep (hostTouch_keep h)
  · extract_lets +onlyGivenNames x1
    have k2 : Keep s0 x1 := hostTouch_keep h
    clear_value x1
    exact next_keep (requestState_keep k2)

theorem execA3Request_keep {s0 : State} {force : Bool} {s : State} (h : Keep s0 s) :
    KeepO s0 (execA3Request force s) := by
  unfold execA3Request
  refine ite_keepO ?_ ?_
  · exact next_keep (hostTouch_keep h)
  · extract_lets +onlyGivenNames x1
    have k2 : Keep s0 x1 := hostTouch_keep h
    clear_value x1
    exact next_keep (requestState_keep k2)

theorem execA4Request_keep {s0 : State} {force : Bool} {s : State} (h : Keep s0 s) :
    KeepO s0 (execA4Request force s) := by
  unfold execA4Request
  refine ite_keepO ?_ ?_
  · exact next_keep (hostTouch_keep h)
  · extract_lets +onlyGivenNames x1
    have k2 : Keep s0 x1 := hostTouch_keep h
    clear_value x1
    exact next_keep (requestState_keep k2)

theorem flushDirty_keep {s0 s : State} (h : Keep s0 s) :
    Keep s0 (flushDirty s) := by
  unfold flushDirty
  extract_lets +onlyGivenNames x1
  have k2 : Keep s0 x1 := foldl_keep h (fun _ _ k3 => (writebackLine_keep k3))
  clear_value x1
  exact foldl_keep k2 (fun _ _ k4 => (foldl_keep k4 (fun _ _ k5 => (drainEv_keep k5))))

theorem execPmeToAck_keep {s0 : State} {d3hot : Bool} {s : State} (h : Keep s0 s) :
    KeepO s0 (execPmeToAck d3hot s) := by
  unfold execPmeToAck
  split
  · exact next_keep h
  · refine ite_keepO ?_ ?_
    · exact next_keep h
    · refine ite_keepO ?_ ?_
      · exact next_keep (refuseEntry_keep h)
      · extract_lets +onlyGivenNames x1
        have k2 : Keep s0 x1 := pwrResult_keep (flushDirty_keep h)
        clear_value x1
        exact next_keep (setPower_keep k2)

theorem execHandshakeTimeout_keep {s0 s : State} (h : Keep s0 s) :
    KeepO s0 (execHandshakeTimeout s) := by
  unfold execHandshakeTimeout
  split
  · refine ite_keepO ?_ ?_
    · exact next_keep (abortEntry_keep h)
    · exact next_keep h
  · exact next_keep h

theorem enterA2_keep {s0 s : State} (h : Keep s0 s) :
    Keep s0 (enterA2 s) := by
  unfold enterA2
  extract_lets +onlyGivenNames x1 x2 x3 x4 x5
  have k6 : Keep s0 x1 := foldl_keep h (fun _ _ k7 => (setPort_keep (setPortState_keep k7)))
  clear_value x1
  clear_value x2
  have k8 : Keep s0 x3 := setCore_keep k6
  clear_value x3
  clear_value x4
  have k9 : Keep s0 x5 := setSched_keep k8
  clear_value x5
  extract_lets +onlyGivenNames x10 x11
  have k12 : Keep s0 x11 := setMem_keep k9 rfl
  clear_value x11
  extract_lets +onlyGivenNames x13
  have k14 : ∀ y0 y1, Keep s0 y0 → Keep s0 (x13 y0 y1) := fun _ _ k15 => (wrF_keep k15)
  clear_value x13
  refine setPwrState_keep ?_
  refine wrF_keep ?_
  extract_lets +onlyGivenNames x16
  have k17 : Keep s0 x16 := k14 _ _ (k14 _ _ k12)
  clear_value x16
  exact ⟨k17.1, fun ha => ⟨(k17.2 ha).1, (k17.2 ha).2.1, rfl, (k17.2 ha).2.2.2⟩⟩

theorem enterA4_keep {s0 s : State} (h : Keep s0 s) :
    Keep s0 (enterA4 s) := by
  unfold enterA4
  extract_lets +onlyGivenNames x1
  have k2 : Keep s0 x1 := loseAll_keep h
  clear_value x1
  exact setPwrState_keep (upd_keep k2 rfl rfl rfl)

theorem execTargetStateEntry_keep {s0 s : State} (h : Keep s0 s) :
    KeepO s0 (execTargetStateEntry s) := by
  unfold execTargetStateEntry
  split
  · exact next_keep h
  · refine ite_keepO ?_ ?_
    · exact next_keep h
    · extract_lets +onlyGivenNames x1
      clear_value x1
      extract_lets +onlyGivenNames x2
      have k3 : Keep s0 x2 := setPower_keep h
      clear_value x2
      exact next_keep (ite_keep (enterA2_keep k3) (ite_keep (enterA3_keep k3) (enterA4_keep k3)))

theorem execA1Entry_keep {s0 s : State} (h : Keep s0 s) :
    KeepO s0 (execA1Entry s) := by
  unfold execA1Entry
  extract_lets +onlyGivenNames x1
  have k2 : Keep s0 x1 := noteIdle_keep h
  clear_value x1
  split
  · refine ite_keepO ?_ ?_
    · exact next_keep (setPwrState_keep k2)
    · exact next_keep k2
  · exact next_keep k2

theorem execA2Exit_keep {s0 s : State} (h : Keep s0 s) :
    KeepO s0 (execA2Exit s) := by
  unfold execA2Exit
  refine ite_keepO ?_ ?_
  · exact next_keep (setPower_keep h)
  · exact next_keep h

theorem execRetainedDigestCheck_keep {s0 : State} {good : Bool} {s : State} (h : Keep s0 s) :
    KeepO s0 (execRetainedDigestCheck good s) := by
  unfold execRetainedDigestCheck
  refine ite_keepO ?_ ?_
  · refine ite_keepO ?_ ?_
    · extract_lets +onlyGivenNames x1
      have k2 : Keep s0 x1 := setTclk_keep h
      clear_value x1
      exact next_keep (setPower_keep k2)
    · exact next_keep (beginBoot_keep h)
  · exact next_keep h

theorem execA3Exit_keep {s0 : State} {junction : BitVec 8} {s : State} (h : Keep s0 s) :
    KeepO s0 (execA3Exit junction s) := by
  unfold execA3Exit
  refine ite_keepO ?_ ?_
  · refine ite_keepO ?_ ?_
    · exact next_keep (setPower_keep h)
    · exact next_keep (beginBoot_keep h)
  · exact next_keep h

theorem execDeferredWakeRelease_keep {s0 : State} {junction : BitVec 8} {s : State} (h : Keep s0 s) :
    KeepO s0 (execDeferredWakeRelease junction s) := by
  unfold execDeferredWakeRelease
  refine ite_keepO ?_ ?_
  · exact next_keep (beginBoot_keep h)
  · exact next_keep h

theorem judgePower_keep {s0 s : State} (h : Keep s0 s) :
    Keep s0 (judgePower s) := by
  unfold judgePower
  extract_lets +onlyGivenNames x1 x2
  clear_value x1
  exact setPower_keep h

theorem showTclk_keep {s0 s : State} (h : Keep s0 s) :
    Keep s0 (showTclk s) := by
  unfold showTclk
  exact wrF_keep h

theorem execPowerMean_keep {s0 : State} {watts : BitVec 10} {junction : BitVec 8} {s : State} (h : Keep s0 s) :
    KeepO s0 (execPowerMean watts junction s) := by
  unfold execPowerMean
  refine ite_keepO ?_ ?_
  · exact next_keep h
  · exact next_keep (judgePower_keep (showTclk_keep (wrF_keep (wrF_keep h))))

theorem moveTclk_keep {s0 s : State} {mhz : Nat} (h : Keep s0 s) :
    Keep s0 (moveTclk s mhz) := by
  unfold moveTclk
  extract_lets +onlyGivenNames x1
  have k2 : Keep s0 x1 := setTclk_keep h
  clear_value x1
  exact judgePower_keep (showTclk_keep (setPower_keep k2))

theorem execTclkThrottleStep_keep {s0 s : State} (h : Keep s0 s) :
    KeepO s0 (execTclkThrottleStep s) := by
  unfold execTclkThrottleStep
  refine ite_keepO ?_ ?_
  · exact next_keep (moveTclk_keep h)
  · exact next_keep h

theorem execTclkRaiseStep_keep {s0 s : State} (h : Keep s0 s) :
    KeepO s0 (execTclkRaiseStep s) := by
  unfold execTclkRaiseStep
  refine ite_keepO ?_ ?_
  · exact next_keep (moveTclk_keep h)
  · exact next_keep h

theorem askCtx_keep {s0 s : State} {k : Nat} (h : Keep s0 s) :
    Keep s0 (askCtx s k) := by
  unfold askCtx
  exact foldl_keep h (fun _ _ k1 => (askStop_keep k1))

theorem askNormal_keep {s0 s : State} (h : Keep s0 s) :
    Keep s0 (askNormal s) := by
  unfold askNormal
  exact foldl_keep h (fun _ _ k1 => (askCtx_keep k1))

theorem execPowerLimitAbort_keep {s0 s : State} (h : Keep s0 s) :
    KeepO s0 (execPowerLimitAbort s) := by
  unfold execPowerLimitAbort
  split
  · refine ite_keepO ?_ ?_
    · extract_lets +onlyGivenNames x1 x2 x3
      clear_value x1
      have k4 : Keep s0 x2 := askNormal_keep (setSched_keep h)
      clear_value x2
      have k5 : Keep s0 x3 := wrF_keep k4
      clear_value x3
      extract_lets +onlyGivenNames x6
      have k7 : Keep s0 x6 := appendRec_keep k5
      clear_value x6
      exact next_keep (sendMsix_keep k7)
    · exact next_keep h
  · exact next_keep h

theorem execNormalPlacementResume_keep {s0 s : State} (h : Keep s0 s) :
    KeepO s0 (execNormalPlacementResume s) := by
  unfold execNormalPlacementResume
  split
  · refine ite_keepO ?_ ?_
    · exact next_keep (settle_keep (wrF_keep (setSched_keep h)))
    · exact next_keep h
  · exact next_keep h

theorem execPwrCoolant_keep {s0 : State} {value : Word32} {s : State} (h : Keep s0 s) :
    KeepO s0 (execPwrCoolant value s) := by
  unfold execPwrCoolant
  refine ite_keepO ?_ ?_
  · exact next_keep (hostTouch_keep h)
  · extract_lets +onlyGivenNames x1 x2 x3 x4
    have k5 : Keep s0 x1 := hostTouch_keep h
    clear_value x1
    have k6 : Keep s0 x2 := wr_keep k5
    clear_value x2
    exact next_keep (setPower_keep k6)

theorem beginLoss_keep {s0 s : State} {reason : Nat} (h : Keep s0 s) :
    Keep s0 (beginLoss s reason) := by
  unfold beginLoss
  extract_lets +onlyGivenNames x1 x2
  have k3 : Keep s0 x1 := judgePower_keep (wrF_keep h)
  clear_value x1
  have k4 : Keep s0 x2 := appendRec_keep k3
  clear_value x2
  exact sendMsix_keep k4

theorem execCoolantLoss_keep {s0 s : State} (h : Keep s0 s) :
    KeepO s0 (execCoolantLoss s) := by
  unfold execCoolantLoss
  refine ite_keepO ?_ ?_
  · refine ite_keepO ?_ ?_
    · exact next_keep (beginLoss_keep h)
    · refine ite_keepO ?_ ?_
      · exact next_keep (beginLoss_keep h)
      · exact next_keep h
  · exact next_keep h

theorem execCoolantReportMissing_keep {s0 s : State} (h : Keep s0 s) :
    KeepO s0 (execCoolantReportMissing s) := by
  unfold execCoolantReportMissing
  refine ite_keepO ?_ ?_
  · extract_lets +onlyGivenNames x1
    clear_value x1
    extract_lets +onlyGivenNames x2
    have k3 : Keep s0 x2 := setPower_keep h
    clear_value x2
    refine ite_keepO ?_ ?_
    · exact next_keep (beginLoss_keep k3)
    · exact next_keep k3
  · exact next_keep h

theorem execCoolantLossEnd_keep {s0 s : State} (h : Keep s0 s) :
    KeepO s0 (execCoolantLossEnd s) := by
  unfold execCoolantLossEnd
  split
  · refine ite_keepO ?_ ?_
    · exact next_keep (judgePower_keep (wrF_keep h))
    · exact next_keep h
  · exact next_keep h

theorem execThermalTrip_keep {s0 s : State} (h : Keep s0 s) :
    KeepO s0 (execThermalTrip s) := by
  unfold execThermalTrip
  refine ite_keepO ?_ ?_
  · extract_lets +onlyGivenNames x1
    have k2 : Keep s0 x1 := enterA3_keep h
    clear_value x1
    exact next_keep (emit_keep (setPower_keep k2))
  · exact next_keep h

theorem setWb_keep {s0 s : State} {x : WbSt} (h : Keep s0 s) :
    Keep s0 (setWb s x) := by
  unfold setWb
  exact upd_keep h rfl rfl rfl

theorem setStream_keep {s0 s : State} {i : Nat} {x : WbStream} (h : Keep s0 s) :
    Keep s0 (setStream s i x) := by
  unfold setStream
  exact setWb_keep h

theorem snoopSensor_keep {s0 s : State} {i : Nat} {q : MarkPiece} (h : Keep s0 s) :
    Keep s0 (snoopSensor s i q) := by
  unfold snoopSensor
  exact snoop_keep h

theorem execSample_keep {s0 : State} {stream : BitVec 4} {s : State} (h : Keep s0 s) :
    KeepO s0 (execSample stream s) := by
  unfold execSample
  extract_lets +onlyGivenNames x1 x2 x3
  clear_value x1
  clear_value x2
  clear_value x3
  refine ite_keepO ?_ ?_
  · extract_lets +onlyGivenNames x4
    have k5 : Keep s0 x4 := setStream_keep h
    clear_value x4
    exact next_keep (snoopSensor_keep (emit_keep k5))
  · exact next_keep h

theorem deliverRec_keep {s0 s : State} {i : Nat} {r : WbRec} (h : Keep s0 s) :
    Keep s0 (deliverRec s i r).1 := by
  unfold deliverRec
  extract_lets +onlyGivenNames x1 x2
  clear_value x1
  clear_value x2
  refine ite_fst_keep h ?_
  extract_lets +onlyGivenNames x3
  clear_value x3
  split
  · rename_i e4
    have k5 := pair_keep e4 (engineWrite_keep h)
    exact wr_keep k5
  · rename_i e6
    have k7 := pair_keep e6 (engineWrite_keep h)
    exact k7

theorem deliverList_keep {s0 s : State} {i : Nat} {l : List WbRec} (h : Keep s0 s) : Keep s0 (deliverList s i l).1 := by
  induction l generalizing s with
  | nil => exact h
  | cons r t ih => exact fst_keep (ih (deliverRec_keep h))

theorem deliverStream_keep {s0 s : State} {i : Nat} (h : Keep s0 s) :
    Keep s0 (deliverStream s i) := by
  unfold deliverStream
  refine ite_keep ?_ ?_
  · split
    rename_i e1
    have k2 := pair_keep e1 (deliverList_keep h)
    exact setStream_keep k2
  · exact h

theorem deliverHeld_keep {s0 s : State} (h : Keep s0 s) :
    Keep s0 (deliverHeld s) := by
  unfold deliverHeld
  exact foldl_keep h (fun _ _ k1 => (deliverStream_keep k1))

theorem holdRec_keep {s0 s : State} {i : Nat} {bs : List Byte} (h : Keep s0 s) :
    Keep s0 (holdRec s i bs) := by
  unfold holdRec
  extract_lets +onlyGivenNames x1 x2 x3
  clear_value x1
  clear_value x2
  have k4 : Keep s0 x3 := setStream_keep h
  clear_value x3
  exact ite_keep (bump32_keep k4) k4

theorem execA2RefillEnd_keep {s0 s : State} (h : Keep s0 s) :
    KeepO s0 (execA2RefillEnd s) := by
  unfold execA2RefillEnd
  refine ite_keepO ?_ ?_
  · extract_lets +onlyGivenNames x1
    have k2 : Keep s0 x1 := foldl_keep h (fun _ _ k3 => (fillClaim_keep k3))
    clear_value x1
    exact next_keep (settle_keep (deliverHeld_keep (setPower_keep (setPwrState_keep k2))))
  · exact next_keep h

theorem wakeEvent_keep {s0 s : State} (h : Keep s0 s) :
    Keep s0 (wakeEvent s) := by
  unfold wakeEvent
  extract_lets +onlyGivenNames x1
  have k2 : Keep s0 x1 := abortEntry_keep h
  clear_value x1
  refine ite_keep ?_ ?_
  · split
    · exact k2
    · exact ite_keep (setPower_keep k2) k2
  · exact k2

theorem fireClass_keep {s0 s : State} {c : Nat} (h : Keep s0 s) :
    Keep s0 (fireClass s c) := by
  unfold fireClass
  extract_lets +onlyGivenNames x1 x2 x3 x4 x5 x6 x7
  clear_value x1
  clear_value x2
  clear_value x3
  clear_value x5
  have k8 : Keep s0 x6 := ite_keep (wakeEvent_keep (setWb_keep h)) h
  clear_value x6
  clear_value x7
  extract_lets +onlyGivenNames x9 x10
  have k11 : Keep s0 x9 := ite_keep (emit_keep (setPower_keep k8)) k8
  clear_value x9
  clear_value x10
  extract_lets +onlyGivenNames x12
  have k13 : Keep s0 x12 := setWb_keep k11
  clear_value x12
  extract_lets +onlyGivenNames x14
  have k15 : Keep s0 x14 := ite_keep (ite_keep (emit_keep k13) k13) k11
  clear_value x14
  exact ite_keep (sendMsix_keep (wrF_keep (leaveA1_keep k15))) k15

theorem judgeClass_keep {s0 s : State} {c : Nat} {score : Byte} (h : Keep s0 s) :
    Keep s0 (judgeClass s c score) := by
  unfold judgeClass
  extract_lets +onlyGivenNames x1 x2 x3 x4 x5
  clear_value x1
  clear_value x2
  clear_value x3
  clear_value x4
  clear_value x5
  extract_lets +onlyGivenNames x6
  have k7 : Keep s0 x6 := setWb_keep h
  clear_value x6
  exact ite_keep (fireClass_keep k7) k7

theorem evalRecord_keep {s0 s : State} {i : Nat} {bs : List Byte} (h : Keep s0 s) :
    Keep s0 (evalRecord s i bs) := by
  unfold evalRecord
  refine ite_keep h ?_
  split
  extract_lets +onlyGivenNames x1
  clear_value x1
  extract_lets +onlyGivenNames x2
  have k3 : Keep s0 x2 := setWb_keep (upd_keep h rfl rfl rfl)
  clear_value x2
  split
  · exact wrF_keep k3
  · exact k3
  · exact foldl_keep k3 (fun _ _ k4 => (judgeClass_keep k4))

theorem execSampleRecord_keep {s0 : State} {stream : BitVec 4} {bytes : List Byte} {err : Bool} {s : State} (h : Keep s0 s) :
    KeepO s0 (execSampleRecord stream bytes err s) := by
  unfold execSampleRecord
  extract_lets +onlyGivenNames x1
  clear_value x1
  split
  · exact next_keep h
  · extract_lets +onlyGivenNames x2 x3 x4
    clear_value x2
    clear_value x3
    have k5 : Keep s0 x4 := snoopSensor_keep (holdRec_keep h)
    clear_value x4
    exact next_keep (evalRecord_keep (deliverStream_keep k5))

theorem execSampleStall_keep {s0 : State} {stream : BitVec 4} {got : List Byte} {s : State} (h : Keep s0 s) :
    KeepO s0 (execSampleStall stream got s) := by
  unfold execSampleStall
  extract_lets +onlyGivenNames x1
  clear_value x1
  split
  · exact next_keep h
  · refine ite_keepO ?_ ?_
    · extract_lets +onlyGivenNames x2 x3
      clear_value x2
      have k4 : Keep s0 x3 := setStream_keep h
      clear_value x3
      extract_lets +onlyGivenNames x5
      have k6 : Keep s0 x5 := bump32_keep (snoopSensor_keep k4)
      clear_value x5
      refine ite_keepO ?_ ?_
      · exact next_keep (appendRec_keep k6)
      · exact next_keep k6
    · exact next_keep h

theorem resetWeigh_keep {s0 s : State} (h : Keep s0 s) :
    Keep s0 (resetWeigh s) := by
  unfold resetWeigh
  extract_lets +onlyGivenNames x1
  clear_value x1
  extract_lets +onlyGivenNames x2
  have k3 : Keep s0 x2 := setWb_keep h
  clear_value x2
  exact bump32_keep k3

theorem execWeighbridgeWatchdog_keep {s0 s : State} (h : Keep s0 s) :
    KeepO s0 (execWeighbridgeWatchdog s) := by
  unfold execWeighbridgeWatchdog
  refine ite_keepO ?_ ?_
  · exact next_keep (resetWeigh_keep h)
  · exact next_keep h

theorem execWeighbridgeResetEnd_keep {s0 : State} {good : Bool} {s : State} (h : Keep s0 s) :
    KeepO s0 (execWeighbridgeResetEnd good s) := by
  unfold execWeighbridgeResetEnd
  refine ite_keepO ?_ ?_
  · exact next_keep (setWb_keep h)
  · exact next_keep h

theorem execClassEvClear_keep {s0 : State} {value : Word32} {s : State} (h : Keep s0 s) :
    KeepO s0 (execClassEvClear value s) := by
  unfold execClassEvClear
  refine ite_keepO ?_ ?_
  · exact next_keep (hostTouch_keep h)
  · extract_lets +onlyGivenNames x1 x2 x3
    have k4 : Keep s0 x1 := hostTouch_keep h
    clear_value x1
    clear_value x2
    clear_value x3
    exact next_keep (setWb_keep (wrF_keep k4))

theorem countSigFail_keep {s0 s : State} {code : Nat} (h : Keep s0 s) :
    Keep s0 (countSigFail s code) := by
  unfold countSigFail
  exact ite_keep h (bump32_keep h)

theorem countFallback_keep {s0 s : State} (h : Keep s0 s) :
    Keep s0 (countFallback s) := by
  unfold countFallback
  exact bump32_keep h

theorem setSlot_keep {s0 s : State} {i state : Nat} {img : List Byte} (h : Keep s0 s) : Keep s0 (setSlot s i state img) := by
  unfold setSlot
  exact wr_keep (setSec_keep h (lset_length s.sec.slots i _))

theorem setSlotState_keep {s0 s : State} {i : Nat} {state : Nat} (h : Keep s0 s) :
    Keep s0 (setSlotState s i state) := by
  unfold setSlotState
  exact setSlot_keep h

theorem loadKeys_keep {s0 s : State} (h : Keep s0 s) :
    Keep s0 (loadKeys s) := by
  unfold loadKeys
  extract_lets +onlyGivenNames x1 x2 x3
  have k4 : Keep s0 x1 := setSlotState_keep (setSlotState_keep h)
  clear_value x1
  clear_value x2
  have k5 : Keep s0 x3 := wr_keep k4
  clear_value x3
  exact wr_keep (wr_keep k5)

theorem stepDone_keep {s0 s : State} {n : Nat} (h : Keep s0 s) :
    Keep s0 (stepDone s n) := by
  unfold stepDone
  exact setSec_keep h rfl

theorem toRecovery_keep {s0 s : State} {code : Nat} (h : Keep s0 s) :
    Keep s0 (toRecovery s code) := by
  unfold toRecovery
  exact setCode_keep (setSec_keep h rfl)

theorem execKeyDerivation_keep {s0 : State} {puf : Option (BitVec 128)} {s : State} (h : Keep s0 s) :
    KeepO s0 (execKeyDerivation puf s) := by
  unfold execKeyDerivation
  refine ite_keepO ?_ ?_
  · split
    · exact next_keep (stepDone_keep (setSec_keep h rfl))
    · exact next_keep (toRecovery_keep (setSec_keep h rfl))
  · exact next_keep h

theorem execConfigurationRecordChoice_keep {s0 s : State} {bad0 bad1 : BitVec 2} (h : Keep s0 s) :
    KeepO s0 (execConfigurationRecordChoice bad0 bad1 s) := by
  have hn : ∀ (t : State) (x : Nat ⊕ Nat), Keep s0 t → Keep s0 (match x with | .inr c => countSigFail t c | .inl _ => t) := by
    intro t x k
    cases x with
    | inl _ => exact k
    | inr _ => exact countSigFail_keep k
  unfold execConfigurationRecordChoice
  refine ite_keepO ?_ (next_keep h)
  have k := hn _ (recJudge s 1 bad1) (hn s (recJudge s 0 bad0) h)
  dsimp only
  split
  · exact ite_keepO (next_keep (stepDone_keep (setSec_keep k rfl))) (next_keep (stepDone_keep (setSec_keep k rfl)))
  · exact next_keep (stepDone_keep (setSec_keep k rfl))
  · exact next_keep (stepDone_keep (setSec_keep k rfl))
  · exact next_keep (toRecovery_keep k)

theorem execStackTraining_keep {s0 : State} {refclk : Bool} {id : BitVec 3} {s : State} (h : Keep s0 s) :
    KeepO s0 (execStackTraining refclk id s) := by
  unfold execStackTraining
  refine ite_keepO ?_ ?_
  · refine ite_keepO ?_ ?_
    · exact next_keep (stepDone_keep h)
    · split
      rename_i e1
      have k2 := pair_keep' e1 (draw_keep h)
      exact next_keep (stepDone_keep (setTclk_keep (wr_keep k2)))
  · exact next_keep h

theorem execMemoryFill_keep {s0 s : State} (h : Keep s0 s) : KeepO s0 (execMemoryFill s) := by
  unfold execMemoryFill
  refine ite_keepO ?_ (next_keep h)
  exact next_keep (setSec_keep (setMem_keepD h fun _ => rfl) rfl)

theorem bootFail_keep {s0 s : State} {i : Nat} {c : ImgCheck} (h : Keep s0 s) :
    Keep s0 (bootFail s i c) := by
  unfold bootFail
  exact setCode_keep (countSigFail_keep (setSlotState_keep h))

theorem bootSlot_keep {s0 s : State} {i : Nat} (h : Keep s0 s) :
    Keep s0 (bootSlot s i) := by
  unfold bootSlot
  exact setSec_keep h rfl

theorem bootFallback_keep {s0 s : State} {failed : Option (Nat × ImgCheck)} (h : Keep s0 s) :
    Keep s0 (bootFallback s failed) := by
  unfold bootFallback
  split
  · exact toRecovery_keep (setSec_keep h rfl)
  · extract_lets +onlyGivenNames x1
    clear_value x1
    refine ite_keep ?_ ?_
    · extract_lets +onlyGivenNames x2
      have k3 : Keep s0 x2 := bootSlot_keep (setSlotState_keep h)
      clear_value x2
      split
      · exact setSec_keep (countFallback_keep k3) rfl
      · exact k3
    · extract_lets +onlyGivenNames x4
      have k5 : Keep s0 x4 := bootFail_keep h
      clear_value x4
      exact toRecovery_keep (setSec_keep k5 rfl)

theorem bootActive_keep {s0 s : State} (h : Keep s0 s) :
    Keep s0 (bootActive s) := by
  unfold bootActive
  split
  · exact bootFallback_keep h
  · extract_lets +onlyGivenNames x1
    clear_value x1
    exact ite_keep (bootSlot_keep h) (bootFallback_keep (bootFail_keep h))

theorem execSlotBootVerify_keep {s0 s : State} (h : Keep s0 s) :
    KeepO s0 (execSlotBootVerify s) := by
  unfold execSlotBootVerify
  refine ite_keepO ?_ ?_
  · extract_lets +onlyGivenNames x1
    have k2 : Keep s0 x1 := foldl_keep (loadKeys_keep h) (fun _ _ k3 => (ite_keep (setSlotState_keep k3) k3))
    clear_value x1
    split
    · refine ite_keepO ?_ ?_
      · extract_lets +onlyGivenNames x4
        clear_value x4
        refine ite_keepO ?_ ?_
        · exact next_keep (bootSlot_keep (setSec_keep (setSlotState_keep k2) rfl))
        · extract_lets +onlyGivenNames x5
          have k6 : Keep s0 x5 := bootFail_keep k2
          clear_value x5
          exact next_keep (bootActive_keep (setSec_keep k6 rfl))
      · exact next_keep (bootActive_keep (setSec_keep k2 rfl))
    · exact next_keep (bootActive_keep k2)
  · exact next_keep h

theorem execGantryRelease_keep {s0 s : State} (h : Keep s0 s) :
    KeepO s0 (execGantryRelease s) := by
  unfold execGantryRelease
  refine ite_keepO ?_ ?_
  · split
    · exact next_keep h
    · extract_lets +onlyGivenNames x1 x2 x3
      clear_value x1
      clear_value x2
      clear_value x3
      extract_lets +onlyGivenNames x4
      have k5 : Keep s0 x4 := ite_keep h (setWb_keep h)
      clear_value x4
      exact next_keep (stepDone_keep (setSec_keep k5 rfl))
  · exact next_keep h

theorem showSites_keep {s0 s : State} (h : Keep s0 s) :
    Keep s0 (showSites s) := by
  unfold showSites
  extract_lets +onlyGivenNames x1 x2 x3
  clear_value x1
  clear_value x2
  clear_value x3
  exact wr_keep (wr_keep h)

theorem buildRemap_keep {s0 s : State} {back : List Nat} (h : Keep s0 s) :
    Keep s0 (buildRemap s back) := by
  unfold buildRemap
  extract_lets +onlyGivenNames x1 x2 x3 x4
  clear_value x1
  clear_value x2
  clear_value x3
  clear_value x4
  exact setMem_keep h rfl

theorem assignRoles_keep {s0 s : State} (h : Keep s0 s) :
    Keep s0 (assignRoles s) := by
  unfold assignRoles
  extract_lets +onlyGivenNames x1
  clear_value x1
  exact setSec_keep h rfl

theorem execLogicalCoreAssignment_keep {s0 : State} {back : List Nat} {s : State} (h : Keep s0 s) :
    KeepO s0 (execLogicalCoreAssignment back s) := by
  unfold execLogicalCoreAssignment
  refine ite_keepO ?_ ?_
  · extract_lets +onlyGivenNames x1
    have k2 : Keep s0 x1 := assignRoles_keep (buildRemap_keep (upd_keep h rfl rfl rfl))
    clear_value x1
    exact next_keep (stepDone_keep (showSites_keep k2))
  · exact next_keep h

theorem execReady_keep {s0 s : State} (h : Keep s0 s) :
    KeepO s0 (execReady s) := by
  unfold execReady
  refine ite_keepO ?_ ?_
  · extract_lets +onlyGivenNames x1 x2 x3
    have k4 : Keep s0 x1 := ite_keep (loadKeys_keep h) h
    clear_value x1
    clear_value x2
    have k5 : Keep s0 x3 := wrF_keep (wrF_keep (wrF_keep (wrF_keep k4)))
    clear_value x3
    exact next_keep (setSec_keep k5 rfl)
  · exact next_keep h

theorem execPowerOn_keep {s0 s : State} {testEn : Bool} (h : Keep s0 s) : KeepO s0 (execPowerOn testEn s) := by
  unfold execPowerOn
  refine ite_keepO (next_keep h) ?_
  refine next_keep ?_
  unfold setSec
  exact reset_keep (s := s) h (fun _ => rfl) rfl

theorem powerDown_keep {s0 s : State} (h : Keep s0 s) : Keep s0 (powerDown s) := by
  unfold powerDown
  refine ite_keep ?_ h
  unfold setSec
  exact reset_keep (s := s) h (fun _ => rfl) rfl

theorem execPwrgdDeassert_keep {s0 s : State} (h : Keep s0 s) :
    KeepO s0 (execPwrgdDeassert s) := by
  unfold execPwrgdDeassert
  exact next_keep (powerDown_keep h)

theorem execRailUndervoltage_keep {s0 s : State} (h : Keep s0 s) :
    KeepO s0 (execRailUndervoltage s) := by
  unfold execRailUndervoltage
  exact next_keep (powerDown_keep h)

theorem execPerstAssert_keep {s0 s : State} (h : Keep s0 s) :
    KeepO s0 (execPerstAssert s) := by
  unfold execPerstAssert
  refine ite_keepO ?_ ?_
  · exact next_keep h
  · extract_lets +onlyGivenNames x1
    extract_lets +onlyGivenNames x2
    have k3 : Keep s0 x2 := setSec_keep h rfl
    clear_value x2
    refine ite_keepO ?_ ?_
    · exact next_keep k3
    · refine ite_keepO ?_ ?_
      · exact next_keep k3
      · extract_lets +onlyGivenNames x4
        have k5 : Keep s0 x4 := loseAll_keep k3
        clear_value x4
        exact next_keep (setSec_keep k5 rfl)

theorem releaseWakePin_keep {s0 s : State} (h : Keep s0 s) :
    Keep s0 (releaseWakePin s) := by
  unfold releaseWakePin
  exact ite_keep (emit_keep (setPower_keep h)) h

theorem execPerstRelease_keep {s0 s : State} (h : Keep s0 s) :
    KeepO s0 (execPerstRelease s) := by
  unfold execPerstRelease
  refine ite_keepO ?_ ?_
  · exact next_keep h
  · extract_lets +onlyGivenNames x1
    extract_lets +onlyGivenNames x2
    have k3 : Keep s0 x2 := releaseWakePin_keep (setSec_keep h rfl)
    clear_value x2
    refine ite_keepO ?_ ?_
    · exact next_keep (ite_keep k3 (beginBoot_keep k3))
    · refine ite_keepO ?_ ?_
      · exact next_keep (setPower_keep k3)
      · exact next_keep k3

theorem setHead_keep {s0 s : State} {h : Nat} {x : HeadSt} (hk : Keep s0 s) : Keep s0 (setHead s h x) :=
  ⟨hk.1, fun ha => ⟨(hk.2 ha).1, (hk.2 ha).2.1, (lset_length s.heads h x).trans (hk.2 ha).2.2.1, (hk.2 ha).2.2.2⟩⟩

theorem setTrained_keep {s0 s : State} {t : Option (Nat × Nat)} (h : Keep s0 s) :
    Keep s0 (setTrained s t) := by
  unfold setTrained
  split
  · exact wrF_keep (wrF_keep h)
  · exact wrF_keep (wrF_keep h)

theorem startHead_keep {s0 s : State} {h : Nat} {t : Option (Nat × Nat)} (hk : Keep s0 s) :
    Keep s0 (startHead s h t) := by
  unfold startHead
  extract_lets +onlyGivenNames x1 x2 x3
  have k4 : Keep s0 x1 := wrF_keep hk
  clear_value x1
  have k5 : Keep s0 x2 := ite_keep (setTrained_keep k4) k4
  clear_value x2
  clear_value x3
  exact ite_keep (setHead_keep k5) (setHead_keep k5)

theorem execHeadEnable_keep {s0 : State} {head : BitVec 1} {train : Option (Nat × Nat)} {s : State} (h : Keep s0 s) :
    KeepO s0 (execHeadEnable head train s) := by
  unfold execHeadEnable
  refine ite_keepO ?_ ?_
  · exact next_keep (hostTouch_keep h)
  · extract_lets +onlyGivenNames x1
    have k2 : Keep s0 x1 := hostTouch_keep h
    clear_value x1
    refine ite_keepO ?_ ?_
    · exact next_keep k2
    · refine ite_keepO ?_ ?_
      · exact next_keep (wrF_keep k2)
      · exact next_keep (startHead_keep k2)

theorem execHeadDisable_keep {s0 : State} {head : BitVec 1} {s : State} (h : Keep s0 s) :
    KeepO s0 (execHeadDisable head s) := by
  unfold execHeadDisable
  refine ite_keepO ?_ ?_
  · exact next_keep (hostTouch_keep h)
  · extract_lets +onlyGivenNames x1 x2
    have k3 : Keep s0 x1 := hostTouch_keep h
    clear_value x1
    have k4 : Keep s0 x2 := wrF_keep k3
    clear_value x2
    exact next_keep (setHead_keep k4)

theorem stopHead_keep {s0 s : State} {h : Nat} (hk : Keep s0 s) :
    Keep s0 (stopHead s h) := by
  unfold stopHead
  extract_lets +onlyGivenNames x1
  clear_value x1
  extract_lets +onlyGivenNames x2
  have k3 : Keep s0 x2 := setHead_keep hk
  clear_value x2
  exact ite_keep (setTrained_keep k3) k3

theorem nextLine_keep {s0 s : State} {h : Nat} (hk : Keep s0 s) :
    Keep s0 (nextLine s h) := by
  unfold nextLine
  extract_lets +onlyGivenNames x1 x2
  clear_value x1
  have k3 : Keep s0 x2 := setHead_keep hk
  clear_value x2
  exact ite_keep (stopHead_keep k3) k3

theorem tickHead_keep {s0 s : State} {h : Nat} (hk : Keep s0 s) :
    Keep s0 (tickHead s h) := by
  unfold tickHead
  extract_lets +onlyGivenNames x1
  clear_value x1
  refine ite_keep hk ?_
  extract_lets +onlyGivenNames x2
  have k3 : Keep s0 x2 := setHead_keep hk
  clear_value x2
  exact ite_keep (nextLine_keep k3) k3

theorem flipHead_keep {s0 s : State} {h : Nat} {a : Nat} (hk : Keep s0 s) :
    Keep s0 (flipHead s h a) := by
  unfold flipHead
  extract_lets +onlyGivenNames x1
  have k2 : Keep s0 x1 := ite_keep (bump32_keep hk) hk
  clear_value x1
  exact setHead_keep k2

theorem execDressFlip_keep {s0 : State} {p : Part} {head : BitVec 1} {value : Word} {s : State} (h : Keep s0 s) :
    KeepO s0 (execDressFlip p head value s) := by
  unfold execDressFlip
  refine ite_keepO ?_ ?_
  · exact next_keep (hostTouch_keep h)
  · extract_lets +onlyGivenNames x1
    have k2 : Keep s0 x1 := hostTouch_keep h
    clear_value x1
    refine ite_keepO ?_ ?_
    · exact next_keep (flipHead_keep k2)
    · exact next_keep k2

theorem dressRead_keep {s0 s : State} {p : Nat} {va : Nat} {n : Nat} (h : Keep s0 s) :
    Keep s0 (dressRead s p va n).1 := by
  unfold dressRead
  split
  · exact ite_fst_keep (engineRead_keep h) h
  · exact h

theorem dressWrite_keep {s0 s : State} {p : Nat} {va : Nat} {bs : List Byte} (h : Keep s0 s) :
    Keep s0 (dressWrite s p va bs).1 := by
  unfold dressWrite
  split
  · exact ite_fst_keep (engineWrite_keep h) h
  · exact h

theorem dressWords_keep {s0 s : State} {p va n off : Nat} {acc : List Byte} (h : Keep s0 s) :
    Keep s0 (dressWords s p va n off acc).1 := by
  induction n generalizing s off acc with
  | zero => exact h
  | succ k ih =>
    unfold dressWords
    split
    · rename_i e
      exact fst_keep (pair_keep e (dressRead_keep h))
    · rename_i e
      exact ih (pair_keep e (dressRead_keep h))

theorem readTable_keep {s0 s : State} {p : Nat} {idx : Nat} {va : Nat} {n : Nat} {m : Map (List Byte)} (h : Keep s0 s) :
    Keep s0 (readTable s p idx va n m).1 := by
  unfold readTable
  refine ite_fst_keep h ?_
  split
  · rename_i e1
    have k2 := pair_keep e1 (dressRead_keep h)
    exact k2
  · rename_i e3
    have k4 := pair_keep e3 (dressRead_keep h)
    exact k4

theorem readTables_keep {s0 s : State} {p : Nat} {b : List Byte} (h : Keep s0 s) :
    Keep s0 (readTables s p b).1 := by
  unfold readTables
  exact foldl_fst_keep (readTable_keep h) (fun _ _ k1 => (ite_fst_keep (readTable_keep k1) k1))

theorem flipRejected_keep {s0 s : State} {h : Nat} {a : Nat} {what : Nat} {off : Nat} (hk : Keep s0 s) :
    Keep s0 (flipRejected s h a what off) := by
  unfold flipRejected
  exact appendRec_keep hk

theorem latchAddr_keep {s0 s : State} {h : Nat} {a : Nat} (hk : Keep s0 s) :
    Keep s0 (latchAddr s h a) := by
  unfold latchAddr
  extract_lets +onlyGivenNames x1
  clear_value x1
  refine ite_keep (setHead_keep hk) ?_
  refine ite_keep (flipRejected_keep hk) ?_
  split
  · rename_i e2
    have k3 := pair_keep e2 (dressWords_keep hk)
    exact bump32_keep (appendRec_keep k3)
  · rename_i e4
    have k5 := pair_keep e4 (dressWords_keep hk)
    split
    · exact flipRejected_keep k5
    · split
      rename_i e6
      have k7 := pair_keep e6 (readTables_keep k5)
      exact setHead_keep k7

theorem latchHead_keep {s0 s : State} {h : Nat} (hk : Keep s0 s) :
    Keep s0 (latchHead s h) := by
  unfold latchHead
  extract_lets +onlyGivenNames x1
  clear_value x1
  split
  · exact setHead_keep hk
  · extract_lets +onlyGivenNames x2 x3
    have k4 : Keep s0 x2 := latchAddr_keep (setHead_keep hk)
    clear_value x2
    clear_value x3
    exact ite_keep (sendMsix_keep k4) k4

theorem execLatchLine_keep {s0 : State} {head : BitVec 1} {s : State} (h : Keep s0 s) :
    KeepO s0 (execLatchLine head s) := by
  unfold execLatchLine
  extract_lets +onlyGivenNames x1
  clear_value x1
  refine ite_keepO ?_ ?_
  · exact next_keep (latchHead_keep h)
  · exact next_keep h

theorem startFrame_keep {s0 s : State} {h : Nat} (hk : Keep s0 s) :
    Keep s0 (startFrame s h) := by
  unfold startFrame
  extract_lets +onlyGivenNames x1 x2 x3 x4
  clear_value x1
  clear_value x2
  have k5 : Keep s0 x3 := by
    subst x3
    split
    · exact ite_keep (bump32_keep hk) hk
    · exact hk
  clear_value x3
  clear_value x4
  exact emit_keep (setHead_keep k5)

theorem execFrameStart_keep {s0 : State} {head : BitVec 1} {s : State} (h : Keep s0 s) :
    KeepO s0 (execFrameStart head s) := by
  unfold execFrameStart
  extract_lets +onlyGivenNames x1
  clear_value x1
  refine ite_keepO ?_ ?_
  · exact next_keep (startFrame_keep h)
  · exact next_keep h

theorem writeDone_keep {s0 s : State} {h : Nat} (hk : Keep s0 s) :
    Keep s0 (writeDone s h) := by
  unfold writeDone
  extract_lets +onlyGivenNames x1 x2
  clear_value x1
  have k3 : Keep s0 x2 := setHead_keep hk
  clear_value x2
  split
  · exact k3
  · exact ite_keep k3 (dressWrite_keep k3)

theorem execDoneRecord_keep {s0 : State} {head : BitVec 1} {s : State} (h : Keep s0 s) :
    KeepO s0 (execDoneRecord head s) := by
  unfold execDoneRecord
  refine ite_keepO ?_ ?_
  · exact next_keep (writeDone_keep h)
  · exact next_keep h

theorem dropHeads_keep {s0 s : State} {p : Nat} (h : Keep s0 s) :
    Keep s0 (dropHeads s p) := by
  unfold dropHeads
  exact foldl_keep h (fun _ _ k1 => (ite_keep (setHead_keep k1) k1))

theorem execHpdInterrupt_keep {s0 : State} {level : Bool} {train : Option (Nat × Nat)} {s : State} (h : Keep s0 s) :
    KeepO s0 (execHpdInterrupt level train s) := by
  unfold execHpdInterrupt
  extract_lets +onlyGivenNames x1
  have k2 : Keep s0 x1 := wrF_keep h
  clear_value x1
  refine ite_keepO ?_ ?_
  · exact next_keep (setTrained_keep (bump32_keep k2))
  · exact next_keep k2

theorem execDsiCommand_keep {s0 : State} {port : BitVec 1} {s : State} (h : Keep s0 s) :
    KeepO s0 (execDsiCommand port s) := by
  unfold execDsiCommand
  refine ite_keepO ?_ ?_
  · exact next_keep (hostTouch_keep h)
  · extract_lets +onlyGivenNames x1
    have k2 : Keep s0 x1 := hostTouch_keep h
    clear_value x1
    exact next_keep (wrF_keep k2)

theorem dsiResponse_keep {s0 s : State} {k : Nat} {resp : Option (List Byte)} (h : Keep s0 s) :
    Keep s0 (dsiResponse s k resp) := by
  unfold dsiResponse
  split
  · exact wrF_keep h
  · extract_lets +onlyGivenNames x1
    clear_value x1
    exact wrF_keep (wr_keep (wr_keep h))

theorem dsiSend_keep {s0 s : State} {k : Nat} {resp : Option (List Byte)} (h : Keep s0 s) :
    Keep s0 (dsiSend s k resp) := by
  unfold dsiSend
  extract_lets +onlyGivenNames x1 x2 x3
  clear_value x1
  have k4 : Keep s0 x3 := emit_keep h
  clear_value x3
  exact wrF_keep (ite_keep (dsiResponse_keep k4) k4)

theorem execDsiPacketSend_keep {s0 : State} {port : BitVec 1} {resp : Option (List Byte)} {s : State} (h : Keep s0 s) :
    KeepO s0 (execDsiPacketSend port resp s) := by
  unfold execDsiPacketSend
  extract_lets +onlyGivenNames x1
  clear_value x1
  refine ite_keepO ?_ ?_
  · exact next_keep (dsiSend_keep h)
  · exact next_keep h

theorem setCad_keep {s0 s : State} {c : CadenceSt} (h : Keep s0 s) :
    Keep s0 (setCad s c) := by
  unfold setCad
  exact setSched_keep h

theorem takeEdge_keep {s0 s : State} (h : Keep s0 s) :
    Keep s0 (takeEdge s) := by
  unfold takeEdge
  extract_lets +onlyGivenNames x1
  clear_value x1
  split
  · exact ite_keep (bump32_keep h) (setCad_keep h)
  · exact setCad_keep h

theorem execCadenceInEdge_keep {s0 : State} {rising : Bool} {hold : Nat} {s : State} (h : Keep s0 s) :
    KeepO s0 (execCadenceInEdge rising hold s) := by
  unfold execCadenceInEdge
  extract_lets +onlyGivenNames x1
  clear_value x1
  refine ite_keepO ?_ ?_
  · exact next_keep (setCad_keep h)
  · refine ite_keepO ?_ ?_
    · exact next_keep (setCad_keep h)
    · refine ite_keepO ?_ ?_
      · exact next_keep (takeEdge_keep h)
      · exact next_keep h

theorem missPulse_keep {s0 s : State} (h : Keep s0 s) :
    Keep s0 (missPulse s) := by
  unfold missPulse
  split
  · extract_lets +onlyGivenNames x1
    have k2 : Keep s0 x1 := bump32_keep h
    clear_value x1
    exact setCad_keep k2
  · exact h

theorem execMissingPulse_keep {s0 s : State} (h : Keep s0 s) :
    KeepO s0 (execMissingPulse s) := by
  unfold execMissingPulse
  refine ite_keepO ?_ ?_
  · exact next_keep (missPulse_keep h)
  · exact next_keep h

theorem pulseUnlocked_keep {s0 s : State} {e : Nat} (h : Keep s0 s) :
    Keep s0 (pulseUnlocked s e) := by
  unfold pulseUnlocked
  extract_lets +onlyGivenNames x1
  clear_value x1
  split
  · exact setCad_keep h
  · refine ite_keep (setCad_keep h) ?_
    extract_lets +onlyGivenNames x2 x3
    clear_value x2
    clear_value x3
    exact ite_keep (setCad_keep h) (setCad_keep h)

theorem pulseLocked_keep {s0 s : State} {e : Nat} {l : Nat} (h : Keep s0 s) :
    Keep s0 (pulseLocked s e l) := by
  unfold pulseLocked
  extract_lets +onlyGivenNames x1 x2 x3
  clear_value x1
  clear_value x2
  clear_value x3
  refine ite_keep (setCad_keep h) ?_
  extract_lets +onlyGivenNames x4
  have k5 : Keep s0 x4 := bump32_keep h
  clear_value x4
  exact setCad_keep k5

theorem pulseAct_keep {s0 s : State} {e : Nat} (h : Keep s0 s) :
    Keep s0 (pulseAct s e) := by
  unfold pulseAct
  extract_lets +onlyGivenNames x1
  have k2 : Keep s0 x1 := ite_keep (missPulse_keep h) h
  clear_value x1
  split
  · exact pulseLocked_keep k2
  · exact pulseUnlocked_keep k2

theorem execPulse_keep {s0 s : State} (h : Keep s0 s) :
    KeepO s0 (execPulse s) := by
  unfold execPulse
  split
  · refine ite_keepO ?_ ?_
    · exact next_keep (pulseAct_keep h)
    · exact next_keep h
  · exact next_keep h

theorem execPhaseWrap_keep {s0 s : State} (h : Keep s0 s) :
    KeepO s0 (execPhaseWrap s) := by
  unfold execPhaseWrap
  extract_lets +onlyGivenNames x1
  clear_value x1
  refine ite_keepO ?_ ?_
  · exact next_keep (setCad_keep h)
  · exact next_keep h

theorem waitGate_keep {s0 s : State} {wid : Nat} {gate : Nat} {value : Nat} (h : Keep s0 s) :
    Keep s0 (waitGate s wid gate value) := by
  unfold waitGate
  exact setSched_keep h

theorem countDead_keep {s0 s : State} {g : GateWait} (h : Keep s0 s) :
    Keep s0 (countDead s g) := by
  unfold countDead
  exact ite_keep (bump32_keep h) h

theorem passGate_keep {s0 s : State} {wid : Nat} (h : Keep s0 s) :
    Keep s0 (passGate s wid) := by
  unfold passGate
  extract_lets +onlyGivenNames x1
  clear_value x1
  extract_lets +onlyGivenNames x2
  have k3 : Keep s0 x2 := setSched_keep h
  clear_value x2
  split
  · exact updNode_keep k3
  · exact upd_keep k3 rfl rfl rfl

theorem execGateOpen_keep {s0 : State} {wid : Nat} {s : State} (h : Keep s0 s) :
    KeepO s0 (execGateOpen wid s) := by
  unfold execGateOpen
  split
  · refine ite_keepO ?_ ?_
    · exact next_keep (settle_keep (passGate_keep (countDead_keep h)))
    · exact next_keep h
  · exact next_keep h

theorem countMiss_keep {s0 s : State} {li : Nat} {l : Launch} {wid : Nat} (h : Keep s0 s) :
    Keep s0 (countMiss s li l wid) := by
  unfold countMiss
  extract_lets +onlyGivenNames x1 x2
  have k3 : Keep s0 x1 := charge_keep (bump32_keep h)
  clear_value x1
  have k4 : Keep s0 x2 := updNode_keep k3
  clear_value x2
  exact setSched_keep k4

theorem execDeadlineMiss_keep {s0 : State} {wid : Nat} {s : State} (h : Keep s0 s) :
    KeepO s0 (execDeadlineMiss wid s) := by
  unfold execDeadlineMiss
  split
  · split
    · refine ite_keepO ?_ ?_
      · exact next_keep (countMiss_keep h)
      · exact next_keep h
    · exact next_keep h
  · exact next_keep h

theorem dressBlock_keep {s0 s : State} {p : Nat} {x : XSurf} {k : Nat} {first : Bool} (h : Keep s0 s) :
    Keep s0 (dressBlock s p x k first).1 := by
  unfold dressBlock
  split
  · exact h
  · exact h
  · split
    · rename_i e1
      have k2 := pair_keep e1 (readBlockBy_keep h)
      exact k2
    · rename_i e3
      have k4 := pair_keep e3 (readBlockBy_keep h)
      exact k4

theorem dressRow_keep {s0 s : State} {p : Nat} {x : XSurf} {y n : Nat} {acc : List (List Byte)} (h : Keep s0 s) :
    Keep s0 (dressRow s p x y n acc).1 := by
  induction n generalizing s acc with
  | zero => exact h
  | succ m ih =>
    unfold dressRow
    dsimp only
    split
    · rename_i e
      exact fst_keep (pair_keep e (dressBlock_keep h))
    · rename_i e
      exact ih (pair_keep e (dressBlock_keep h))

theorem layerRow_keep {s0 s : State} {p : Nat} {l : List Byte} {line : Nat} (h : Keep s0 s) :
    Keep s0 (layerRow s p l line).1 := by
  unfold layerRow
  extract_lets +onlyGivenNames x1 x2
  clear_value x1
  clear_value x2
  refine ite_fst_keep (dressRow_keep h) ?_
  split
  · rename_i e3
    have k4 := pair_keep e3 (dressRead_keep h)
    exact k4
  · rename_i e5
    have k6 := pair_keep e5 (dressRead_keep h)
    exact k6

theorem layerFaults_keep {s0 s : State} {h : Nat} {i : Nat} {line : Nat} {rec_ : Nat} {f : XFault} (hk : Keep s0 s) :
    Keep s0 (layerFaults s h i line rec_ f) := by
  unfold layerFaults
  extract_lets +onlyGivenNames x1
  clear_value x1
  extract_lets +onlyGivenNames x2
  have k3 : Keep s0 x2 := setHead_keep hk
  clear_value x2
  exact bump32_keep (appendRec_keep k3)

theorem fetchLayers_keep {s0 s : State} {h line : Nat} {r : FrameRec} {l : List Nat} (hk : Keep s0 s) :
    Keep s0 (fetchLayers s h line r l).1 := by
  induction l generalizing s with
  | nil => exact hk
  | cons i rest ih =>
    unfold fetchLayers
    dsimp only
    refine ite_fst_keep ?_ (ih hk)
    split
    · rename_i e
      exact ih (layerFaults_keep (pair_keep e (layerRow_keep hk)))
    · rename_i e
      exact fst_keep (ih (pair_keep e (layerRow_keep hk)))

theorem wbFlush_keep {s0 s : State} {p : Nat} {x : XSurf} {rows : Map (List Byte)} {y0 : Nat} (h : Keep s0 s) :
    Keep s0 (wbFlush s p x rows y0) := by
  unfold wbFlush
  extract_lets +onlyGivenNames x1
  clear_value x1
  refine foldl_keep h (fun x2 x3 k4 => ?_)
  extract_lets +onlyGivenNames x5
  clear_value x5
  split
  · exact writeBlock_keep k4
  · exact k4

theorem writebackRow_keep {s0 s : State} {h : Nat} {line : Nat} {b : List Byte} {px : List (List Val)} (hk : Keep s0 s) :
    Keep s0 (writebackRow s h line b px) := by
  unfold writebackRow
  extract_lets +onlyGivenNames x1
  clear_value x1
  refine ite_keep hk ?_
  extract_lets +onlyGivenNames x2
  clear_value x2
  refine ite_keep ?_ ?_
  · extract_lets +onlyGivenNames x3 x4
    clear_value x3
    clear_value x4
    exact ite_keep (wbFlush_keep (setHead_keep hk)) (setHead_keep hk)
  · exact dressWrite_keep hk

theorem composeLine_keep {s0 s : State} {h : Nat} {late : Bool} (hk : Keep s0 s) :
    Keep s0 (composeLine s h late) := by
  unfold composeLine
  extract_lets +onlyGivenNames x1 x2 x3 x4
  clear_value x1
  clear_value x2
  have k5 : Keep s0 x3 := setHead_keep hk
  clear_value x3
  have k6 : ∀ y0 y1, Keep s0 y0 → Keep s0 (x4 y0 y1) := fun _ _ k7 => (ite_keep k7 (emit_keep k7))
  clear_value x4
  split
  · exact k6 _ _ k5
  · split
    rename_i e8
    have k9 := pair_keep e8 (ite_fst_keep (bump32_keep k5) (fetchLayers_keep k5))
    extract_lets +onlyGivenNames x10
    clear_value x10
    exact writebackRow_keep (k6 _ _ k9)

theorem execLayerFetch_keep {s0 : State} {head : BitVec 1} {late : Bool} {s : State} (h : Keep s0 s) :
    KeepO s0 (execLayerFetch head late s) := by
  unfold execLayerFetch
  extract_lets +onlyGivenNames x1
  clear_value x1
  refine ite_keepO ?_ ?_
  · exact next_keep (composeLine_keep h)
  · exact next_keep h

theorem vertexEntry_keep {s0 s : State} {core : Nat} {w : WG} {d : List Byte} {loc : Nat} (h : Keep s0 s) :
    Keep s0 (vertexEntry s core w d loc).1 := by
  unfold vertexEntry
  refine ite_fst_keep h ?_
  split
  · rename_i e1
    have k2 := pair_keep e1 (coreRead_keep h)
    exact k2
  · rename_i e3
    have k4 := pair_keep e3 (coreRead_keep h)
    exact k4

theorem vertexFetch_keep {s0 s : State} {core : Nat} {w : WG} {src : Option (Nat × Nat)} (h : Keep s0 s) :
    Keep s0 (vertexFetch s core w src).1 := by
  unfold vertexFetch
  split
  · exact h
  · split
    · rename_i e1
      have k2 := pair_keep e1 (coreRead_keep h)
      exact k2
    · rename_i e3
      have k4 := pair_keep e3 (coreRead_keep h)
      exact k4

theorem vertexInputs_keep {s0 s : State} {core : Nat} {w : WG} {p : RPass} {b : Batch} {entry : Option (List Byte)} {l : List Nat} (h : Keep s0 s) :
    Keep s0 (vertexInputs s core w p b entry l).1 := by
  unfold vertexInputs
  refine foldl_fst_keep h (fun x1 x2 k3 => ?_)
  split
  · rename_i e4
    have k5 := pair_keep e4 (vertexFetch_keep k3)
    exact k5
  · rename_i e6
    have k7 := pair_keep e6 (vertexFetch_keep k3)
    exact k7

theorem opVertexIn_keep {s0 s : State} {n : Nat} {w : WG} {g : Group} {loc : Nat} {dst : Nat} (h : Keep s0 s) :
    Keep s0 (opVertexIn s n w g loc dst) := by
  unfold opVertexIn
  split
  · split
    · rename_i e1
      have k2 := pair_keep e1 (vertexEntry_keep h)
      exact settle_keep (coreXFault_keep k2)
    · rename_i e3
      have k4 := pair_keep e3 (vertexEntry_keep h)
      split
      · rename_i e5
        have k6 := pair_keep e5 (vertexInputs_keep k4)
        exact settle_keep (raiseFaults_keep k6)
      · rename_i e7
        have k8 := pair_keep e7 (vertexInputs_keep k4)
        split
        rename_i e9
        have k10 := pair_keep' e9 (draw_keep k8)
        exact nextInstr_keep k10
  · exact h

theorem putOutput_keep {s0 s : State} {core : Nat} {w : WG} {gid : Nat} {t : Nat} {slot : Nat} {v : Nat} (h : Keep s0 s) :
    Keep s0 (putOutput s core w gid t slot v) := by
  unfold putOutput
  refine ite_keep (updFrags_keep h) ?_
  split
  · exact setJob_keep h
  · exact h

theorem exitSet_keep {s0 s : State} {n : Nat} {w : WG} {g : Group} {killed : Bool} (h : Keep s0 s) :
    Keep s0 (exitSet s n w g killed) := by
  unfold exitSet
  extract_lets +onlyGivenNames x1 x2 x3 x4 x5
  clear_value x1
  clear_value x2
  have k6 : Keep s0 x3 := setWG_keep h
  clear_value x3
  have k7 : Keep s0 x4 := updFrags_keep k6
  clear_value x4
  have k8 : Keep s0 x5 := ite_keep (retireTile_keep k7) k7
  clear_value x5
  exact noteConds_keep (settle_keep (settleWG_keep k8))

theorem opPush_keep {s0 s : State} {n : Nat} {w : WG} {g : Group} {off : Nat} {k : Nat} {dst : Nat} (h : Keep s0 s) :
    Keep s0 (opPush s n w g off k dst) := by
  unfold opPush
  extract_lets +onlyGivenNames x1
  clear_value x1
  refine ite_keep (nextInstr_keep h) ?_
  split
  · rename_i e2
    have k3 := pair_keep e2 (coreRead_keep h)
    exact settle_keep (coreXFault_keep k3)
  · rename_i e4
    have k5 := pair_keep e4 (coreRead_keep h)
    exact nextInstr_keep k5

theorem writeOpt_keep {s0 s : State} {n : Nat} {w : WG} {g : Group} {dst : Nat} {f : Nat → Option Nat} (h : Keep s0 s) :
    Keep s0 (writeOpt s n w g dst f) := by
  unfold writeOpt
  split
  rename_i e1
  have k2 := pair_keep' e1 (draw_keep h)
  exact nextInstr_keep k2

theorem coreInstr_keep {s0 : State} {o : CoreOp} {s : State} {n : Nat} {w : WG} {g : Group} (h : Keep s0 s) :
    Keep s0 (coreInstr o s n w g) := by
  unfold coreInstr
  extract_lets +onlyGivenNames x1
  clear_value x1
  split
  · exact nextInstr_keep h
  · exact nextInstr_keep h
  · exact nextInstr_keep h
  · exact nextInstr_keep h
  · exact nextInstr_keep h
  · exact nextInstr_keep h
  · split
    rename_i e2
    have k3 := pair_keep' e2 (draw_keep h)
    exact nextInstr_keep k3
  · exact setGroup_keep h
  · exact exitSet_keep h
  · exact exitSet_keep h
  · exact nextInstr_keep (updFrags_keep h)
  · exact settle_keep (coreFaultAt_keep h)
  · exact settle_keep (coreFaultAt_keep h)
  · exact writeOpt_keep h
  · exact opPush_keep h
  · exact foldl_keep (nextInstr_keep h) (fun _ _ k4 => (putOutput_keep k4))
  · exact opVertexIn_keep h
  · exact writeOpt_keep h
  · split
    rename_i e5
    have k6 := pair_keep' e5 (draw_keep h)
    exact nextInstr_keep k6
  · split
    rename_i e7
    have k8 := pair_keep' e7 (draw_keep h)
    exact nextInstr_keep k8
  · exact nextInstr_keep h

theorem execGroupInstruction_keep {s0 : State} {core : CoreId} {group : Nat} {op : CoreOp} {s : State} (h : Keep s0 s) :
    KeepO s0 (execGroupInstruction core group op s) := by
  unfold execGroupInstruction
  split
  · exact next_keep h
  · exact next_keep (coreInstr_keep h)

theorem illegal_keep {s0 s : State} {n : Nat} {w : WG} {g : Group} (h : Keep s0 s) :
    Keep s0 (illegal s n w g) := by
  unfold illegal
  exact settle_keep (coreFault_keep h)

theorem issueOne_keep {s0 s : State} {n : Nat} {wgid : Nat} {x : Target} (h : Keep s0 s) :
    Keep s0 (issueOne s n wgid x) := by
  unfold issueOne
  split
  · exact h
  · extract_lets +onlyGivenNames x1 x2 x3
    clear_value x1
    have k4 : Keep s0 x2 := setWG_keep h
    clear_value x2
    clear_value x3
    refine ite_keep h ?_
    split
    · exact issueItem_keep k4
    · exact acceptItem_keep k4
    · exact acceptItem_keep k4

theorem execTensorIssue_keep {s0 : State} {core : CoreId} {group : Nat} {ptr : MemPtr} {dst : Nat} {s : State} (h : Keep s0 s) :
    KeepO s0 (execTensorIssue core group ptr dst s) := by
  unfold execTensorIssue
  extract_lets +onlyGivenNames x1
  clear_value x1
  split
  · exact next_keep h
  · refine ite_keepO ?_ ?_
    · exact next_keep (illegal_keep h)
    · refine ite_keepO ?_ ?_
      · exact next_keep h
      · split
        · rename_i e2
          have k3 := pair_keep e2 (ptrBase_keep h)
          exact next_keep (settle_keep (coreXFault_keep k3))
        · rename_i e4
          have k5 := pair_keep e4 (ptrBase_keep h)
          extract_lets +onlyGivenNames x6
          clear_value x6
          split
          · exact next_keep (settle_keep (raiseFaults_keep k5))
          · extract_lets +onlyGivenNames x7 x8
            clear_value x7
            clear_value x8
            exact next_keep (settle_keep (foldl_keep (nextInstr_keep k5) (fun _ _ k9 => (issueOne_keep k9))))

theorem execTensorWait_keep {s0 : State} {core : CoreId} {group : Nat} {ticket : Src} {dst : Nat} {s : State} (h : Keep s0 s) :
    KeepO s0 (execTensorWait core group ticket dst s) := by
  unfold execTensorWait
  extract_lets +onlyGivenNames x1
  clear_value x1
  split
  · exact next_keep h
  · refine ite_keepO ?_ ?_
    · exact next_keep (illegal_keep h)
    · extract_lets +onlyGivenNames x2
      clear_value x2
      split
      · exact next_keep (setGroup_keep h)
      · extract_lets +onlyGivenNames x3
        have k4 : Keep s0 x3 := nextInstr_keep h
        clear_value x3
        exact next_keep (ite_keep k4 (l1Clear_keep k4))

theorem execTensorPoll_keep {s0 : State} {core : CoreId} {group : Nat} {ticket : Src} {dst : Nat} {s : State} (h : Keep s0 s) :
    KeepO s0 (execTensorPoll core group ticket dst s) := by
  unfold execTensorPoll
  extract_lets +onlyGivenNames x1
  clear_value x1
  split
  · exact next_keep h
  · refine ite_keepO ?_ ?_
    · exact next_keep (illegal_keep h)
    · extract_lets +onlyGivenNames x2 x3
      clear_value x2
      have k4 : Keep s0 x3 := nextInstr_keep h
      clear_value x3
      exact next_keep (ite_keep (l1Clear_keep k4) k4)

theorem execTileHandoff_keep {s0 : State} {core : CoreId} {group : Nat} {ptr : MemPtr} {s : State} (h : Keep s0 s) :
    KeepO s0 (execTileHandoff core group ptr s) := by
  unfold execTileHandoff
  extract_lets +onlyGivenNames x1
  clear_value x1
  split
  · exact next_keep h
  · split
    · exact next_keep (illegal_keep h)
    · refine ite_keepO ?_ ?_
      · exact next_keep (illegal_keep h)
      · split
        · rename_i e2
          have k3 := pair_keep e2 (ptrBase_keep h)
          exact next_keep (settle_keep (coreXFault_keep k3))
        · rename_i e4
          have k5 := pair_keep e4 (ptrBase_keep h)
          extract_lets +onlyGivenNames x6
          clear_value x6
          split
          · exact next_keep (nextInstr_keep (setTile_keep k5))
          · exact next_keep (settle_keep (coreFault_keep k5))

theorem execCadenceRead_keep {s0 : State} {core : CoreId} {group : Nat} {dst : Nat} {s : State} (h : Keep s0 s) :
    KeepO s0 (execCadenceRead core group dst s) := by
  unfold execCadenceRead
  extract_lets +onlyGivenNames x1
  clear_value x1
  split
  · exact next_keep h
  · split
    exact next_keep (nextInstr_keep h)

theorem execLineRead_keep {s0 : State} {core : CoreId} {group : Nat} {head : BitVec 1} {dst : Nat} {s : State} (h : Keep s0 s) :
    KeepO s0 (execLineRead core group head dst s) := by
  unfold execLineRead
  extract_lets +onlyGivenNames x1
  clear_value x1
  split
  · exact next_keep h
  · exact next_keep (nextInstr_keep h)

theorem feedTarget_keep {s0 s : State} {core : Nat} {w : WG} {va : Nat} (h : Keep s0 s) :
    Keep s0 (feedTarget s core w va).1 := by
  unfold feedTarget
  extract_lets +onlyGivenNames x1 x2
  clear_value x1
  clear_value x2
  split
  · exact h
  · refine ite_fst_keep h ?_
    extract_lets +onlyGivenNames x3
    have k4 : Keep s0 x3.1 := by
      subst x3
      split
      · exact xput_keep h
      · exact walkFrame_keep h
    clear_value x3
    split
    · exact k4
    · split
      · exact ite_fst_keep k4 k4
      · exact k4

theorem feedTargets_keep {s0 s : State} {core : Nat} {w : WG} {g : Group} {ptr : Nat} (h : Keep s0 s) :
    Keep s0 (feedTargets s core w g ptr).1 := by
  unfold feedTargets
  refine foldl_fst_keep h (fun x1 x2 k3 => ?_)
  split
  · rename_i e4
    have k5 := pair_keep e4 (feedTarget_keep k3)
    exact k5
  · rename_i e6
    have k7 := pair_keep e6 (feedTarget_keep k3)
    exact k7

theorem queueMark_keep {s0 s : State} {u : Nat} {o : MarkOp} (h : Keep s0 s) :
    Keep s0 (queueMark s u o) := by
  unfold queueMark
  exact ite_keep (setMark_keep h) h

theorem execMarkFeed_keep {s0 : State} {core : CoreId} {group : Nat} {ptr : Nat} {value : Src} {size : MemSize} {s : State} (h : Keep s0 s) :
    KeepO s0 (execMarkFeed core group ptr value size s) := by
  unfold execMarkFeed
  extract_lets +onlyGivenNames x1
  clear_value x1
  split
  · exact next_keep h
  · split
    · rename_i e2
      have k3 := pair_keep e2 (feedTargets_keep h)
      exact next_keep (settle_keep (raiseFaults_keep k3))
    · rename_i e4
      have k5 := pair_keep e4 (feedTargets_keep h)
      refine ite_keepO ?_ ?_
      · exact next_keep h
      · exact next_keep (foldl_keep (nextInstr_keep k5) (fun _ _ k6 => (queueMark_keep k6)))

theorem asyncFault_keep {s0 s : State} {n : Nat} {w : WG} {dst : Nat} {bytes : Nat} {x : Target} (h : Keep s0 s) :
    Keep s0 (asyncFault s n w dst bytes x).1 := by
  unfold asyncFault
  extract_lets +onlyGivenNames x1 x2
  clear_value x1
  clear_value x2
  split
  · extract_lets +onlyGivenNames x3
    clear_value x3
    refine ite_fst_keep h ?_
    split
    · exact h
    · refine ite_fst_keep h ?_
      refine ite_fst_keep h ?_
      split
      · rename_i e4
        have k5 := pair_keep e4 (xlateRange_keep h)
        exact k5
      · rename_i e6
        have k7 := pair_keep e6 (xlateRange_keep h)
        exact k7
  · exact h

theorem asyncFaults_keep {s0 s : State} {n : Nat} {w : WG} {g : Group} {dst : Src} {bytes : Src} {l : List (Nat × Target)} (h : Keep s0 s) :
    Keep s0 (asyncFaults s n w g dst bytes l).1 := by
  unfold asyncFaults
  refine foldl_fst_keep h (fun x1 x2 k3 => ?_)
  split
  · rename_i e4
    have k5 := pair_keep e4 (asyncFault_keep k3)
    exact k5
  · rename_i e6
    have k7 := pair_keep e6 (asyncFault_keep k3)
    exact k7

theorem execAsyncCopy_keep {s0 : State} {core : CoreId} {group : Nat} {dst : Src} {src : MemPtr} {bytes : Src} {out : Nat} {s : State} (h : Keep s0 s) :
    KeepO s0 (execAsyncCopy core group dst src bytes out s) := by
  unfold execAsyncCopy
  extract_lets +onlyGivenNames x1
  clear_value x1
  split
  · exact next_keep h
  · refine ite_keepO ?_ ?_
    · exact next_keep (illegal_keep h)
    · split
      · rename_i e2
        have k3 := pair_keep e2 (ptrBase_keep h)
        exact next_keep (settle_keep (coreXFault_keep k3))
      · rename_i e4
        have k5 := pair_keep e4 (ptrBase_keep h)
        extract_lets +onlyGivenNames x6
        clear_value x6
        split
        · rename_i e7
          have k8 := pair_keep e7 (asyncFaults_keep k5)
          exact next_keep (settle_keep (raiseFaults_keep k8))
        · rename_i e9
          have k10 := pair_keep e9 (asyncFaults_keep k5)
          refine ite_keepO ?_ ?_
          · exact next_keep h
          · exact next_keep (nextInstr_keep k10)

theorem copyArrives_keep {s0 s : State} {n : Nat} {w : WG} {g : Group} {c : ACopy} (h : Keep s0 s) :
    Keep s0 (copyArrives s n w g c) := by
  unfold copyArrives
  split
  · rename_i e1
    have k2 := pair_keep e1 (ite_fst_keep h (coreRead_keep h))
    exact settle_keep (coreXFault_keep k2)
  · rename_i e3
    have k4 := pair_keep e3 (ite_fst_keep h (coreRead_keep h))
    extract_lets +onlyGivenNames x5
    clear_value x5
    exact settleCore_keep (setWG_keep k4)

theorem execAsyncCopyComplete_keep {s0 : State} {core : CoreId} {group : Nat} {ticket : Nat} {s : State} (h : Keep s0 s) :
    KeepO s0 (execAsyncCopyComplete core group ticket s) := by
  unfold execAsyncCopyComplete
  split
  · exact next_keep h
  · split
    · refine ite_keepO ?_ ?_
      · exact next_keep (copyArrives_keep h)
      · exact next_keep h
    · exact next_keep h

theorem execCopyWait_keep {s0 : State} {core : CoreId} {group : Nat} {ticket : Src} {s : State} (h : Keep s0 s) :
    KeepO s0 (execCopyWait core group ticket s) := by
  unfold execCopyWait
  extract_lets +onlyGivenNames x1
  clear_value x1
  split
  · exact next_keep h
  · refine ite_keepO ?_ ?_
    · exact next_keep (illegal_keep h)
    · extract_lets +onlyGivenNames x2
      clear_value x2
      split
      · exact next_keep (setGroup_keep h)
      · exact next_keep (nextInstr_keep h)

theorem prefetchSector_keep {s0 s : State} {n : Nat} {w : WG} {va : Nat} (h : Keep s0 s) :
    Keep s0 (prefetchSector s n w va) := by
  unfold prefetchSector
  split
  · rename_i e1
    have k2 := pair_keep e1 (xlate_keep h)
    split
    · rename_i e3
      have k4 := pair_keep e3 (sectorIn_keep k2)
      exact l1Put_keep k4
    · rename_i e5
      have k6 := pair_keep e5 (sectorIn_keep k2)
      exact k6
  · exact h

theorem prefetchRange_keep {s0 s : State} {n : Nat} {w : WG} {bytes : Nat} {x : Target} (h : Keep s0 s) :
    Keep s0 (prefetchRange s n w bytes x) := by
  unfold prefetchRange
  split
  · extract_lets +onlyGivenNames x1
    clear_value x1
    exact ite_keep h (foldl_keep h (fun _ _ k2 => (prefetchSector_keep k2)))
  · exact h

theorem execL1Prefetch_keep {s0 : State} {core : CoreId} {group : Nat} {ptr : MemPtr} {bytes : Src} {s : State} (h : Keep s0 s) :
    KeepO s0 (execL1Prefetch core group ptr bytes s) := by
  unfold execL1Prefetch
  extract_lets +onlyGivenNames x1
  clear_value x1
  split
  · exact next_keep h
  · split
    · rename_i e2
      have k3 := pair_keep e2 (ptrBase_keep h)
      exact next_keep (nextInstr_keep k3)
    · rename_i e4
      have k5 := pair_keep e4 (ptrBase_keep h)
      exact next_keep (foldl_keep (nextInstr_keep k5) (fun _ _ k6 => (prefetchRange_keep k6)))

theorem execYield_keep {s0 : State} {core : CoreId} {group : Nat} {s : State} (h : Keep s0 s) :
    KeepO s0 (execYield core group s) := by
  unfold execYield
  extract_lets +onlyGivenNames x1
  clear_value x1
  split
  · exact next_keep h
  · exact next_keep (setGroup_keep h)

theorem execSleep_keep {s0 : State} {core : CoreId} {group : Nat} {ns : Src} {s : State} (h : Keep s0 s) :
    KeepO s0 (execSleep core group ns s) := by
  unfold execSleep
  extract_lets +onlyGivenNames x1
  clear_value x1
  split
  · exact next_keep h
  · exact next_keep (nextInstr_keep h)

theorem execSleepExpiry_keep {s0 : State} {core : CoreId} {group : Nat} {s : State} (h : Keep s0 s) :
    KeepO s0 (execSleepExpiry core group s) := by
  unfold execSleepExpiry
  split
  · exact next_keep (setGroup_keep h)
  · exact next_keep h

theorem execTrap_keep {s0 : State} {core : CoreId} {group : Nat} {value : Src} {s : State} (h : Keep s0 s) :
    KeepO s0 (execTrap core group value s) := by
  unfold execTrap
  extract_lets +onlyGivenNames x1
  clear_value x1
  split
  · exact next_keep h
  · exact next_keep (settle_keep (coreFaultAt_keep h))

theorem texelRead_keep {s0 s : State} {core : Nat} {w : WG} {e : List Byte} {q : Texel} (h : Keep s0 s) :
    Keep s0 (texelRead s core w e q).1 := by
  unfold texelRead
  split
  refine ite_fst_keep h ?_
  refine ite_fst_keep ?_ ?_
  · extract_lets +onlyGivenNames x1
    clear_value x1
    split
    · rename_i e2
      have k3 := pair_keep e2 (readBlock_keep h)
      exact k3
    · rename_i e4
      have k5 := pair_keep e4 (readBlock_keep h)
      exact k5
  · split
    · rename_i e6
      have k7 := pair_keep e6 (coreRead_keep h)
      exact k7
    · rename_i e8
      have k9 := pair_keep e8 (coreRead_keep h)
      exact k9

theorem footRead_keep {s0 s : State} {core : Nat} {w : WG} {e : List Byte} {l : List Texel} (h : Keep s0 s) :
    Keep s0 (footRead s core w e l).1 := by
  unfold footRead
  refine foldl_fst_keep h (fun x1 x2 k3 => ?_)
  split
  · exact k3
  · split
    · rename_i e4
      have k5 := pair_keep e4 (texelRead_keep k3)
      exact k5
    · rename_i e6
      have k7 := pair_keep e6 (texelRead_keep k3)
      exact k7

theorem texelsOf_keep {s0 s : State} {core : Nat} {w : WG} {e : List Byte} {l : List (Nat × List Texel)} (h : Keep s0 s) :
    Keep s0 (texelsOf s core w e l).1 := by
  unfold texelsOf
  refine foldl_fst_keep h (fun x1 x2 k3 => ?_)
  split
  · rename_i e4
    have k5 := pair_keep e4 (footRead_keep k3)
    exact k5
  · rename_i e6
    have k7 := pair_keep e6 (footRead_keep k3)
    exact k7

theorem bindingFault_keep {s0 s : State} {n : Nat} {w : WG} {g : Group} {a : Nat} (h : Keep s0 s) :
    Keep s0 (bindingFault s n w g a) := by
  unfold bindingFault
  exact settle_keep (coreFault_keep h)

theorem imageLoad_keep {s0 s : State} {n : Nat} {w : WG} {g : Group} {e : List Byte} {dst : Nat} {l : List (Nat × List Texel)} (h : Keep s0 s) :
    Keep s0 (imageLoad s n w g e dst l) := by
  unfold imageLoad
  split
  · rename_i e1
    have k2 := pair_keep e1 (texelsOf_keep h)
    exact settle_keep (raiseFaults_keep k2)
  · rename_i e3
    have k4 := pair_keep e3 (texelsOf_keep h)
    split
    rename_i e5
    have k6 := pair_keep' e5 (draw_keep k4)
    exact nextInstr_keep k6

theorem imageStore_keep {s0 s : State} {n : Nat} {w : WG} {g : Group} {e : List Byte} {src : Nat} {at_ : Nat → Texel} (h : Keep s0 s) :
    Keep s0 (imageStore s n w g e src at_) := by
  unfold imageStore
  extract_lets +onlyGivenNames x1 x2
  clear_value x1
  clear_value x2
  split
  · rename_i e3
    have k4 := pair_keep e3 (prepare_keep h)
    exact settle_keep (raiseFaults_keep k4)
  · rename_i e5
    have k6 := pair_keep e5 (prepare_keep h)
    extract_lets +onlyGivenNames x7 x8
    clear_value x7
    have k9 : Keep s0 x8 := foldl_keep (nextInstr_keep k6) (fun _ _ k10 => (storeOne_keep k10))
    clear_value x8
    exact sendPeers_keep k9

theorem samplerRead_keep {s0 s : State} {n : Nat} {w : WG} {g : Group} {set : Nat} {binding : Nat} (h : Keep s0 s) :
    Keep s0 (samplerRead s n w g set binding).1 := by
  unfold samplerRead
  extract_lets +onlyGivenNames x1
  clear_value x1
  split
  · rename_i e2
    have k3 := pair_keep e2 (coreRead_keep h)
    exact settle_keep (coreXFault_keep k3)
  · rename_i e4
    have k5 := pair_keep e4 (coreRead_keep h)
    exact ite_fst_keep (bindingFault_keep k5) k5

theorem imageInstr_keep {s0 : State} {f : ImageFn} {s : State} {n : Nat} {w : WG} {g : Group} {e : List Byte} {dst : Nat} (h : Keep s0 s) :
    Keep s0 (imageInstr f s n w g e dst) := by
  unfold imageInstr
  split
  · exact imageLoad_keep h
  · exact imageStore_keep h
  · split
    · rename_i e1
      have k2 := pair_keep e1 (samplerRead_keep h)
      exact k2
    · rename_i e3
      have k4 := pair_keep e3 (samplerRead_keep h)
      exact imageLoad_keep k4

theorem execImageSample_keep {s0 : State} {core : CoreId} {group : Nat} {f : ImageFn} {set : Nat} {binding : Nat} {dst : Nat} {s : State} (h : Keep s0 s) :
    KeepO s0 (execImageSample core group f set binding dst s) := by
  unfold execImageSample
  extract_lets +onlyGivenNames x1
  clear_value x1
  split
  · exact next_keep h
  · extract_lets +onlyGivenNames x2
    clear_value x2
    split
    · rename_i e3
      have k4 := pair_keep e3 (coreRead_keep h)
      exact next_keep (settle_keep (coreXFault_keep k4))
    · rename_i e5
      have k6 := pair_keep e5 (coreRead_keep h)
      refine ite_keepO ?_ ?_
      · exact next_keep (bindingFault_keep k6)
      · exact next_keep (imageInstr_keep k6)

theorem startDispatch_keep {s0 s : State} {o : Origin} {d : List Byte} (h : Keep s0 s) :
    Keep s0 (startDispatch s o d) := by
  unfold startDispatch
  split
  · exact workFormat_keep h
  · refine ite_keep (finish_keep h) ?_
    split
    rename_i e1
    have k2 := pair_keep' e1 (takeWid_keep (takeSlot_keep h))
    exact setJob_keep k2

theorem execDispatch_keep {s0 : State} {p : Part} {ring : BitVec 10} {s : State} (h : Keep s0 s) :
    KeepO s0 (execDispatch p ring s) := by
  unfold execDispatch
  split
  · extract_lets +onlyGivenNames x1
    clear_value x1
    exact next_keep (settle_keep (startDispatch_keep (dispatched_keep h)))
  · exact next_keep h

theorem makeGroups_keep {s0 s : State} {n : Nat} {j : Job} {index : Nat} {paths : List Nat} (h : Keep s0 s) :
    Keep s0 (makeGroups s n j index paths).1 := by
  unfold makeGroups
  refine foldl_fst_keep h (fun x1 x2 k3 => ?_)
  split
  rename_i e4
  have k5 := pair_keep' e4 (takeWid_keep k3)
  split
  rename_i e6
  have k7 := pair_keep' e6 (draw_keep k5)
  exact k7

theorem joinCore_keep {s0 s : State} {n : Nat} {w : WG} (h : Keep s0 s) :
    Keep s0 (joinCore s n w) := by
  unfold joinCore
  extract_lets +onlyGivenNames x1 x2
  have k3 : Keep s0 x1 := takeBanks_keep h
  clear_value x1
  clear_value x2
  exact setCoreOf_keep k3

theorem placeNew_keep {s0 s : State} {n : Nat} {id : Nat} {j : Job} {e : EntryPt} {paths : List Nat} {at_ : Nat} (h : Keep s0 s) :
    Keep s0 (placeNew s n id j e paths at_) := by
  unfold placeNew
  split
  extract_lets +onlyGivenNames x1
  have k2 : Keep s0 x1 := ite_keep (chargeStart_keep h) h
  clear_value x1
  split
  rename_i e3
  have k4 := pair_keep' e3 (takeWid_keep k2)
  split
  rename_i e5
  have k6 := pair_keep' e5 (draw_keep k4)
  split
  rename_i e7
  have k8 := pair_keep e7 (makeGroups_keep k6)
  extract_lets +onlyGivenNames x9
  clear_value x9
  refine ite_keep (settleJob_keep (setJob_keep k8)) ?_
  extract_lets +onlyGivenNames x10
  clear_value x10
  exact reserve_keep (joinCore_keep (setJob_keep k8))

theorem placeOld_keep {s0 s : State} {n : Nat} {id : Nat} {j : Job} {w : WG} {paths : List Nat} {at_ : Nat} (h : Keep s0 s) :
    Keep s0 (placeOld s n id j w paths at_) := by
  unfold placeOld
  extract_lets +onlyGivenNames x1 x2 x3 x4 x5
  clear_value x1
  have k6 : Keep s0 x2 := reserve_keep (unreserve_keep (chargeStart_keep h))
  clear_value x2
  have k7 : Keep s0 x3 := by
    subst x3
    split
    · exact restoreUnit_keep k6
    · exact k6
  clear_value x3
  clear_value x4
  clear_value x5
  split
  · exact settleWG_keep (joinCore_keep (setJob_keep k7))
  · exact k7

theorem placeWork_keep {s0 s : State} {n : Nat} {w : CoreWork} (h : Keep s0 s) :
    Keep s0 (placeWork s n w) := by
  unfold placeWork
  split
  · split
    · split
      · exact placeNew_keep h
      · exact h
    · exact h
  · split
    · split
      · split
        · exact placeOld_keep h
        · exact h
      · exact h
    · exact h
  · exact placeFrags_keep h
  · exact resumeTile_keep h

theorem execWorkgroupPlacement_keep {s0 : State} {core : CoreId} {s : State} (h : Keep s0 s) :
    KeepO s0 (execWorkgroupPlacement core s) := by
  unfold execWorkgroupPlacement
  split
  · refine ite_keepO ?_ ?_
    · exact next_keep h
    · exact next_keep (noteConds_keep (placeWork_keep h))
  · exact next_keep h

theorem execResumption_keep {s0 : State} {core : CoreId} {s : State} (h : Keep s0 s) :
    KeepO s0 (execResumption core s) := by
  unfold execResumption
  split
  · refine ite_keepO ?_ ?_
    · exact next_keep (noteConds_keep (placeWork_keep h))
    · exact next_keep h
  · exact next_keep h

theorem stopGroups_keep {s0 s : State} {n : Nat} {ctx : Nat} (h : Keep s0 s) :
    Keep s0 (stopGroups s n ctx) := by
  unfold stopGroups
  extract_lets +onlyGivenNames x1
  clear_value x1
  exact setCoreOf_keep h

theorem execPreemptionRequest_keep {s0 : State} {core : CoreId} {p : Part} {ctx : BitVec 16} {s : State} (h : Keep s0 s) :
    KeepO s0 (execPreemptionRequest core p ctx s) := by
  unfold execPreemptionRequest
  extract_lets +onlyGivenNames x1
  clear_value x1
  refine ite_keepO ?_ ?_
  · exact next_keep (stopGroups_keep h)
  · exact next_keep h

theorem saveWG_keep {s0 s : State} {n : Nat} {w : WG} (h : Keep s0 s) :
    Keep s0 (saveWG s n w) := by
  unfold saveWG
  extract_lets +onlyGivenNames x1 x2
  clear_value x1
  have k3 : Keep s0 x2 := setCoreOf_keep h
  clear_value x2
  split
  rename_i e4
  have k5 := pair_keep e4 (saveUnit_keep k3)
  split
  · exact setJob_keep k5
  · exact k5

theorem execCoreSave_keep {s0 : State} {core : CoreId} {p : Part} {ctx : BitVec 16} {s : State} (h : Keep s0 s) :
    KeepO s0 (execCoreSave core p ctx s) := by
  unfold execCoreSave
  extract_lets +onlyGivenNames x1 x2 x3
  clear_value x1
  clear_value x2
  clear_value x3
  refine ite_keepO ?_ ?_
  · exact next_keep h
  · split
    · exact next_keep (noteConds_keep h)
    · exact next_keep (noteConds_keep (foldl_keep (countPreempt_keep h) (fun _ _ k4 => (saveWG_keep k4))))

end Sys2Proof.Machine
end

