-- ==== Sys2Proof/Laws/KeepWork.lean ====
section
/-! SUPPORT. The state functions keep the queue and soundness: firmware, rings, plans, serving, objects and kills. One lemma per function: where the state it is given keeps,
so does the state it answers. -/
set_option linter.tactic.unusedName false
namespace Sys2Proof.Machine

theorem fwStart_keep {s0 s : State} (h : Keep s0 s) :
    Keep s0 (fwStart s) := by
  unfold fwStart
  exact wrF_keep h

theorem onFwCtl_keep {s0 s : State} {f : State → State} (h : Keep s0 s) (hf : ∀ y0, Keep s0 y0 → Keep s0 (f y0)) :
    Keep s0 (onFwCtl s f) := by
  unfold onFwCtl
  exact ite_keep h (hf _ h)

theorem fwFail_keep {s0 s : State} {c : ImgCheck} {i : Nat} {b : List Byte} (h : Keep s0 s) :
    Keep s0 (fwFail s c i b) := by
  unfold fwFail
  extract_lets +onlyGivenNames x1
  have k2 : Keep s0 x1 := countSigFail_keep h
  clear_value x1
  exact ite_keep k2 (appendRec_keep k2)

theorem execStage_keep {s0 : State} {pages : BitVec 14} {s : State} (h : Keep s0 s) :
    KeepO s0 (execStage pages s) := by
  unfold execStage
  extract_lets +onlyGivenNames x1
  have k2 : Keep s0 x1 := hostTouch_keep h
  clear_value x1
  refine next_keep ?_
  refine onFwCtl_keep k2 (fun x3 k4 => ?_)
  refine ite_keep (fwEnd_keep k4) ?_
  extract_lets +onlyGivenNames x5
  clear_value x5
  exact emit_keep (setSec_keep (fwStart_keep k4) rfl)

theorem takeImage_keep {s0 s : State} {i : Nat} {b : List Byte} {size : Nat} (h : Keep s0 s) :
    Keep s0 (takeImage s i b size).1 := by
  unfold takeImage
  extract_lets +onlyGivenNames x1 x2
  clear_value x1
  clear_value x2
  refine ite_fst_keep ?_ ?_
  · extract_lets +onlyGivenNames x3
    have k4 : Keep s0 x3 := setSlot_keep h
    clear_value x3
    exact setSec_keep k4 rfl
  · exact fwFail_keep (setSlot_keep h)

theorem execStageComplete_keep {s0 : State} {r : HostRead} {flashOk : Bool} {s : State} (h : Keep s0 s) :
    KeepO s0 (execStageComplete r flashOk s) := by
  unfold execStageComplete
  split
  · exact next_keep h
  · extract_lets +onlyGivenNames x1
    extract_lets +onlyGivenNames x2
    have k3 : Keep s0 x2 := setSec_keep h rfl
    clear_value x2
    split
    · exact next_keep (fwEnd_keep k3)
    · refine ite_keepO ?_ ?_
      · exact next_keep (fwEnd_keep k3)
      · extract_lets +onlyGivenNames x4
        clear_value x4
        split
        rename_i e5
        have k6 := pair_keep e5 (takeImage_keep k3)
        exact next_keep (fwEnd_keep k6)

theorem activate_keep {s0 s : State} (h : Keep s0 s) :
    Keep s0 (activate s) := by
  unfold activate
  split
  · extract_lets +onlyGivenNames x1
    clear_value x1
    refine ite_keep (fwEnd_keep h) ?_
    refine ite_keep (fwEnd_keep h) ?_
    extract_lets +onlyGivenNames x2
    have k3 : Keep s0 x2 := setSlotState_keep (fwStart_keep h)
    clear_value x2
    exact setSec_keep k3 rfl
  · exact fwEnd_keep h

theorem execActivate_keep {s0 s : State} (h : Keep s0 s) :
    KeepO s0 (execActivate s) := by
  unfold execActivate
  extract_lets +onlyGivenNames x1
  have k2 : Keep s0 x1 := hostTouch_keep h
  clear_value x1
  exact next_keep (onFwCtl_keep k2 (fun _ k3 => (activate_keep k3)))

theorem execStandbySelfTest_keep {s0 s : State} (h : Keep s0 s) :
    KeepO s0 (execStandbySelfTest s) := by
  unfold execStandbySelfTest
  split
  · refine ite_keepO ?_ ?_
    · exact next_keep h
    · exact next_keep (setSec_keep h rfl)
  · exact next_keep h

theorem restartLoads_keep {s0 s : State} (h : Keep s0 s) :
    Keep s0 (restartLoads s) := by
  unfold restartLoads
  exact setCore_keep h

theorem handoverEnd_keep {s0 s : State} {h : Handover} (hk : Keep s0 s) :
    Keep s0 (handoverEnd s h) := by
  unfold handoverEnd
  extract_lets +onlyGivenNames x1 x2
  clear_value x1
  extract_lets +onlyGivenNames x3
  have k4 : Keep s0 x3 := setSec_keep hk rfl
  clear_value x3
  refine ite_keep (wrF_keep k4) ?_
  extract_lets +onlyGivenNames x5
  extract_lets +onlyGivenNames x6
  have k7 : Keep s0 x6 := setSec_keep k4 rfl
  clear_value x6
  exact fwEnd_keep (wrF_keep k7)

theorem execRoleMove_keep {s0 s : State} (h : Keep s0 s) :
    KeepO s0 (execRoleMove s) := by
  unfold execRoleMove
  split
  · refine ite_keepO ?_ ?_
    · extract_lets +onlyGivenNames x1
      extract_lets +onlyGivenNames x2
      have k3 : Keep s0 x2 := restartLoads_keep (setSec_keep h rfl)
      clear_value x2
      refine ite_keepO ?_ ?_
      · exact next_keep k3
      · exact next_keep (settle_keep (handoverEnd_keep k3))
    · exact next_keep h
  · exact next_keep h

theorem execConfirm_keep {s0 s : State} (h : Keep s0 s) :
    KeepO s0 (execConfirm s) := by
  unfold execConfirm
  extract_lets +onlyGivenNames x1
  have k2 : Keep s0 x1 := hostTouch_keep h
  clear_value x1
  exact next_keep (onFwCtl_keep k2 (fun _ k3 => (ite_keep (fwEnd_keep (setSec_keep k3 rfl)) (fwEnd_keep k3))))

theorem showKeys_keep {s0 s : State} (h : Keep s0 s) :
    Keep s0 (showKeys s) := by
  unfold showKeys
  exact wrF_keep (wrF_keep (wrF_keep h))

theorem confirmSlot_keep {s0 s : State} {i : Nat} (h : Keep s0 s) :
    Keep s0 (confirmSlot s i) := by
  unfold confirmSlot
  extract_lets +onlyGivenNames x1 x2 x3 x4 x5
  clear_value x1
  have k6 : Keep s0 x2 := by
    subst x2
    split
    · exact setSlotState_keep h
    · exact h
  clear_value x2
  have k7 : Keep s0 x3 := setSlotState_keep k6
  clear_value x3
  have k8 : Keep s0 x5 := showKeys_keep (setSec_keep k7 rfl)
  clear_value x5
  extract_lets +onlyGivenNames x9
  have k10 : Keep s0 x9 := wrF_keep k8
  clear_value x9
  exact ite_keep (resetWeigh_keep k10) k10

theorem execSelfConfirmation_keep {s0 s : State} (h : Keep s0 s) :
    KeepO s0 (execSelfConfirmation s) := by
  unfold execSelfConfirmation
  split
  · refine ite_keepO ?_ ?_
    · exact next_keep (confirmSlot_keep h)
    · exact next_keep h
  · exact next_keep h

theorem execHealthWindowExpiry_keep {s0 s : State} (h : Keep s0 s) :
    KeepO s0 (execHealthWindowExpiry s) := by
  unfold execHealthWindowExpiry
  split
  · refine ite_keepO ?_ ?_
    · extract_lets +onlyGivenNames x1 x2 x3 x4
      clear_value x1
      have k5 : Keep s0 x2 := countFallback_keep (setCode_keep (appendRec_keep h))
      clear_value x2
      have k6 : Keep s0 x3 := wrF_keep (setSlotState_keep k5)
      clear_value x3
      extract_lets +onlyGivenNames x7
      have k8 : Keep s0 x7 := setSec_keep k6 rfl
      clear_value x7
      split
      · exact next_keep (setSec_keep (fwStart_keep k8) rfl)
      · exact next_keep k8
    · exact next_keep h
  · exact next_keep h

theorem execRestart_keep {s0 s : State} (h : Keep s0 s) :
    KeepO s0 (execRestart s) := by
  unfold execRestart
  extract_lets +onlyGivenNames x1
  have k2 : Keep s0 x1 := hostTouch_keep h
  clear_value x1
  refine next_keep ?_
  refine onFwCtl_keep k2 (fun x3 k4 => ?_)
  extract_lets +onlyGivenNames x5 x6
  clear_value x5
  clear_value x6
  exact beginBoot_keep (setSec_keep k4 rfl)

theorem execFwCtlReserved_keep {s0 s : State} (h : Keep s0 s) :
    KeepO s0 (execFwCtlReserved s) := by
  unfold execFwCtlReserved
  extract_lets +onlyGivenNames x1
  have k2 : Keep s0 x1 := hostTouch_keep h
  clear_value x1
  exact next_keep (onFwCtl_keep k2 (fun _ k3 => (fwEnd_keep k3)))

theorem loseProcessor_keep {s0 s : State} {proc : Nat} (h : Keep s0 s) :
    Keep s0 (loseProcessor s proc) := by
  unfold loseProcessor
  refine ite_keep ?_ ?_
  · split
    · extract_lets +onlyGivenNames x1
      extract_lets +onlyGivenNames x2
      have k3 : Keep s0 x2 := setSec_keep h rfl
      clear_value x2
      exact addRepair_keep (bump32_keep (wrF_keep k3))
    · exact setFatal_keep h
  · exact h

theorem execHeartbeatMiss_keep {s0 : State} {processor : BitVec 3} {s : State} (h : Keep s0 s) :
    KeepO s0 (execHeartbeatMiss processor s) := by
  unfold execHeartbeatMiss
  exact next_keep (loseProcessor_keep h)

theorem useKey_keep {s0 s : State} (h : Keep s0 s) :
    Keep s0 (useKey s) := by
  unfold useKey
  extract_lets +onlyGivenNames x1 x2
  have k3 : Keep s0 x2 := showKeys_keep (setSec_keep h rfl)
  clear_value x2
  extract_lets +onlyGivenNames x4
  have k5 : ∀ y0, Keep s0 y0 → Keep s0 (x4 y0) := fun _ k6 => (appendRec_keep k6)
  clear_value x4
  refine ite_keep ?_ ?_
  · extract_lets +onlyGivenNames x7
    extract_lets +onlyGivenNames x8
    have k9 : Keep s0 x8 := setSec_keep k3 rfl
    clear_value x8
    exact k5 _ k9
  · refine ite_keep ?_ ?_
    · extract_lets +onlyGivenNames x10
      extract_lets +onlyGivenNames x11
      have k12 : Keep s0 x11 := setSec_keep k3 rfl
      clear_value x11
      exact k5 _ k12
    · exact k3

theorem execConfigurationRecordAppend_keep {s0 : State} {good : Bool} {s : State} (h : Keep s0 s) :
    KeepO s0 (execConfigurationRecordAppend good s) := by
  unfold execConfigurationRecordAppend
  split
  · exact next_keep h
  · split
    · exact next_keep h
    · refine ite_keepO ?_ ?_
      · exact next_keep h
      · refine ite_keepO ?_ ?_
        · exact next_keep (setSec_keep h rfl)
        · extract_lets +onlyGivenNames x1
          have k2 : Keep s0 x1 := useKey_keep h
          clear_value x1
          refine ite_keepO ?_ ?_
          · exact next_keep (setSec_keep k2 rfl)
          · exact next_keep (setSec_keep k2 rfl)

theorem execFwHaulEnable_keep {s0 : State} {value : Word32} {s : State} (h : Keep s0 s) :
    KeepO s0 (execFwHaulEnable value s) := by
  unfold execFwHaulEnable
  refine ite_keepO ?_ ?_
  · exact next_keep (hostTouch_keep h)
  · extract_lets +onlyGivenNames x1 x2
    have k3 : Keep s0 x1 := hostTouch_keep h
    clear_value x1
    have k4 : Keep s0 x2 := wrF_keep (wrF_keep k3)
    clear_value x2
    refine ite_keepO ?_ ?_
    · exact next_keep (haulOff_keep k4)
    · refine ite_keepO ?_ ?_
      · exact next_keep (askBlock_keep (setHaulState_keep (wrF_keep k4)))
      · exact next_keep k4

theorem execHaulRequestTimer_keep {s0 s : State} (h : Keep s0 s) :
    KeepO s0 (execHaulRequestTimer s) := by
  unfold execHaulRequestTimer
  split
  · refine ite_keepO ?_ ?_
    · exact next_keep (askBlock_keep h)
    · exact next_keep h
  · exact next_keep h

theorem serveHaul_keep {s0 : State} {port : Nat} {m : List Byte} {s : State} (h : Keep s0 s) :
    Keep s0 (serveHaul port m s) := by
  unfold serveHaul
  split
  · exact h
  · extract_lets +onlyGivenNames x1 x2 x3
    clear_value x1
    clear_value x2
    clear_value x3
    exact ite_keep (sendOn_keep h) h

theorem execHaulReq_keep {s0 : State} {port : BitVec 2} {s : State} (h : Keep s0 s) :
    KeepO s0 (execHaulReq port s) := by
  unfold execHaulReq
  exact next_keep (onMsg_keep h (fun _ _ k1 => (serveHaul_keep k1)))

theorem haulDone_keep {s0 s : State} {bytes : List Byte} (h : Keep s0 s) :
    Keep s0 (haulDone s bytes) := by
  unfold haulDone
  extract_lets +onlyGivenNames x1
  clear_value x1
  split
  rename_i e2
  have k3 := pair_keep e2 (takeImage_keep (setHaulState_keep h))
  extract_lets +onlyGivenNames x4
  have k5 : Keep s0 x4 := haulEnd_keep k3
  clear_value x4
  exact ite_keep (activate_keep k5) k5

theorem takeBlock_keep {s0 : State} {m : List Byte} {s : State} (h : Keep s0 s) :
    Keep s0 (takeBlock m s) := by
  unfold takeBlock
  split
  · exact h
  · extract_lets +onlyGivenNames x1 x2
    clear_value x1
    clear_value x2
    refine ite_keep h ?_
    refine ite_keep (retryBlock_keep h) ?_
    refine ite_keep (haulEnd_keep h) ?_
    extract_lets +onlyGivenNames x3
    clear_value x3
    exact ite_keep (haulDone_keep h) (askBlock_keep (setHaulState_keep h))

theorem execHaulBlock_keep {s0 : State} {port : BitVec 2} {s : State} (h : Keep s0 s) :
    KeepO s0 (execHaulBlock port s) := by
  unfold execHaulBlock
  exact next_keep (onMsg_keep h (fun _ _ k1 => (takeBlock_keep k1)))

theorem execLoadModule_keep {s0 : State} {p : Part} {ring : BitVec 10} {s : State} (h : Keep s0 s) :
    KeepO s0 (execLoadModule p ring s) := by
  unfold execLoadModule
  split
  · extract_lets +onlyGivenNames x1 x2 x3
    clear_value x1
    have k4 : Keep s0 x2 := dispatched_keep h
    clear_value x2
    clear_value x3
    exact next_keep (settle_keep (setCore_keep k4))
  · exact next_keep h

theorem inClaims_keep {s0 s : State} {t : TableId} {va : Nat} {n : Nat} (h : Keep s0 s) :
    Keep s0 (inClaims s t va n).1 := by
  unfold inClaims
  refine ite_fst_keep ?_ ?_
  · split
    · rename_i e1
      have k2 := pair_keep e1 (xlateRange_keep h)
      exact k2
    · rename_i e3
      have k4 := pair_keep e3 (xlateRange_keep h)
      exact k4
  · exact h

theorem runLoad_keep {s0 s : State} {l : LoadOp} {code : HostRead} {spec : HostRead} {f : Findings} (h : Keep s0 s) :
    Keep s0 (runLoad s l code spec f).1 := by
  unfold runLoad
  extract_lets +onlyGivenNames x1 x2
  clear_value x1
  clear_value x2
  split
  · exact h
  · rename_i e3
    have k4 := pair_keep e3 (inClaims_keep h)
    exact k4
  · rename_i e5
    have k6 := pair_keep e5 (inClaims_keep h)
    split
    · rename_i e7
      have k8 := pair_keep e7 (engineRead_keep k6)
      exact k8
    · rename_i e9
      have k10 := pair_keep e9 (engineRead_keep k6)
      split
      · rename_i e11
        have k12 := pair_keep e11 (ite_fst_keep k10 (engineRead_keep k10))
        exact k12
      · rename_i e13
        have k14 := pair_keep e13 (ite_fst_keep k10 (engineRead_keep k10))
        exact k14

theorem enterModule_keep {s0 s : State} {l : LoadOp} {f : Findings} {key : Nat} (h : Keep s0 s) :
    Keep s0 (enterModule s l f key).1 := by
  unfold enterModule
  extract_lets +onlyGivenNames x1 x2 x3
  clear_value x1
  clear_value x2
  clear_value x3
  extract_lets +onlyGivenNames x4
  have k5 : Keep s0 x4 := setCore_keep h
  clear_value x4
  exact k5

theorem nextLoad_keep {s0 s : State} {p : Nat} {rest : List LoadOp} (h : Keep s0 s) :
    Keep s0 (nextLoad s p rest) := by
  unfold nextLoad
  extract_lets +onlyGivenNames x1
  clear_value x1
  exact setCore_keep h

theorem fillCode_keep {s0 s : State} {l : LoadOp} (h : Keep s0 s) :
    Keep s0 (fillCode s l) := by
  unfold fillCode
  split
  rename_i e1
  have k2 := pair_keep' e1 (draw_keep h)
  exact engineWrite_keep k2

theorem endLoad_keep {s0 s : State} {p : Nat} {l : LoadOp} {rest : List LoadOp} {code : HostRead} {spec : HostRead} {f : Findings} (h : Keep s0 s) :
    Keep s0 (endLoad s p l rest code spec f) := by
  unfold endLoad
  split
  rename_i e1
  have k2 := pair_keep e1 (runLoad_keep h)
  extract_lets +onlyGivenNames x3
  have k4 : Keep s0 x3 := ite_keep (fillCode_keep k2) k2
  clear_value x3
  split
  rename_i e5
  have k6 := pair_keep (a := s0) e5 (by
    split
    · exact enterModule_keep k4
    · exact k4)
  split
  · rename_i e7
    have k8 := pair_keep e7 (engineWrite_keep k6)
    exact finish_keep (nextLoad_keep k8)
  · rename_i e9
    have k10 := pair_keep e9 (engineWrite_keep k6)
    exact engineFault_keep (nextLoad_keep k10)

theorem execModuleLoadEnd_keep {s0 : State} {p : Part} {code : HostRead} {spec : HostRead} {f : Findings} {s : State} (h : Keep s0 s) :
    KeepO s0 (execModuleLoadEnd p code spec f s) := by
  unfold execModuleLoadEnd
  split
  · exact next_keep h
  · exact next_keep (endLoad_keep h)

theorem execUnloadModule_keep {s0 : State} {p : Part} {ring : BitVec 10} {s : State} (h : Keep s0 s) :
    KeepO s0 (execUnloadModule p ring s) := by
  unfold execUnloadModule
  split
  · extract_lets +onlyGivenNames x1
    clear_value x1
    split
    · exact next_keep (settle_keep (formatError_keep h))
    · extract_lets +onlyGivenNames x2
      have k3 : Keep s0 x2 := dispatched_keep h
      clear_value x2
      exact next_keep (settle_keep (setCore_keep k3))
  · exact next_keep h

theorem rejectTensor_keep {s0 s : State} {o : Origin} {d : List Byte} {addr : Nat} {off : Nat} {reason : Nat} (h : Keep s0 s) :
    Keep s0 (rejectTensor s o d addr off reason) := by
  unfold rejectTensor
  extract_lets +onlyGivenNames x1 x2 x3 x4
  have k5 : Keep s0 x1 := bump32_keep h
  clear_value x1
  clear_value x2
  clear_value x3
  have k6 : Keep s0 x4 := ite_keep (tComplete_keep k5) k5
  clear_value x4
  exact raise_keep k6

theorem ringPending_keep {s0 s : State} {p : Nat} (h : Keep s0 s) :
    Keep s0 (ringPending s p) := by
  unfold ringPending
  exact wr_keep h

theorem ringCreateOk_keep {s0 s : State} {p : Nat} {i : Nat} {b : List Byte} (h : Keep s0 s) :
    Keep s0 (ringCreateOk s p i b) := by
  unfold ringCreateOk
  extract_lets +onlyGivenNames x1 x2 x3
  clear_value x1
  clear_value x2
  have k4 : Keep s0 x3 := holdCtx_keep (setRing_keep h)
  clear_value x3
  exact ringResult_keep (dbWrite_keep (dbWrite_keep (dbWrite_keep k4)))

theorem execRingCreate_keep {s0 : State} {p : Part} {ring : BitVec 10} {desc : HostRead} {s : State} (h : Keep s0 s) :
    KeepO s0 (execRingCreate p ring desc s) := by
  unfold execRingCreate
  refine ite_keepO ?_ ?_
  · exact next_keep (hostTouch_keep h)
  · extract_lets +onlyGivenNames x1
    have k2 : Keep s0 x1 := hostTouch_keep h
    clear_value x1
    refine ite_keepO ?_ ?_
    · split
      · exact next_keep (ringCreateOk_keep k2)
      · exact next_keep (ringResult_keep k2)
    · exact next_keep k2

theorem onRing_keep {s0 s : State} {p : Nat} {i : Nat} {f : Ring → State} (h : Keep s0 s) (hf : ∀ y0, Keep s0 (f y0)) :
    Keep s0 (onRing s p i f) := by
  unfold onRing
  refine ite_keep h ?_
  refine ite_keep (ringResult_keep h) ?_
  split
  · exact ringResult_keep h
  · exact hf _

theorem stopRing_keep {s0 s : State} {rk : Nat} {w : RingWait} (h : Keep s0 s) :
    Keep s0 (stopRing s rk w) := by
  unfold stopRing
  extract_lets +onlyGivenNames x1
  have k2 : Keep s0 x1 := discard_keep h
  clear_value x1
  split
  · exact k2
  · exact checkDrain_keep (ringPending_keep (setRing_keep k2))

theorem execRingDestroy_keep {s0 : State} {p : Part} {ring : BitVec 10} {s : State} (h : Keep s0 s) :
    KeepO s0 (execRingDestroy p ring s) := by
  unfold execRingDestroy
  refine ite_keepO ?_ ?_
  · exact next_keep (hostTouch_keep h)
  · extract_lets +onlyGivenNames x1
    have k2 : Keep s0 x1 := hostTouch_keep h
    clear_value x1
    exact next_keep (onRing_keep k2 (fun _ => (settle_keep (stopRing_keep k2))))

theorem execRingStop_keep {s0 : State} {p : Part} {ring : BitVec 10} {s : State} (h : Keep s0 s) :
    KeepO s0 (execRingStop p ring s) := by
  unfold execRingStop
  refine ite_keepO ?_ ?_
  · exact next_keep (hostTouch_keep h)
  · extract_lets +onlyGivenNames x1
    have k2 : Keep s0 x1 := hostTouch_keep h
    clear_value x1
    exact next_keep (onRing_keep k2 (fun _ => (ite_keep (settle_keep (stopRing_keep k2)) (ringResult_keep k2))))

theorem execRingResume_keep {s0 : State} {p : Part} {ring : BitVec 10} {s : State} (h : Keep s0 s) :
    KeepO s0 (execRingResume p ring s) := by
  unfold execRingResume
  refine ite_keepO ?_ ?_
  · exact next_keep (hostTouch_keep h)
  · extract_lets +onlyGivenNames x1
    have k2 : Keep s0 x1 := hostTouch_keep h
    clear_value x1
    refine next_keep ?_
    refine onRing_keep k2 (fun x3 => ?_)
    extract_lets +onlyGivenNames x4
    clear_value x4
    exact ite_keep (ringResult_keep k2) (ite_keep (ringResult_keep k2) (checkDrain_keep (ringPending_keep (setRing_keep k2))))

theorem execRingQuery_keep {s0 : State} {p : Part} {ring : BitVec 10} {s : State} (h : Keep s0 s) :
    KeepO s0 (execRingQuery p ring s) := by
  unfold execRingQuery
  refine ite_keepO ?_ ?_
  · exact next_keep (hostTouch_keep h)
  · extract_lets +onlyGivenNames x1
    have k2 : Keep s0 x1 := hostTouch_keep h
    clear_value x1
    refine ite_keepO ?_ ?_
    · exact next_keep (ringResult_keep k2)
    · exact next_keep k2

theorem execRingCmdReserved_keep {s0 : State} {p : Part} {ring : BitVec 10} {s : State} (h : Keep s0 s) :
    KeepO s0 (execRingCmdReserved p ring s) := by
  unfold execRingCmdReserved
  refine ite_keepO ?_ ?_
  · exact next_keep (hostTouch_keep h)
  · extract_lets +onlyGivenNames x1
    have k2 : Keep s0 x1 := hostTouch_keep h
    clear_value x1
    refine ite_keepO ?_ ?_
    · exact next_keep (ringResult_keep k2)
    · exact next_keep k2

theorem issueTail_keep {s0 s : State} {rk : Nat} {r : Ring} (h : Keep s0 s) :
    Keep s0 (issueTail s rk r) := by
  unfold issueTail
  exact emit_keep (setRing_keep h)

theorem execTailPoll_keep {s0 : State} {p : Part} {ring : BitVec 10} {s : State} (h : Keep s0 s) :
    KeepO s0 (execTailPoll p ring s) := by
  unfold execTailPoll
  split
  · refine ite_keepO ?_ ?_
    · exact next_keep (issueTail_keep h)
    · exact next_keep h
  · exact next_keep h

theorem takeTail_keep {s0 s : State} {rk : Nat} {r : Ring} {t : Nat} (h : Keep s0 s) :
    Keep s0 (takeTail s rk r t) := by
  unfold takeTail
  exact ite_keep (setRing_keep h) (tailError_keep (setRing_keep h))

theorem tailReturn_keep {s0 s : State} {p : Nat} {i : Nat} {d : HostRead} (h : Keep s0 s) :
    Keep s0 (tailReturn s p i d) := by
  unfold tailReturn
  split
  · exact h
  · refine ite_keep h ?_
    extract_lets +onlyGivenNames x1
    clear_value x1
    refine ite_keep (setRing_keep h) ?_
    split
    · exact settle_keep (tailAbort_keep (setRing_keep h))
    · exact settle_keep (takeTail_keep h)

theorem execTailReadReturn_keep {s0 : State} {p : Part} {ring : BitVec 10} {r : HostRead} {s : State} (h : Keep s0 s) :
    KeepO s0 (execTailReadReturn p ring r s) := by
  unfold execTailReadReturn
  exact next_keep (tailReturn_keep h)

theorem bumpWid_keep {s0 s : State} (h : Keep s0 s) :
    Keep s0 (bumpWid s) := by
  unfold bumpWid
  exact upd_keep h rfl rfl rfl

theorem entryAbort_keep {s0 s : State} {rk : Nat} {r : Ring} {f : XFault} {addr : Nat} (h : Keep s0 s) :
    Keep s0 (entryAbort s rk r f addr) := by
  unfold entryAbort
  split
  extract_lets +onlyGivenNames x1 x2
  have k3 : Keep s0 x1 := abortRecord_keep h
  clear_value x1
  clear_value x2
  extract_lets +onlyGivenNames x4
  have k5 : Keep s0 x4 := ite_keep (setRing_keep (bumpWid_keep k3)) k3
  clear_value x4
  exact popRetired_keep (ringError_keep k5)

theorem fetchSlot_keep {s0 s : State} {rk : Nat} {r : Ring} {d : HostRead} (h : Keep s0 s) :
    Keep s0 (fetchSlot s rk r d) := by
  unfold fetchSlot
  refine ite_keep h ?_
  extract_lets +onlyGivenNames x1
  clear_value x1
  refine ite_keep ?_ ?_
  · split
    · rename_i e2
      have k3 := pair_keep e2 (engineRead_keep h)
      exact settle_keep (entryAbort_keep k3)
    · rename_i e4
      have k5 := pair_keep e4 (engineRead_keep h)
      exact settle_keep (bumpWid_keep (setRing_keep k5))
  · split
    · exact settle_keep (entryAbort_keep h)
    · exact settle_keep (bumpWid_keep (setRing_keep h))

theorem retireAhead_keep {s0 s : State} {rk : Nat} {wid : Nat} {code : Nat} (h : Keep s0 s) :
    Keep s0 (retireAhead s rk wid code) := by
  unfold retireAhead
  extract_lets +onlyGivenNames x1
  have k1 : Keep s0 x1 := retireEntry_keep h
  clear_value x1
  split
  · exact setRing_keep k1
  · exact k1

theorem bufferAbort_keep {s0 s : State} {rk : Nat} {r : Ring} {c : Entry} {f : XFault} {addr : Nat} (h : Keep s0 s) :
    Keep s0 (bufferAbort s rk r c f addr) := by
  unfold bufferAbort
  split
  extract_lets +onlyGivenNames x1 x2 x3
  have k4 : Keep s0 x1 := abortRecord_keep h
  clear_value x1
  have k5 : Keep s0 x2 := setRing_keep k4
  clear_value x2
  have k6 : Keep s0 x3 := ite_keep k5 (ite_keep (retireEntry_keep k5) (retireAhead_keep k5))
  clear_value x3
  exact ringError_keep k6

theorem fetchBuffer_keep {s0 s : State} {rk : Nat} {r : Ring} {d : HostRead} (h : Keep s0 s) :
    Keep s0 (fetchBuffer s rk r d) := by
  unfold fetchBuffer
  split
  · exact h
  · refine ite_keep h ?_
    extract_lets +onlyGivenNames x1
    clear_value x1
    split
    · rename_i e2
      have k3 := pair_keep e2 (engineRead_keep h)
      exact settle_keep (bufferAbort_keep k3)
    · rename_i e4
      have k5 := pair_keep e4 (engineRead_keep h)
      extract_lets +onlyGivenNames x6
      clear_value x6
      exact settle_keep (bumpWid_keep (setRing_keep k5))

theorem fetchEntry_keep {s0 s : State} {p : Nat} {i : Nat} {buffer : Bool} {d : HostRead} (h : Keep s0 s) :
    Keep s0 (fetchEntry s p i buffer d) := by
  unfold fetchEntry
  split
  · exact h
  · exact ite_keep h (ite_keep (fetchBuffer_keep h) (fetchSlot_keep h))

theorem execEntryFetch_keep {s0 : State} {p : Part} {ring : BitVec 10} {buffer : Bool} {r : HostRead} {s : State} (h : Keep s0 s) :
    KeepO s0 (execEntryFetch p ring buffer r s) := by
  unfold execEntryFetch
  exact next_keep (fetchEntry_keep h)

theorem idleStart_keep {s0 s : State} {rk : Nat} {r : Ring} (h : Keep s0 s) :
    Keep s0 (idleStart s rk r) := by
  unfold idleStart
  exact emit_keep (dbWrite_keep (setRing_keep h))

theorem execIdleSequence_keep {s0 : State} {p : Part} {ring : BitVec 10} {s : State} (h : Keep s0 s) :
    KeepO s0 (execIdleSequence p ring s) := by
  unfold execIdleSequence
  split
  · refine ite_keepO ?_ ?_
    · exact next_keep (idleStart_keep h)
    · exact next_keep h
  · exact next_keep h

theorem idleJudge_keep {s0 s : State} {rk : Nat} {r : Ring} {t : Nat} (h : Keep s0 s) :
    Keep s0 (idleJudge s rk r t) := by
  unfold idleJudge
  refine ite_keep (tailError_keep (setRing_keep h)) ?_
  refine ite_keep ?_ ?_
  · extract_lets +onlyGivenNames x1 x2
    clear_value x1
    have k3 : Keep s0 x2 := bump32_keep (dbWrite_keep (setRing_keep h))
    clear_value x2
    exact issueTail_keep k3
  · exact setRing_keep h

theorem idleReturn_keep {s0 s : State} {p : Nat} {i : Nat} {d : HostRead} (h : Keep s0 s) :
    Keep s0 (idleReturn s p i d) := by
  unfold idleReturn
  split
  · exact h
  · refine ite_keep h ?_
    extract_lets +onlyGivenNames x1
    clear_value x1
    refine ite_keep (setRing_keep h) ?_
    split
    · exact settle_keep (tailAbort_keep (setRing_keep h))
    · exact settle_keep (idleJudge_keep h)

theorem execIdleTailReturn_keep {s0 : State} {p : Part} {ring : BitVec 10} {r : HostRead} {s : State} (h : Keep s0 s) :
    KeepO s0 (execIdleTailReturn p ring r s) := by
  unfold execIdleTailReturn
  exact next_keep (idleReturn_keep h)

theorem wakeIgnored_keep {s0 s : State} (h : Keep s0 s) :
    Keep s0 (wakeIgnored s) := by
  unfold wakeIgnored
  exact bump32_keep h

theorem wakeRing_keep {s0 s : State} {p : Nat} {i : Nat} (h : Keep s0 s) :
    Keep s0 (wakeRing s p i) := by
  unfold wakeRing
  refine ite_keep (wakeIgnored_keep h) ?_
  split
  · exact wakeIgnored_keep h
  · split
    · extract_lets +onlyGivenNames x1
      clear_value x1
      exact bump64_keep (issueTail_keep (dbWrite_keep h))
    · exact setRing_keep h
    · exact wakeIgnored_keep h

theorem takeRoom_keep {s0 s : State} {rk : Nat} {r : Ring} {e : Entry} (h : Keep s0 s) :
    Keep s0 (takeRoom s rk r e) := by
  unfold takeRoom
  extract_lets +onlyGivenNames x1
  have k2 : Keep s0 x1 := setRing_keep h
  clear_value x1
  exact noteConds_keep (ite_keep k2 (waitGate_keep k2))

theorem execInFlightAdmission_keep {s0 : State} {p : Part} {ring : BitVec 10} {s : State} (h : Keep s0 s) :
    KeepO s0 (execInFlightAdmission p ring s) := by
  unfold execInFlightAdmission
  split
  · exact next_keep h
  · split
    · exact next_keep h
    · refine ite_keepO ?_ ?_
      · exact next_keep (takeRoom_keep h)
      · exact next_keep h

theorem execEntryRetirement_keep {s0 : State} {wid : Nat} {s : State} (h : Keep s0 s) :
    KeepO s0 (execEntryRetirement wid s) := by
  unfold execEntryRetirement
  split
  · exact next_keep (settle_keep (retireEntry_keep h))
  · exact next_keep h

theorem execNop_keep {s0 : State} {p : Part} {ring : BitVec 10} {s : State} (h : Keep s0 s) :
    KeepO s0 (execNop p ring s) := by
  unfold execNop
  split
  · exact next_keep (doneAtOnce_keep h)
  · exact next_keep h

theorem execCall_keep {s0 : State} {p : Part} {ring : BitVec 10} {s : State} (h : Keep s0 s) :
    KeepO s0 (execCall p ring s) := by
  unfold execCall
  split
  · exact next_keep (settle_keep (dispatched_keep h))
  · exact next_keep h

theorem toRoom_keep {s0 s : State} {rk : Nat} {e : Entry} {d : List Byte} (h : Keep s0 s) :
    Keep s0 (toRoom s rk e d) := by
  unfold toRoom
  split
  · exact h
  · refine ite_keep (handleInvalid_keep h) ?_
    extract_lets +onlyGivenNames x1
    have k2 : Keep s0 x1 := ite_keep (holdFence_keep h) h
    clear_value x1
    exact setRing_keep k2

theorem indirectBound_keep {s0 s : State} {rk : Nat} {r : Ring} {e : Entry} {reason : Nat} {word : Nat} (h : Keep s0 s) :
    Keep s0 (indirectBound s rk r e reason word) := by
  unfold indirectBound
  exact retireEntry_keep (appendRec_keep h)

theorem tensorRejected_keep {s0 s : State} {rk : Nat} {r : Ring} {e : Entry} {d : List Byte} {off : Nat} {reason : Nat} (h : Keep s0 s) :
    Keep s0 (tensorRejected s rk r e d off reason) := by
  unfold tensorRejected
  exact retireEntry_keep (rejectTensor_keep h)

theorem patchBound_keep {s0 s : State} {o : Origin} {patch : Nat} {node : Nat} {word : Nat} {addr : Nat} (h : Keep s0 s) :
    Keep s0 (patchBound s o patch node word addr) := by
  unfold patchBound
  exact appendRec_keep h

theorem launchRead_keep {s0 s : State} {rk : Nat} {r : Ring} {e : Entry} {d : List Byte} {q : Plan} (h : Keep s0 s) :
    Keep s0 (launchRead s rk r e d q) := by
  unfold launchRead
  extract_lets +onlyGivenNames x1 x2 x3 x4
  clear_value x1
  clear_value x2
  clear_value x3
  have k5 : ∀ y0 y1 y2 y3, Keep s0 y0 → Keep s0 (x4 y0 y1 y2 y3) := fun _ _ _ _ k6 => (retireEntry_keep (patchBound_keep k6))
  clear_value x4
  refine ite_keep (retireEntry_keep h) ?_
  refine ite_keep (k5 _ _ _ _ h) ?_
  split
  · exact k5 _ _ _ _ h
  · split
    · rename_i e7
      have k8 := pair_keep e7 (ite_fst_keep h (engineRead_keep h))
      exact retireEntry_keep (raise_keep k8)
    · rename_i e9
      have k10 := pair_keep e9 (ite_fst_keep h (engineRead_keep h))
      exact toRoom_keep k10

theorem judgeDesc_keep {s0 s : State} {rk : Nat} {r : Ring} {e : Entry} {d : List Byte} (h : Keep s0 s) :
    Keep s0 (judgeDesc s rk r e d) := by
  unfold judgeDesc
  extract_lets +onlyGivenNames x1
  clear_value x1
  split
  · exact formatError_keep h
  · extract_lets +onlyGivenNames x2
    clear_value x2
    refine ite_keep ?_ ?_
    · split
      · exact tensorRejected_keep h
      · exact toRoom_keep h
    · refine ite_keep ?_ ?_
      · split
        · exact launchRead_keep h
        · exact toRoom_keep h
      · exact toRoom_keep h

theorem patchDesc_keep {s0 s : State} {rk : Nat} {r : Ring} {e : Entry} {d : List Byte} (h : Keep s0 s) :
    Keep s0 (patchDesc s rk r e d) := by
  unfold patchDesc
  extract_lets +onlyGivenNames x1 x2
  clear_value x1
  clear_value x2
  refine ite_keep (judgeDesc_keep h) ?_
  refine ite_keep (indirectBound_keep h) ?_
  split
  · rename_i e3
    have k4 := pair_keep e3 (engineRead_keep h)
    exact retireEntry_keep (raise_keep k4)
  · rename_i e5
    have k6 := pair_keep e5 (engineRead_keep h)
    extract_lets +onlyGivenNames x7
    clear_value x7
    split
    · exact indirectBound_keep k6
    · exact judgeDesc_keep k6

theorem readSegs_keep {s0 s : State} {ctx va mask : Nat} {l : List Nat} {t : List (List Byte)} {ext : HostRead} (h : Keep s0 s) :
    Keep s0 (readSegs s ctx va mask l t ext).1 := by
  induction l generalizing s t ext with
  | nil => exact h
  | cons i rest ih =>
    unfold readSegs
    refine ite_fst_keep (ih h) ?_
    split
    · rename_i e
      exact fst_keep (pair_keep e (engineRead_keep h))
    · rename_i e
      exact ih (pair_keep e (engineRead_keep h))

theorem segRead_keep {s0 s : State} {rk : Nat} {r : Ring} {e : Entry} {ext : HostRead} (h : Keep s0 s) :
    Keep s0 (segRead s rk r e ext) := by
  unfold segRead
  extract_lets +onlyGivenNames x1
  clear_value x1
  split
  · rename_i e2
    have k3 := pair_keep e2 (readSegs_keep h)
    exact payloadAbort_keep k3
  · rename_i e4
    have k5 := pair_keep e4 (readSegs_keep h)
    extract_lets +onlyGivenNames x6
    clear_value x6
    split
    · exact formatError_keep k5
    · exact toRoom_keep k5

theorem readPayload_keep {s0 s : State} {rk : Nat} {r : Ring} {e : Entry} {ext : HostRead} (h : Keep s0 s) :
    Keep s0 (readPayload s rk r e ext) := by
  unfold readPayload
  split
  · exact formatError_keep h
  · refine ite_keep (segRead_keep h) ?_
    refine ite_keep (toRoom_keep h) ?_
    split
    · rename_i e1
      have k2 := pair_keep e1 (engineRead_keep h)
      exact payloadAbort_keep k2
    · rename_i e3
      have k4 := pair_keep e3 (engineRead_keep h)
      exact patchDesc_keep k4

theorem payloadReturn_keep {s0 s : State} {rk : Nat} {r : HostRead} (h : Keep s0 s) :
    Keep s0 (payloadReturn s rk r) := by
  unfold payloadReturn
  split
  · exact h
  · split
    · exact h
    · exact ite_keep (settle_keep (readPayload_keep h)) h

theorem execPayloadRead_keep {s0 : State} {p : Part} {ring : BitVec 10} {r : HostRead} {s : State} (h : Keep s0 s) :
    KeepO s0 (execPayloadRead p ring r s) := by
  unfold execPayloadRead
  exact next_keep (payloadReturn_keep h)

theorem setTable_keep {s0 s : State} {t : TableId} {l : List Seg} (h : Keep s0 s) :
    Keep s0 (setTable s t l) := by
  unfold setTable
  extract_lets +onlyGivenNames x1 x2 x3 x4
  clear_value x1
  clear_value x2
  have k5 : Keep s0 x3 := importSegs_keep h
  clear_value x3
  have k6 : Keep s0 x4 := by
    subst x4
    split
    · split
      · exact setCtx_keep k5
      · exact k5
    · exact setPart_keep k5
  clear_value x4
  exact releaseSegs_keep (dropTable_keep k6)

theorem execSegUpdate_keep {s0 : State} {p : Part} {ring : BitVec 10} {s : State} (h : Keep s0 s) :
    KeepO s0 (execSegUpdate p ring s) := by
  unfold execSegUpdate
  split
  · extract_lets +onlyGivenNames x1
    clear_value x1
    exact next_keep (doneAtOnce_keep (setTable_keep h))
  · exact next_keep h

theorem stampWrite_keep {s0 s : State} {ctx : Nat} {va : Nat} {t : Nat} (h : Keep s0 s) :
    Keep s0 (stampWrite s ctx va t).1 := by
  unfold stampWrite
  split
  · exact ite_fst_keep h (engineWrite_keep h)
  · exact engineWrite_keep h

theorem execTimestamp_keep {s0 : State} {p : Part} {ring : BitVec 10} {s : State} (h : Keep s0 s) :
    KeepO s0 (execTimestamp p ring s) := by
  unfold execTimestamp
  split
  · extract_lets +onlyGivenNames x1
    clear_value x1
    split
    · rename_i e2
      have k3 := pair_keep e2 (stampWrite_keep h)
      exact next_keep (doneAtOnce_keep k3)
    · rename_i e4
      have k5 := pair_keep e4 (stampWrite_keep h)
      exact next_keep (settle_keep (engineFault_keep (dispatched_keep k5)))
  · exact next_keep h

theorem execGantryWake_keep {s0 : State} {fn : Part} {value : Word32} {s : State} (h : Keep s0 s) :
    KeepO s0 (execGantryWake fn value s) := by
  unfold execGantryWake
  refine ite_keepO ?_ ?_
  · exact next_keep (hostTouch_keep h)
  · extract_lets +onlyGivenNames x1
    have k2 : Keep s0 x1 := hostTouch_keep h
    clear_value x1
    exact next_keep (settle_keep (wakeRing_keep k2))

theorem readImage_keep {s0 s : State} {ctx : Nat} {va : Nat} {n : Nat} {ext : HostRead} (h : Keep s0 s) :
    Keep s0 (readImage s ctx va n ext).1 := by
  unfold readImage
  extract_lets +onlyGivenNames x1
  clear_value x1
  refine ite_fst_keep h ?_
  split
  · rename_i e2
    have k3 := pair_keep e2 (engineRead_keep h)
    exact k3
  · rename_i e4
    have k5 := pair_keep e4 (engineRead_keep h)
    exact k5

theorem enterPlan_keep {s0 s : State} {p : Nat} {va : Nat} {b : List Byte} (h : Keep s0 s) :
    Keep s0 (enterPlan s p va b).1 := by
  unfold enterPlan
  extract_lets +onlyGivenNames x1 x2 x3 x4 x5
  clear_value x1
  clear_value x2
  clear_value x3
  clear_value x4
  clear_value x5
  extract_lets +onlyGivenNames x6
  have k7 : Keep s0 x6 := setSched_keep h
  clear_value x6
  exact holdCtx_keep k7

theorem loadPlan_keep {s0 s : State} {p : Nat} {ctx : Nat} {d : List Byte} {ext : HostRead} (h : Keep s0 s) :
    Keep s0 (loadPlan s p ctx d ext).1 := by
  unfold loadPlan
  refine ite_fst_keep h ?_
  split
  · rename_i e1
    have k2 := pair_keep e1 (readImage_keep h)
    exact k2
  · rename_i e3
    have k4 := pair_keep e3 (readImage_keep h)
    split
    · split
      rename_i e5
      have k6 := pair_keep e5 (enterPlan_keep k4)
      exact k6
    · exact k4

theorem planRecord_keep {s0 s : State} {o : Origin} {addr : Nat} {bs : List Byte} (h : Keep s0 s) :
    Keep s0 (planRecord s o addr bs).1 := by
  unfold planRecord
  refine ite_fst_keep h ?_
  split
  · rename_i e1
    have k2 := pair_keep e1 (engineWrite_keep h)
    exact k2
  · rename_i e3
    have k4 := pair_keep e3 (engineWrite_keep h)
    exact raise_keep k4

theorem execPlanLoad_keep {s0 : State} {p : Part} {ring : BitVec 10} {ext : HostRead} {s : State} (h : Keep s0 s) :
    KeepO s0 (execPlanLoad p ring ext s) := by
  unfold execPlanLoad
  split
  · exact next_keep h
  · extract_lets +onlyGivenNames x1 x2
    clear_value x1
    clear_value x2
    split
    rename_i e3
    have k4 := pair_keep e3 (loadPlan_keep (dispatched_keep h))
    split
    rename_i e5
    have k6 := pair_keep e5 (planRecord_keep k4)
    exact next_keep (settle_keep (finish_keep k6))

theorem execPlanUnload_keep {s0 : State} {p : Part} {ring : BitVec 10} {s : State} (h : Keep s0 s) :
    KeepO s0 (execPlanUnload p ring s) := by
  unfold execPlanUnload
  split
  · exact next_keep h
  · extract_lets +onlyGivenNames x1
    have k2 : Keep s0 x1 := dispatched_keep h
    clear_value x1
    exact next_keep (settle_keep (setSched_keep k2))

theorem makeNodes_keep {s0 s : State} {p : Nat} {l : List (List Byte × List Byte)} (h : Keep s0 s) :
    Keep s0 (makeNodes s p l).1 := by
  unfold makeNodes
  refine foldl_fst_keep h (fun x1 x2 k3 => ?_)
  split
  rename_i e4
  have k5 := pair_keep' e4 (takeWid_keep k3)
  extract_lets +onlyGivenNames x6 x7
  clear_value x6
  clear_value x7
  exact foldl_keep k5 (fun _ _ k8 => (holdFence_keep k8))

theorem startLaunch_keep {s0 s : State} {slot : Nat} {wid : Nat} {q : Plan} {o : Origin} {payload : Nat} {result : Nat} {args : List Byte} (h : Keep s0 s) :
    Keep s0 (startLaunch s slot wid q o payload result args) := by
  unfold startLaunch
  extract_lets +onlyGivenNames x1
  clear_value x1
  split
  rename_i e2
  have k3 := pair_keep' e2 (takeWid_keep h)
  split
  rename_i e4
  have k5 := pair_keep e4 (makeNodes_keep k3)
  extract_lets +onlyGivenNames x6
  clear_value x6
  exact setSched_keep k5

theorem execPlanLaunch_keep {s0 : State} {p : Part} {ring : BitVec 10} {s : State} (h : Keep s0 s) :
    KeepO s0 (execPlanLaunch p ring s) := by
  unfold execPlanLaunch
  split
  · exact next_keep h
  · extract_lets +onlyGivenNames x1
    clear_value x1
    split
    · exact next_keep (settle_keep (formatError_keep h))
    · exact next_keep (settle_keep (startLaunch_keep (dispatched_keep h)))

theorem checkNode_keep {s0 s : State} {l : Launch} {n : NodeSt} (h : Keep s0 s) :
    Keep s0 (checkNode s l n) := by
  unfold checkNode
  extract_lets +onlyGivenNames x1 x2 x3
  clear_value x1
  clear_value x2
  clear_value x3
  split
  · exact nodeFormat_keep h
  · refine ite_keep (nodeInvalid_keep h) ?_
    split
    · exact finish_keep (rejectTensor_keep h)
    · exact updNode_keep h

theorem admitNode_keep {s0 s : State} {l : Launch} {n : NodeSt} (h : Keep s0 s) :
    Keep s0 (admitNode s l n) := by
  unfold admitNode
  exact ite_keep h (ite_keep (updNode_keep h) (waitGate_keep (updNode_keep h)))

theorem flipNode_keep {s0 s : State} {l : Launch} {n : NodeSt} (h : Keep s0 s) :
    Keep s0 (flipNode s l n) := by
  unfold flipNode
  extract_lets +onlyGivenNames x1
  clear_value x1
  exact ite_keep (finish_keep (flipHead_keep h)) (nodeFormat_keep h)

theorem stampNode_keep {s0 s : State} {l : Launch} {n : NodeSt} (h : Keep s0 s) :
    Keep s0 (stampNode s l n) := by
  unfold stampNode
  split
  · rename_i e1
    have k2 := pair_keep e1 (stampWrite_keep h)
    exact finish_keep k2
  · rename_i e3
    have k4 := pair_keep e3 (stampWrite_keep h)
    exact engineFault_keep k4

theorem runNode_keep {s0 s : State} {l : Launch} {n : NodeSt} (h : Keep s0 s) :
    Keep s0 (runNode s l n) := by
  unfold runNode
  extract_lets +onlyGivenNames x1
  clear_value x1
  split
  · exact finish_keep h
  · exact startDispatch_keep h
  · exact startTensor_keep h
  · exact startPass_keep h
  · exact addCopy_keep h
  · exact addCopy_keep h
  · exact addCopy_keep h
  · exact addCrush_keep h
  · exact stampNode_keep h
  · exact flipNode_keep h

theorem dispatchNode_keep {s0 s : State} {li : Nat} {l : Launch} {n : NodeSt} (h : Keep s0 s) :
    Keep s0 (dispatchNode s li l n) := by
  unfold dispatchNode
  extract_lets +onlyGivenNames x1 x2
  have k3 : Keep s0 x1 := holdCtx_keep (updNode_keep h)
  clear_value x1
  clear_value x2
  extract_lets +onlyGivenNames x4
  have k5 : Keep s0 x4 := setSched_keep k3
  clear_value x4
  exact runNode_keep k5

theorem atNode_keep {s0 s : State} {wid : Nat} {step : NStep} {f : Nat → Launch → NodeSt → State} (h : Keep s0 s) (hf : ∀ y0 y1 y2, Keep s0 (f y0 y1 y2)) :
    Keep s0 (atNode s wid step f) := by
  unfold atNode
  split
  · exact ite_keep (hf _ _ _) h
  · exact h

theorem execNodeDispatch_keep {s0 : State} {wid : Nat} {s : State} (h : Keep s0 s) :
    KeepO s0 (execNodeDispatch wid s) := by
  unfold execNodeDispatch
  extract_lets +onlyGivenNames x1 x2
  have k3 : Keep s0 x1 := atNode_keep h (fun _ _ _ => (checkNode_keep h))
  clear_value x1
  have k4 : Keep s0 x2 := atNode_keep k3 (fun _ _ _ => (admitNode_keep k3))
  clear_value x2
  exact next_keep (settle_keep (atNode_keep k4 (fun _ _ _ => (ite_keep k4 (dispatchNode_keep k4)))))

theorem stopCopies_keep {s0 s : State} {k : Nat} {keep : Nat} (h : Keep s0 s) :
    Keep s0 (stopCopies s k keep) := by
  unfold stopCopies
  extract_lets +onlyGivenNames x1 x2 x3 x4
  clear_value x1
  clear_value x2
  clear_value x3
  have k5 : Keep s0 x4 := foldl_keep h (fun _ _ k6 => (unreserve_keep k6))
  clear_value x4
  exact setSched_keep k5

theorem stopCrush_keep {s0 s : State} {k : Nat} {keep : Nat} (h : Keep s0 s) :
    Keep s0 (stopCrush s k keep) := by
  unfold stopCrush
  extract_lets +onlyGivenNames x1 x2 x3
  clear_value x1
  clear_value x2
  have k4 : Keep s0 x3 := foldl_keep h (fun _ _ k5 => (unreserve_keep k5))
  clear_value x3
  exact setSched_keep k4

theorem stopPasses_keep {s0 s : State} {k : Nat} {code : Nat} (h : Keep s0 s) :
    Keep s0 (stopPasses s k code) := by
  unfold stopPasses
  refine foldl_keep h (fun x1 x2 k3 => ?_)
  split
  · exact endPass_keep k3
  · exact k3

theorem stopJobs_keep {s0 s : State} {k : Nat} (h : Keep s0 s) :
    Keep s0 (stopJobs s k) := by
  unfold stopJobs
  extract_lets +onlyGivenNames x1 x2 x3
  clear_value x2
  have k4 : Keep s0 x3 := foldl_keep h (fun _ _ k5 => (unreserve_keep k5))
  clear_value x3
  exact setCore_keep k4

theorem stopItems_keep {s0 s : State} {k : Nat} (h : Keep s0 s) :
    Keep s0 (stopItems s k) := by
  unfold stopItems
  refine foldl_keep h (fun x1 x2 k3 => ?_)
  split
  · exact k3
  · extract_lets +onlyGivenNames x4 x5
    have k6 : Keep s0 x4 := stopItem_keep k3
    clear_value x4
    have k7 : Keep s0 x5 := ite_keep (tComplete_keep k6) k6
    clear_value x5
    exact setCore_keep k7

theorem stopLoads_keep {s0 s : State} {k : Nat} (h : Keep s0 s) :
    Keep s0 (stopLoads s k) := by
  unfold stopLoads
  extract_lets +onlyGivenNames x1 x2 x3
  clear_value x1
  clear_value x2
  clear_value x3
  refine ite_keep h ?_
  split
  · exact ite_keep (nextLoad_keep h) (setCore_keep h)
  · exact h

theorem stopWork_keep {s0 s : State} {k : Nat} {keep : Nat} {code : Nat} (h : Keep s0 s) :
    Keep s0 (stopWork s k keep code) := by
  unfold stopWork
  extract_lets +onlyGivenNames x1 x2
  have k3 : Keep s0 x1 := stopLoads_keep (stopItems_keep (stopJobs_keep (stopPasses_keep (stopCrush_keep (stopCopies_keep h)))))
  clear_value x1
  clear_value x2
  exact setSched_keep k3

theorem forgetWork_keep {s0 s : State} {wid : Nat} (h : Keep s0 s) :
    Keep s0 (forgetWork s wid) := by
  unfold forgetWork
  extract_lets +onlyGivenNames x1 x2
  clear_value x1
  have k3 : Keep s0 x2 := setSched_keep h
  clear_value x2
  extract_lets +onlyGivenNames x4
  clear_value x4
  extract_lets +onlyGivenNames x5
  have k6 : Keep s0 x5 := setCore_keep k3
  clear_value x5
  exact upd_keep k6 rfl rfl rfl

theorem setServe_keep {s0 s : State} {x : ServeSt} (h : Keep s0 s) :
    Keep s0 (setServe s x) := by
  unfold setServe
  exact setSched_keep h

theorem writeProgress_keep {s0 s : State} {q : Request} {made : Nat} {st : Nat} (h : Keep s0 s) :
    Keep s0 (writeProgress s q made st).1 := by
  unfold writeProgress
  refine ite_fst_keep h ?_
  split
  · rename_i e1
    have k2 := pair_keep e1 (engineWrite_keep h)
    exact k2
  · rename_i e3
    have k4 := pair_keep e3 (engineWrite_keep h)
    exact raise_keep k4

theorem finishEntry_keep {s0 s : State} {wid : Nat} {code : Nat} (h : Keep s0 s) :
    Keep s0 (finishEntry s wid code) := by
  unfold finishEntry
  exact ite_keep (finish_keep h) h

theorem endRequest_keep {s0 s : State} {q : Request} {made : Nat} {st : Nat} {code : Nat} (h : Keep s0 s) :
    Keep s0 (endRequest s q made st code) := by
  unfold endRequest
  split
  rename_i e1
  have k2 := pair_keep e1 (writeProgress_keep h)
  extract_lets +onlyGivenNames x3
  clear_value x3
  split
  rename_i e4
  have k5 := pair_keep e4 (ite_fst_keep (modelRecord_keep k2) k2)
  exact finishEntry_keep k5

theorem endSeqs_keep {s0 s : State} {code : Nat} (h : Keep s0 s) :
    Keep s0 (endSeqs s code) := by
  unfold endSeqs
  extract_lets +onlyGivenNames x1
  have k2 : Keep s0 x1 := foldl_keep h (fun _ _ k3 => (endRequest_keep k3))
  clear_value x1
  exact setServe_keep k2

theorem endQueues_keep {s0 s : State} {code : Nat} (h : Keep s0 s) :
    Keep s0 (endQueues s code) := by
  unfold endQueues
  extract_lets +onlyGivenNames x1
  have k2 : Keep s0 x1 := foldl_keep h (fun _ _ k3 => (endRequest_keep k3))
  clear_value x1
  exact setServe_keep k2

theorem endModelEntry_keep {s0 s : State} {wid : Nat} {code : Nat} (h : Keep s0 s) :
    Keep s0 (endModelEntry s wid code) := by
  unfold endModelEntry
  split
  · split
    rename_i e1
    have k2 := pair_keep e1 (modelRecord_keep h)
    exact finish_keep k2
  · exact h

theorem endSession_keep {s0 s : State} {code : Nat} (h : Keep s0 s) :
    Keep s0 (endSession s code) := by
  unfold endSession
  extract_lets +onlyGivenNames x1 x2
  clear_value x1
  have k3 : Keep s0 x2 := setServe_keep (endQueues_keep (endSeqs_keep h))
  clear_value x2
  split
  · exact endModelEntry_keep k3
  · exact k3

theorem stepOver_keep {s0 s : State} (h : Keep s0 s) :
    Keep s0 (stepOver s) := by
  unfold stepOver
  extract_lets +onlyGivenNames x1
  clear_value x1
  extract_lets +onlyGivenNames x2
  have k3 : Keep s0 x2 := setServe_keep h
  clear_value x2
  exact ite_keep (endSession_keep k3) k3

theorem retireLaunch_keep {s0 s : State} {id : Nat} {l : Launch} (h : Keep s0 s) :
    Keep s0 (retireLaunch s id l) := by
  unfold retireLaunch
  extract_lets +onlyGivenNames x1 x2
  clear_value x1
  clear_value x2
  split
  rename_i e3
  have k4 := pair_keep e3 (planRecord_keep h)
  extract_lets +onlyGivenNames x5
  clear_value x5
  extract_lets +onlyGivenNames x6
  have k7 : Keep s0 x6 := setSched_keep k4
  clear_value x6
  exact ite_keep (ite_keep (stepOver_keep k7) k7) (finishEntry_keep k7)

theorem completeNode_keep {s0 s : State} {li : Nat} {l : Launch} {n : NodeSt} {code : Nat} {err : Nat} (h : Keep s0 s) :
    Keep s0 (completeNode s li l n code err) := by
  unfold completeNode
  extract_lets +onlyGivenNames x1 x2 x3 x4 x5 x6
  clear_value x1
  have k7 : Keep s0 x2 := forgetWork_keep (updNode_keep h)
  clear_value x2
  clear_value x3
  have k8 : Keep s0 x4 := ite_keep (ite_keep (signalFence_keep k7) (errorFence_keep k7)) k7
  clear_value x4
  have k9 : Keep s0 x5 := charge_keep (restartWatchdog_keep (foldl_keep k8 (fun _ _ k10 => (dropFence_keep k10))))
  clear_value x5
  have k11 : Keep s0 x6 := ite_keep (dropCtx_keep k9) k9
  clear_value x6
  split
  · exact ite_keep (retireLaunch_keep k11) k11
  · exact k11

theorem execNodeCompletion_keep {s0 : State} {wid : Nat} {s : State} (h : Keep s0 s) :
    KeepO s0 (execNodeCompletion wid s) := by
  unfold execNodeCompletion
  split
  · refine ite_keepO ?_ ?_
    · exact next_keep (settle_keep (completeNode_keep h))
    · exact next_keep h
  · exact next_keep h

theorem failLaunch_keep {s0 s : State} {id : Nat} {code : Nat} {err : Nat} (h : Keep s0 s) :
    Keep s0 (failLaunch s id code err) := by
  unfold failLaunch
  split
  · exact h
  · refine foldl_keep h (fun x1 x2 k3 => ?_)
    split
    · exact ite_keep (completeNode_keep k3) k3
    · exact k3

theorem modelDone_keep {s0 s : State} {rk : Nat} {r : Ring} {e : Entry} (h : Keep s0 s) :
    Keep s0 (modelDone s rk r e) := by
  unfold modelDone
  split
  rename_i e1
  have k2 := pair_keep e1 (modelRecord_keep (dispatched_keep h))
  exact settle_keep (finish_keep k2)

theorem modelCommand_keep {s0 s : State} {p : Nat} {i : Nat} {op : Nat} {cond : Ring → Entry → Option Nat} {f : Ring → Entry → State} (h : Keep s0 s) (hf : ∀ y0 y1, Keep s0 (f y0 y1)) :
    Keep s0 (modelCommand s p i op cond f) := by
  unfold modelCommand
  split
  · exact h
  · split
    · exact settle_keep (formatError_keep h)
    · exact hf _ _

theorem createModel_keep {s0 s : State} {first : Nat} {count : Nat} {strength : Nat} (h : Keep s0 s) :
    Keep s0 (createModel s first count strength) := by
  unfold createModel
  extract_lets +onlyGivenNames x1 x2 x3
  clear_value x1
  have k4 : Keep s0 x2 := foldl_keep h (fun _ _ k5 => (ite_keep k5 (fillClaim_keep k5)))
  clear_value x2
  extract_lets +onlyGivenNames x6
  have k7 : Keep s0 x6 := setMem_keep k4 rfl
  clear_value x6
  exact setSched_keep k7

theorem execModelCreate_keep {s0 : State} {p : Part} {ring : BitVec 10} {s : State} (h : Keep s0 s) :
    KeepO s0 (execModelCreate p ring s) := by
  unfold execModelCreate
  exact next_keep (modelCommand_keep h (fun _ _ => (modelDone_keep (createModel_keep h))))

theorem swapOut_keep {s0 s : State} {k : Nat} {keep : Nat} (h : Keep s0 s) :
    Keep s0 (swapOut s k keep) := by
  unfold swapOut
  extract_lets +onlyGivenNames x1 x2
  have k3 : Keep s0 x1 := stopWork_keep h
  clear_value x1
  have k4 : Keep s0 x2 := foldl_keep k3 (fun _ _ k5 => (failLaunch_keep k5))
  clear_value x2
  exact foldl_keep k4 (fun _ _ k6 => (forgetWork_keep (retireEntry_keep k6)))

theorem suspendSession_keep {s0 s : State} (h : Keep s0 s) :
    Keep s0 (suspendSession s) := by
  unfold suspendSession
  refine ite_keep ?_ ?_
  · extract_lets +onlyGivenNames x1
    have k2 : Keep s0 x1 := endSeqs_keep h
    clear_value x1
    exact setServe_keep k2
  · exact h

theorem loadWork_keep {s0 s : State} {o : Origin} {d : List Byte} (h : Keep s0 s) :
    Keep s0 (loadWork s o d) := by
  unfold loadWork
  extract_lets +onlyGivenNames x1 x2
  clear_value x1
  clear_value x2
  exact ite_keep (addCrush_keep h) (addCopy_keep h)

theorem startLoad_keep {s0 s : State} {rk : Nat} {r : Ring} {e : Entry} (h : Keep s0 s) :
    Keep s0 (startLoad s rk r e) := by
  unfold startLoad
  extract_lets +onlyGivenNames x1 x2 x3 x4 x5
  clear_value x1
  have k6 : Keep s0 x3 := setMem_keep (dispatched_keep h) rfl
  clear_value x3
  have k7 : Keep s0 x4 := suspendSession_keep (foldl_keep k6 (fun _ _ k8 => (swapOut_keep k8)))
  clear_value x4
  clear_value x5
  extract_lets +onlyGivenNames x9
  clear_value x9
  extract_lets +onlyGivenNames x10
  have k11 : Keep s0 x10 := setSched_keep k7
  clear_value x10
  exact settle_keep (ite_keep (loadWork_keep (endSession_keep k11)) (loadWork_keep k11))

theorem execModelLoad_keep {s0 : State} {p : Part} {ring : BitVec 10} {s : State} (h : Keep s0 s) :
    KeepO s0 (execModelLoad p ring s) := by
  unfold execModelLoad
  exact next_keep (modelCommand_keep h (fun _ _ => (startLoad_keep h)))

theorem execModelLoadEnd_keep {s0 s : State} (h : Keep s0 s) :
    KeepO s0 (execModelLoadEnd s) := by
  unfold execModelLoadEnd
  split
  · exact next_keep h
  · refine ite_keepO ?_ ?_
    · exact next_keep h
    · extract_lets +onlyGivenNames x1 x2
      clear_value x1
      clear_value x2
      extract_lets +onlyGivenNames x3
      extract_lets +onlyGivenNames x4
      have k5 : Keep s0 x4 := setMem_keep (setSched_keep h) rfl
      clear_value x4
      split
      rename_i e6
      have k7 := pair_keep e6 (modelRecord_keep k5)
      exact next_keep (settle_keep (finish_keep k7))

theorem dropLoad_keep {s0 s : State} {l : ModelLoad} (h : Keep s0 s) :
    Keep s0 (dropLoad s l) := by
  unfold dropLoad
  extract_lets +onlyGivenNames x1 x2 x3
  clear_value x2
  have k4 : Keep s0 x3 := unreserve_keep h
  clear_value x3
  exact setSched_keep k4

theorem execModelSwapTimeout_keep {s0 s : State} (h : Keep s0 s) :
    KeepO s0 (execModelSwapTimeout s) := by
  unfold execModelSwapTimeout
  split
  · exact next_keep h
  · refine ite_keepO ?_ ?_
    · exact next_keep h
    · extract_lets +onlyGivenNames x1
      have k2 : Keep s0 x1 := appendRec_keep (dropLoad_keep h)
      clear_value x1
      split
      rename_i e3
      have k4 := pair_keep e3 (modelRecord_keep k2)
      exact next_keep (settle_keep (finish_keep k4))

theorem dropHeldWork_keep {s0 s : State} (h : Keep s0 s) :
    Keep s0 (dropHeldWork s) := by
  unfold dropHeldWork
  extract_lets +onlyGivenNames x1
  clear_value x1
  exact foldl_keep h (fun _ _ k2 => (retireEntry_keep k2))

theorem freeModelClaims_keep {s0 s : State} (h : Keep s0 s) :
    Keep s0 (freeModelClaims s) := by
  unfold freeModelClaims
  extract_lets +onlyGivenNames x1 x2
  clear_value x1
  have k3 : Keep s0 x2 := unlockWhere_keep h
  clear_value x2
  exact setMem_keep k3 rfl

theorem destroyModel_keep {s0 s : State} (h : Keep s0 s) :
    Keep s0 (destroyModel s) := by
  unfold destroyModel
  extract_lets +onlyGivenNames x1 x2
  have k3 : Keep s0 x1 := by
    subst x1
    split
    · exact finish_keep (dropLoad_keep h)
    · exact h
  clear_value x1
  have k4 : Keep s0 x2 := freeModelClaims_keep (dropHeldWork_keep k3)
  clear_value x2
  exact settleModel_keep (setSched_keep k4)

theorem execModelDestroy_keep {s0 : State} {p : Part} {ring : BitVec 10} {s : State} (h : Keep s0 s) :
    KeepO s0 (execModelDestroy p ring s) := by
  unfold execModelDestroy
  exact next_keep (modelCommand_keep h (fun _ _ => (modelDone_keep (destroyModel_keep h))))

theorem startServe_keep {s0 s : State} {d : List Byte} (h : Keep s0 s) :
    Keep s0 (startServe s d) := by
  unfold startServe
  split
  · exact h
  · exact setServe_keep h

theorem execServeStart_keep {s0 : State} {p : Part} {ring : BitVec 10} {s : State} (h : Keep s0 s) :
    KeepO s0 (execServeStart p ring s) := by
  unfold execServeStart
  exact next_keep (modelCommand_keep h (fun _ _ => (modelDone_keep (startServe_keep h))))

theorem execServeStop_keep {s0 : State} {p : Part} {ring : BitVec 10} {s : State} (h : Keep s0 s) :
    KeepO s0 (execServeStop p ring s) := by
  unfold execServeStop
  refine next_keep ?_
  refine modelCommand_keep h (fun x1 x2 => ?_)
  extract_lets +onlyGivenNames x3
  clear_value x3
  refine ite_keep (modelDone_keep (endSession_keep h)) ?_
  extract_lets +onlyGivenNames x4
  have k5 : Keep s0 x4 := dispatched_keep h
  clear_value x4
  exact settle_keep (setServe_keep k5)

theorem execRequest_keep {s0 : State} {p : Part} {ring : BitVec 10} {s : State} (h : Keep s0 s) :
    KeepO s0 (execRequest p ring s) := by
  unfold execRequest
  refine next_keep ?_
  refine modelCommand_keep h (fun x1 x2 => ?_)
  extract_lets +onlyGivenNames x3 x4
  clear_value x3
  clear_value x4
  split
  rename_i e5
  have k6 := pair_keep e5 (writeProgress_keep (dispatched_keep h))
  exact ite_keep (settle_keep (finish_keep k6)) (settle_keep (setServe_keep k6))

theorem cancelTag_keep {s0 s : State} {p : Nat} {tag : Nat} (h : Keep s0 s) :
    Keep s0 (cancelTag s p tag) := by
  unfold cancelTag
  extract_lets +onlyGivenNames x1 x2
  clear_value x1
  have k3 : Keep s0 x2 := foldl_keep h (fun _ _ k4 => (endRequest_keep k4))
  clear_value x2
  exact setServe_keep k3

theorem execCancel_keep {s0 : State} {p : Part} {ring : BitVec 10} {s : State} (h : Keep s0 s) :
    KeepO s0 (execCancel p ring s) := by
  unfold execCancel
  exact next_keep (modelCommand_keep h (fun _ _ => (modelDone_keep (cancelTag_keep h))))

theorem deliverToken_keep {s0 s : State} {i : Nat} {row : Row} (h : Keep s0 s) :
    Keep s0 (deliverToken s i row) := by
  unfold deliverToken
  split
  · exact h
  · split
    · rename_i e1
      have k2 := pair_keep e1 (engineRead_keep h)
      exact raise_keep k2
    · rename_i e3
      have k4 := pair_keep e3 (engineRead_keep h)
      extract_lets +onlyGivenNames x5 x6 x7 x8
      clear_value x5
      clear_value x6
      have k9 : Keep s0 x7 := by
        subst x7
        refine ite_keep k4 ?_
        split
        · rename_i e10
          have k11 := pair_keep e10 (engineWrite_keep k4)
          exact k11
        · rename_i e12
          have k13 := pair_keep e12 (engineWrite_keep k4)
          exact raise_keep k13
      clear_value x7
      clear_value x8
      exact setServe_keep k9

theorem deliverTokens_keep {s0 s : State} (h : Keep s0 s) :
    Keep s0 (deliverTokens s) := by
  unfold deliverTokens
  exact foldl_keep h (fun _ _ k1 => (deliverToken_keep k1))

theorem endDone_keep {s0 s : State} (h : Keep s0 s) :
    Keep s0 (endDone s) := by
  unfold endDone
  refine foldl_keep h (fun x1 x2 k3 => ?_)
  extract_lets +onlyGivenNames x4 x5
  clear_value x4
  have k6 : ∀ y0, Keep s0 y0 → Keep s0 (x5 y0) := fun _ k7 => (setServe_keep k7)
  clear_value x5
  exact ite_keep (k6 _ k3) (ite_keep (k6 _ (endRequest_keep k3)) (ite_keep (k6 _ (endRequest_keep k3)) (ite_keep (writeProgress_keep k3) k3)))

theorem admitOne_keep {s0 s : State} {p : Nat} {slot : Nat} {q : Request} {ext : HostRead} (h : Keep s0 s) :
    Keep s0 (admitOne s p slot q ext) := by
  unfold admitOne
  extract_lets +onlyGivenNames x1 x2
  clear_value x1
  clear_value x2
  extract_lets +onlyGivenNames x3
  have k4 : Keep s0 x3 := setServe_keep h
  clear_value x3
  split
  · rename_i e5
    have k6 := pair_keep e5 (engineRead_keep k4)
    exact engineFault_keep k6
  · rename_i e7
    have k8 := pair_keep e7 (engineRead_keep k4)
    split
    rename_i e9
    have k10 := pair_keep e9 (writeProgress_keep k8)
    refine ite_keep (finish_keep k10) ?_
    extract_lets +onlyGivenNames x11
    clear_value x11
    exact setServe_keep k10

theorem admitSeqs_keep {s0 s : State} {fuel : Nat} {ext : HostRead} (h : Keep s0 s) : Keep s0 (admitSeqs fuel s ext) := by
  induction fuel generalizing s ext with
  | zero => exact h
  | succ n ih =>
    unfold admitSeqs
    split
    · split
      · exact ih (admitOne_keep h)
      · exact h
    · exact h

theorem fillRows_keep {s0 s : State} (h : Keep s0 s) :
    Keep s0 (fillRows s) := by
  unfold fillRows
  extract_lets +onlyGivenNames x1 x2 x3
  clear_value x1
  clear_value x2
  have k4 : Keep s0 x3 := by
    subst x3
    refine foldl_keep h (fun x5 x6 k7 => ?_)
    extract_lets +onlyGivenNames x8 x9 x10
    clear_value x8
    have k11 : Keep s0 x9 := chargeAcct_keep k7
    clear_value x9
    have k12 : Keep s0 x10 := ite_keep (chargeAcct_keep k11) k11
    clear_value x10
    exact setServe_keep k12
  clear_value x3
  exact setServe_keep k4

theorem launchStep_keep {s0 s : State} (h : Keep s0 s) :
    Keep s0 (launchStep s) := by
  unfold launchStep
  extract_lets +onlyGivenNames x1 x2 x3 x4
  clear_value x1
  clear_value x2
  clear_value x3
  clear_value x4
  refine ite_keep h ?_
  split
  · rename_i e5
    have k6 := pair_keep e5 (engineWrite_keep h)
    exact raise_keep k6
  · rename_i e7
    have k8 := pair_keep e7 (engineWrite_keep h)
    split
    · exact k8
    · split
      · exact patchBound_keep k8
      · refine ite_keep (patchBound_keep k8) ?_
        extract_lets +onlyGivenNames x9 x10
        clear_value x9
        have k11 : Keep s0 x10 := startLaunch_keep k8
        clear_value x10
        exact setServe_keep k11

theorem execStepBoundary_keep {s0 : State} {ext : HostRead} {s : State} (h : Keep s0 s) :
    KeepO s0 (execStepBoundary ext s) := by
  unfold execStepBoundary
  extract_lets +onlyGivenNames x1
  clear_value x1
  refine ite_keepO ?_ ?_
  · exact next_keep h
  · extract_lets +onlyGivenNames x2 x3 x4
    have k5 : Keep s0 x2 := endDone_keep (deliverTokens_keep h)
    clear_value x2
    have k6 : Keep s0 x3 := admitSeqs_keep k5
    clear_value x3
    clear_value x4
    extract_lets +onlyGivenNames x7
    have k8 : Keep s0 x7 := fillRows_keep (setServe_keep k6)
    clear_value x7
    exact next_keep (settle_keep (launchStep_keep k8))

theorem execAcctSel_keep {s0 : State} {p : Part} {value : Word32} {s : State} (h : Keep s0 s) :
    KeepO s0 (execAcctSel p value s) := by
  unfold execAcctSel
  refine ite_keepO ?_ ?_
  · exact next_keep (hostTouch_keep h)
  · extract_lets +onlyGivenNames x1 x2 x3
    have k4 : Keep s0 x1 := hostTouch_keep h
    clear_value x1
    clear_value x2
    have k5 : Keep s0 x3 := wr_keep k4
    clear_value x3
    exact next_keep (setSched_keep k5)

theorem objResult_keep {s0 s : State} {p : Nat} {result : Nat} (h : Keep s0 s) :
    Keep s0 (objResult s p result) := by
  unfold objResult
  exact wr_keep h

theorem objBusy_keep {s0 s : State} {p : Nat} {w : ObjWait} (h : Keep s0 s) :
    Keep s0 (objBusy s p w) := by
  unfold objBusy
  extract_lets +onlyGivenNames x1
  have k2 : Keep s0 x1 := wr_keep h
  clear_value x1
  exact upd_keep k2 rfl rfl rfl

theorem createOk_keep {s0 s : State} {p : Nat} {owner : Nat} {b : List Byte} (h : Keep s0 s) :
    Keep s0 (createOk s p owner b) := by
  unfold createOk
  extract_lets +onlyGivenNames x1 x2 x3 x4 x5
  clear_value x1
  clear_value x2
  clear_value x3
  clear_value x4
  have k6 : Keep s0 x5 := wr_keep (setGen_keep h)
  clear_value x5
  split
  · exact importSegs_keep (setCtx_keep k6)
  · exact importFence_keep (setFence_keep k6)
  · extract_lets +onlyGivenNames x7
    clear_value x7
    exact judgeEvent_keep (holdFence_keep (setEvent_keep k6))
  · exact setMemObj_keep k6

theorem execObjCreate_keep {s0 : State} {p : Part} {owner : BitVec 16} {desc : HostRead} {s : State} (h : Keep s0 s) :
    KeepO s0 (execObjCreate p owner desc s) := by
  unfold execObjCreate
  refine ite_keepO ?_ ?_
  · exact next_keep (hostTouch_keep h)
  · extract_lets +onlyGivenNames x1
    have k2 : Keep s0 x1 := hostTouch_keep h
    clear_value x1
    refine ite_keepO ?_ ?_
    · exact next_keep k2
    · refine ite_keepO ?_ ?_
      · exact next_keep (objResult_keep k2)
      · split
        · exact next_keep (objResult_keep k2)
        · extract_lets +onlyGivenNames x3
          clear_value x3
          refine ite_keepO ?_ ?_
          · exact next_keep (objResult_keep (createOk_keep k2))
          · exact next_keep (objResult_keep k2)

theorem putRefs_keep {s0 s : State} {ty : Nat} {k : Nat} {r : Refs} (h : Keep s0 s) :
    Keep s0 (putRefs s ty k r) := by
  unfold putRefs
  split
  · split
    · exact setCtx_keep h
    · exact h
  · split
    · exact setFence_keep h
    · exact h
  · split
    · exact setEvent_keep h
    · exact h
  · split
    · exact setMemObj_keep h
    · exact h

theorem freeObj_keep {s0 s : State} {ty : Nat} {k : Nat} (h : Keep s0 s) :
    Keep s0 (freeObj s ty k) := by
  unfold freeObj
  split
  · exact freeCtx_keep h
  · exact freeFence_keep h
  · exact freeEvent_keep h
  · exact freeMemObj_keep h

theorem addRefOk_keep {s0 s : State} {p : Nat} {owner : Nat} (h : Keep s0 s) :
    Keep s0 (addRefOk s p owner) := by
  unfold addRefOk
  split
  · exact h
  · exact putRefs_keep h

theorem objCommand_keep {s0 s : State} {p : Nat} {result : Nat} {ok : State} (h : Keep s0 s) (h1 : Keep s0 ok) :
    Keep s0 (objCommand s p result ok) := by
  unfold objCommand
  exact ite_keep h (ite_keep (objResult_keep h) (ite_keep (objResult_keep h1) (objResult_keep h)))

theorem execAddRef_keep {s0 : State} {p : Part} {owner : BitVec 16} {s : State} (h : Keep s0 s) :
    KeepO s0 (execAddRef p owner s) := by
  unfold execAddRef
  refine ite_keepO ?_ ?_
  · exact next_keep (hostTouch_keep h)
  · extract_lets +onlyGivenNames x1
    have k2 : Keep s0 x1 := hostTouch_keep h
    clear_value x1
    exact next_keep (objCommand_keep k2 (addRefOk_keep k2))

theorem releaseOk_keep {s0 s : State} {p : Nat} {owner : Nat} (h : Keep s0 s) :
    Keep s0 (releaseOk s p owner) := by
  unfold releaseOk
  extract_lets +onlyGivenNames x1
  clear_value x1
  split
  · exact h
  · exact freeObj_keep (putRefs_keep h)

theorem execRelease_keep {s0 : State} {p : Part} {owner : BitVec 16} {s : State} (h : Keep s0 s) :
    KeepO s0 (execRelease p owner s) := by
  unfold execRelease
  refine ite_keepO ?_ ?_
  · exact next_keep (hostTouch_keep h)
  · extract_lets +onlyGivenNames x1
    have k2 : Keep s0 x1 := hostTouch_keep h
    clear_value x1
    exact next_keep (objCommand_keep k2 (releaseOk_keep k2))

theorem execSignal_keep {s0 : State} {p : Part} {_owner : BitVec 16} {s : State} (h : Keep s0 s) :
    KeepO s0 (execSignal p _owner s) := by
  unfold execSignal
  refine ite_keepO ?_ ?_
  · exact next_keep (hostTouch_keep h)
  · extract_lets +onlyGivenNames x1
    have k2 : Keep s0 x1 := hostTouch_keep h
    clear_value x1
    exact next_keep (objCommand_keep k2 (settle_keep (signalFence_keep k2)))

theorem execObjRead_keep {s0 : State} {p : Part} {_owner : BitVec 16} {s : State} (h : Keep s0 s) :
    KeepO s0 (execObjRead p _owner s) := by
  unfold execObjRead
  refine ite_keepO ?_ ?_
  · exact next_keep (hostTouch_keep h)
  · extract_lets +onlyGivenNames x1
    have k2 : Keep s0 x1 := hostTouch_keep h
    clear_value x1
    split
    · exact next_keep (objCommand_keep k2 k2)
    · exact next_keep (objCommand_keep k2 (wr_keep (wr_keep k2)))

theorem execObjQuery_keep {s0 : State} {p : Part} {_owner : BitVec 16} {s : State} (h : Keep s0 s) :
    KeepO s0 (execObjQuery p _owner s) := by
  unfold execObjQuery
  refine ite_keepO ?_ ?_
  · exact next_keep (hostTouch_keep h)
  · extract_lets +onlyGivenNames x1
    have k2 : Keep s0 x1 := hostTouch_keep h
    clear_value x1
    split
    · exact next_keep (objCommand_keep k2 k2)
    · exact next_keep (objCommand_keep k2 (wr_keep (wr_keep k2)))

theorem armEvent_keep {s0 s : State} {k : Nat} {e : Event} {v : Word} (h : Keep s0 s) :
    Keep s0 (armEvent s k e v) := by
  unfold armEvent
  exact judgeEvent_keep (setEvent_keep h)

theorem execArm_keep {s0 : State} {p : Part} {_owner : BitVec 16} {s : State} (h : Keep s0 s) :
    KeepO s0 (execArm p _owner s) := by
  unfold execArm
  refine ite_keepO ?_ ?_
  · exact next_keep (hostTouch_keep h)
  · extract_lets +onlyGivenNames x1
    have k2 : Keep s0 x1 := hostTouch_keep h
    clear_value x1
    split
    · exact next_keep (objCommand_keep k2 k2)
    · exact next_keep (objCommand_keep k2 (armEvent_keep k2))

theorem execEventTimeout_keep {s0 : State} {p : Part} {event : BitVec 16} {s : State} (h : Keep s0 s) :
    KeepO s0 (execEventTimeout p event s) := by
  unfold execEventTimeout
  split
  · exact next_keep h
  · refine ite_keepO ?_ ?_
    · exact next_keep (fireEvent_keep h)
    · exact next_keep h

theorem execKill_keep {s0 : State} {p : Part} {_owner : BitVec 16} {s : State} (h : Keep s0 s) :
    KeepO s0 (execKill p _owner s) := by
  unfold execKill
  refine ite_keepO ?_ ?_
  · exact next_keep (hostTouch_keep h)
  · extract_lets +onlyGivenNames x1
    have k2 : Keep s0 x1 := hostTouch_keep h
    clear_value x1
    refine ite_keepO ?_ ?_
    · exact next_keep k2
    · refine ite_keepO ?_ ?_
      · exact next_keep (objResult_keep k2)
      · refine ite_keepO ?_ ?_
        · extract_lets +onlyGivenNames x3
          clear_value x3
          exact next_keep (objBusy_keep (killCtx_keep k2))
        · exact next_keep (objResult_keep k2)

theorem ownerGoneStart_keep {s0 s : State} {p : Nat} {owner : Nat} (h : Keep s0 s) :
    Keep s0 (ownerGoneStart s p owner) := by
  unfold ownerGoneStart
  extract_lets +onlyGivenNames x1 x2
  have k3 : Keep s0 x1 := foldl_keep h (fun _ _ k4 => (killCtx_keep k4))
  clear_value x1
  have k5 : Keep s0 x2 := foldl_keep k3 (fun _ _ k6 => (errorFence_keep k6))
  clear_value x2
  exact upd_keep k5 rfl rfl rfl

theorem dropRefsOf_keep {s0 s : State} {ty : Nat} {l : List (Nat × Refs)} {p : Nat} {owner : Nat} (h : Keep s0 s) :
    Keep s0 (dropRefsOf s ty l p owner) := by
  unfold dropRefsOf
  exact foldl_keep h (fun _ _ k1 => (ite_keep (freeObj_keep (putRefs_keep k1)) k1))

theorem ownerGoneEnd_keep {s0 s : State} {p : Nat} {owner : Nat} (h : Keep s0 s) :
    Keep s0 (ownerGoneEnd s p owner) := by
  unfold ownerGoneEnd
  extract_lets +onlyGivenNames x1 x2 x3
  have k4 : Keep s0 x1 := dropRefsOf_keep h
  clear_value x1
  have k5 : Keep s0 x2 := dropRefsOf_keep k4
  clear_value x2
  have k6 : Keep s0 x3 := dropRefsOf_keep k5
  clear_value x3
  exact dropRefsOf_keep k6

theorem objWaitDone_keep {s0 s : State} {p : Nat} (h : Keep s0 s) :
    Keep s0 (objWaitDone s p) := by
  unfold objWaitDone
  split
  · exact h
  · extract_lets +onlyGivenNames x1
    have k2 : ∀ y0, Keep s0 y0 → Keep s0 (x1 y0) := fun _ k3 => (objResult_keep (upd_keep k3 rfl rfl rfl))
    clear_value x1
    split
    · exact ite_keep h (k2 _ h)
    · exact ite_keep h (k2 _ (ownerGoneEnd_keep h))

theorem execOwnerGone_keep {s0 : State} {p : Part} {owner : BitVec 16} {s : State} (h : Keep s0 s) :
    KeepO s0 (execOwnerGone p owner s) := by
  unfold execOwnerGone
  refine ite_keepO ?_ ?_
  · exact next_keep (hostTouch_keep h)
  · extract_lets +onlyGivenNames x1
    have k2 : Keep s0 x1 := hostTouch_keep h
    clear_value x1
    refine ite_keepO ?_ ?_
    · exact next_keep k2
    · refine ite_keepO ?_ ?_
      · exact next_keep (objResult_keep k2)
      · refine ite_keepO ?_ ?_
        · exact next_keep (objResult_keep k2)
        · exact next_keep (settle_keep (objWaitDone_keep (objBusy_keep (ownerGoneStart_keep k2))))

theorem execObjCmdReserved_keep {s0 : State} {p : Part} {_owner : BitVec 16} {s : State} (h : Keep s0 s) :
    KeepO s0 (execObjCmdReserved p _owner s) := by
  unfold execObjCmdReserved
  refine ite_keepO ?_ ?_
  · exact next_keep (hostTouch_keep h)
  · extract_lets +onlyGivenNames x1
    have k2 : Keep s0 x1 := hostTouch_keep h
    clear_value x1
    exact next_keep (objCommand_keep k2 k2)

theorem execDeadlockScan_keep {s0 s : State} (h : Keep s0 s) :
    KeepO s0 (execDeadlockScan s) := by
  unfold execDeadlockScan
  refine ite_keepO ?_ ?_
  · exact next_keep (upd_keep h rfl rfl rfl)
  · exact next_keep h

theorem breakSet_keep {s0 s : State} {l : List WaitAt} (h : Keep s0 s) :
    Keep s0 (breakSet s l) := by
  unfold breakSet
  extract_lets +onlyGivenNames x1 x2
  have k3 : Keep s0 x1 := bump32_keep h
  clear_value x1
  have k4 : Keep s0 x2 := foldl_keep k3 (fun _ _ k5 => (appendRec_keep k5))
  clear_value x2
  exact settle_keep (foldl_keep k4 (fun _ _ k6 => (errorFence_keep k6)))

theorem execDeadlockBreak_keep {s0 s : State} (h : Keep s0 s) :
    KeepO s0 (execDeadlockBreak s) := by
  unfold execDeadlockBreak
  extract_lets +onlyGivenNames x1 x2
  clear_value x1
  clear_value x2
  extract_lets +onlyGivenNames x3
  have k4 : Keep s0 x3 := upd_keep h rfl rfl rfl
  clear_value x3
  refine ite_keepO ?_ ?_
  · exact next_keep (breakSet_keep k4)
  · exact next_keep k4

theorem waitExpires_keep {s0 s : State} {w : WaitAt} (h : Keep s0 s) :
    Keep s0 (waitExpires s w) := by
  unfold waitExpires
  extract_lets +onlyGivenNames x1
  have k2 : Keep s0 x1 := appendRec_keep h
  clear_value x1
  split
  · exact settle_keep (retireEntry_keep k2)
  · exact finish_keep k2

theorem execWaitTimeout_keep {s0 : State} {wid : Nat} {s : State} (h : Keep s0 s) :
    KeepO s0 (execWaitTimeout wid s) := by
  unfold execWaitTimeout
  split
  · exact next_keep h
  · extract_lets +onlyGivenNames x1
    clear_value x1
    refine ite_keepO ?_ ?_
    · exact next_keep (waitExpires_keep h)
    · exact next_keep h

theorem execFaultqTail_keep {s0 : State} {p : Part} {value : Word32} {s : State} (h : Keep s0 s) :
    KeepO s0 (execFaultqTail p value s) := by
  unfold execFaultqTail
  refine ite_keepO ?_ ?_
  · exact next_keep (hostTouch_keep h)
  · extract_lets +onlyGivenNames x1 x2 x3
    have k4 : Keep s0 x1 := hostTouch_keep h
    clear_value x1
    clear_value x2
    clear_value x3
    refine ite_keepO ?_ ?_
    · exact next_keep (setPart_keep (wr_keep k4))
    · exact next_keep k4

theorem writeCapture_keep {s0 s : State} {c : Capture} (h : Keep s0 s) :
    Keep s0 (writeCapture s c).1 := by
  unfold writeCapture
  extract_lets +onlyGivenNames x1
  clear_value x1
  refine ite_fst_keep h ?_
  split
  · rename_i e2
    have k3 := pair_keep e2 (engineWrite_keep h)
    exact wrF_keep k3
  · rename_i e4
    have k5 := pair_keep e4 (engineWrite_keep h)
    exact k5

theorem flagRecord_keep {s0 s : State} {r : ErrRec} {flag : Nat} (h : Keep s0 s) :
    Keep s0 (flagRecord s r flag) := by
  unfold flagRecord
  extract_lets +onlyGivenNames x1 x2 x3
  clear_value x1
  clear_value x2
  have k4 : Keep s0 x3 := upd_keep h rfl rfl rfl
  clear_value x3
  extract_lets +onlyGivenNames x5
  clear_value x5
  exact setPart_keep k4

theorem captureNow_keep {s0 s : State} {key : Nat} (h : Keep s0 s) :
    Keep s0 (captureNow s key) := by
  unfold captureNow
  split
  · exact h
  · split
    rename_i e1
    have k2 := pair_keep e1 (writeCapture_keep (upd_keep h rfl rfl rfl))
    exact flagRecord_keep k2

theorem trigger_keep {s0 s : State} {r : ErrRec} {hung : Option Nat} (h : Keep s0 s) :
    Keep s0 (trigger s r hung) := by
  unfold trigger
  exact triggerCapture_keep (captureNow_keep h)

theorem execHangCapture_keep {s0 : State} {trig : CaptureTrigger} {s : State} (h : Keep s0 s) :
    KeepO s0 (execHangCapture trig s) := by
  unfold execHangCapture
  split
  · exact next_keep (captureNow_keep h)
  · exact next_keep (captureNow_keep h)

theorem watchdogBites_keep {s0 s : State} {k : Nat} {c : Ctx} (h : Keep s0 s) :
    Keep s0 (watchdogBites s k c) := by
  unfold watchdogBites
  extract_lets +onlyGivenNames x1 x2
  clear_value x1
  clear_value x2
  exact killCtx_keep (trigger_keep h)

theorem execContextWatchdog_keep {s0 : State} {p : Part} {ctx : BitVec 16} {s : State} (h : Keep s0 s) :
    KeepO s0 (execContextWatchdog p ctx s) := by
  unfold execContextWatchdog
  extract_lets +onlyGivenNames x1
  clear_value x1
  split
  · exact next_keep h
  · refine ite_keepO ?_ ?_
    · exact next_keep (settle_keep (watchdogBites_keep h))
    · exact next_keep h

theorem clearCore_keep {s0 s : State} {n : Nat} {k : Nat} (h : Keep s0 s) :
    Keep s0 (clearCore s n k) := by
  unfold clearCore
  extract_lets +onlyGivenNames x1 x2 x3 x4
  clear_value x1
  have k5 : Keep s0 x2 := by
    subst x2
    refine foldl_keep h (fun x6 x7 k8 => ?_)
    split
    · exact ite_keep (endPass_keep k8) k8
    · exact k8
  clear_value x2
  clear_value x3
  have k9 : Keep s0 x4 := foldl_keep k5 (fun _ _ k10 => (unreserve_keep k10))
  clear_value x4
  exact setCoreOf_keep k9

theorem clearArray_keep {s0 s : State} {n : Nat} {k : Nat} (h : Keep s0 s) :
    Keep s0 (clearArray s n k) := by
  unfold clearArray
  refine foldl_keep h (fun x1 x2 k3 => ?_)
  split
  · exact ite_keep (stopItem_keep k3) k3
  · exact k3

theorem clearUnit_keep {s0 s : State} {b : Nat} {k : Nat} (h : Keep s0 s) :
    Keep s0 (clearUnit s b k) := by
  unfold clearUnit
  refine foldl_keep h (fun x1 x2 k3 => ?_)
  split
  · exact endPass_keep k3
  · exact k3

theorem clearEngine_keep {s0 s : State} {e : Nat} {k : Nat} (h : Keep s0 s) :
    Keep s0 (clearEngine s e k) := by
  unfold clearEngine
  split
  · exact clearCore_keep h
  · exact clearArray_keep h
  · exact clearUnit_keep h
  · exact foldl_keep h (fun _ _ k1 => (setCrush_keep (unreserve_keep k1)))
  · exact foldl_keep h (fun _ _ k2 => (setCopies_keep (unreserve_keep k2)))
  · exact h

theorem raiseHang_keep {s0 s : State} {e : Nat} {rq : Nat × Nat} (h : Keep s0 s) :
    Keep s0 (raiseHang s e rq) := by
  unfold raiseHang
  extract_lets +onlyGivenNames x1 x2 x3
  clear_value x1
  have k4 : Keep s0 x2 := by
    subst x2
    split
    · exact trigger_keep h
    · exact h
  clear_value x2
  have k5 : Keep s0 x3 := foldl_keep k4 (fun _ _ k6 => (clearEngine_keep (killCtx_keep k6)))
  clear_value x3
  exact setSched_keep k5

theorem execHang_keep {s0 : State} {engine : BitVec 16} {s : State} (h : Keep s0 s) :
    KeepO s0 (execHang engine s) := by
  unfold execHang
  split
  · exact next_keep (settle_keep (raiseHang_keep h))
  · exact next_keep h

theorem execEngineResetEnd_keep {s0 : State} {engine : BitVec 16} {s : State} (h : Keep s0 s) :
    KeepO s0 (execEngineResetEnd engine s) := by
  unfold execEngineResetEnd
  exact next_keep (settle_keep (setSched_keep h))

theorem killStop_keep {s0 s : State} {k : Nat} (h : Keep s0 s) :
    Keep s0 (killStop s k) := by
  unfold killStop
  extract_lets +onlyGivenNames x1
  have k2 : Keep s0 x1 := captureNow_keep h
  clear_value x1
  split
  · exact k2
  · extract_lets +onlyGivenNames x3 x4
    clear_value x3
    clear_value x4
    exact foldl_keep (stopWork_keep (setKill_keep k2)) (fun _ _ k5 => (appendRec_keep k5))

theorem execKillEngineStop_keep {s0 : State} {p : Part} {ctx : BitVec 16} {s : State} (h : Keep s0 s) :
    KeepO s0 (execKillEngineStop p ctx s) := by
  unfold execKillEngineStop
  extract_lets +onlyGivenNames x1
  clear_value x1
  split
  · refine ite_keepO ?_ ?_
    · exact next_keep h
    · exact next_keep (settle_keep (killStop_keep h))
  · exact next_keep h

theorem killEntry_keep {s0 s : State} {rk : Nat} {err : Nat} {e : Entry} (h : Keep s0 s) :
    Keep s0 (killEntry s rk err e) := by
  unfold killEntry
  extract_lets +onlyGivenNames x1
  have k2 : Keep s0 x1 := ite_keep (errorFence_keep h) h
  clear_value x1
  exact forgetWork_keep (retireEntry_keep k2)

theorem killRing_keep {s0 s : State} {rk : Nat} {err : Nat} (h : Keep s0 s) :
    Keep s0 (killRing s rk err) := by
  unfold killRing
  split
  · exact h
  · extract_lets +onlyGivenNames x1 x2 x3
    clear_value x1
    have k4 : Keep s0 x2 := setRing_keep h
    clear_value x2
    have k5 : Keep s0 x3 := sendMsix_keep (dbWrite_keep k4)
    clear_value x3
    exact checkDrain_keep (foldl_keep k5 (fun _ _ k6 => (killEntry_keep k6)))

theorem dropRequests_keep {s0 s : State} {k : Nat} (h : Keep s0 s) :
    Keep s0 (dropRequests s k) := by
  unfold dropRequests
  exact setServe_keep h

theorem dropPlans_keep {s0 s : State} {k : Nat} (h : Keep s0 s) :
    Keep s0 (dropPlans s k) := by
  unfold dropPlans
  refine foldl_keep h (fun x1 x2 k3 => ?_)
  extract_lets +onlyGivenNames x4 x5
  have k6 : Keep s0 x4 := freePlan_keep k3
  clear_value x4
  clear_value x5
  exact foldl_keep (setSched_keep k6) (fun _ _ k7 => (finish_keep k7))

theorem killRetire_keep {s0 s : State} {k : Nat} {q : Kill} (h : Keep s0 s) :
    Keep s0 (killRetire s k q) := by
  unfold killRetire
  extract_lets +onlyGivenNames x1 x2 x3 x4 x5 x6
  clear_value x1
  clear_value x2
  have k7 : Keep s0 x3 := setKill_keep h
  clear_value x3
  have k8 : Keep s0 x4 := ite_keep (endSession_keep k7) k7
  clear_value x4
  have k9 : Keep s0 x5 := foldl_keep k8 (fun _ _ k10 => (failLaunch_keep k10))
  clear_value x5
  have k11 : Keep s0 x6 := dropRequests_keep (dropPlans_keep k9)
  clear_value x6
  exact foldl_keep k11 (fun _ _ k12 => (killRing_keep k12))

theorem execKillRetirement_keep {s0 : State} {p : Part} {ctx : BitVec 16} {s : State} (h : Keep s0 s) :
    KeepO s0 (execKillRetirement p ctx s) := by
  unfold execKillRetirement
  extract_lets +onlyGivenNames x1
  clear_value x1
  split
  · refine ite_keepO ?_ ?_
    · exact next_keep (settle_keep (killRetire_keep h))
    · exact next_keep h
  · exact next_keep h

theorem killEnd_keep {s0 s : State} {k : Nat} {q : Kill} (h : Keep s0 s) :
    Keep s0 (killEnd s k q) := by
  unfold killEnd
  extract_lets +onlyGivenNames x1
  have k2 : Keep s0 x1 := bump32_keep (appendRec_keep (dropSlot_keep h))
  clear_value x1
  exact freeCtx_keep (upd_keep k2 rfl rfl rfl)

theorem execKillSummaryRecord_keep {s0 : State} {p : Part} {ctx : BitVec 16} {s : State} (h : Keep s0 s) :
    KeepO s0 (execKillSummaryRecord p ctx s) := by
  unfold execKillSummaryRecord
  extract_lets +onlyGivenNames x1
  clear_value x1
  split
  · refine ite_keepO ?_ ?_
    · exact next_keep (settle_keep (objWaitDone_keep (killEnd_keep h)))
    · exact next_keep h
  · exact next_keep h

end Sys2Proof.Machine
end

