-- ==== Sys2Proof/Laws/KeepDevice.lean ====
section
/-! SUPPORT. The state functions keep the queue and soundness: partitions, functions, the report unit, memory, registers and sessions. One lemma per function: where the state it is given keeps,
so does the state it answers. -/
set_option linter.tactic.unusedName false
namespace Sys2Proof.Machine

theorem partResult_keep {s0 s : State} {result : Nat} {entry : Nat} (h : Keep s0 s) :
    Keep s0 (partResult s result entry) := by
  unfold partResult
  exact wr_keep h

theorem assignClaim_keep {s0 : State} {p : Nat} {s : State} {w : Nat} (h : Keep s0 s) :
    Keep s0 (assignClaim p s w) := by
  unfold assignClaim
  extract_lets +onlyGivenNames x1 x2 x3
  clear_value x1
  have k4 : Keep s0 x2 := ite_keep h (fillClaim_keep h)
  clear_value x2
  clear_value x3
  exact setMem_keep k4 rfl

theorem putGrant_keep {s0 s : State} {p : Nat} {on : Bool} (h : Keep s0 s) :
    Keep s0 (putGrant s p on) := by
  unfold putGrant
  extract_lets +onlyGivenNames x1
  clear_value x1
  exact setMem_keep h rfl

theorem clearFaultq_keep {s0 s : State} {p : Nat} (h : Keep s0 s) :
    Keep s0 (clearFaultq s p) := by
  unfold clearFaultq
  extract_lets +onlyGivenNames x1
  have k2 : Keep s0 x1 := wrF_keep (wrF_keep h)
  clear_value x1
  exact setPart_keep k2

theorem createPart_keep {s0 s : State} {p : Nat} {b : List Byte} {es : List Nat} (h : Keep s0 s) :
    Keep s0 (createPart s p b es) := by
  unfold createPart
  extract_lets +onlyGivenNames x1 x2 x3 x4 x5 x6
  have k7 : Keep s0 x1 := foldl_keep h (fun _ _ k8 => (assignClaim_keep k8))
  clear_value x1
  clear_value x2
  clear_value x3
  have k9 : Keep s0 x4 := putGrant_keep (clearFaultq_keep (setPart_keep k7))
  clear_value x4
  clear_value x5
  have k10 : Keep s0 x6 := setSched_keep k9
  clear_value x6
  extract_lets +onlyGivenNames x11
  have k12 : Keep s0 x11 := importSegs_keep k10
  clear_value x11
  exact ite_keep (foldl_keep (setSec_keep k12 rfl) (fun _ _ k13 => (appendRec_keep k13))) k12

theorem partCreate_keep {s0 s : State} {p : Nat} {hdr : HostRead} {claims : HostRead} (h : Keep s0 s) :
    Keep s0 (partCreate s p hdr claims) := by
  unfold partCreate
  split
  · extract_lets +onlyGivenNames x1 x2
    clear_value x1
    clear_value x2
    exact partResult_keep (createPart_keep h)
  · exact partResult_keep h

theorem execPartCreate_keep {s0 : State} {p : Part} {hdr : HostRead} {claims : HostRead} {s : State} (h : Keep s0 s) :
    KeepO s0 (execPartCreate p hdr claims s) := by
  unfold execPartCreate
  refine ite_keepO ?_ ?_
  · exact next_keep (hostTouch_keep h)
  · extract_lets +onlyGivenNames x1
    have k2 : Keep s0 x1 := hostTouch_keep h
    clear_value x1
    exact next_keep (ite_keep (settle_keep (partCreate_keep k2)) k2)

theorem silence_keep {s0 s : State} {p : Nat} (h : Keep s0 s) :
    Keep s0 (silence s p) := by
  unfold silence
  exact upd_keep h rfl rfl rfl

theorem killThrough_keep {s0 s : State} {k : Nat} (h : Keep s0 s) :
    Keep s0 (killThrough s k) := by
  unfold killThrough
  extract_lets +onlyGivenNames x1 x2
  have k3 : Keep s0 x1 := by
    subst x1
    split
    · exact ite_keep h (killStop_keep h)
    · exact h
  clear_value x1
  have k4 : Keep s0 x2 := by
    subst x2
    split
    · exact ite_keep k3 (killRetire_keep k3)
    · exact k3
  clear_value x2
  split
  · exact killEnd_keep k4
  · exact k4

theorem killPartition_keep {s0 s : State} {p : Nat} (h : Keep s0 s) :
    Keep s0 (killPartition s p) := by
  unfold killPartition
  extract_lets +onlyGivenNames x1
  have k2 : Keep s0 x1 := foldl_keep h (fun _ _ k3 => (killCtx_keep k3))
  clear_value x1
  exact objWaitDone_keep (foldl_keep k2 (fun _ _ k4 => (killThrough_keep k4)))

theorem dropRings_keep {s0 s : State} {p : Nat} (h : Keep s0 s) :
    Keep s0 (dropRings s p) := by
  unfold dropRings
  refine foldl_keep h (fun x1 x2 k3 => ?_)
  extract_lets +onlyGivenNames x4
  clear_value x4
  extract_lets +onlyGivenNames x5
  have k6 : Keep s0 x5 := upd_keep k3 rfl rfl rfl
  clear_value x5
  split
  · exact ringResult_keep k6
  · exact ringResult_keep k6
  · exact k6

theorem dropObjects_keep {s0 s : State} {p : Nat} (h : Keep s0 s) :
    Keep s0 (dropObjects s p) := by
  unfold dropObjects
  extract_lets +onlyGivenNames x1 x2 x3
  have k4 : Keep s0 x2 := foldl_keep h (fun _ _ k5 => (releaseSegs_keep (dropTable_keep k5)))
  clear_value x2
  clear_value x3
  extract_lets +onlyGivenNames x6
  have k7 : Keep s0 x6 := upd_keep k4 rfl rfl rfl
  clear_value x6
  exact setLink_keep k7 rfl

theorem dropModules_keep {s0 s : State} {p : Nat} (h : Keep s0 s) :
    Keep s0 (dropModules s p) := by
  unfold dropModules
  exact setCore_keep h

theorem teardown_keep {s0 s : State} {p : Nat} (h : Keep s0 s) :
    Keep s0 (teardown s p) := by
  unfold teardown
  extract_lets +onlyGivenNames x1 x2 x3
  have k4 : Keep s0 x1 := dropModules_keep (dropRings_keep (killPartition_keep (silence_keep h)))
  clear_value x1
  have k5 : Keep s0 x2 := dropHeads_keep (unlockWhere_keep (dropObjects_keep k4))
  clear_value x2
  have k6 : Keep s0 x3 := releaseSegs_keep (dropTable_keep (putGrant_keep k5))
  clear_value x3
  exact clearFaultq_keep (setPart_keep k6)

theorem endDestroy_keep {s0 s : State} {p : Nat} (h : Keep s0 s) :
    Keep s0 (endDestroy s p) := by
  unfold endDestroy
  extract_lets +onlyGivenNames x1
  clear_value x1
  extract_lets +onlyGivenNames x2
  clear_value x2
  extract_lets +onlyGivenNames x3
  have k4 : Keep s0 x3 := setSched_keep (upd_keep h rfl rfl rfl)
  clear_value x3
  exact ite_keep (partResult_keep (upd_keep k4 rfl rfl rfl)) k4

theorem destroyPart_keep {s0 s : State} {p : Nat} (h : Keep s0 s) :
    Keep s0 (destroyPart s p) := by
  unfold destroyPart
  refine ite_keep h ?_
  extract_lets +onlyGivenNames x1 x2 x3 x4
  clear_value x1
  clear_value x2
  have k5 : Keep s0 x3 := setPart_keep h
  clear_value x3
  have k6 : Keep s0 x4 := teardown_keep k5
  clear_value x4
  extract_lets +onlyGivenNames x7
  extract_lets +onlyGivenNames x8
  have k9 : Keep s0 x8 := setMem_keep k6 rfl
  clear_value x8
  exact ite_keep (endDestroy_keep k9) k9

theorem execPartDestroy_keep {s0 : State} {p : Part} {s : State} (h : Keep s0 s) :
    KeepO s0 (execPartDestroy p s) := by
  unfold execPartDestroy
  refine ite_keepO ?_ ?_
  · exact next_keep (hostTouch_keep h)
  · extract_lets +onlyGivenNames x1 x2
    have k3 : Keep s0 x1 := hostTouch_keep h
    clear_value x1
    clear_value x2
    refine next_keep ?_
    refine ite_keep k3 ?_
    refine ite_keep (partResult_keep k3) ?_
    extract_lets +onlyGivenNames x4
    clear_value x4
    extract_lets +onlyGivenNames x5
    have k6 : Keep s0 x5 := wr_keep (upd_keep k3 rfl rfl rfl)
    clear_value x5
    exact settle_keep (destroyPart_keep k6)

theorem execClaimFillingEnd_keep {s0 : State} {claim : BitVec 7} {s : State} (h : Keep s0 s) :
    KeepO s0 (execClaimFillingEnd claim s) := by
  unfold execClaimFillingEnd
  extract_lets +onlyGivenNames x1
  clear_value x1
  refine ite_keepO ?_ ?_
  · exact next_keep h
  · extract_lets +onlyGivenNames x2 x3 x4 x5
    clear_value x2
    have k6 : Keep s0 x3 := fillClaim_keep h
    clear_value x3
    clear_value x4
    extract_lets +onlyGivenNames x7
    have k8 : Keep s0 x7 := setMem_keep k6 rfl
    clear_value x7
    split
    · exact next_keep k8
    · extract_lets +onlyGivenNames x9
      have k10 : Keep s0 x9 := setPart_keep k8
      clear_value x9
      exact next_keep (ite_keep (endDestroy_keep k10) k10)

theorem dropPartTables_keep {s0 s : State} {p : Nat} (h : Keep s0 s) :
    Keep s0 (dropPartTables s p) := by
  unfold dropPartTables
  exact foldl_keep (dropTable_keep h) (fun _ _ k1 => (dropTable_keep k1))

theorem execSetGrant_keep {s0 : State} {p : Part} {grant : Bool} {s : State} (h : Keep s0 s) :
    KeepO s0 (execSetGrant p grant s) := by
  unfold execSetGrant
  refine ite_keepO ?_ ?_
  · exact next_keep (hostTouch_keep h)
  · extract_lets +onlyGivenNames x1 x2
    have k3 : Keep s0 x1 := hostTouch_keep h
    clear_value x1
    clear_value x2
    exact next_keep (ite_keep k3 (ite_keep (partResult_keep k3) (partResult_keep (dropPartTables_keep (putGrant_keep k3)))))

theorem regsKept_keep {s0 s : State} {p : Nat → Word → Bool} (h : Keep s0 s) : Keep s0 { s with regs := mkeep s.regs p } := by
  refine ⟨h.1, fun ha => ⟨?_, (h.2 ha).2⟩⟩
  dsimp only
  exact mwfD_mkeep p (h.2 ha).1

theorem resetPage_keep {s0 s : State} {p : Nat} (h : Keep s0 s) : Keep s0 (resetPage s p) := by
  unfold resetPage
  exact setSched_keep (regsKept_keep h)

theorem resetMsix_keep {s0 s : State} {f : Nat} (h : Keep s0 s) :
    Keep s0 (resetMsix s f) := by
  unfold resetMsix
  extract_lets +onlyGivenNames x1
  clear_value x1
  exact upd_keep h rfl rfl rfl

theorem resetFunction_keep {s0 s : State} {f : Nat} (h : Keep s0 s) :
    Keep s0 (resetFunction s f) := by
  unfold resetFunction
  exact resetMsix_keep (resetPage_keep h)

theorem resetPartRegs_keep {s0 s : State} (h : Keep s0 s) : Keep s0 (resetPartRegs s) := by
  unfold resetPartRegs
  exact regsKept_keep h

theorem destroyAll_keep {s0 s : State} {l : List Nat} (h : Keep s0 s) :
    Keep s0 (destroyAll s l) := by
  unfold destroyAll
  exact foldl_keep h (fun _ _ k1 => (destroyPart_keep k1))

theorem resetPf_keep {s0 s : State} (h : Keep s0 s) :
    Keep s0 (resetPf s) := by
  unfold resetPf
  extract_lets +onlyGivenNames x1 x2
  have k3 : Keep s0 x1 := destroyAll_keep h
  clear_value x1
  have k4 : Keep s0 x2 := foldl_keep (resetPartRegs_keep k3) (fun _ _ k5 => (resetFunction_keep k5))
  clear_value x2
  exact upd_keep k4 rfl rfl rfl

theorem execPfFlr_keep {s0 s : State} (h : Keep s0 s) :
    KeepO s0 (execPfFlr s) := by
  unfold execPfFlr
  exact next_keep (settle_keep (resetPf_keep (hostTouch_keep h)))

theorem execHotReset_keep {s0 s : State} (h : Keep s0 s) :
    KeepO s0 (execHotReset s) := by
  unfold execHotReset
  exact next_keep (settle_keep (resetPf_keep h))

theorem execLinkDownReset_keep {s0 s : State} (h : Keep s0 s) :
    KeepO s0 (execLinkDownReset s) := by
  unfold execLinkDownReset
  exact next_keep (settle_keep (resetPf_keep h))

theorem execVfFlr_keep {s0 : State} {n : Part} {s : State} (h : Keep s0 s) :
    KeepO s0 (execVfFlr n s) := by
  unfold execVfFlr
  extract_lets +onlyGivenNames x1 x2
  clear_value x1
  have k3 : Keep s0 x2 := hostTouch_keep h
  clear_value x2
  refine ite_keepO ?_ ?_
  · exact next_keep h
  · refine ite_keepO ?_ ?_
    · extract_lets +onlyGivenNames x4
      have k5 : Keep s0 x4 := teardown_keep k3
      clear_value x4
      exact next_keep (settle_keep (resetFunction_keep (upd_keep k5 rfl rfl rfl)))
    · exact next_keep (resetFunction_keep k3)

theorem clearVfs_keep {s0 s : State} (h : Keep s0 s) :
    Keep s0 (clearVfs s) := by
  unfold clearVfs
  extract_lets +onlyGivenNames x1 x2
  clear_value x1
  have k3 : Keep s0 x2 := foldl_keep (destroyAll_keep h) (fun _ _ k4 => (resetFunction_keep k4))
  clear_value x2
  exact upd_keep k3 rfl rfl rfl

theorem execVfEnableClear_keep {s0 s : State} (h : Keep s0 s) :
    KeepO s0 (execVfEnableClear s) := by
  unfold execVfEnableClear
  exact next_keep (settle_keep (clearVfs_keep (hostTouch_keep h)))

theorem releaseMsix_keep {s0 s : State} {f : Nat} {i : Nat} (h : Keep s0 s) :
    Keep s0 (releaseMsix s f i) := by
  unfold releaseMsix
  extract_lets +onlyGivenNames x1
  clear_value x1
  exact ite_keep (emit_keep (msixPut_keep h)) h

theorem execMsixUnmask_keep {s0 : State} {fn : Part} {index : BitVec 11} {s : State} (h : Keep s0 s) :
    KeepO s0 (execMsixUnmask fn index s) := by
  unfold execMsixUnmask
  refine ite_keepO ?_ ?_
  · exact next_keep (hostTouch_keep h)
  · extract_lets +onlyGivenNames x1 x2 x3
    have k4 : Keep s0 x1 := hostTouch_keep h
    clear_value x1
    clear_value x2
    clear_value x3
    refine ite_keepO ?_ ?_
    · exact next_keep (releaseMsix_keep (msixPut_keep k4))
    · exact next_keep k4

theorem execPcieMsixAllocWrite_keep {s0 : State} {fn : Part} {value : Word32} {s : State} (h : Keep s0 s) :
    KeepO s0 (execPcieMsixAllocWrite fn value s) := by
  unfold execPcieMsixAllocWrite
  refine ite_keepO ?_ ?_
  · exact next_keep (hostTouch_keep h)
  · extract_lets +onlyGivenNames x1 x2
    have k3 : Keep s0 x1 := hostTouch_keep h
    clear_value x1
    clear_value x2
    refine ite_keepO ?_ ?_
    · exact next_keep k3
    · exact next_keep (wr_keep k3)

theorem tailTimeout_keep {s0 s : State} {p : Nat} {i : Nat} {f : State → State} (h : Keep s0 s) (hf : ∀ y0, Keep s0 y0 → Keep s0 (f y0)) :
    Keep s0 (tailTimeout s p i f) := by
  unfold tailTimeout
  split
  · exact ite_keep (hf _ h) h
  · exact h

theorem execCompletionTimeout_keep {s0 : State} {req : ReadId} {s : State} (h : Keep s0 s) :
    KeepO s0 (execCompletionTimeout req s) := by
  unfold execCompletionTimeout
  split
  · exact next_keep (tailTimeout_keep h (fun _ k1 => (tailReturn_keep k1)))
  · exact next_keep (tailTimeout_keep h (fun _ k2 => (idleReturn_keep k2)))
  · exact next_keep (fetchEntry_keep h)
  · exact next_keep (payloadReturn_keep h)
  · exact next_keep (hostReply_keep h)

theorem execUnsupportedBarAccess_keep {s0 : State} {fn : Part} {off : BitVec 26} {bytes : Nat} {isRead : Bool} {s : State} (h : Keep s0 s) :
    KeepO s0 (execUnsupportedBarAccess fn off bytes isRead s) := by
  unfold execUnsupportedBarAccess
  extract_lets +onlyGivenNames x1
  have k2 : Keep s0 x1 := hostTouch_keep h
  clear_value x1
  refine ite_keepO ?_ ?_
  · exact next_keep h
  · exact next_keep (ite_keep (emit_keep k2) k2)

theorem setCrc_keep {s0 s : State} {u : Nat} {c : Nat} (h : Keep s0 s) :
    Keep s0 (setCrc s u c) := by
  unfold setCrc
  exact wrF_keep h

theorem setOpen_keep {s0 s : State} {u : Nat} {b : Bool} (h : Keep s0 s) :
    Keep s0 (setOpen s u b) := by
  unfold setOpen
  exact wrF_keep h

theorem openMsg_keep {s0 s : State} {u : Nat} {q : CrcParams} (h : Keep s0 s) :
    Keep s0 (openMsg s u q) := by
  unfold openMsg
  exact setMark_keep (setOpen_keep (setCrc_keep h))

theorem feedBytes_keep {s0 s : State} {u : Nat} {q : CrcParams} {bs : List Byte} (h : Keep s0 s) :
    Keep s0 (feedBytes s u q bs) := by
  unfold feedBytes
  exact setCrc_keep h

theorem dropMsg_keep {s0 s : State} {u : Nat} {q : CrcParams} (h : Keep s0 s) :
    Keep s0 (dropMsg s u q) := by
  unfold dropMsg
  exact setMark_keep (setOpen_keep (setCrc_keep h))

theorem markEvent_keep {s0 s : State} {u : Nat} {i : Nat} {code : Nat} {detail : List Byte} (h : Keep s0 s) :
    Keep s0 (markEvent s u i code detail) := by
  unfold markEvent
  extract_lets +onlyGivenNames x1
  have k2 : Keep s0 x1 := bumpF_keep h
  clear_value x1
  exact ite_keep k2 (appendRec_keep (wrF_keep k2))

theorem endMsg_keep {s0 s : State} {u : Nat} {q : CrcParams} {received : Option Nat} {short : Bool} (h : Keep s0 s) :
    Keep s0 (endMsg s u q received short) := by
  unfold endMsg
  extract_lets +onlyGivenNames x1 x2 x3 x4 x5 x6 x7 x8 x9 x10
  clear_value x4
  have k11 : Keep s0 x6 := bump64_keep h
  clear_value x6
  have k12 : Keep s0 x7 := ite_keep (wrF_keep (wrF_keep k11)) k11
  clear_value x7
  have k13 : Keep s0 x8 := wr_keep k12
  clear_value x8
  clear_value x9
  have k14 : Keep s0 x10 := ite_keep (markEvent_keep k13) (ite_keep (markEvent_keep k13) (ite_keep (markEvent_keep k13) k13))
  clear_value x10
  exact setMark_keep (setOpen_keep k14)

theorem ensureOpen_keep {s0 s : State} {u : Nat} {q : CrcParams} (h : Keep s0 s) :
    Keep s0 (ensureOpen s u q) := by
  unfold ensureOpen
  exact ite_keep h (openMsg_keep h)

theorem markOp_keep {s0 s : State} {u : Nat} {o : MarkOp} (h : Keep s0 s) :
    Keep s0 (markOp s u o) := by
  unfold markOp
  split
  · exact h
  · extract_lets +onlyGivenNames x1
    have k2 : ∀ y0, Keep s0 y0 → Keep s0 (x1 y0) := by
      intro y3 k4
      subst x1
      beta_reduce
      extract_lets +onlyGivenNames x5
      have k6 : Keep s0 x5 := feedBytes_keep (ensureOpen_keep k4)
      clear_value x5
      exact setMark_keep k6
    clear_value x1
    split
    · exact k2 _ h
    · extract_lets +onlyGivenNames x7
      have k8 : Keep s0 x7 := k2 _ h
      clear_value x7
      exact ite_keep k8 (setMark_keep k8)
    · exact endMsg_keep (ensureOpen_keep h)
    · exact endMsg_keep (ensureOpen_keep h)
    · exact dropMsg_keep h

theorem markStep_keep {s0 s : State} {u : Nat} {k : MarkOpKind} {port : Option (Nat × Nat)} (h : Keep s0 s) :
    Keep s0 (markStep s u k port) := by
  unfold markStep
  split
  · exact ite_keep (queueMark_keep h) h
  · split
    · exact h
    · exact ite_keep (markOp_keep (setMark_keep h)) h

theorem execFeed_keep {s0 : State} {unit : BitVec 4} {port : Option (Nat × Nat)} {s : State} (h : Keep s0 s) :
    KeepO s0 (execFeed unit port s) := by
  unfold execFeed
  exact next_keep (markStep_keep h)

theorem execAlive_keep {s0 : State} {unit : BitVec 4} {port : Option (Nat × Nat)} {s : State} (h : Keep s0 s) :
    KeepO s0 (execAlive unit port s) := by
  unfold execAlive
  exact next_keep (markStep_keep h)

theorem execMarkEnd_keep {s0 : State} {unit : BitVec 4} {port : Option (Nat × Nat)} {s : State} (h : Keep s0 s) :
    KeepO s0 (execMarkEnd unit port s) := by
  unfold execMarkEnd
  exact next_keep (markStep_keep h)

theorem execEndNocheck_keep {s0 : State} {unit : BitVec 4} {port : Option (Nat × Nat)} {s : State} (h : Keep s0 s) :
    KeepO s0 (execEndNocheck unit port s) := by
  unfold execEndNocheck
  exact next_keep (markStep_keep h)

theorem execMarkRestart_keep {s0 : State} {unit : BitVec 4} {port : Option (Nat × Nat)} {s : State} (h : Keep s0 s) :
    KeepO s0 (execMarkRestart unit port s) := by
  unfold execMarkRestart
  exact next_keep (markStep_keep h)

theorem snoopBytes_keep {s0 s : State} {u : Nat} {q : CrcParams} {bs : List Byte} (h : Keep s0 s) :
    Keep s0 (snoopBytes s u q bs) := by
  unfold snoopBytes
  extract_lets +onlyGivenNames x1 x2 x3 x4
  clear_value x1
  clear_value x2
  clear_value x3
  have k5 : Keep s0 x4 := feedBytes_keep h
  clear_value x4
  exact setMark_keep k5

theorem snoopEnd_keep {s0 s : State} {u : Nat} {q : CrcParams} (h : Keep s0 s) :
    Keep s0 (snoopEnd s u q) := by
  unfold snoopEnd
  extract_lets +onlyGivenNames x1 x2 x3 x4
  clear_value x1
  clear_value x2
  clear_value x3
  clear_value x4
  exact endMsg_keep (setMark_keep h)

theorem snoopPiece_keep {s0 s : State} {u : Nat} {e : MarkPiece} (h : Keep s0 s) :
    Keep s0 (snoopPiece s u e) := by
  unfold snoopPiece
  split
  · exact h
  · refine ite_keep h ?_
    extract_lets +onlyGivenNames x1
    have k2 : Keep s0 x1 := ite_keep (openMsg_keep h) h
    clear_value x1
    refine ite_keep k2 ?_
    extract_lets +onlyGivenNames x3
    have k4 : Keep s0 x3 := snoopBytes_keep k2
    clear_value x3
    exact ite_keep (snoopEnd_keep k4) k4

theorem execSnoopedMessage_keep {s0 : State} {unit : BitVec 3} {s : State} (h : Keep s0 s) :
    KeepO s0 (execSnoopedMessage unit s) := by
  unfold execSnoopedMessage
  extract_lets +onlyGivenNames x1
  clear_value x1
  split
  · exact next_keep h
  · exact next_keep (snoopPiece_keep (setMark_keep h))

theorem execMarkStall_keep {s0 : State} {unit : BitVec 3} {s : State} (h : Keep s0 s) :
    KeepO s0 (execMarkStall unit s) := by
  unfold execMarkStall
  extract_lets +onlyGivenNames x1 x2
  clear_value x1
  clear_value x2
  split
  · exact next_keep h
  · refine ite_keepO ?_ ?_
    · extract_lets +onlyGivenNames x3
      have k4 : Keep s0 x3 := markEvent_keep h
      clear_value x3
      exact next_keep (setMark_keep (dropMsg_keep k4))
    · exact next_keep h

theorem execMarkRun_keep {s0 : State} {p : Part} {unit : BitVec 5} {value : Word} {s : State} (h : Keep s0 s) :
    KeepO s0 (execMarkRun p unit value s) := by
  unfold execMarkRun
  refine ite_keepO ?_ ?_
  · exact next_keep (hostTouch_keep h)
  · extract_lets +onlyGivenNames x1 x2
    have k3 : Keep s0 x1 := hostTouch_keep h
    clear_value x1
    clear_value x2
    refine ite_keepO ?_ ?_
    · exact next_keep k3
    · refine ite_keepO ?_ ?_
      · exact next_keep (wr_keep k3)
      · exact next_keep (wrF_keep k3)

theorem execMarkAttach_keep {s0 : State} {unit : BitVec 5} {value : Word32} {s : State} (h : Keep s0 s) :
    KeepO s0 (execMarkAttach unit value s) := by
  unfold execMarkAttach
  refine ite_keepO ?_ ?_
  · exact next_keep (hostTouch_keep h)
  · extract_lets +onlyGivenNames x1 x2 x3
    have k4 : Keep s0 x1 := hostTouch_keep h
    clear_value x1
    clear_value x2
    clear_value x3
    refine ite_keepO ?_ ?_
    · exact next_keep k4
    · refine ite_keepO ?_ ?_
      · exact next_keep (wr_keep k4)
      · exact next_keep (wrF_keep (wr_keep k4))

theorem execMarkGrant_keep {s0 : State} {unit : BitVec 5} {value : Word32} {s : State} (h : Keep s0 s) :
    KeepO s0 (execMarkGrant unit value s) := by
  unfold execMarkGrant
  refine ite_keepO ?_ ?_
  · exact next_keep (hostTouch_keep h)
  · extract_lets +onlyGivenNames x1 x2 x3
    have k4 : Keep s0 x1 := hostTouch_keep h
    clear_value x1
    clear_value x2
    clear_value x3
    refine ite_keepO ?_ ?_
    · exact next_keep k4
    · refine ite_keepO ?_ ?_
      · exact next_keep (wr_keep k4)
      · extract_lets +onlyGivenNames x5
        clear_value x5
        refine ite_keepO ?_ ?_
        · exact next_keep (wr_keep k4)
        · exact next_keep (wrF_keep k4)

theorem wrN_keep {s0 s : State} {key : Nat} {n : Nat} (h : Keep s0 s) :
    Keep s0 (wrN s key n) := by
  unfold wrN
  exact wr_keep h

theorem joinSlow_keep {s0 s : State} {sector : Nat} (h : Keep s0 s) :
    Keep s0 (joinSlow s sector) := by
  unfold joinSlow
  exact ite_keep (setMem_keep h rfl) (setMem_keep h rfl)

theorem deliverSector_keep {s0 s : State} {sector : Nat} {d : SectorData} (h : Keep s0 s) :
    Keep s0 (deliverSector s sector d) := by
  unfold deliverSector
  exact ite_keep (setMem_keep h rfl) h

theorem execFastPathRead_keep {s0 : State} {sector : BitVec 31} {upset : List (Nat × Byte)} {s : State} (h : Keep s0 s) :
    KeepO s0 (execFastPathRead sector upset s) := by
  unfold execFastPathRead
  extract_lets +onlyGivenNames x1
  clear_value x1
  refine ite_keepO ?_ ?_
  · extract_lets +onlyGivenNames x2
    have k3 : Keep s0 x2 := applyUpset_keep h
    clear_value x2
    refine ite_keepO ?_ ?_
    · exact next_keep (deliverSector_keep k3)
    · exact next_keep (joinSlow_keep k3)
  · exact next_keep h

theorem execSlowPathDecode_keep {s0 : State} {page : BitVec 26} {upset : List (Nat × Byte)} {s : State} (h : Keep s0 s) :
    KeepO s0 (execSlowPathDecode page upset s) := by
  unfold execSlowPathDecode
  split
  · exact next_keep h
  · extract_lets +onlyGivenNames x1 x2
    have k3 : Keep s0 x1 := applyUpset_keep h
    clear_value x1
    extract_lets +onlyGivenNames x4
    have k5 : Keep s0 x4 := setMem_keep k3 rfl
    clear_value x4
    split
    rename_i e6
    have k7 := pair_keep e6 (slowDecode_keep k5)
    exact next_keep (foldl_keep k7 (fun _ _ k8 => (deliverSector_keep k8)))

theorem execSectorWrite_keep {s0 : State} {slice : BitVec 5} {i : Nat} {half : Bool} {s : State} (h : Keep s0 s) :
    KeepO s0 (execSectorWrite slice i half s) := by
  unfold execSectorWrite
  extract_lets +onlyGivenNames x1
  clear_value x1
  split
  · exact next_keep h
  · refine ite_keepO ?_ ?_
    · extract_lets +onlyGivenNames x2
      have k3 : Keep s0 x2 := writeSector_keep h
      clear_value x2
      exact next_keep (setEv_keep k3)
    · exact next_keep h

theorem execEvictionWriteComplete_keep {s0 : State} {slice : BitVec 5} {i : Nat} {s : State} (h : Keep s0 s) :
    KeepO s0 (execEvictionWriteComplete slice i s) := by
  unfold execEvictionWriteComplete
  split
  · exact next_keep h
  · refine ite_keepO ?_ ?_
    · exact next_keep (setEv_keep h)
    · exact next_keep h

theorem execMemXlateInval_keep {s0 : State} {p : Part} {value : Word} {s : State} (h : Keep s0 s) :
    KeepO s0 (execMemXlateInval p value s) := by
  unfold execMemXlateInval
  refine ite_keepO ?_ ?_
  · exact next_keep (hostTouch_keep h)
  · extract_lets +onlyGivenNames x1 x2
    have k3 : Keep s0 x1 := hostTouch_keep h
    clear_value x1
    clear_value x2
    exact next_keep (wrN_keep (setMem_keep k3 rfl))

theorem execInvalidationComplete_keep {s0 : State} {p : Part} {s : State} (h : Keep s0 s) :
    KeepO s0 (execInvalidationComplete p s) := by
  unfold execInvalidationComplete
  extract_lets +onlyGivenNames x1 x2
  clear_value x1
  clear_value x2
  refine ite_keepO ?_ ?_
  · exact next_keep h
  · exact next_keep (wrN_keep (setMem_keep h rfl))

theorem patrolSpare_keep {s0 s : State} {pp : Nat} (h : Keep s0 s) :
    Keep s0 (patrolSpare s pp) := by
  unfold patrolSpare
  extract_lets +onlyGivenNames x1
  have k2 : Keep s0 x1 := bump64_keep h
  clear_value x1
  split
  rename_i e3
  have k4 := pair_keep e3 (decodeFull_keep k2)
  exact ite_keep k4 (bump64_keep k4)

theorem patrolNext_keep {s0 s : State} (h : Keep s0 s) :
    Keep s0 (patrolNext s) := by
  unfold patrolNext
  extract_lets +onlyGivenNames x1
  clear_value x1
  exact setMem_keep h rfl

theorem execPatrolScrub_keep {s0 : State} {upset : List (Nat × Byte)} {s : State} (h : Keep s0 s) :
    KeepO s0 (execPatrolScrub upset s) := by
  unfold execPatrolScrub
  extract_lets +onlyGivenNames x1 x2
  clear_value x1
  clear_value x2
  refine ite_keepO ?_ ?_
  · exact next_keep h
  · extract_lets +onlyGivenNames x3 x4
    have k5 : Keep s0 x4 := ite_keep (setMem_keep h rfl) h
    clear_value x4
    extract_lets +onlyGivenNames x6
    have k7 : Keep s0 x6 := applyUpset_keep k5
    clear_value x6
    split
    · exact next_keep (patrolNext_keep (scrubPage_keep k7))
    · exact next_keep (patrolNext_keep (patrolSpare_keep k7))

theorem setBuf_keep {s0 s : State} {i : Nat} {bs : List Byte} (h : Keep s0 s) :
    Keep s0 (setBuf s i bs) := by
  unfold setBuf
  exact foldl_keep h (fun _ _ k1 => (wrN_keep k1))

theorem flushPage_keep {s0 s : State} {page : Nat} (h : Keep s0 s) :
    Keep s0 (flushPage s page) := by
  unfold flushPage
  exact foldl_keep h (fun _ _ k1 => (flushLine_keep k1))

theorem readRawOp_keep {s0 s : State} (h : Keep s0 s) :
    Keep s0 (readRawOp s) := by
  unfold readRawOp
  extract_lets +onlyGivenNames x1 x2 x3
  clear_value x1
  have k4 : Keep s0 x2 := flushPage_keep h
  clear_value x2
  clear_value x3
  exact setBuf_keep (setBuf_keep k4)

theorem storePage_keep {s0 s : State} {pp : Nat} {mem : Nat} {st : Nat} {data : List Byte} {side : List Byte} (h : Keep s0 s) :
    Keep s0 (storePage s pp mem st data side) := by
  unfold storePage
  extract_lets +onlyGivenNames x1 x2 x3 x4 x5 x6 x7
  have k8 : Keep s0 x1 := putBytes_keep h
  clear_value x1
  clear_value x2
  clear_value x3
  clear_value x4
  clear_value x5
  clear_value x6
  clear_value x7
  exact setDev_keep k8

theorem writeRawOp_keep {s0 s : State} (h : Keep s0 s) :
    Keep s0 (writeRawOp s) := by
  unfold writeRawOp
  extract_lets +onlyGivenNames x1 x2
  clear_value x1
  have k3 : Keep s0 x2 := flushPage_keep h
  clear_value x2
  exact storePage_keep k3

theorem encodeOp_keep {s0 s : State} (h : Keep s0 s) :
    Keep s0 (encodeOp s) := by
  unfold encodeOp
  extract_lets +onlyGivenNames x1
  clear_value x1
  exact setBuf_keep h

theorem testOp_keep {s0 s : State} {value : Word32} {op : Nat} {f : State → State} (h : Keep s0 s) (hf : ∀ y0, Keep s0 y0 → Keep s0 (f y0)) :
    Keep s0 (testOp s value op f) := by
  unfold testOp
  extract_lets +onlyGivenNames x1
  clear_value x1
  refine ite_keep ?_ ?_
  · extract_lets +onlyGivenNames x2
    have k3 : Keep s0 x2 := wrF_keep h
    clear_value x2
    exact ite_keep (hf _ (wrF_keep k3)) (wrF_keep k3)
  · exact h

theorem execReadRaw_keep {s0 : State} {value : Word32} {s : State} (h : Keep s0 s) :
    KeepO s0 (execReadRaw value s) := by
  unfold execReadRaw
  refine ite_keepO ?_ ?_
  · exact next_keep (hostTouch_keep h)
  · extract_lets +onlyGivenNames x1
    have k2 : Keep s0 x1 := hostTouch_keep h
    clear_value x1
    exact next_keep (testOp_keep k2 (fun _ k3 => (readRawOp_keep k3)))

theorem execWriteRaw_keep {s0 : State} {value : Word32} {s : State} (h : Keep s0 s) :
    KeepO s0 (execWriteRaw value s) := by
  unfold execWriteRaw
  refine ite_keepO ?_ ?_
  · exact next_keep (hostTouch_keep h)
  · extract_lets +onlyGivenNames x1
    have k2 : Keep s0 x1 := hostTouch_keep h
    clear_value x1
    exact next_keep (testOp_keep k2 (fun _ k3 => (writeRawOp_keep k3)))

theorem execEncode_keep {s0 : State} {value : Word32} {s : State} (h : Keep s0 s) :
    KeepO s0 (execEncode value s) := by
  unfold execEncode
  refine ite_keepO ?_ ?_
  · exact next_keep (hostTouch_keep h)
  · extract_lets +onlyGivenNames x1
    have k2 : Keep s0 x1 := hostTouch_keep h
    clear_value x1
    exact next_keep (testOp_keep k2 (fun _ k3 => (encodeOp_keep k3)))

theorem execThresholdWindow_keep {s0 s : State} (h : Keep s0 s) :
    KeepO s0 (execThresholdWindow s) := by
  unfold execThresholdWindow
  refine ite_keepO ?_ ?_
  · refine next_keep ?_
    extract_lets +onlyGivenNames x1
    extract_lets +onlyGivenNames x2
    have k3 : Keep s0 x2 := setMem_keep h rfl
    clear_value x2
    exact upd_keep k3 rfl rfl rfl
  · exact next_keep h

theorem execErrFrameRetire_keep {s0 : State} {value : Word32} {s : State} (h : Keep s0 s) :
    KeepO s0 (execErrFrameRetire value s) := by
  unfold execErrFrameRetire
  refine ite_keepO ?_ ?_
  · exact next_keep (hostTouch_keep h)
  · extract_lets +onlyGivenNames x1
    have k2 : Keep s0 x1 := hostTouch_keep h
    clear_value x1
    refine ite_keepO ?_ ?_
    · exact next_keep (triggerFrame_keep k2)
    · exact next_keep k2

theorem beginRetire_keep {s0 s : State} {r : Retire} {rest : List Retire} (h : Keep s0 s) :
    Keep s0 (beginRetire s r rest) := by
  unfold beginRetire
  split
  · exact spareExhausted_keep (setMem_keep h rfl)
  · extract_lets +onlyGivenNames x1
    extract_lets +onlyGivenNames x2
    have k3 : Keep s0 x2 := setMem_keep h rfl
    clear_value x2
    exact ite_keep (wrF_keep k3) k3

theorem execFrameRetirement_keep {s0 s : State} (h : Keep s0 s) :
    KeepO s0 (execFrameRetirement s) := by
  unfold execFrameRetirement
  split
  · exact next_keep h
  · refine ite_keepO ?_ ?_
    · exact next_keep h
    · exact next_keep (beginRetire_keep h)

theorem copyPage_keep {s0 s : State} {m : Nat} {pq : Nat} (h : Keep s0 s) :
    Keep s0 (copyPage s m pq) := by
  unfold copyPage
  extract_lets +onlyGivenNames x1 x2 x3
  clear_value x1
  clear_value x2
  have k4 : Keep s0 x3 := bump64_keep h
  clear_value x3
  split
  rename_i e5
  have k6 := pair_keep e5 (decodeFull_keep k4)
  extract_lets +onlyGivenNames x7 x8 x9
  have k10 : Keep s0 x7 := ite_keep k6 (countSymbols_keep k6)
  clear_value x7
  clear_value x8
  have k11 : Keep s0 x9 := by
    subst x9
    split
    · exact k10
    · exact uncorrNote_keep k10
  clear_value x9
  exact encodeFresh_keep (putBytes_keep (countLost_keep k11))

theorem endRetire_keep {s0 s : State} {r : Retire} {q : Nat} {rest : List Retire} (h : Keep s0 s) :
    Keep s0 (endRetire s r q rest) := by
  unfold endRetire
  extract_lets +onlyGivenNames x1 x2
  clear_value x1
  extract_lets +onlyGivenNames x3
  have k4 : Keep s0 x3 := addRepair_keep (setMem_keep h rfl)
  clear_value x3
  exact appendRec_keep (bump32_keep k4)

theorem execRetirementPageCopy_keep {s0 s : State} (h : Keep s0 s) :
    KeepO s0 (execRetirementPageCopy s) := by
  unfold execRetirementPageCopy
  split
  · exact next_keep h
  · split
    · exact next_keep h
    · extract_lets +onlyGivenNames x1 x2 x3
      have k4 : Keep s0 x1 := copyPage_keep h
      clear_value x1
      clear_value x2
      extract_lets +onlyGivenNames x5
      have k6 : Keep s0 x5 := setMem_keep k4 rfl
      clear_value x5
      refine ite_keepO ?_ ?_
      · exact next_keep k6
      · exact next_keep (endRetire_keep k6)

theorem afterPortCtl_keep {s0 s : State} {p : Nat} {was : Bool} {data : Word} (h : Keep s0 s) :
    Keep s0 (afterPortCtl s p was data) := by
  unfold afterPortCtl
  exact ite_keep (dropPort_keep (wrF_keep h)) (ite_keep (setPort_keep h) h)

theorem afterGpio_keep {s0 s : State} (h : Keep s0 s) :
    Keep s0 (afterGpio s) := by
  unfold afterGpio
  exact foldl_keep (setWb_keep h) (fun _ _ k1 => (ite_keep (emit_keep k1) k1))

theorem afterPwrCfg_keep {s0 s : State} {was : Bool} (h : Keep s0 s) :
    Keep s0 (afterPwrCfg s was) := by
  unfold afterPwrCfg
  exact judgePower_keep (ite_keep (setPower_keep h) h)

theorem afterWrite_keep {z0 : State} {s0 s : State} {k : Nat} {data : Word} (_h : Keep z0 s0) (h1 : Keep z0 s) :
    Keep z0 (afterWrite s0 s k data) := by
  unfold afterWrite
  refine ite_keep (afterGpio_keep h1) ?_
  refine ite_keep (wrF_keep h1) ?_
  refine ite_keep (afterPwrCfg_keep h1) ?_
  refine ite_keep (ite_keep (haulOff_keep h1) h1) ?_
  refine ite_keep (settle_keep h1) ?_
  split
  · exact afterPortCtl_keep h1
  · exact h1

theorem storeReg_keep {s0 s : State} {k : Nat} {d : RegDesc} {data : Word} (h : Keep s0 s) :
    Keep s0 (storeReg s k d data) := by
  unfold storeReg
  exact ite_keep h (afterWrite_keep h (wr_keep h))

theorem write32_keep {s0 s : State} {f : Nat} {off : Nat} {data : Word} (h : Keep s0 s) :
    Keep s0 (write32 s f off data) := by
  unfold write32
  split
  · exact h
  · split
    · exact ite_keep (storeReg_keep h) h
    · exact h

theorem writeMsix_keep {s0 s : State} {f : Nat} {off : Nat} {data : Word} (h : Keep s0 s) :
    Keep s0 (writeMsix s f off data) := by
  unfold writeMsix
  extract_lets +onlyGivenNames x1 x2
  clear_value x1
  clear_value x2
  refine ite_keep h ?_
  split
  · exact msixPut_keep h
  · exact msixPut_keep h
  · exact msixPut_keep h
  · exact releaseMsix_keep (msixPut_keep h)

theorem writeMbox_keep {s0 s : State} {off : Nat} {n : Nat} {data : Word} (h : Keep s0 s) :
    Keep s0 (writeMbox s off n data) := by
  unfold writeMbox
  exact ite_keep h (setWb_keep h)

theorem writeHalf_keep {s0 s : State} {f : Nat} {off : Nat} {data : Word} (h : Keep s0 s) :
    Keep s0 (writeHalf s f off data) := by
  unfold writeHalf
  exact ite_keep (writeMsix_keep h) (write32_keep h)

theorem barWrite_keep {s0 s : State} {f : Nat} {off : Nat} {n : Nat} {data : Word} (h : Keep s0 s) :
    Keep s0 (barWrite s f off n data) := by
  unfold barWrite
  refine ite_keep h ?_
  refine ite_keep (writeMbox_keep h) ?_
  refine ite_keep ?_ ?_
  · split
    · exact storeReg_keep h
    · exact writeHalf_keep (writeHalf_keep h)
  · exact writeHalf_keep h

theorem setPcie_keep {s0 s : State} {x : PcieSt} (h : Keep s0 s) :
    Keep s0 (setPcie s x) := by
  unfold setPcie
  exact upd_keep h rfl rfl rfl

theorem releaseAll_keep {s0 s : State} {f : Nat} (h : Keep s0 s) :
    Keep s0 (releaseAll s f) := by
  unfold releaseAll
  exact foldl_keep h (fun _ _ k1 => (releaseMsix_keep k1))

theorem cfgWrite_keep {s0 s : State} {f : Nat} {c : CfgField} {x : Nat} (h : Keep s0 s) :
    Keep s0 (cfgWrite s f c x) := by
  unfold cfgWrite
  extract_lets +onlyGivenNames x1
  clear_value x1
  split
  · exact ite_keep h (ite_keep (ite_keep h (setPcie_keep h)) (ite_keep (settle_keep (clearVfs_keep h)) h))
  · exact ite_keep (setPcie_keep h) h
  · exact releaseAll_keep (setPcie_keep h)
  · exact releaseAll_keep (setPcie_keep h)
  · exact setPcie_keep h
  · exact ite_keep (setPcie_keep h) h

theorem execRegisterWrite_keep {s0 : State} {t : RegTarget} {s : State} (h : Keep s0 s) :
    KeepO s0 (execRegisterWrite t s) := by
  unfold execRegisterWrite
  extract_lets +onlyGivenNames x1
  have k2 : Keep s0 x1 := hostTouch_keep h
  clear_value x1
  split
  · exact next_keep (barWrite_keep k2)
  · exact next_keep (cfgWrite_keep k2)

theorem askUnit_keep {s0 s : State} {e : Nat} {w : WorkAt} (h : Keep s0 s) :
    Keep s0 (askUnit s e w) := by
  unfold askUnit
  exact ite_keep (askStop_keep h) (askOp_keep h)

theorem makeRoom_keep {s0 s : State} {e : Nat} (h : Keep s0 s) :
    Keep s0 (makeRoom s e) := by
  unfold makeRoom
  extract_lets +onlyGivenNames x1
  clear_value x1
  refine ite_keep h ?_
  split
  · exact h
  · split
    · exact h
    · exact askUnit_keep h

theorem placeUnit_keep {s0 s : State} {b : Nat} (h : Keep s0 s) :
    Keep s0 (placeUnit s b) := by
  unfold placeUnit
  extract_lets +onlyGivenNames x1
  clear_value x1
  split
  · exact resumeUnit_keep h
  · exact h

theorem placeOn_keep {s0 s : State} {e : Nat} (h : Keep s0 s) :
    Keep s0 (placeOn s e) := by
  unfold placeOn
  extract_lets +onlyGivenNames x1
  clear_value x1
  split
  · split
    · exact placeWork_keep h
    · exact h
  · exact placeRun_keep h
  · exact placeUnit_keep h
  · exact placeCrush_keep h
  · exact placeCopy_keep h
  · exact h

theorem execPlacement_keep {s0 : State} {engine : BitVec 16} {s : State} (h : Keep s0 s) :
    KeepO s0 (execPlacement engine s) := by
  unfold execPlacement
  exact next_keep (noteConds_keep (makeRoom_keep (placeOn_keep h)))

theorem execTimeSlice_keep {s0 : State} {engine : BitVec 16} {s : State} (h : Keep s0 s) :
    KeepO s0 (execTimeSlice engine s) := by
  unfold execTimeSlice
  extract_lets +onlyGivenNames x1 x2
  clear_value x1
  clear_value x2
  split
  · exact next_keep (askStop_keep h)
  · exact next_keep h

theorem evictSlot_keep {s0 s : State} {k : Nat} {v : Nat} {c : Ctx} (h : Keep s0 s) :
    Keep s0 (evictSlot s k v c) := by
  unfold evictSlot
  refine ite_keep (askCtx_keep h) ?_
  split
  · exact noteConds_keep (giveSlot_keep (bump32_keep (dropSlot_keep h)))
  · exact h

theorem execSlotEviction_keep {s0 : State} {p : Part} {ctx : BitVec 16} {s : State} (h : Keep s0 s) :
    KeepO s0 (execSlotEviction p ctx s) := by
  unfold execSlotEviction
  extract_lets +onlyGivenNames x1
  clear_value x1
  refine ite_keepO ?_ ?_
  · exact next_keep h
  · extract_lets +onlyGivenNames x2
    have k3 : Keep s0 x2 := takeSlot_keep h
    clear_value x2
    refine ite_keepO ?_ ?_
    · exact next_keep (noteConds_keep k3)
    · split
      · exact next_keep (evictSlot_keep h)
      · exact next_keep h

theorem execSlotRotation_keep {s0 : State} {p : Part} {ctx : BitVec 16} {s : State} (h : Keep s0 s) :
    KeepO s0 (execSlotRotation p ctx s) := by
  unfold execSlotRotation
  extract_lets +onlyGivenNames x1
  clear_value x1
  split
  · exact next_keep h
  · refine ite_keepO ?_ ?_
    · exact next_keep h
    · split
      · exact next_keep (evictSlot_keep h)
      · exact next_keep h

theorem chargeRows_keep {s0 s : State} {f : AcctField} {ns : Nat} (h : Keep s0 s) :
    Keep s0 (chargeRows s f ns) := by
  unfold chargeRows
  extract_lets +onlyGivenNames x1
  clear_value x1
  exact foldl_keep h (fun _ _ k2 => (chargeAcct_keep k2))

theorem addVtime_keep {s0 s : State} {k : Nat} {ns : Nat} (h : Keep s0 s) :
    Keep s0 (addVtime s k ns) := by
  unfold addVtime
  split
  · exact ite_keep h (setCtx_keep h)
  · exact h

theorem execVirtualTimeUpdate_keep {s0 : State} {p : Part} {ctx : BitVec 16} {kind : TimeKind} {ns : Nat} {step : Bool} {s : State} (h : Keep s0 s) :
    KeepO s0 (execVirtualTimeUpdate p ctx kind ns step s) := by
  unfold execVirtualTimeUpdate
  extract_lets +onlyGivenNames x1
  clear_value x1
  refine ite_keepO ?_ ?_
  · exact next_keep h
  · extract_lets +onlyGivenNames x2
    have k3 : Keep s0 x2 := addVtime_keep h
    clear_value x2
    refine ite_keepO ?_ ?_
    · exact next_keep (chargeRows_keep k3)
    · exact next_keep (charge_keep k3)

theorem setSpdm_keep {s0 s : State} {x : SpdmSt} (h : Keep s0 s) :
    Keep s0 (setSpdm s x) := by
  unfold setSpdm
  exact setSec_keep h rfl

theorem answer_keep {s0 s : State} {code : Nat} {msg : List Byte} (h : Keep s0 s) :
    Keep s0 (answer s code msg) := by
  unfold answer
  exact emit_keep (upd_keep h rfl rfl rfl)

theorem spdmError_keep {s0 s : State} {code : Nat} (h : Keep s0 s) :
    Keep s0 (spdmError s code) := by
  unfold spdmError
  exact emit_keep h

theorem execGetVersion_keep {s0 : State} {msg : List Byte} {s : State} (h : Keep s0 s) :
    KeepO s0 (execGetVersion msg s) := by
  unfold execGetVersion
  extract_lets +onlyGivenNames x1
  have k2 : Keep s0 x1 := hostTouch_keep h
  clear_value x1
  exact next_keep (answer_keep (setSpdm_keep k2))

theorem execGetCapabilities_keep {s0 : State} {msg : List Byte} {s : State} (h : Keep s0 s) :
    KeepO s0 (execGetCapabilities msg s) := by
  unfold execGetCapabilities
  extract_lets +onlyGivenNames x1
  have k2 : Keep s0 x1 := hostTouch_keep h
  clear_value x1
  refine ite_keepO ?_ ?_
  · exact next_keep (answer_keep (setSpdm_keep k2))
  · exact next_keep (spdmError_keep k2)

theorem execNegotiateAlgorithms_keep {s0 : State} {msg : List Byte} {s : State} (h : Keep s0 s) :
    KeepO s0 (execNegotiateAlgorithms msg s) := by
  unfold execNegotiateAlgorithms
  extract_lets +onlyGivenNames x1
  have k2 : Keep s0 x1 := hostTouch_keep h
  clear_value x1
  refine ite_keepO ?_ ?_
  · exact next_keep (answer_keep (setSpdm_keep k2))
  · exact next_keep (spdmError_keep k2)

theorem execGetDigests_keep {s0 : State} {_msg : List Byte} {s : State} (h : Keep s0 s) :
    KeepO s0 (execGetDigests _msg s) := by
  unfold execGetDigests
  extract_lets +onlyGivenNames x1
  have k2 : Keep s0 x1 := hostTouch_keep h
  clear_value x1
  split
  · exact next_keep (emit_keep k2)
  · exact next_keep (spdmError_keep k2)

theorem execGetCertificate_keep {s0 : State} {slot : BitVec 8} {off : BitVec 16} {len : BitVec 16} {s : State} (h : Keep s0 s) :
    KeepO s0 (execGetCertificate slot off len s) := by
  unfold execGetCertificate
  extract_lets +onlyGivenNames x1
  have k2 : Keep s0 x1 := hostTouch_keep h
  clear_value x1
  split
  · refine ite_keepO ?_ ?_
    · exact next_keep (emit_keep k2)
    · exact next_keep (spdmError_keep k2)
  · exact next_keep (spdmError_keep k2)

theorem execChallenge_keep {s0 : State} {msg : List Byte} {s : State} (h : Keep s0 s) :
    KeepO s0 (execChallenge msg s) := by
  unfold execChallenge
  extract_lets +onlyGivenNames x1
  have k2 : Keep s0 x1 := hostTouch_keep h
  clear_value x1
  refine ite_keepO ?_ ?_
  · exact next_keep (answer_keep k2)
  · exact next_keep (spdmError_keep k2)

theorem execGetMeasurements_keep {s0 : State} {index : BitVec 8} {s : State} (h : Keep s0 s) :
    KeepO s0 (execGetMeasurements index s) := by
  unfold execGetMeasurements
  extract_lets +onlyGivenNames x1
  have k2 : Keep s0 x1 := hostTouch_keep h
  clear_value x1
  refine ite_keepO ?_ ?_
  · exact next_keep (spdmError_keep k2)
  · extract_lets +onlyGivenNames x3
    clear_value x3
    exact next_keep (emit_keep k2)

theorem execKeyExchange_keep {s0 : State} {msg : List Byte} {s : State} (h : Keep s0 s) :
    KeepO s0 (execKeyExchange msg s) := by
  unfold execKeyExchange
  extract_lets +onlyGivenNames x1 x2
  have k3 : Keep s0 x1 := hostTouch_keep h
  clear_value x1
  clear_value x2
  refine ite_keepO ?_ ?_
  · exact next_keep (answer_keep (setSpdm_keep k3))
  · exact next_keep (spdmError_keep k3)

theorem execFinish_keep {s0 : State} {session : BitVec 32} {msg : List Byte} {s : State} (h : Keep s0 s) :
    KeepO s0 (execFinish session msg s) := by
  unfold execFinish
  extract_lets +onlyGivenNames x1 x2
  have k3 : Keep s0 x1 := hostTouch_keep h
  clear_value x1
  clear_value x2
  refine ite_keepO ?_ ?_
  · exact next_keep (answer_keep (setSpdm_keep k3))
  · exact next_keep (spdmError_keep k3)

theorem execEndSession_keep {s0 : State} {session : BitVec 32} {msg : List Byte} {s : State} (h : Keep s0 s) :
    KeepO s0 (execEndSession session msg s) := by
  unfold execEndSession
  extract_lets +onlyGivenNames x1 x2
  have k3 : Keep s0 x1 := hostTouch_keep h
  clear_value x1
  clear_value x2
  refine ite_keepO ?_ ?_
  · exact next_keep (answer_keep (setSpdm_keep k3))
  · exact next_keep (spdmError_keep k3)

theorem execKeyUpdate_keep {s0 : State} {session : BitVec 32} {msg : List Byte} {s : State} (h : Keep s0 s) :
    KeepO s0 (execKeyUpdate session msg s) := by
  unfold execKeyUpdate
  extract_lets +onlyGivenNames x1 x2
  have k3 : Keep s0 x1 := hostTouch_keep h
  clear_value x1
  clear_value x2
  refine ite_keepO ?_ ?_
  · extract_lets +onlyGivenNames x4
    clear_value x4
    exact next_keep (answer_keep (setSpdm_keep k3))
  · exact next_keep (spdmError_keep k3)

theorem execHeartbeat_keep {s0 : State} {session : BitVec 32} {msg : List Byte} {s : State} (h : Keep s0 s) :
    KeepO s0 (execHeartbeat session msg s) := by
  unfold execHeartbeat
  extract_lets +onlyGivenNames x1
  have k2 : Keep s0 x1 := hostTouch_keep h
  clear_value x1
  refine ite_keepO ?_ ?_
  · exact next_keep (answer_keep k2)
  · exact next_keep (spdmError_keep k2)

theorem execIdeKm_keep {s0 : State} {session : BitVec 32} {op : BitVec 2} {stream : BitVec 8} {msg : List Byte} {s : State} (h : Keep s0 s) :
    KeepO s0 (execIdeKm session op stream msg s) := by
  unfold execIdeKm
  extract_lets +onlyGivenNames x1 x2 x3
  have k4 : Keep s0 x1 := hostTouch_keep h
  clear_value x1
  clear_value x2
  clear_value x3
  refine ite_keepO ?_ ?_
  · exact next_keep (spdmError_keep k4)
  · refine ite_keepO ?_ ?_
    · exact next_keep (answer_keep k4)
    · refine ite_keepO ?_ ?_
      · refine ite_keepO ?_ ?_
        · exact next_keep (answer_keep (setSpdm_keep k4))
        · exact next_keep (spdmError_keep k4)
      · refine ite_keepO ?_ ?_
        · exact next_keep (answer_keep (setSpdm_keep k4))
        · exact next_keep (spdmError_keep k4)

theorem execDoeDiscovery_keep {s0 : State} {index : BitVec 8} {s : State} (h : Keep s0 s) :
    KeepO s0 (execDoeDiscovery index s) := by
  unfold execDoeDiscovery
  extract_lets +onlyGivenNames x1 x2
  have k3 : Keep s0 x1 := hostTouch_keep h
  clear_value x1
  clear_value x2
  exact next_keep (emit_keep k3)

theorem execVendorDefinedRequest_keep {s0 : State} {known : Bool} {code : BitVec 8} {nonce : List Byte} {s : State} (h : Keep s0 s) :
    KeepO s0 (execVendorDefinedRequest known code nonce s) := by
  unfold execVendorDefinedRequest
  extract_lets +onlyGivenNames x1
  have k2 : Keep s0 x1 := hostTouch_keep h
  clear_value x1
  refine ite_keepO ?_ ?_
  · exact next_keep (spdmError_keep k2)
  · extract_lets +onlyGivenNames x3
    clear_value x3
    refine ite_keepO ?_ ?_
    · exact next_keep (spdmError_keep k2)
    · refine ite_keepO ?_ ?_
      · exact next_keep (emit_keep k2)
      · extract_lets +onlyGivenNames x4 x5
        clear_value x4
        extract_lets +onlyGivenNames x6
        have k7 : Keep s0 x6 := useKey_keep (setSec_keep k2 rfl)
        clear_value x6
        exact next_keep (emit_keep k7)

theorem askCore_keep {s0 s : State} {n : Nat} (h : Keep s0 s) :
    Keep s0 (askCore s n) := by
  unfold askCore
  extract_lets +onlyGivenNames x1 x2
  clear_value x1
  clear_value x2
  exact foldl_keep h (fun _ _ k3 => (askStop_keep k3))

theorem triggerCore_keep {s0 s : State} {n : Nat} {reason : Nat} (h : Keep s0 s) :
    Keep s0 (triggerCore s n reason) := by
  unfold triggerCore
  split
  · exact h
  · refine ite_keep h ?_
    refine ite_keep ?_ ?_
    · extract_lets +onlyGivenNames x1
      clear_value x1
      exact askCore_keep (showSites_keep (upd_keep h rfl rfl rfl))
    · exact bump32_keep h

theorem retireSite_keep {s0 s : State} {d : Drain} (h : Keep s0 s) :
    Keep s0 (retireSite s d) := by
  unfold retireSite
  exact addRepair_keep h

theorem execErrCoreRetire_keep {s0 : State} {value : Word32} {s : State} (h : Keep s0 s) :
    KeepO s0 (execErrCoreRetire value s) := by
  unfold execErrCoreRetire
  refine ite_keepO ?_ ?_
  · exact next_keep (hostTouch_keep h)
  · extract_lets +onlyGivenNames x1
    have k2 : Keep s0 x1 := hostTouch_keep h
    clear_value x1
    exact next_keep (settle_keep (triggerCore_keep k2))

theorem execSpareAssignment_keep {s0 : State} {core : CoreId} {s : State} (h : Keep s0 s) :
    KeepO s0 (execSpareAssignment core s) := by
  unfold execSpareAssignment
  extract_lets +onlyGivenNames x1
  clear_value x1
  split
  · refine ite_keepO ?_ ?_
    · exact next_keep h
    · extract_lets +onlyGivenNames x2
      clear_value x2
      extract_lets +onlyGivenNames x3
      have k4 : Keep s0 x3 := setCore_keep h
      clear_value x3
      exact next_keep (showSites_keep (upd_keep k4 rfl rfl rfl))
  · exact next_keep h

theorem execPromotionComplete_keep {s0 : State} {core : CoreId} {s : State} (h : Keep s0 s) :
    KeepO s0 (execPromotionComplete core s) := by
  unfold execPromotionComplete
  extract_lets +onlyGivenNames x1
  clear_value x1
  split
  · refine ite_keepO ?_ ?_
    · exact next_keep h
    · extract_lets +onlyGivenNames x2 x3
      clear_value x2
      have k4 : Keep s0 x3 := showSites_keep (upd_keep h rfl rfl rfl)
      clear_value x3
      extract_lets +onlyGivenNames x5
      have k6 : Keep s0 x5 := bump32_keep (retireSite_keep k4)
      clear_value x5
      exact next_keep (settle_keep (appendRec_keep k6))
  · exact next_keep h

theorem execCoreUnavailable_keep {s0 : State} {core : CoreId} {s : State} (h : Keep s0 s) :
    KeepO s0 (execCoreUnavailable core s) := by
  unfold execCoreUnavailable
  extract_lets +onlyGivenNames x1
  clear_value x1
  split
  · refine ite_keepO ?_ ?_
    · exact next_keep h
    · extract_lets +onlyGivenNames x2
      clear_value x2
      extract_lets +onlyGivenNames x3
      have k4 : Keep s0 x3 := showSites_keep (upd_keep h rfl rfl rfl)
      clear_value x3
      exact next_keep (settle_keep (appendRec_keep (retireSite_keep k4)))
  · exact next_keep h

theorem countCore_keep {s0 s : State} {a : SramArray} (h : Keep s0 s) :
    Keep s0 (countCore s a) := by
  unfold countCore
  split
  · exact h
  · extract_lets +onlyGivenNames x1 x2
    clear_value x1
    extract_lets +onlyGivenNames x3
    have k4 : Keep s0 x3 := setMem_keep h rfl
    clear_value x3
    exact ite_keep (triggerCore_keep k4) k4

theorem countRow_keep {s0 s : State} {loc : Nat} (h : Keep s0 s) :
    Keep s0 (countRow s loc) := by
  unfold countRow
  extract_lets +onlyGivenNames x1 x2
  clear_value x1
  clear_value x2
  extract_lets +onlyGivenNames x3
  have k4 : Keep s0 x3 := upd_keep h rfl rfl rfl
  clear_value x3
  exact ite_keep (addRepair_keep k4) k4

theorem loseSector_keep {s0 s : State} {l : Line} {h : Nat} (hk : Keep s0 s) :
    Keep s0 (loseSector s l h) := by
  unfold loseSector
  exact ite_keep (writeSector_keep hk) hk

theorem loseCached_keep {s0 s : State} {key : Nat} {h : Nat} (hk : Keep s0 s) :
    Keep s0 (loseCached s key h) := by
  unfold loseCached
  split
  · exact hk
  · extract_lets +onlyGivenNames x1 x2
    have k3 : Keep s0 x1 := loseSector_keep hk
    clear_value x1
    clear_value x2
    exact setMem_keep k3 rfl

theorem sramLost_keep {s0 s : State} {a : SramArray} (h : Keep s0 s) :
    Keep s0 (sramLost s a) := by
  unfold sramLost
  split
  · split
    · exact triggerCore_keep (coreFault_keep h)
    · exact triggerCore_keep h
  · split
    · split
      · exact triggerCore_keep (coreFault_keep h)
      · exact triggerCore_keep (failWork_keep h)
    · exact triggerCore_keep h
  · exact setCoreOf_keep h
  · split
    · extract_lets +onlyGivenNames x1 x2
      clear_value x1
      have k3 : Keep s0 x2 := setItem_keep (raise_keep h)
      clear_value x2
      exact triggerCore_keep (stopItem_keep k3)
    · exact triggerCore_keep h
  · exact loseCached_keep h
  · split
    · exact h
    · extract_lets +onlyGivenNames x4
      clear_value x4
      extract_lets +onlyGivenNames x5
      clear_value x5
      exact setEv_keep (loseSector_keep h)
  · exact ite_keep (foldl_keep h (fun _ _ k6 => (foldl_keep k6 (fun _ _ k7 => (loseCached_keep k7))))) h
  · exact setMem_keep h rfl
  · exact loseProcessor_keep h
  · exact resetWeigh_keep h

theorem execSramError_keep {s0 : State} {array : SramArray} {row : BitVec 32} {correctable : Bool} {s : State} (h : Keep s0 s) :
    KeepO s0 (execSramError array row correctable s) := by
  unfold execSramError
  refine ite_keepO ?_ ?_
  · exact next_keep (settle_keep (countRow_keep (countCore_keep (bump64_keep h))))
  · extract_lets +onlyGivenNames x1
    have k2 : Keep s0 x1 := countCore_keep (bump32_keep h)
    clear_value x1
    exact next_keep (settle_keep (sramLost_keep (addRepair_keep k2)))

theorem idle_keep {s0 s : State} (h : Keep s0 s) :
    Keep s0 (idle s) := by
  unfold idle
  exact tickHead_keep (tickHead_keep (upd_keep h rfl rfl rfl))

end Sys2Proof.Machine
end

