-- ==== Sys2Proof/Laws/Regs.lean ====
section
/-! SUPPORT. Laws of the registers and their fields: what a read gives after a write, and what a write of one field leaves. -/
namespace Sys2Proof.Machine

@[simp] theorem rd_wr_same (s : State) (key : Nat) (v : Word) : rd (wr s key v) key = v :=
  mgetD_msetD_same s.regs key v (resetVal key)

theorem rd_wr_ne (s : State) {key k : Nat} (v : Word) (h : k ≠ key) : rd (wr s key v) k = rd s k :=
  mgetD_msetD_ne s.regs v (resetVal key) (resetVal k) h

/-- A number is what lies above a field, the field, and what lies below. -/
theorem split_field (n lo k : Nat) : n = (n / 2 ^ (lo + k) * 2 ^ k + n / 2 ^ lo % 2 ^ k) * 2 ^ lo + n % 2 ^ lo := by
  have h1 := Nat.div_add_mod n (2 ^ lo)
  have h2 := Nat.div_add_mod (n / 2 ^ lo) (2 ^ k)
  rw [Nat.div_div_eq_div_mul, ← Nat.pow_add] at h2
  have h3 : n / 2 ^ (lo + k) * 2 ^ k + n / 2 ^ lo % 2 ^ k = n / 2 ^ lo := by rw [Nat.mul_comm]; exact h2
  rw [h3, Nat.mul_comm]
  exact h1.symm

/-- A word whose field is replaced: what lies above, the new field, what lies below. -/
theorem wput_toNat (w : Word) {hi lo : Nat} (x : Nat) (h : lo ≤ hi) (hh : hi < 64) :
    (wput w hi lo x).toNat =
      (w.toNat / 2 ^ (hi + 1) * 2 ^ (hi + 1 - lo) + x % 2 ^ (hi + 1 - lo)) * 2 ^ lo + w.toNat % 2 ^ lo := by
  obtain ⟨k, hk⟩ : ∃ k, hi + 1 = lo + k := ⟨hi + 1 - lo, by omega⟩
  have hk2 : hi + 1 - lo = k := by omega
  unfold wput wbits bitsN
  rw [hk2, hk, BitVec.toNat_ofNat]
  generalize hn : w.toNat = n
  have hw : n < 2 ^ 64 := hn ▸ w.isLt
  have hs := split_field n lo k
  have e : n - n / 2 ^ lo % 2 ^ k * 2 ^ lo + x % 2 ^ k * 2 ^ lo =
      (n / 2 ^ (lo + k) * 2 ^ k + x % 2 ^ k) * 2 ^ lo + n % 2 ^ lo := by
    rw [Nat.add_mul] at hs ⊢
    omega
  rw [e]
  apply Nat.mod_eq_of_lt
  have hx : x % 2 ^ k < 2 ^ k := Nat.mod_lt _ (by positivity)
  have hl : n % 2 ^ lo < 2 ^ lo := Nat.mod_lt _ (by positivity)
  have hA : n / 2 ^ (lo + k) < 2 ^ (64 - (lo + k)) := by
    apply Nat.div_lt_of_lt_mul
    rw [← Nat.pow_add]
    have : lo + k + (64 - (lo + k)) = 64 := by omega
    rw [this]
    exact hw
  have hp : 2 ^ 64 = 2 ^ (64 - (lo + k)) * 2 ^ k * 2 ^ lo := by
    rw [← Nat.pow_add, ← Nat.pow_add]
    congr 1
    omega
  rw [hp]
  have h1 : n / 2 ^ (lo + k) * 2 ^ k + x % 2 ^ k + 1 ≤ 2 ^ (64 - (lo + k)) * 2 ^ k := by
    have h2 : (n / 2 ^ (lo + k) + 1) * 2 ^ k ≤ 2 ^ (64 - (lo + k)) * 2 ^ k := Nat.mul_le_mul_right _ hA
    rw [Nat.add_mul] at h2
    omega
  calc _ < (n / 2 ^ (lo + k) * 2 ^ k + x % 2 ^ k) * 2 ^ lo + 2 ^ lo := by omega
    _ = (n / 2 ^ (lo + k) * 2 ^ k + x % 2 ^ k + 1) * 2 ^ lo := by ring
    _ ≤ _ := Nat.mul_le_mul_right _ h1

/-- The replaced field. -/
theorem wbits_wput_same (w : Word) {hi lo : Nat} (x : Nat) (h : lo ≤ hi) (hh : hi < 64) :
    wbits (wput w hi lo x) hi lo = x % 2 ^ (hi + 1 - lo) := by
  unfold wbits bitsN
  rw [wput_toNat w x h hh]
  have hl : w.toNat % 2 ^ lo < 2 ^ lo := Nat.mod_lt _ (by positivity)
  rw [Nat.mul_comm, Nat.mul_add_div (by positivity), Nat.div_eq_of_lt hl]
  rw [Nat.add_zero, Nat.mul_comm, Nat.mul_add_mod, Nat.mod_mod]

/-- A field above the replaced one stays. -/
theorem wbits_wput_above (w : Word) {hi lo hi2 lo2 : Nat} (x : Nat) (h : lo ≤ hi) (hh : hi < 64) (ha : hi < lo2) :
    wbits (wput w hi lo x) hi2 lo2 = wbits w hi2 lo2 := by
  unfold wbits bitsN
  rw [wput_toNat w x h hh]
  have hl : w.toNat % 2 ^ lo < 2 ^ lo := Nat.mod_lt _ (by positivity)
  have hx : x % 2 ^ (hi + 1 - lo) < 2 ^ (hi + 1 - lo) := Nat.mod_lt _ (by positivity)
  have e : lo2 = lo + (hi + 1 - lo) + (lo2 - (hi + 1)) := by omega
  have e2 : lo + (hi + 1 - lo) = hi + 1 := by omega
  have : ((w.toNat / 2 ^ (hi + 1) * 2 ^ (hi + 1 - lo) + x % 2 ^ (hi + 1 - lo)) * 2 ^ lo + w.toNat % 2 ^ lo) / 2 ^ lo2 =
      w.toNat / 2 ^ lo2 := by
    have ep : 2 ^ lo2 = 2 ^ lo * 2 ^ (hi + 1 - lo) * 2 ^ (lo2 - (hi + 1)) := by
      rw [← Nat.pow_add, ← Nat.pow_add, ← e]
    have ew : w.toNat / 2 ^ lo2 = w.toNat / 2 ^ (hi + 1) / 2 ^ (lo2 - (hi + 1)) := by
      rw [Nat.div_div_eq_div_mul, ← Nat.pow_add]
      congr 2
      omega
    rw [ew, ep, ← Nat.div_div_eq_div_mul, ← Nat.div_div_eq_div_mul]
    rw [Nat.mul_comm _ (2 ^ lo), Nat.mul_add_div (by positivity), Nat.div_eq_of_lt hl, Nat.add_zero,
      Nat.mul_comm _ (2 ^ (hi + 1 - lo)), Nat.mul_add_div (by positivity), Nat.div_eq_of_lt hx, Nat.add_zero]
  rw [this]

/-- A field below the replaced one stays. -/
theorem wbits_wput_below (w : Word) {hi lo hi2 lo2 : Nat} (x : Nat) (h : lo ≤ hi) (hh : hi < 64) (h2 : lo2 ≤ hi2) (hb : hi2 < lo) :
    wbits (wput w hi lo x) hi2 lo2 = wbits w hi2 lo2 := by
  have key : ∀ a b, a % 2 ^ lo = b % 2 ^ lo → a / 2 ^ lo2 % 2 ^ (hi2 + 1 - lo2) = b / 2 ^ lo2 % 2 ^ (hi2 + 1 - lo2) := by
    intro a b e
    have d : 2 ^ (hi2 + 1) ∣ 2 ^ lo := Nat.pow_dvd_pow 2 (by omega)
    have e1 : a % 2 ^ (hi2 + 1) = b % 2 ^ (hi2 + 1) := by
      rw [← Nat.mod_mod_of_dvd a d, ← Nat.mod_mod_of_dvd b d, e]
    have e2 : 2 ^ (hi2 + 1) = 2 ^ lo2 * 2 ^ (hi2 + 1 - lo2) := by
      rw [← Nat.pow_add]
      congr 1
      omega
    rw [e2, Nat.mod_mul, Nat.mod_mul] at e1
    have l1 : a % 2 ^ lo2 = b % 2 ^ lo2 := by
      have d2 : 2 ^ lo2 ∣ 2 ^ lo := Nat.pow_dvd_pow 2 (by omega)
      rw [← Nat.mod_mod_of_dvd a d2, ← Nat.mod_mod_of_dvd b d2, e]
    rw [l1] at e1
    exact Nat.eq_of_mul_eq_mul_left (by positivity) (Nat.add_left_cancel e1)
  unfold wbits bitsN
  apply key
  rw [wput_toNat w x h hh, Nat.mul_comm, Nat.mul_add_mod, Nat.mod_mod]

/-- A field that is written reads as the low bits of what is written. -/
theorem rdF_wrF_same (s : State) (key : Nat) {hi lo : Nat} (x : Nat) (h : lo ≤ hi) (hh : hi < 64) :
    rdF (wrF s key hi lo x) key hi lo = x % 2 ^ (hi + 1 - lo) := by
  unfold rdF wrF
  rw [rd_wr_same, wbits_wput_same _ _ h hh]

theorem rdF_wrF_above (s : State) (key : Nat) {hi lo hi2 lo2 : Nat} (x : Nat) (h : lo ≤ hi) (hh : hi < 64) (ha : hi < lo2) :
    rdF (wrF s key hi lo x) key hi2 lo2 = rdF s key hi2 lo2 := by
  unfold rdF wrF
  rw [rd_wr_same, wbits_wput_above _ _ h hh ha]

theorem rdF_wrF_below (s : State) (key : Nat) {hi lo hi2 lo2 : Nat} (x : Nat) (h : lo ≤ hi) (hh : hi < 64) (h2 : lo2 ≤ hi2)
    (hb : hi2 < lo) : rdF (wrF s key hi lo x) key hi2 lo2 = rdF s key hi2 lo2 := by
  unfold rdF wrF
  rw [rd_wr_same, wbits_wput_below _ _ h hh h2 hb]

theorem rd_wrF_ne (s : State) {key k : Nat} (hi lo x : Nat) (h : k ≠ key) : rd (wrF s key hi lo x) k = rd s k :=
  rd_wr_ne s _ h

theorem rdF_wrF_ne (s : State) {key k : Nat} (hi lo x a b : Nat) (h : k ≠ key) : rdF (wrF s key hi lo x) k a b = rdF s k a b := by
  unfold rdF
  rw [rd_wrF_ne s hi lo x h]

end Sys2Proof.Machine
end

