-- ==== Sys2Proof/Laws/State.lean ====
section
/-! SUPPORT. What each update leaves and what it sets: one lemma per update and field, and the same of the parts of the host side. -/
namespace Sys2Proof.Machine

@[simp] theorem wr_pending (s : State) (key : Nat) (v : Word) : (wr s key v).pending = s.pending := rfl
@[simp] theorem wr_fresh (s : State) (key : Nat) (v : Word) : (wr s key v).fresh = s.fresh := rfl
@[simp] theorem wr_dtime (s : State) (key : Nat) (v : Word) : (wr s key v).dtime = s.dtime := rfl
@[simp] theorem wr_out (s : State) (key : Nat) (v : Word) : (wr s key v).out = s.out := rfl
@[simp] theorem wr_regs (s : State) (key : Nat) (v : Word) : (wr s key v).regs = msetD s.regs key v (resetVal key) := rfl
@[simp] theorem wr_mem (s : State) (key : Nat) (v : Word) : (wr s key v).mem = s.mem := rfl
@[simp] theorem wr_host (s : State) (key : Nat) (v : Word) : (wr s key v).host = s.host := rfl
@[simp] theorem wr_sched (s : State) (key : Nat) (v : Word) : (wr s key v).sched = s.sched := rfl
@[simp] theorem wr_core (s : State) (key : Nat) (v : Word) : (wr s key v).core = s.core := rfl
@[simp] theorem wr_heads (s : State) (key : Nat) (v : Word) : (wr s key v).heads = s.heads := rfl
@[simp] theorem wr_link (s : State) (key : Nat) (v : Word) : (wr s key v).link = s.link := rfl
@[simp] theorem wr_marks (s : State) (key : Nat) (v : Word) : (wr s key v).marks = s.marks := rfl
@[simp] theorem wr_raster (s : State) (key : Nat) (v : Word) : (wr s key v).raster = s.raster := rfl
@[simp] theorem wr_power (s : State) (key : Nat) (v : Word) : (wr s key v).power = s.power := rfl
@[simp] theorem wr_wb (s : State) (key : Nat) (v : Word) : (wr s key v).wb = s.wb := rfl
@[simp] theorem wr_sec (s : State) (key : Nat) (v : Word) : (wr s key v).sec = s.sec := rfl
@[simp] theorem wr_site (s : State) (key : Nat) (v : Word) : (wr s key v).site = s.site := rfl
@[simp] theorem emit_pending (s : State) (o : Output) : (emit s o).pending = s.pending := rfl
@[simp] theorem emit_fresh (s : State) (o : Output) : (emit s o).fresh = s.fresh := rfl
@[simp] theorem emit_dtime (s : State) (o : Output) : (emit s o).dtime = s.dtime := rfl
@[simp] theorem emit_out (s : State) (o : Output) : (emit s o).out = s.out ++ [o] := rfl
@[simp] theorem emit_regs (s : State) (o : Output) : (emit s o).regs = s.regs := rfl
@[simp] theorem emit_mem (s : State) (o : Output) : (emit s o).mem = s.mem := rfl
@[simp] theorem emit_host (s : State) (o : Output) : (emit s o).host = s.host := rfl
@[simp] theorem emit_sched (s : State) (o : Output) : (emit s o).sched = s.sched := rfl
@[simp] theorem emit_core (s : State) (o : Output) : (emit s o).core = s.core := rfl
@[simp] theorem emit_heads (s : State) (o : Output) : (emit s o).heads = s.heads := rfl
@[simp] theorem emit_link (s : State) (o : Output) : (emit s o).link = s.link := rfl
@[simp] theorem emit_marks (s : State) (o : Output) : (emit s o).marks = s.marks := rfl
@[simp] theorem emit_raster (s : State) (o : Output) : (emit s o).raster = s.raster := rfl
@[simp] theorem emit_power (s : State) (o : Output) : (emit s o).power = s.power := rfl
@[simp] theorem emit_wb (s : State) (o : Output) : (emit s o).wb = s.wb := rfl
@[simp] theorem emit_sec (s : State) (o : Output) : (emit s o).sec = s.sec := rfl
@[simp] theorem emit_site (s : State) (o : Output) : (emit s o).site = s.site := rfl
@[simp] theorem msixPut_pending (s : State) (f : Nat) (i : Nat) (e : Msix) : (msixPut s f i e).pending = s.pending := rfl
@[simp] theorem msixPut_fresh (s : State) (f : Nat) (i : Nat) (e : Msix) : (msixPut s f i e).fresh = s.fresh := rfl
@[simp] theorem msixPut_dtime (s : State) (f : Nat) (i : Nat) (e : Msix) : (msixPut s f i e).dtime = s.dtime := rfl
@[simp] theorem msixPut_out (s : State) (f : Nat) (i : Nat) (e : Msix) : (msixPut s f i e).out = s.out := rfl
@[simp] theorem msixPut_regs (s : State) (f : Nat) (i : Nat) (e : Msix) : (msixPut s f i e).regs = s.regs := rfl
@[simp] theorem msixPut_mem (s : State) (f : Nat) (i : Nat) (e : Msix) : (msixPut s f i e).mem = s.mem := rfl
@[simp] theorem msixPut_sched (s : State) (f : Nat) (i : Nat) (e : Msix) : (msixPut s f i e).sched = s.sched := rfl
@[simp] theorem msixPut_core (s : State) (f : Nat) (i : Nat) (e : Msix) : (msixPut s f i e).core = s.core := rfl
@[simp] theorem msixPut_heads (s : State) (f : Nat) (i : Nat) (e : Msix) : (msixPut s f i e).heads = s.heads := rfl
@[simp] theorem msixPut_link (s : State) (f : Nat) (i : Nat) (e : Msix) : (msixPut s f i e).link = s.link := rfl
@[simp] theorem msixPut_marks (s : State) (f : Nat) (i : Nat) (e : Msix) : (msixPut s f i e).marks = s.marks := rfl
@[simp] theorem msixPut_raster (s : State) (f : Nat) (i : Nat) (e : Msix) : (msixPut s f i e).raster = s.raster := rfl
@[simp] theorem msixPut_power (s : State) (f : Nat) (i : Nat) (e : Msix) : (msixPut s f i e).power = s.power := rfl
@[simp] theorem msixPut_wb (s : State) (f : Nat) (i : Nat) (e : Msix) : (msixPut s f i e).wb = s.wb := rfl
@[simp] theorem msixPut_sec (s : State) (f : Nat) (i : Nat) (e : Msix) : (msixPut s f i e).sec = s.sec := rfl
@[simp] theorem msixPut_site (s : State) (f : Nat) (i : Nat) (e : Msix) : (msixPut s f i e).site = s.site := rfl
@[simp] theorem setPart_pending (s : State) (p : Nat) (x : Partition) : (setPart s p x).pending = s.pending := rfl
@[simp] theorem setPart_fresh (s : State) (p : Nat) (x : Partition) : (setPart s p x).fresh = s.fresh := rfl
@[simp] theorem setPart_dtime (s : State) (p : Nat) (x : Partition) : (setPart s p x).dtime = s.dtime := rfl
@[simp] theorem setPart_out (s : State) (p : Nat) (x : Partition) : (setPart s p x).out = s.out := rfl
@[simp] theorem setPart_regs (s : State) (p : Nat) (x : Partition) : (setPart s p x).regs = s.regs := rfl
@[simp] theorem setPart_mem (s : State) (p : Nat) (x : Partition) : (setPart s p x).mem = s.mem := rfl
@[simp] theorem setPart_sched (s : State) (p : Nat) (x : Partition) : (setPart s p x).sched = s.sched := rfl
@[simp] theorem setPart_core (s : State) (p : Nat) (x : Partition) : (setPart s p x).core = s.core := rfl
@[simp] theorem setPart_heads (s : State) (p : Nat) (x : Partition) : (setPart s p x).heads = s.heads := rfl
@[simp] theorem setPart_link (s : State) (p : Nat) (x : Partition) : (setPart s p x).link = s.link := rfl
@[simp] theorem setPart_marks (s : State) (p : Nat) (x : Partition) : (setPart s p x).marks = s.marks := rfl
@[simp] theorem setPart_raster (s : State) (p : Nat) (x : Partition) : (setPart s p x).raster = s.raster := rfl
@[simp] theorem setPart_power (s : State) (p : Nat) (x : Partition) : (setPart s p x).power = s.power := rfl
@[simp] theorem setPart_wb (s : State) (p : Nat) (x : Partition) : (setPart s p x).wb = s.wb := rfl
@[simp] theorem setPart_sec (s : State) (p : Nat) (x : Partition) : (setPart s p x).sec = s.sec := rfl
@[simp] theorem setPart_site (s : State) (p : Nat) (x : Partition) : (setPart s p x).site = s.site := rfl
@[simp] theorem setCtx_pending (s : State) (k : Nat) (x : Ctx) : (setCtx s k x).pending = s.pending := rfl
@[simp] theorem setCtx_fresh (s : State) (k : Nat) (x : Ctx) : (setCtx s k x).fresh = s.fresh := rfl
@[simp] theorem setCtx_dtime (s : State) (k : Nat) (x : Ctx) : (setCtx s k x).dtime = s.dtime := rfl
@[simp] theorem setCtx_out (s : State) (k : Nat) (x : Ctx) : (setCtx s k x).out = s.out := rfl
@[simp] theorem setCtx_regs (s : State) (k : Nat) (x : Ctx) : (setCtx s k x).regs = s.regs := rfl
@[simp] theorem setCtx_mem (s : State) (k : Nat) (x : Ctx) : (setCtx s k x).mem = s.mem := rfl
@[simp] theorem setCtx_sched (s : State) (k : Nat) (x : Ctx) : (setCtx s k x).sched = s.sched := rfl
@[simp] theorem setCtx_core (s : State) (k : Nat) (x : Ctx) : (setCtx s k x).core = s.core := rfl
@[simp] theorem setCtx_heads (s : State) (k : Nat) (x : Ctx) : (setCtx s k x).heads = s.heads := rfl
@[simp] theorem setCtx_link (s : State) (k : Nat) (x : Ctx) : (setCtx s k x).link = s.link := rfl
@[simp] theorem setCtx_marks (s : State) (k : Nat) (x : Ctx) : (setCtx s k x).marks = s.marks := rfl
@[simp] theorem setCtx_raster (s : State) (k : Nat) (x : Ctx) : (setCtx s k x).raster = s.raster := rfl
@[simp] theorem setCtx_power (s : State) (k : Nat) (x : Ctx) : (setCtx s k x).power = s.power := rfl
@[simp] theorem setCtx_wb (s : State) (k : Nat) (x : Ctx) : (setCtx s k x).wb = s.wb := rfl
@[simp] theorem setCtx_sec (s : State) (k : Nat) (x : Ctx) : (setCtx s k x).sec = s.sec := rfl
@[simp] theorem setCtx_site (s : State) (k : Nat) (x : Ctx) : (setCtx s k x).site = s.site := rfl
@[simp] theorem setFence_pending (s : State) (k : Nat) (x : Fence) : (setFence s k x).pending = s.pending := rfl
@[simp] theorem setFence_fresh (s : State) (k : Nat) (x : Fence) : (setFence s k x).fresh = s.fresh := rfl
@[simp] theorem setFence_dtime (s : State) (k : Nat) (x : Fence) : (setFence s k x).dtime = s.dtime := rfl
@[simp] theorem setFence_out (s : State) (k : Nat) (x : Fence) : (setFence s k x).out = s.out := rfl
@[simp] theorem setFence_regs (s : State) (k : Nat) (x : Fence) : (setFence s k x).regs = s.regs := rfl
@[simp] theorem setFence_mem (s : State) (k : Nat) (x : Fence) : (setFence s k x).mem = s.mem := rfl
@[simp] theorem setFence_sched (s : State) (k : Nat) (x : Fence) : (setFence s k x).sched = s.sched := rfl
@[simp] theorem setFence_core (s : State) (k : Nat) (x : Fence) : (setFence s k x).core = s.core := rfl
@[simp] theorem setFence_heads (s : State) (k : Nat) (x : Fence) : (setFence s k x).heads = s.heads := rfl
@[simp] theorem setFence_link (s : State) (k : Nat) (x : Fence) : (setFence s k x).link = s.link := rfl
@[simp] theorem setFence_marks (s : State) (k : Nat) (x : Fence) : (setFence s k x).marks = s.marks := rfl
@[simp] theorem setFence_raster (s : State) (k : Nat) (x : Fence) : (setFence s k x).raster = s.raster := rfl
@[simp] theorem setFence_power (s : State) (k : Nat) (x : Fence) : (setFence s k x).power = s.power := rfl
@[simp] theorem setFence_wb (s : State) (k : Nat) (x : Fence) : (setFence s k x).wb = s.wb := rfl
@[simp] theorem setFence_sec (s : State) (k : Nat) (x : Fence) : (setFence s k x).sec = s.sec := rfl
@[simp] theorem setFence_site (s : State) (k : Nat) (x : Fence) : (setFence s k x).site = s.site := rfl
@[simp] theorem setEvent_pending (s : State) (k : Nat) (x : Event) : (setEvent s k x).pending = s.pending := rfl
@[simp] theorem setEvent_fresh (s : State) (k : Nat) (x : Event) : (setEvent s k x).fresh = s.fresh := rfl
@[simp] theorem setEvent_dtime (s : State) (k : Nat) (x : Event) : (setEvent s k x).dtime = s.dtime := rfl
@[simp] theorem setEvent_out (s : State) (k : Nat) (x : Event) : (setEvent s k x).out = s.out := rfl
@[simp] theorem setEvent_regs (s : State) (k : Nat) (x : Event) : (setEvent s k x).regs = s.regs := rfl
@[simp] theorem setEvent_mem (s : State) (k : Nat) (x : Event) : (setEvent s k x).mem = s.mem := rfl
@[simp] theorem setEvent_sched (s : State) (k : Nat) (x : Event) : (setEvent s k x).sched = s.sched := rfl
@[simp] theorem setEvent_core (s : State) (k : Nat) (x : Event) : (setEvent s k x).core = s.core := rfl
@[simp] theorem setEvent_heads (s : State) (k : Nat) (x : Event) : (setEvent s k x).heads = s.heads := rfl
@[simp] theorem setEvent_link (s : State) (k : Nat) (x : Event) : (setEvent s k x).link = s.link := rfl
@[simp] theorem setEvent_marks (s : State) (k : Nat) (x : Event) : (setEvent s k x).marks = s.marks := rfl
@[simp] theorem setEvent_raster (s : State) (k : Nat) (x : Event) : (setEvent s k x).raster = s.raster := rfl
@[simp] theorem setEvent_power (s : State) (k : Nat) (x : Event) : (setEvent s k x).power = s.power := rfl
@[simp] theorem setEvent_wb (s : State) (k : Nat) (x : Event) : (setEvent s k x).wb = s.wb := rfl
@[simp] theorem setEvent_sec (s : State) (k : Nat) (x : Event) : (setEvent s k x).sec = s.sec := rfl
@[simp] theorem setEvent_site (s : State) (k : Nat) (x : Event) : (setEvent s k x).site = s.site := rfl
@[simp] theorem setMemObj_pending (s : State) (k : Nat) (x : MemObj) : (setMemObj s k x).pending = s.pending := rfl
@[simp] theorem setMemObj_fresh (s : State) (k : Nat) (x : MemObj) : (setMemObj s k x).fresh = s.fresh := rfl
@[simp] theorem setMemObj_dtime (s : State) (k : Nat) (x : MemObj) : (setMemObj s k x).dtime = s.dtime := rfl
@[simp] theorem setMemObj_out (s : State) (k : Nat) (x : MemObj) : (setMemObj s k x).out = s.out := rfl
@[simp] theorem setMemObj_regs (s : State) (k : Nat) (x : MemObj) : (setMemObj s k x).regs = s.regs := rfl
@[simp] theorem setMemObj_mem (s : State) (k : Nat) (x : MemObj) : (setMemObj s k x).mem = s.mem := rfl
@[simp] theorem setMemObj_sched (s : State) (k : Nat) (x : MemObj) : (setMemObj s k x).sched = s.sched := rfl
@[simp] theorem setMemObj_core (s : State) (k : Nat) (x : MemObj) : (setMemObj s k x).core = s.core := rfl
@[simp] theorem setMemObj_heads (s : State) (k : Nat) (x : MemObj) : (setMemObj s k x).heads = s.heads := rfl
@[simp] theorem setMemObj_link (s : State) (k : Nat) (x : MemObj) : (setMemObj s k x).link = s.link := rfl
@[simp] theorem setMemObj_marks (s : State) (k : Nat) (x : MemObj) : (setMemObj s k x).marks = s.marks := rfl
@[simp] theorem setMemObj_raster (s : State) (k : Nat) (x : MemObj) : (setMemObj s k x).raster = s.raster := rfl
@[simp] theorem setMemObj_power (s : State) (k : Nat) (x : MemObj) : (setMemObj s k x).power = s.power := rfl
@[simp] theorem setMemObj_wb (s : State) (k : Nat) (x : MemObj) : (setMemObj s k x).wb = s.wb := rfl
@[simp] theorem setMemObj_sec (s : State) (k : Nat) (x : MemObj) : (setMemObj s k x).sec = s.sec := rfl
@[simp] theorem setMemObj_site (s : State) (k : Nat) (x : MemObj) : (setMemObj s k x).site = s.site := rfl
@[simp] theorem setRing_pending (s : State) (k : Nat) (x : Ring) : (setRing s k x).pending = s.pending := rfl
@[simp] theorem setRing_fresh (s : State) (k : Nat) (x : Ring) : (setRing s k x).fresh = s.fresh := rfl
@[simp] theorem setRing_dtime (s : State) (k : Nat) (x : Ring) : (setRing s k x).dtime = s.dtime := rfl
@[simp] theorem setRing_out (s : State) (k : Nat) (x : Ring) : (setRing s k x).out = s.out := rfl
@[simp] theorem setRing_regs (s : State) (k : Nat) (x : Ring) : (setRing s k x).regs = s.regs := rfl
@[simp] theorem setRing_mem (s : State) (k : Nat) (x : Ring) : (setRing s k x).mem = s.mem := rfl
@[simp] theorem setRing_sched (s : State) (k : Nat) (x : Ring) : (setRing s k x).sched = s.sched := rfl
@[simp] theorem setRing_core (s : State) (k : Nat) (x : Ring) : (setRing s k x).core = s.core := rfl
@[simp] theorem setRing_heads (s : State) (k : Nat) (x : Ring) : (setRing s k x).heads = s.heads := rfl
@[simp] theorem setRing_link (s : State) (k : Nat) (x : Ring) : (setRing s k x).link = s.link := rfl
@[simp] theorem setRing_marks (s : State) (k : Nat) (x : Ring) : (setRing s k x).marks = s.marks := rfl
@[simp] theorem setRing_raster (s : State) (k : Nat) (x : Ring) : (setRing s k x).raster = s.raster := rfl
@[simp] theorem setRing_power (s : State) (k : Nat) (x : Ring) : (setRing s k x).power = s.power := rfl
@[simp] theorem setRing_wb (s : State) (k : Nat) (x : Ring) : (setRing s k x).wb = s.wb := rfl
@[simp] theorem setRing_sec (s : State) (k : Nat) (x : Ring) : (setRing s k x).sec = s.sec := rfl
@[simp] theorem setRing_site (s : State) (k : Nat) (x : Ring) : (setRing s k x).site = s.site := rfl
@[simp] theorem setKill_pending (s : State) (k : Nat) (x : Kill) : (setKill s k x).pending = s.pending := rfl
@[simp] theorem setKill_fresh (s : State) (k : Nat) (x : Kill) : (setKill s k x).fresh = s.fresh := rfl
@[simp] theorem setKill_dtime (s : State) (k : Nat) (x : Kill) : (setKill s k x).dtime = s.dtime := rfl
@[simp] theorem setKill_out (s : State) (k : Nat) (x : Kill) : (setKill s k x).out = s.out := rfl
@[simp] theorem setKill_regs (s : State) (k : Nat) (x : Kill) : (setKill s k x).regs = s.regs := rfl
@[simp] theorem setKill_mem (s : State) (k : Nat) (x : Kill) : (setKill s k x).mem = s.mem := rfl
@[simp] theorem setKill_sched (s : State) (k : Nat) (x : Kill) : (setKill s k x).sched = s.sched := rfl
@[simp] theorem setKill_core (s : State) (k : Nat) (x : Kill) : (setKill s k x).core = s.core := rfl
@[simp] theorem setKill_heads (s : State) (k : Nat) (x : Kill) : (setKill s k x).heads = s.heads := rfl
@[simp] theorem setKill_link (s : State) (k : Nat) (x : Kill) : (setKill s k x).link = s.link := rfl
@[simp] theorem setKill_marks (s : State) (k : Nat) (x : Kill) : (setKill s k x).marks = s.marks := rfl
@[simp] theorem setKill_raster (s : State) (k : Nat) (x : Kill) : (setKill s k x).raster = s.raster := rfl
@[simp] theorem setKill_power (s : State) (k : Nat) (x : Kill) : (setKill s k x).power = s.power := rfl
@[simp] theorem setKill_wb (s : State) (k : Nat) (x : Kill) : (setKill s k x).wb = s.wb := rfl
@[simp] theorem setKill_sec (s : State) (k : Nat) (x : Kill) : (setKill s k x).sec = s.sec := rfl
@[simp] theorem setKill_site (s : State) (k : Nat) (x : Kill) : (setKill s k x).site = s.site := rfl
@[simp] theorem setGen_pending (s : State) (ty : Nat) (k : Nat) (g : Nat) : (setGen s ty k g).pending = s.pending := rfl
@[simp] theorem setGen_fresh (s : State) (ty : Nat) (k : Nat) (g : Nat) : (setGen s ty k g).fresh = s.fresh := rfl
@[simp] theorem setGen_dtime (s : State) (ty : Nat) (k : Nat) (g : Nat) : (setGen s ty k g).dtime = s.dtime := rfl
@[simp] theorem setGen_out (s : State) (ty : Nat) (k : Nat) (g : Nat) : (setGen s ty k g).out = s.out := rfl
@[simp] theorem setGen_regs (s : State) (ty : Nat) (k : Nat) (g : Nat) : (setGen s ty k g).regs = s.regs := rfl
@[simp] theorem setGen_mem (s : State) (ty : Nat) (k : Nat) (g : Nat) : (setGen s ty k g).mem = s.mem := rfl
@[simp] theorem setGen_sched (s : State) (ty : Nat) (k : Nat) (g : Nat) : (setGen s ty k g).sched = s.sched := rfl
@[simp] theorem setGen_core (s : State) (ty : Nat) (k : Nat) (g : Nat) : (setGen s ty k g).core = s.core := rfl
@[simp] theorem setGen_heads (s : State) (ty : Nat) (k : Nat) (g : Nat) : (setGen s ty k g).heads = s.heads := rfl
@[simp] theorem setGen_link (s : State) (ty : Nat) (k : Nat) (g : Nat) : (setGen s ty k g).link = s.link := rfl
@[simp] theorem setGen_marks (s : State) (ty : Nat) (k : Nat) (g : Nat) : (setGen s ty k g).marks = s.marks := rfl
@[simp] theorem setGen_raster (s : State) (ty : Nat) (k : Nat) (g : Nat) : (setGen s ty k g).raster = s.raster := rfl
@[simp] theorem setGen_power (s : State) (ty : Nat) (k : Nat) (g : Nat) : (setGen s ty k g).power = s.power := rfl
@[simp] theorem setGen_wb (s : State) (ty : Nat) (k : Nat) (g : Nat) : (setGen s ty k g).wb = s.wb := rfl
@[simp] theorem setGen_sec (s : State) (ty : Nat) (k : Nat) (g : Nat) : (setGen s ty k g).sec = s.sec := rfl
@[simp] theorem setGen_site (s : State) (ty : Nat) (k : Nat) (g : Nat) : (setGen s ty k g).site = s.site := rfl
@[simp] theorem dropTable_pending (s : State) (t : TableId) : (dropTable s t).pending = s.pending := rfl
@[simp] theorem dropTable_fresh (s : State) (t : TableId) : (dropTable s t).fresh = s.fresh := rfl
@[simp] theorem dropTable_dtime (s : State) (t : TableId) : (dropTable s t).dtime = s.dtime := rfl
@[simp] theorem dropTable_out (s : State) (t : TableId) : (dropTable s t).out = s.out := rfl
@[simp] theorem dropTable_regs (s : State) (t : TableId) : (dropTable s t).regs = s.regs := rfl
@[simp] theorem dropTable_host (s : State) (t : TableId) : (dropTable s t).host = s.host := rfl
@[simp] theorem dropTable_sched (s : State) (t : TableId) : (dropTable s t).sched = s.sched := rfl
@[simp] theorem dropTable_core (s : State) (t : TableId) : (dropTable s t).core = s.core := rfl
@[simp] theorem dropTable_heads (s : State) (t : TableId) : (dropTable s t).heads = s.heads := rfl
@[simp] theorem dropTable_link (s : State) (t : TableId) : (dropTable s t).link = s.link := rfl
@[simp] theorem dropTable_marks (s : State) (t : TableId) : (dropTable s t).marks = s.marks := rfl
@[simp] theorem dropTable_raster (s : State) (t : TableId) : (dropTable s t).raster = s.raster := rfl
@[simp] theorem dropTable_power (s : State) (t : TableId) : (dropTable s t).power = s.power := rfl
@[simp] theorem dropTable_wb (s : State) (t : TableId) : (dropTable s t).wb = s.wb := rfl
@[simp] theorem dropTable_sec (s : State) (t : TableId) : (dropTable s t).sec = s.sec := rfl
@[simp] theorem dropTable_site (s : State) (t : TableId) : (dropTable s t).site = s.site := rfl
@[simp] theorem setMark_pending (s : State) (u : Nat) (m : MarkUnit) : (setMark s u m).pending = s.pending := rfl
@[simp] theorem setMark_fresh (s : State) (u : Nat) (m : MarkUnit) : (setMark s u m).fresh = s.fresh := rfl
@[simp] theorem setMark_dtime (s : State) (u : Nat) (m : MarkUnit) : (setMark s u m).dtime = s.dtime := rfl
@[simp] theorem setMark_out (s : State) (u : Nat) (m : MarkUnit) : (setMark s u m).out = s.out := rfl
@[simp] theorem setMark_regs (s : State) (u : Nat) (m : MarkUnit) : (setMark s u m).regs = s.regs := rfl
@[simp] theorem setMark_mem (s : State) (u : Nat) (m : MarkUnit) : (setMark s u m).mem = s.mem := rfl
@[simp] theorem setMark_host (s : State) (u : Nat) (m : MarkUnit) : (setMark s u m).host = s.host := rfl
@[simp] theorem setMark_sched (s : State) (u : Nat) (m : MarkUnit) : (setMark s u m).sched = s.sched := rfl
@[simp] theorem setMark_core (s : State) (u : Nat) (m : MarkUnit) : (setMark s u m).core = s.core := rfl
@[simp] theorem setMark_heads (s : State) (u : Nat) (m : MarkUnit) : (setMark s u m).heads = s.heads := rfl
@[simp] theorem setMark_link (s : State) (u : Nat) (m : MarkUnit) : (setMark s u m).link = s.link := rfl
@[simp] theorem setMark_marks (s : State) (u : Nat) (m : MarkUnit) : (setMark s u m).marks = mset s.marks u m := rfl
@[simp] theorem setMark_raster (s : State) (u : Nat) (m : MarkUnit) : (setMark s u m).raster = s.raster := rfl
@[simp] theorem setMark_power (s : State) (u : Nat) (m : MarkUnit) : (setMark s u m).power = s.power := rfl
@[simp] theorem setMark_wb (s : State) (u : Nat) (m : MarkUnit) : (setMark s u m).wb = s.wb := rfl
@[simp] theorem setMark_sec (s : State) (u : Nat) (m : MarkUnit) : (setMark s u m).sec = s.sec := rfl
@[simp] theorem setMark_site (s : State) (u : Nat) (m : MarkUnit) : (setMark s u m).site = s.site := rfl
@[simp] theorem setLink_pending (s : State) (x : LinkSt) : (setLink s x).pending = s.pending := rfl
@[simp] theorem setLink_fresh (s : State) (x : LinkSt) : (setLink s x).fresh = s.fresh := rfl
@[simp] theorem setLink_dtime (s : State) (x : LinkSt) : (setLink s x).dtime = s.dtime := rfl
@[simp] theorem setLink_out (s : State) (x : LinkSt) : (setLink s x).out = s.out := rfl
@[simp] theorem setLink_regs (s : State) (x : LinkSt) : (setLink s x).regs = s.regs := rfl
@[simp] theorem setLink_mem (s : State) (x : LinkSt) : (setLink s x).mem = s.mem := rfl
@[simp] theorem setLink_host (s : State) (x : LinkSt) : (setLink s x).host = s.host := rfl
@[simp] theorem setLink_sched (s : State) (x : LinkSt) : (setLink s x).sched = s.sched := rfl
@[simp] theorem setLink_core (s : State) (x : LinkSt) : (setLink s x).core = s.core := rfl
@[simp] theorem setLink_heads (s : State) (x : LinkSt) : (setLink s x).heads = s.heads := rfl
@[simp] theorem setLink_link (s : State) (x : LinkSt) : (setLink s x).link = x := rfl
@[simp] theorem setLink_marks (s : State) (x : LinkSt) : (setLink s x).marks = s.marks := rfl
@[simp] theorem setLink_raster (s : State) (x : LinkSt) : (setLink s x).raster = s.raster := rfl
@[simp] theorem setLink_power (s : State) (x : LinkSt) : (setLink s x).power = s.power := rfl
@[simp] theorem setLink_wb (s : State) (x : LinkSt) : (setLink s x).wb = s.wb := rfl
@[simp] theorem setLink_sec (s : State) (x : LinkSt) : (setLink s x).sec = s.sec := rfl
@[simp] theorem setLink_site (s : State) (x : LinkSt) : (setLink s x).site = s.site := rfl
@[simp] theorem setMem_pending (s : State) (m : MemSt) : (setMem s m).pending = s.pending := rfl
@[simp] theorem setMem_fresh (s : State) (m : MemSt) : (setMem s m).fresh = s.fresh := rfl
@[simp] theorem setMem_dtime (s : State) (m : MemSt) : (setMem s m).dtime = s.dtime := rfl
@[simp] theorem setMem_out (s : State) (m : MemSt) : (setMem s m).out = s.out := rfl
@[simp] theorem setMem_regs (s : State) (m : MemSt) : (setMem s m).regs = s.regs := rfl
@[simp] theorem setMem_mem (s : State) (m : MemSt) : (setMem s m).mem = m := rfl
@[simp] theorem setMem_host (s : State) (m : MemSt) : (setMem s m).host = s.host := rfl
@[simp] theorem setMem_sched (s : State) (m : MemSt) : (setMem s m).sched = s.sched := rfl
@[simp] theorem setMem_core (s : State) (m : MemSt) : (setMem s m).core = s.core := rfl
@[simp] theorem setMem_heads (s : State) (m : MemSt) : (setMem s m).heads = s.heads := rfl
@[simp] theorem setMem_link (s : State) (m : MemSt) : (setMem s m).link = s.link := rfl
@[simp] theorem setMem_marks (s : State) (m : MemSt) : (setMem s m).marks = s.marks := rfl
@[simp] theorem setMem_raster (s : State) (m : MemSt) : (setMem s m).raster = s.raster := rfl
@[simp] theorem setMem_power (s : State) (m : MemSt) : (setMem s m).power = s.power := rfl
@[simp] theorem setMem_wb (s : State) (m : MemSt) : (setMem s m).wb = s.wb := rfl
@[simp] theorem setMem_sec (s : State) (m : MemSt) : (setMem s m).sec = s.sec := rfl
@[simp] theorem setMem_site (s : State) (m : MemSt) : (setMem s m).site = s.site := rfl
@[simp] theorem setSched_pending (s : State) (x : SchedSt) : (setSched s x).pending = s.pending := rfl
@[simp] theorem setSched_fresh (s : State) (x : SchedSt) : (setSched s x).fresh = s.fresh := rfl
@[simp] theorem setSched_dtime (s : State) (x : SchedSt) : (setSched s x).dtime = s.dtime := rfl
@[simp] theorem setSched_out (s : State) (x : SchedSt) : (setSched s x).out = s.out := rfl
@[simp] theorem setSched_regs (s : State) (x : SchedSt) : (setSched s x).regs = s.regs := rfl
@[simp] theorem setSched_mem (s : State) (x : SchedSt) : (setSched s x).mem = s.mem := rfl
@[simp] theorem setSched_host (s : State) (x : SchedSt) : (setSched s x).host = s.host := rfl
@[simp] theorem setSched_sched (s : State) (x : SchedSt) : (setSched s x).sched = x := rfl
@[simp] theorem setSched_core (s : State) (x : SchedSt) : (setSched s x).core = s.core := rfl
@[simp] theorem setSched_heads (s : State) (x : SchedSt) : (setSched s x).heads = s.heads := rfl
@[simp] theorem setSched_link (s : State) (x : SchedSt) : (setSched s x).link = s.link := rfl
@[simp] theorem setSched_marks (s : State) (x : SchedSt) : (setSched s x).marks = s.marks := rfl
@[simp] theorem setSched_raster (s : State) (x : SchedSt) : (setSched s x).raster = s.raster := rfl
@[simp] theorem setSched_power (s : State) (x : SchedSt) : (setSched s x).power = s.power := rfl
@[simp] theorem setSched_wb (s : State) (x : SchedSt) : (setSched s x).wb = s.wb := rfl
@[simp] theorem setSched_sec (s : State) (x : SchedSt) : (setSched s x).sec = s.sec := rfl
@[simp] theorem setSched_site (s : State) (x : SchedSt) : (setSched s x).site = s.site := rfl
@[simp] theorem setCore_pending (s : State) (x : CoreAll) : (setCore s x).pending = s.pending := rfl
@[simp] theorem setCore_fresh (s : State) (x : CoreAll) : (setCore s x).fresh = s.fresh := rfl
@[simp] theorem setCore_dtime (s : State) (x : CoreAll) : (setCore s x).dtime = s.dtime := rfl
@[simp] theorem setCore_out (s : State) (x : CoreAll) : (setCore s x).out = s.out := rfl
@[simp] theorem setCore_regs (s : State) (x : CoreAll) : (setCore s x).regs = s.regs := rfl
@[simp] theorem setCore_mem (s : State) (x : CoreAll) : (setCore s x).mem = s.mem := rfl
@[simp] theorem setCore_host (s : State) (x : CoreAll) : (setCore s x).host = s.host := rfl
@[simp] theorem setCore_sched (s : State) (x : CoreAll) : (setCore s x).sched = s.sched := rfl
@[simp] theorem setCore_core (s : State) (x : CoreAll) : (setCore s x).core = x := rfl
@[simp] theorem setCore_heads (s : State) (x : CoreAll) : (setCore s x).heads = s.heads := rfl
@[simp] theorem setCore_link (s : State) (x : CoreAll) : (setCore s x).link = s.link := rfl
@[simp] theorem setCore_marks (s : State) (x : CoreAll) : (setCore s x).marks = s.marks := rfl
@[simp] theorem setCore_raster (s : State) (x : CoreAll) : (setCore s x).raster = s.raster := rfl
@[simp] theorem setCore_power (s : State) (x : CoreAll) : (setCore s x).power = s.power := rfl
@[simp] theorem setCore_wb (s : State) (x : CoreAll) : (setCore s x).wb = s.wb := rfl
@[simp] theorem setCore_sec (s : State) (x : CoreAll) : (setCore s x).sec = s.sec := rfl
@[simp] theorem setCore_site (s : State) (x : CoreAll) : (setCore s x).site = s.site := rfl
@[simp] theorem setPower_pending (s : State) (x : PowerSt) : (setPower s x).pending = s.pending := rfl
@[simp] theorem setPower_fresh (s : State) (x : PowerSt) : (setPower s x).fresh = s.fresh := rfl
@[simp] theorem setPower_dtime (s : State) (x : PowerSt) : (setPower s x).dtime = s.dtime := rfl
@[simp] theorem setPower_out (s : State) (x : PowerSt) : (setPower s x).out = s.out := rfl
@[simp] theorem setPower_regs (s : State) (x : PowerSt) : (setPower s x).regs = s.regs := rfl
@[simp] theorem setPower_mem (s : State) (x : PowerSt) : (setPower s x).mem = s.mem := rfl
@[simp] theorem setPower_host (s : State) (x : PowerSt) : (setPower s x).host = s.host := rfl
@[simp] theorem setPower_sched (s : State) (x : PowerSt) : (setPower s x).sched = s.sched := rfl
@[simp] theorem setPower_core (s : State) (x : PowerSt) : (setPower s x).core = s.core := rfl
@[simp] theorem setPower_heads (s : State) (x : PowerSt) : (setPower s x).heads = s.heads := rfl
@[simp] theorem setPower_link (s : State) (x : PowerSt) : (setPower s x).link = s.link := rfl
@[simp] theorem setPower_marks (s : State) (x : PowerSt) : (setPower s x).marks = s.marks := rfl
@[simp] theorem setPower_raster (s : State) (x : PowerSt) : (setPower s x).raster = s.raster := rfl
@[simp] theorem setPower_power (s : State) (x : PowerSt) : (setPower s x).power = x := rfl
@[simp] theorem setPower_wb (s : State) (x : PowerSt) : (setPower s x).wb = s.wb := rfl
@[simp] theorem setPower_sec (s : State) (x : PowerSt) : (setPower s x).sec = s.sec := rfl
@[simp] theorem setPower_site (s : State) (x : PowerSt) : (setPower s x).site = s.site := rfl
@[simp] theorem setSec_pending (s : State) (x : SecSt) : (setSec s x).pending = s.pending := rfl
@[simp] theorem setSec_fresh (s : State) (x : SecSt) : (setSec s x).fresh = s.fresh := rfl
@[simp] theorem setSec_dtime (s : State) (x : SecSt) : (setSec s x).dtime = s.dtime := rfl
@[simp] theorem setSec_out (s : State) (x : SecSt) : (setSec s x).out = s.out := rfl
@[simp] theorem setSec_regs (s : State) (x : SecSt) : (setSec s x).regs = s.regs := rfl
@[simp] theorem setSec_mem (s : State) (x : SecSt) : (setSec s x).mem = s.mem := rfl
@[simp] theorem setSec_host (s : State) (x : SecSt) : (setSec s x).host = s.host := rfl
@[simp] theorem setSec_sched (s : State) (x : SecSt) : (setSec s x).sched = s.sched := rfl
@[simp] theorem setSec_core (s : State) (x : SecSt) : (setSec s x).core = s.core := rfl
@[simp] theorem setSec_heads (s : State) (x : SecSt) : (setSec s x).heads = s.heads := rfl
@[simp] theorem setSec_link (s : State) (x : SecSt) : (setSec s x).link = s.link := rfl
@[simp] theorem setSec_marks (s : State) (x : SecSt) : (setSec s x).marks = s.marks := rfl
@[simp] theorem setSec_raster (s : State) (x : SecSt) : (setSec s x).raster = s.raster := rfl
@[simp] theorem setSec_power (s : State) (x : SecSt) : (setSec s x).power = s.power := rfl
@[simp] theorem setSec_wb (s : State) (x : SecSt) : (setSec s x).wb = s.wb := rfl
@[simp] theorem setSec_sec (s : State) (x : SecSt) : (setSec s x).sec = x := rfl
@[simp] theorem setSec_site (s : State) (x : SecSt) : (setSec s x).site = s.site := rfl
@[simp] theorem setRaster_pending (s : State) (x : RasterSt) : (setRaster s x).pending = s.pending := rfl
@[simp] theorem setRaster_fresh (s : State) (x : RasterSt) : (setRaster s x).fresh = s.fresh := rfl
@[simp] theorem setRaster_dtime (s : State) (x : RasterSt) : (setRaster s x).dtime = s.dtime := rfl
@[simp] theorem setRaster_out (s : State) (x : RasterSt) : (setRaster s x).out = s.out := rfl
@[simp] theorem setRaster_regs (s : State) (x : RasterSt) : (setRaster s x).regs = s.regs := rfl
@[simp] theorem setRaster_mem (s : State) (x : RasterSt) : (setRaster s x).mem = s.mem := rfl
@[simp] theorem setRaster_host (s : State) (x : RasterSt) : (setRaster s x).host = s.host := rfl
@[simp] theorem setRaster_sched (s : State) (x : RasterSt) : (setRaster s x).sched = s.sched := rfl
@[simp] theorem setRaster_core (s : State) (x : RasterSt) : (setRaster s x).core = s.core := rfl
@[simp] theorem setRaster_heads (s : State) (x : RasterSt) : (setRaster s x).heads = s.heads := rfl
@[simp] theorem setRaster_link (s : State) (x : RasterSt) : (setRaster s x).link = s.link := rfl
@[simp] theorem setRaster_marks (s : State) (x : RasterSt) : (setRaster s x).marks = s.marks := rfl
@[simp] theorem setRaster_raster (s : State) (x : RasterSt) : (setRaster s x).raster = x := rfl
@[simp] theorem setRaster_power (s : State) (x : RasterSt) : (setRaster s x).power = s.power := rfl
@[simp] theorem setRaster_wb (s : State) (x : RasterSt) : (setRaster s x).wb = s.wb := rfl
@[simp] theorem setRaster_sec (s : State) (x : RasterSt) : (setRaster s x).sec = s.sec := rfl
@[simp] theorem setRaster_site (s : State) (x : RasterSt) : (setRaster s x).site = s.site := rfl
@[simp] theorem setWb_pending (s : State) (x : WbSt) : (setWb s x).pending = s.pending := rfl
@[simp] theorem setWb_fresh (s : State) (x : WbSt) : (setWb s x).fresh = s.fresh := rfl
@[simp] theorem setWb_dtime (s : State) (x : WbSt) : (setWb s x).dtime = s.dtime := rfl
@[simp] theorem setWb_out (s : State) (x : WbSt) : (setWb s x).out = s.out := rfl
@[simp] theorem setWb_regs (s : State) (x : WbSt) : (setWb s x).regs = s.regs := rfl
@[simp] theorem setWb_mem (s : State) (x : WbSt) : (setWb s x).mem = s.mem := rfl
@[simp] theorem setWb_host (s : State) (x : WbSt) : (setWb s x).host = s.host := rfl
@[simp] theorem setWb_sched (s : State) (x : WbSt) : (setWb s x).sched = s.sched := rfl
@[simp] theorem setWb_core (s : State) (x : WbSt) : (setWb s x).core = s.core := rfl
@[simp] theorem setWb_heads (s : State) (x : WbSt) : (setWb s x).heads = s.heads := rfl
@[simp] theorem setWb_link (s : State) (x : WbSt) : (setWb s x).link = s.link := rfl
@[simp] theorem setWb_marks (s : State) (x : WbSt) : (setWb s x).marks = s.marks := rfl
@[simp] theorem setWb_raster (s : State) (x : WbSt) : (setWb s x).raster = s.raster := rfl
@[simp] theorem setWb_power (s : State) (x : WbSt) : (setWb s x).power = s.power := rfl
@[simp] theorem setWb_wb (s : State) (x : WbSt) : (setWb s x).wb = x := rfl
@[simp] theorem setWb_sec (s : State) (x : WbSt) : (setWb s x).sec = s.sec := rfl
@[simp] theorem setWb_site (s : State) (x : WbSt) : (setWb s x).site = s.site := rfl
@[simp] theorem setHead_pending (s : State) (h : Nat) (x : HeadSt) : (setHead s h x).pending = s.pending := rfl
@[simp] theorem setHead_fresh (s : State) (h : Nat) (x : HeadSt) : (setHead s h x).fresh = s.fresh := rfl
@[simp] theorem setHead_dtime (s : State) (h : Nat) (x : HeadSt) : (setHead s h x).dtime = s.dtime := rfl
@[simp] theorem setHead_out (s : State) (h : Nat) (x : HeadSt) : (setHead s h x).out = s.out := rfl
@[simp] theorem setHead_regs (s : State) (h : Nat) (x : HeadSt) : (setHead s h x).regs = s.regs := rfl
@[simp] theorem setHead_mem (s : State) (h : Nat) (x : HeadSt) : (setHead s h x).mem = s.mem := rfl
@[simp] theorem setHead_host (s : State) (h : Nat) (x : HeadSt) : (setHead s h x).host = s.host := rfl
@[simp] theorem setHead_sched (s : State) (h : Nat) (x : HeadSt) : (setHead s h x).sched = s.sched := rfl
@[simp] theorem setHead_core (s : State) (h : Nat) (x : HeadSt) : (setHead s h x).core = s.core := rfl
@[simp] theorem setHead_heads (s : State) (h : Nat) (x : HeadSt) : (setHead s h x).heads = lset s.heads h x := rfl
@[simp] theorem setHead_link (s : State) (h : Nat) (x : HeadSt) : (setHead s h x).link = s.link := rfl
@[simp] theorem setHead_marks (s : State) (h : Nat) (x : HeadSt) : (setHead s h x).marks = s.marks := rfl
@[simp] theorem setHead_raster (s : State) (h : Nat) (x : HeadSt) : (setHead s h x).raster = s.raster := rfl
@[simp] theorem setHead_power (s : State) (h : Nat) (x : HeadSt) : (setHead s h x).power = s.power := rfl
@[simp] theorem setHead_wb (s : State) (h : Nat) (x : HeadSt) : (setHead s h x).wb = s.wb := rfl
@[simp] theorem setHead_sec (s : State) (h : Nat) (x : HeadSt) : (setHead s h x).sec = s.sec := rfl
@[simp] theorem setHead_site (s : State) (h : Nat) (x : HeadSt) : (setHead s h x).site = s.site := rfl

@[simp] theorem dropTable_mem_claims (s : State) (t : TableId) : (dropTable s t).mem.claims = s.mem.claims := rfl
@[simp] theorem dropTable_mem_coreErrs (s : State) (t : TableId) : (dropTable s t).mem.coreErrs = s.mem.coreErrs := rfl
@[simp] theorem dropTable_mem_dram (s : State) (t : TableId) : (dropTable s t).mem.dram = s.mem.dram := rfl
@[simp] theorem dropTable_mem_evb (s : State) (t : TableId) : (dropTable s t).mem.evb = s.mem.evb := rfl
@[simp] theorem dropTable_mem_exhausted (s : State) (t : TableId) : (dropTable s t).mem.exhausted = s.mem.exhausted := rfl
@[simp] theorem dropTable_mem_fillQ (s : State) (t : TableId) : (dropTable s t).mem.fillQ = s.mem.fillQ := rfl
@[simp] theorem dropTable_mem_filled (s : State) (t : TableId) : (dropTable s t).mem.filled = s.mem.filled := rfl
@[simp] theorem dropTable_mem_frameSyms (s : State) (t : TableId) : (dropTable s t).mem.frameSyms = s.mem.frameSyms := rfl
@[simp] theorem dropTable_mem_grant (s : State) (t : TableId) : (dropTable s t).mem.grant = s.mem.grant := rfl
@[simp] theorem dropTable_mem_input (s : State) (t : TableId) : (dropTable s t).mem.input = s.mem.input := rfl
@[simp] theorem dropTable_mem_inval (s : State) (t : TableId) : (dropTable s t).mem.inval = s.mem.inval := rfl
@[simp] theorem dropTable_mem_lines (s : State) (t : TableId) : (dropTable s t).mem.lines = s.mem.lines := rfl
@[simp] theorem dropTable_mem_miss (s : State) (t : TableId) : (dropTable s t).mem.miss = s.mem.miss := rfl
@[simp] theorem dropTable_mem_modelCount (s : State) (t : TableId) : (dropTable s t).mem.modelCount = s.mem.modelCount := rfl
@[simp] theorem dropTable_mem_modelFirst (s : State) (t : TableId) : (dropTable s t).mem.modelFirst = s.mem.modelFirst := rfl
@[simp] theorem dropTable_mem_modelLive (s : State) (t : TableId) : (dropTable s t).mem.modelLive = s.mem.modelLive := rfl
@[simp] theorem dropTable_mem_patrolPage (s : State) (t : TableId) : (dropTable s t).mem.patrolPage = s.mem.patrolPage := rfl
@[simp] theorem dropTable_mem_patrolTime (s : State) (t : TableId) : (dropTable s t).mem.patrolTime = s.mem.patrolTime := rfl
@[simp] theorem dropTable_mem_pdev (s : State) (t : TableId) : (dropTable s t).mem.pdev = s.mem.pdev := rfl
@[simp] theorem dropTable_mem_plru (s : State) (t : TableId) : (dropTable s t).mem.plru = s.mem.plru := rfl
@[simp] theorem dropTable_mem_pool (s : State) (t : TableId) : (dropTable s t).mem.pool = s.mem.pool := rfl
@[simp] theorem dropTable_mem_recorded (s : State) (t : TableId) : (dropTable s t).mem.recorded = s.mem.recorded := rfl
@[simp] theorem dropTable_mem_remap (s : State) (t : TableId) : (dropTable s t).mem.remap = s.mem.remap := rfl
@[simp] theorem dropTable_mem_retireQ (s : State) (t : TableId) : (dropTable s t).mem.retireQ = s.mem.retireQ := rfl
@[simp] theorem dropTable_mem_retired (s : State) (t : TableId) : (dropTable s t).mem.retired = s.mem.retired := rfl
@[simp] theorem dropTable_mem_slowQ (s : State) (t : TableId) : (dropTable s t).mem.slowQ = s.mem.slowQ := rfl
@[simp] theorem dropTable_mem_walks (s : State) (t : TableId) : (dropTable s t).mem.walks = mmap s.mem.walks fun _ l => List.filter (fun w => w.table != t) l := rfl
@[simp] theorem dropTable_mem_windowStart (s : State) (t : TableId) : (dropTable s t).mem.windowStart = s.mem.windowStart := rfl
@[simp] theorem dropTable_mem_xsets (s : State) (t : TableId) : (dropTable s t).mem.xsets = mmap s.mem.xsets fun _ l => List.filter (fun e => e.table != t) l := rfl
@[simp] theorem msixPut_host_captures (s : State) (f : Nat) (i : Nat) (e : Msix) : (msixPut s f i e).host.captures = s.host.captures := rfl
@[simp] theorem msixPut_host_ctxs (s : State) (f : Nat) (i : Nat) (e : Msix) : (msixPut s f i e).host.ctxs = s.host.ctxs := rfl
@[simp] theorem msixPut_host_events (s : State) (f : Nat) (i : Nat) (e : Msix) : (msixPut s f i e).host.events = s.host.events := rfl
@[simp] theorem msixPut_host_fences (s : State) (f : Nat) (i : Nat) (e : Msix) : (msixPut s f i e).host.fences = s.host.fences := rfl
@[simp] theorem msixPut_host_finished (s : State) (f : Nat) (i : Nat) (e : Msix) : (msixPut s f i e).host.finished = s.host.finished := rfl
@[simp] theorem msixPut_host_gens (s : State) (f : Nat) (i : Nat) (e : Msix) : (msixPut s f i e).host.gens = s.host.gens := rfl
@[simp] theorem msixPut_host_kills (s : State) (f : Nat) (i : Nat) (e : Msix) : (msixPut s f i e).host.kills = s.host.kills := rfl
@[simp] theorem msixPut_host_memObjs (s : State) (f : Nat) (i : Nat) (e : Msix) : (msixPut s f i e).host.memObjs = s.host.memObjs := rfl
@[simp] theorem msixPut_host_msix (s : State) (f : Nat) (i : Nat) (e : Msix) : (msixPut s f i e).host.msix = msetD s.host.msix (f * 2048 + i) e { addr := 0, data := 0, masked := true, pend := false } := rfl
@[simp] theorem msixPut_host_nextWid (s : State) (f : Nat) (i : Nat) (e : Msix) : (msixPut s f i e).host.nextWid = s.host.nextWid := rfl
@[simp] theorem msixPut_host_objWait (s : State) (f : Nat) (i : Nat) (e : Msix) : (msixPut s f i e).host.objWait = s.host.objWait := rfl
@[simp] theorem msixPut_host_partCmd (s : State) (f : Nat) (i : Nat) (e : Msix) : (msixPut s f i e).host.partCmd = s.host.partCmd := rfl
@[simp] theorem msixPut_host_parts (s : State) (f : Nat) (i : Nat) (e : Msix) : (msixPut s f i e).host.parts = s.host.parts := rfl
@[simp] theorem msixPut_host_pcie (s : State) (f : Nat) (i : Nat) (e : Msix) : (msixPut s f i e).host.pcie = s.host.pcie := rfl
@[simp] theorem msixPut_host_rings (s : State) (f : Nat) (i : Nat) (e : Msix) : (msixPut s f i e).host.rings = s.host.rings := rfl
@[simp] theorem msixPut_host_scanAt (s : State) (f : Nat) (i : Nat) (e : Msix) : (msixPut s f i e).host.scanAt = s.host.scanAt := rfl
@[simp] theorem msixPut_host_scanSet (s : State) (f : Nat) (i : Nat) (e : Msix) : (msixPut s f i e).host.scanSet = s.host.scanSet := rfl
@[simp] theorem setCtx_host_captures (s : State) (k : Nat) (x : Ctx) : (setCtx s k x).host.captures = s.host.captures := rfl
@[simp] theorem setCtx_host_ctxs (s : State) (k : Nat) (x : Ctx) : (setCtx s k x).host.ctxs = mset s.host.ctxs k x := rfl
@[simp] theorem setCtx_host_events (s : State) (k : Nat) (x : Ctx) : (setCtx s k x).host.events = s.host.events := rfl
@[simp] theorem setCtx_host_fences (s : State) (k : Nat) (x : Ctx) : (setCtx s k x).host.fences = s.host.fences := rfl
@[simp] theorem setCtx_host_finished (s : State) (k : Nat) (x : Ctx) : (setCtx s k x).host.finished = s.host.finished := rfl
@[simp] theorem setCtx_host_gens (s : State) (k : Nat) (x : Ctx) : (setCtx s k x).host.gens = s.host.gens := rfl
@[simp] theorem setCtx_host_kills (s : State) (k : Nat) (x : Ctx) : (setCtx s k x).host.kills = s.host.kills := rfl
@[simp] theorem setCtx_host_memObjs (s : State) (k : Nat) (x : Ctx) : (setCtx s k x).host.memObjs = s.host.memObjs := rfl
@[simp] theorem setCtx_host_msix (s : State) (k : Nat) (x : Ctx) : (setCtx s k x).host.msix = s.host.msix := rfl
@[simp] theorem setCtx_host_nextWid (s : State) (k : Nat) (x : Ctx) : (setCtx s k x).host.nextWid = s.host.nextWid := rfl
@[simp] theorem setCtx_host_objWait (s : State) (k : Nat) (x : Ctx) : (setCtx s k x).host.objWait = s.host.objWait := rfl
@[simp] theorem setCtx_host_partCmd (s : State) (k : Nat) (x : Ctx) : (setCtx s k x).host.partCmd = s.host.partCmd := rfl
@[simp] theorem setCtx_host_parts (s : State) (k : Nat) (x : Ctx) : (setCtx s k x).host.parts = s.host.parts := rfl
@[simp] theorem setCtx_host_pcie (s : State) (k : Nat) (x : Ctx) : (setCtx s k x).host.pcie = s.host.pcie := rfl
@[simp] theorem setCtx_host_rings (s : State) (k : Nat) (x : Ctx) : (setCtx s k x).host.rings = s.host.rings := rfl
@[simp] theorem setCtx_host_scanAt (s : State) (k : Nat) (x : Ctx) : (setCtx s k x).host.scanAt = s.host.scanAt := rfl
@[simp] theorem setCtx_host_scanSet (s : State) (k : Nat) (x : Ctx) : (setCtx s k x).host.scanSet = s.host.scanSet := rfl
@[simp] theorem setEvent_host_captures (s : State) (k : Nat) (x : Event) : (setEvent s k x).host.captures = s.host.captures := rfl
@[simp] theorem setEvent_host_ctxs (s : State) (k : Nat) (x : Event) : (setEvent s k x).host.ctxs = s.host.ctxs := rfl
@[simp] theorem setEvent_host_events (s : State) (k : Nat) (x : Event) : (setEvent s k x).host.events = mset s.host.events k x := rfl
@[simp] theorem setEvent_host_fences (s : State) (k : Nat) (x : Event) : (setEvent s k x).host.fences = s.host.fences := rfl
@[simp] theorem setEvent_host_finished (s : State) (k : Nat) (x : Event) : (setEvent s k x).host.finished = s.host.finished := rfl
@[simp] theorem setEvent_host_gens (s : State) (k : Nat) (x : Event) : (setEvent s k x).host.gens = s.host.gens := rfl
@[simp] theorem setEvent_host_kills (s : State) (k : Nat) (x : Event) : (setEvent s k x).host.kills = s.host.kills := rfl
@[simp] theorem setEvent_host_memObjs (s : State) (k : Nat) (x : Event) : (setEvent s k x).host.memObjs = s.host.memObjs := rfl
@[simp] theorem setEvent_host_msix (s : State) (k : Nat) (x : Event) : (setEvent s k x).host.msix = s.host.msix := rfl
@[simp] theorem setEvent_host_nextWid (s : State) (k : Nat) (x : Event) : (setEvent s k x).host.nextWid = s.host.nextWid := rfl
@[simp] theorem setEvent_host_objWait (s : State) (k : Nat) (x : Event) : (setEvent s k x).host.objWait = s.host.objWait := rfl
@[simp] theorem setEvent_host_partCmd (s : State) (k : Nat) (x : Event) : (setEvent s k x).host.partCmd = s.host.partCmd := rfl
@[simp] theorem setEvent_host_parts (s : State) (k : Nat) (x : Event) : (setEvent s k x).host.parts = s.host.parts := rfl
@[simp] theorem setEvent_host_pcie (s : State) (k : Nat) (x : Event) : (setEvent s k x).host.pcie = s.host.pcie := rfl
@[simp] theorem setEvent_host_rings (s : State) (k : Nat) (x : Event) : (setEvent s k x).host.rings = s.host.rings := rfl
@[simp] theorem setEvent_host_scanAt (s : State) (k : Nat) (x : Event) : (setEvent s k x).host.scanAt = s.host.scanAt := rfl
@[simp] theorem setEvent_host_scanSet (s : State) (k : Nat) (x : Event) : (setEvent s k x).host.scanSet = s.host.scanSet := rfl
@[simp] theorem setFence_host_captures (s : State) (k : Nat) (x : Fence) : (setFence s k x).host.captures = s.host.captures := rfl
@[simp] theorem setFence_host_ctxs (s : State) (k : Nat) (x : Fence) : (setFence s k x).host.ctxs = s.host.ctxs := rfl
@[simp] theorem setFence_host_events (s : State) (k : Nat) (x : Fence) : (setFence s k x).host.events = s.host.events := rfl
@[simp] theorem setFence_host_fences (s : State) (k : Nat) (x : Fence) : (setFence s k x).host.fences = mset s.host.fences k x := rfl
@[simp] theorem setFence_host_finished (s : State) (k : Nat) (x : Fence) : (setFence s k x).host.finished = s.host.finished := rfl
@[simp] theorem setFence_host_gens (s : State) (k : Nat) (x : Fence) : (setFence s k x).host.gens = s.host.gens := rfl
@[simp] theorem setFence_host_kills (s : State) (k : Nat) (x : Fence) : (setFence s k x).host.kills = s.host.kills := rfl
@[simp] theorem setFence_host_memObjs (s : State) (k : Nat) (x : Fence) : (setFence s k x).host.memObjs = s.host.memObjs := rfl
@[simp] theorem setFence_host_msix (s : State) (k : Nat) (x : Fence) : (setFence s k x).host.msix = s.host.msix := rfl
@[simp] theorem setFence_host_nextWid (s : State) (k : Nat) (x : Fence) : (setFence s k x).host.nextWid = s.host.nextWid := rfl
@[simp] theorem setFence_host_objWait (s : State) (k : Nat) (x : Fence) : (setFence s k x).host.objWait = s.host.objWait := rfl
@[simp] theorem setFence_host_partCmd (s : State) (k : Nat) (x : Fence) : (setFence s k x).host.partCmd = s.host.partCmd := rfl
@[simp] theorem setFence_host_parts (s : State) (k : Nat) (x : Fence) : (setFence s k x).host.parts = s.host.parts := rfl
@[simp] theorem setFence_host_pcie (s : State) (k : Nat) (x : Fence) : (setFence s k x).host.pcie = s.host.pcie := rfl
@[simp] theorem setFence_host_rings (s : State) (k : Nat) (x : Fence) : (setFence s k x).host.rings = s.host.rings := rfl
@[simp] theorem setFence_host_scanAt (s : State) (k : Nat) (x : Fence) : (setFence s k x).host.scanAt = s.host.scanAt := rfl
@[simp] theorem setFence_host_scanSet (s : State) (k : Nat) (x : Fence) : (setFence s k x).host.scanSet = s.host.scanSet := rfl
@[simp] theorem setGen_host_captures (s : State) (ty : Nat) (k : Nat) (g : Nat) : (setGen s ty k g).host.captures = s.host.captures := rfl
@[simp] theorem setGen_host_ctxs (s : State) (ty : Nat) (k : Nat) (g : Nat) : (setGen s ty k g).host.ctxs = s.host.ctxs := rfl
@[simp] theorem setGen_host_events (s : State) (ty : Nat) (k : Nat) (g : Nat) : (setGen s ty k g).host.events = s.host.events := rfl
@[simp] theorem setGen_host_fences (s : State) (ty : Nat) (k : Nat) (g : Nat) : (setGen s ty k g).host.fences = s.host.fences := rfl
@[simp] theorem setGen_host_finished (s : State) (ty : Nat) (k : Nat) (g : Nat) : (setGen s ty k g).host.finished = s.host.finished := rfl
@[simp] theorem setGen_host_gens (s : State) (ty : Nat) (k : Nat) (g : Nat) : (setGen s ty k g).host.gens = mset s.host.gens (ty * 2 ^ 21 + k) g := rfl
@[simp] theorem setGen_host_kills (s : State) (ty : Nat) (k : Nat) (g : Nat) : (setGen s ty k g).host.kills = s.host.kills := rfl
@[simp] theorem setGen_host_memObjs (s : State) (ty : Nat) (k : Nat) (g : Nat) : (setGen s ty k g).host.memObjs = s.host.memObjs := rfl
@[simp] theorem setGen_host_msix (s : State) (ty : Nat) (k : Nat) (g : Nat) : (setGen s ty k g).host.msix = s.host.msix := rfl
@[simp] theorem setGen_host_nextWid (s : State) (ty : Nat) (k : Nat) (g : Nat) : (setGen s ty k g).host.nextWid = s.host.nextWid := rfl
@[simp] theorem setGen_host_objWait (s : State) (ty : Nat) (k : Nat) (g : Nat) : (setGen s ty k g).host.objWait = s.host.objWait := rfl
@[simp] theorem setGen_host_partCmd (s : State) (ty : Nat) (k : Nat) (g : Nat) : (setGen s ty k g).host.partCmd = s.host.partCmd := rfl
@[simp] theorem setGen_host_parts (s : State) (ty : Nat) (k : Nat) (g : Nat) : (setGen s ty k g).host.parts = s.host.parts := rfl
@[simp] theorem setGen_host_pcie (s : State) (ty : Nat) (k : Nat) (g : Nat) : (setGen s ty k g).host.pcie = s.host.pcie := rfl
@[simp] theorem setGen_host_rings (s : State) (ty : Nat) (k : Nat) (g : Nat) : (setGen s ty k g).host.rings = s.host.rings := rfl
@[simp] theorem setGen_host_scanAt (s : State) (ty : Nat) (k : Nat) (g : Nat) : (setGen s ty k g).host.scanAt = s.host.scanAt := rfl
@[simp] theorem setGen_host_scanSet (s : State) (ty : Nat) (k : Nat) (g : Nat) : (setGen s ty k g).host.scanSet = s.host.scanSet := rfl
@[simp] theorem setKill_host_captures (s : State) (k : Nat) (x : Kill) : (setKill s k x).host.captures = s.host.captures := rfl
@[simp] theorem setKill_host_ctxs (s : State) (k : Nat) (x : Kill) : (setKill s k x).host.ctxs = s.host.ctxs := rfl
@[simp] theorem setKill_host_events (s : State) (k : Nat) (x : Kill) : (setKill s k x).host.events = s.host.events := rfl
@[simp] theorem setKill_host_fences (s : State) (k : Nat) (x : Kill) : (setKill s k x).host.fences = s.host.fences := rfl
@[simp] theorem setKill_host_finished (s : State) (k : Nat) (x : Kill) : (setKill s k x).host.finished = s.host.finished := rfl
@[simp] theorem setKill_host_gens (s : State) (k : Nat) (x : Kill) : (setKill s k x).host.gens = s.host.gens := rfl
@[simp] theorem setKill_host_kills (s : State) (k : Nat) (x : Kill) : (setKill s k x).host.kills = mset s.host.kills k x := rfl
@[simp] theorem setKill_host_memObjs (s : State) (k : Nat) (x : Kill) : (setKill s k x).host.memObjs = s.host.memObjs := rfl
@[simp] theorem setKill_host_msix (s : State) (k : Nat) (x : Kill) : (setKill s k x).host.msix = s.host.msix := rfl
@[simp] theorem setKill_host_nextWid (s : State) (k : Nat) (x : Kill) : (setKill s k x).host.nextWid = s.host.nextWid := rfl
@[simp] theorem setKill_host_objWait (s : State) (k : Nat) (x : Kill) : (setKill s k x).host.objWait = s.host.objWait := rfl
@[simp] theorem setKill_host_partCmd (s : State) (k : Nat) (x : Kill) : (setKill s k x).host.partCmd = s.host.partCmd := rfl
@[simp] theorem setKill_host_parts (s : State) (k : Nat) (x : Kill) : (setKill s k x).host.parts = s.host.parts := rfl
@[simp] theorem setKill_host_pcie (s : State) (k : Nat) (x : Kill) : (setKill s k x).host.pcie = s.host.pcie := rfl
@[simp] theorem setKill_host_rings (s : State) (k : Nat) (x : Kill) : (setKill s k x).host.rings = s.host.rings := rfl
@[simp] theorem setKill_host_scanAt (s : State) (k : Nat) (x : Kill) : (setKill s k x).host.scanAt = s.host.scanAt := rfl
@[simp] theorem setKill_host_scanSet (s : State) (k : Nat) (x : Kill) : (setKill s k x).host.scanSet = s.host.scanSet := rfl
@[simp] theorem setMemObj_host_captures (s : State) (k : Nat) (x : MemObj) : (setMemObj s k x).host.captures = s.host.captures := rfl
@[simp] theorem setMemObj_host_ctxs (s : State) (k : Nat) (x : MemObj) : (setMemObj s k x).host.ctxs = s.host.ctxs := rfl
@[simp] theorem setMemObj_host_events (s : State) (k : Nat) (x : MemObj) : (setMemObj s k x).host.events = s.host.events := rfl
@[simp] theorem setMemObj_host_fences (s : State) (k : Nat) (x : MemObj) : (setMemObj s k x).host.fences = s.host.fences := rfl
@[simp] theorem setMemObj_host_finished (s : State) (k : Nat) (x : MemObj) : (setMemObj s k x).host.finished = s.host.finished := rfl
@[simp] theorem setMemObj_host_gens (s : State) (k : Nat) (x : MemObj) : (setMemObj s k x).host.gens = s.host.gens := rfl
@[simp] theorem setMemObj_host_kills (s : State) (k : Nat) (x : MemObj) : (setMemObj s k x).host.kills = s.host.kills := rfl
@[simp] theorem setMemObj_host_memObjs (s : State) (k : Nat) (x : MemObj) : (setMemObj s k x).host.memObjs = mset s.host.memObjs k x := rfl
@[simp] theorem setMemObj_host_msix (s : State) (k : Nat) (x : MemObj) : (setMemObj s k x).host.msix = s.host.msix := rfl
@[simp] theorem setMemObj_host_nextWid (s : State) (k : Nat) (x : MemObj) : (setMemObj s k x).host.nextWid = s.host.nextWid := rfl
@[simp] theorem setMemObj_host_objWait (s : State) (k : Nat) (x : MemObj) : (setMemObj s k x).host.objWait = s.host.objWait := rfl
@[simp] theorem setMemObj_host_partCmd (s : State) (k : Nat) (x : MemObj) : (setMemObj s k x).host.partCmd = s.host.partCmd := rfl
@[simp] theorem setMemObj_host_parts (s : State) (k : Nat) (x : MemObj) : (setMemObj s k x).host.parts = s.host.parts := rfl
@[simp] theorem setMemObj_host_pcie (s : State) (k : Nat) (x : MemObj) : (setMemObj s k x).host.pcie = s.host.pcie := rfl
@[simp] theorem setMemObj_host_rings (s : State) (k : Nat) (x : MemObj) : (setMemObj s k x).host.rings = s.host.rings := rfl
@[simp] theorem setMemObj_host_scanAt (s : State) (k : Nat) (x : MemObj) : (setMemObj s k x).host.scanAt = s.host.scanAt := rfl
@[simp] theorem setMemObj_host_scanSet (s : State) (k : Nat) (x : MemObj) : (setMemObj s k x).host.scanSet = s.host.scanSet := rfl
@[simp] theorem setPart_host_captures (s : State) (p : Nat) (x : Partition) : (setPart s p x).host.captures = s.host.captures := rfl
@[simp] theorem setPart_host_ctxs (s : State) (p : Nat) (x : Partition) : (setPart s p x).host.ctxs = s.host.ctxs := rfl
@[simp] theorem setPart_host_events (s : State) (p : Nat) (x : Partition) : (setPart s p x).host.events = s.host.events := rfl
@[simp] theorem setPart_host_fences (s : State) (p : Nat) (x : Partition) : (setPart s p x).host.fences = s.host.fences := rfl
@[simp] theorem setPart_host_finished (s : State) (p : Nat) (x : Partition) : (setPart s p x).host.finished = s.host.finished := rfl
@[simp] theorem setPart_host_gens (s : State) (p : Nat) (x : Partition) : (setPart s p x).host.gens = s.host.gens := rfl
@[simp] theorem setPart_host_kills (s : State) (p : Nat) (x : Partition) : (setPart s p x).host.kills = s.host.kills := rfl
@[simp] theorem setPart_host_memObjs (s : State) (p : Nat) (x : Partition) : (setPart s p x).host.memObjs = s.host.memObjs := rfl
@[simp] theorem setPart_host_msix (s : State) (p : Nat) (x : Partition) : (setPart s p x).host.msix = s.host.msix := rfl
@[simp] theorem setPart_host_nextWid (s : State) (p : Nat) (x : Partition) : (setPart s p x).host.nextWid = s.host.nextWid := rfl
@[simp] theorem setPart_host_objWait (s : State) (p : Nat) (x : Partition) : (setPart s p x).host.objWait = s.host.objWait := rfl
@[simp] theorem setPart_host_partCmd (s : State) (p : Nat) (x : Partition) : (setPart s p x).host.partCmd = s.host.partCmd := rfl
@[simp] theorem setPart_host_parts (s : State) (p : Nat) (x : Partition) : (setPart s p x).host.parts = mset s.host.parts p x := rfl
@[simp] theorem setPart_host_pcie (s : State) (p : Nat) (x : Partition) : (setPart s p x).host.pcie = s.host.pcie := rfl
@[simp] theorem setPart_host_rings (s : State) (p : Nat) (x : Partition) : (setPart s p x).host.rings = s.host.rings := rfl
@[simp] theorem setPart_host_scanAt (s : State) (p : Nat) (x : Partition) : (setPart s p x).host.scanAt = s.host.scanAt := rfl
@[simp] theorem setPart_host_scanSet (s : State) (p : Nat) (x : Partition) : (setPart s p x).host.scanSet = s.host.scanSet := rfl
@[simp] theorem setRing_host_captures (s : State) (k : Nat) (x : Ring) : (setRing s k x).host.captures = s.host.captures := rfl
@[simp] theorem setRing_host_ctxs (s : State) (k : Nat) (x : Ring) : (setRing s k x).host.ctxs = s.host.ctxs := rfl
@[simp] theorem setRing_host_events (s : State) (k : Nat) (x : Ring) : (setRing s k x).host.events = s.host.events := rfl
@[simp] theorem setRing_host_fences (s : State) (k : Nat) (x : Ring) : (setRing s k x).host.fences = s.host.fences := rfl
@[simp] theorem setRing_host_finished (s : State) (k : Nat) (x : Ring) : (setRing s k x).host.finished = s.host.finished := rfl
@[simp] theorem setRing_host_gens (s : State) (k : Nat) (x : Ring) : (setRing s k x).host.gens = s.host.gens := rfl
@[simp] theorem setRing_host_kills (s : State) (k : Nat) (x : Ring) : (setRing s k x).host.kills = s.host.kills := rfl
@[simp] theorem setRing_host_memObjs (s : State) (k : Nat) (x : Ring) : (setRing s k x).host.memObjs = s.host.memObjs := rfl
@[simp] theorem setRing_host_msix (s : State) (k : Nat) (x : Ring) : (setRing s k x).host.msix = s.host.msix := rfl
@[simp] theorem setRing_host_nextWid (s : State) (k : Nat) (x : Ring) : (setRing s k x).host.nextWid = s.host.nextWid := rfl
@[simp] theorem setRing_host_objWait (s : State) (k : Nat) (x : Ring) : (setRing s k x).host.objWait = s.host.objWait := rfl
@[simp] theorem setRing_host_partCmd (s : State) (k : Nat) (x : Ring) : (setRing s k x).host.partCmd = s.host.partCmd := rfl
@[simp] theorem setRing_host_parts (s : State) (k : Nat) (x : Ring) : (setRing s k x).host.parts = s.host.parts := rfl
@[simp] theorem setRing_host_pcie (s : State) (k : Nat) (x : Ring) : (setRing s k x).host.pcie = s.host.pcie := rfl
@[simp] theorem setRing_host_rings (s : State) (k : Nat) (x : Ring) : (setRing s k x).host.rings = mset s.host.rings k x := rfl
@[simp] theorem setRing_host_scanAt (s : State) (k : Nat) (x : Ring) : (setRing s k x).host.scanAt = s.host.scanAt := rfl
@[simp] theorem setRing_host_scanSet (s : State) (k : Nat) (x : Ring) : (setRing s k x).host.scanSet = s.host.scanSet := rfl

/-! What each update leaves, at once: put back the part it writes, and the state is as it was. -/
theorem wr_frame (s : State) (key : Nat) (v : Word) : { wr s key v with regs := s.regs } = s := rfl
theorem emit_frame (s : State) (o : Output) : { emit s o with out := s.out } = s := rfl
theorem msixPut_frame (s : State) (f i : Nat) (e : Msix) : { msixPut s f i e with host := s.host } = s := rfl
theorem setPart_frame (s : State) (p : Nat) (x : Partition) : { setPart s p x with host := s.host } = s := rfl
theorem setCtx_frame (s : State) (k : Nat) (x : Ctx) : { setCtx s k x with host := s.host } = s := rfl
theorem setFence_frame (s : State) (k : Nat) (x : Fence) : { setFence s k x with host := s.host } = s := rfl
theorem setEvent_frame (s : State) (k : Nat) (x : Event) : { setEvent s k x with host := s.host } = s := rfl
theorem setMemObj_frame (s : State) (k : Nat) (x : MemObj) : { setMemObj s k x with host := s.host } = s := rfl
theorem setRing_frame (s : State) (k : Nat) (x : Ring) : { setRing s k x with host := s.host } = s := rfl
theorem setKill_frame (s : State) (k : Nat) (x : Kill) : { setKill s k x with host := s.host } = s := rfl
theorem setMark_frame (s : State) (u : Nat) (m : MarkUnit) : { setMark s u m with marks := s.marks } = s := rfl
theorem setLink_frame (s : State) (x : LinkSt) : { setLink s x with link := s.link } = s := rfl
theorem setMem_frame (s : State) (m : MemSt) : { setMem s m with mem := s.mem } = s := rfl
theorem setSched_frame (s : State) (x : SchedSt) : { setSched s x with sched := s.sched } = s := rfl
theorem setCore_frame (s : State) (x : CoreAll) : { setCore s x with core := s.core } = s := rfl
theorem setPower_frame (s : State) (x : PowerSt) : { setPower s x with power := s.power } = s := rfl
theorem setSec_frame (s : State) (x : SecSt) : { setSec s x with sec := s.sec } = s := rfl
theorem setRaster_frame (s : State) (x : RasterSt) : { setRaster s x with raster := s.raster } = s := rfl
theorem setWb_frame (s : State) (x : WbSt) : { setWb s x with wb := s.wb } = s := rfl
theorem setHead_frame (s : State) (h : Nat) (x : HeadSt) : { setHead s h x with heads := s.heads } = s := rfl

end Sys2Proof.Machine
end

