-- ==== Sys2Proof/Machine/Views.lean ====
section
/-! DEFINITION. What a register reads as (00 R6, 18 R704 to R712): the value it holds, or the live state that it reports. -/
namespace Sys2Proof.Machine

/-- KIND of a claim (08 R304). -/
def kindCode (k : ClaimKind) : Nat :=
  match k with
  | .free => 0
  | .priv => 1
  | .shared => 2
  | .model => 3
  | .filling => 4

/-- MEM_CLAIM[n] (08 R309). -/
def viewClaim (s : State) (n : Nat) : Nat :=
  let c := claimOf s n
  (if c.kind = .free || c.kind = .model then 0 else c.owner % 32) + kindCode c.kind * 2 ^ 5 + c.strength % 4 * 2 ^ 8 +
    (if c.kind = .shared then c.peerMask % 256 else 0) * 2 ^ 10

/-- MEM_MODEL (08 R310). -/
def viewModel (s : State) : Nat :=
  s.mem.modelFirst % 128 + s.mem.modelCount % 128 * 2 ^ 7 + b2n s.mem.modelLive * 2 ^ 14 + s.mem.grant.toNat * 2 ^ 32

/-- ERR_SPARE (09 R384). -/
def viewSpare (s : State) : Nat :=
  (if rdF s Reg.fwStatus 1 1 = 1 then s.mem.pool.length else 0) +
    (match s.mem.retireQ with
      | r :: _ => if r.toFrame.isSome then 2 ^ 9 + r.frame % 65536 * 2 ^ 10 else 0
      | [] => 0)

/-- CORE_LS_STATE[n] (04 R142). -/
def viewLs (s : State) (n : Nat) : Nat :=
  let c := coreOf s n
  if coreLive s n then
    tileBanks c + sharedBanks c * 2 ^ 5 + (16 - tileBanks c - sharedBanks c) * 2 ^ 10 +
      ((c.wgs.map (fun w => w.groups.length)).foldl (· + ·) 0) * 2 ^ 15
  else 0

/-- TENSOR_BUSY (03 R116). -/
def viewBusy (s : State) : Nat :=
  ((List.range 64).map (fun n => if (mgetD s.core.queues n []).isEmpty then 0 else 2 ^ n)).foldl (· + ·) 0

/-- SERVE_STATUS (12 R546). -/
def viewServe (s : State) : Nat :=
  let v := s.sched.serve
  b2n v.active + v.rows.length % 128 * 2 + v.seqs.length % 128 * 2 ^ 8 + b2n v.suspended * 2 ^ 15 + v.steps % 2 ^ 32 * 2 ^ 32

/-- CADENCE_STATUS (12 R513). -/
def viewCadence (s : State) : Nat :=
  (cadNow s).2 + (cadNow s).1 % 2 ^ 31 * 2 ^ 32 + b2n s.sched.cadence.locked * 2 ^ 63

/-- DRESS_HEAD_STATUS[h] (07 R296). -/
def viewHead (s : State) (h : Nat) : Nat :=
  let x := headOf s h
  x.line % 65536 + b2n (decide (x.enabled && vActive s h ≤ x.line)) * 2 ^ 16 + b2n x.pending.isSome * 2 ^ 17 + b2n x.enabled * 2 ^ 18 +
    x.frames % 2 ^ 32 * 2 ^ 32

/-- A device-wide register that reports live state, or the value it holds. -/
def viewDev (s : State) (k : Nat) : Nat :=
  if k = Reg.memModel then viewModel s
  else if k = Reg.errSpare then viewSpare s
  else if k = Reg.tensorBusy then viewBusy s
  else if k = Reg.serveStatus then viewServe s
  else if k = Reg.cadencePeriod then cadPeriod s % 2 ^ 24
  else if k = Reg.cadenceStatus then viewCadence s
  else match regIndex 0x110100 4 64 k, regIndex 0x140118 0x100 2 k, regIndex 0x150100 4 95 k, regIndex 0x150380 4 32 k with
    | some n, _, _, _ => viewLs s n
    | _, some h, _, _ => viewHead s h
    | _, _, some n, _ => viewClaim s n
    | _, _, _, some p => lockUsed s p
    | _, _, _, _ => (rd s k).toNat

/-- A register of the set-up page of partition `p`: the copy of its account, its fault queue, its heads, or the value held. -/
def viewPage (s : State) (p off : Nat) : Nat :=
  if off = Reg.schedSaveUsed then saveUsed s p
  else match regIndex 0x410 0x40 2 off, regIndex 0x740 4 16 off, regIndex 0x4000 4 4096 off with
    | some h, _, _ => viewHead s h
    | _, some i, _ => fieldAt (mgetD s.sched.acctCopy p []) (4 * i) 4
    | _, _, some j => fieldAt (mgetD (partOf s p).faultq (j / 16) []) (4 * (j % 16)) 4
    | _, _, _ => (rd s (pkey p off)).toNat

/-- What the register at a key reads as. -/
def viewReg (s : State) (k : Nat) : Word :=
  BitVec.ofNat 64 (if k < 67108864 then viewDev s k else viewPage s (k / 67108864 - 1) (k % 67108864))

end Sys2Proof.Machine
end

