-- ==== Sys2Proof/WellFormed.lean ====
section
/-! DEFINITION. Which terms of `Instr` name a command that the block can receive: register numbers, array indices, sizes and lengths
within what the spec gives (00 R10; 02, 04 R121; 13 R564; 14 R583, R586; 15 R627). -/
namespace Sys2Proof

/-- A BAR access that R10 of 00 serves: 4 or 8 bytes, or any of 1, 2, 4 and 8 in WB_MBOX (18 R711), aligned to its size. -/
def barServes (fn off bytes : Nat) : Bool :=
  (bytes == 4 || bytes == 8 || ((bytes == 1 || bytes == 2) && fn == 0 && decide (0x1E4000 ≤ off) && decide (off < 0x1E8000))) &&
    off % bytes == 0

/-- The bytes of a register access. -/
def BarSize.bytes (z : BarSize) : Nat :=
  match z with
  | .b1 => 1
  | .b2 => 2
  | .b4 => 4
  | .b8 => 8

/-- A register write that R10 of 00 serves, or a configuration field that its function has (10 R388). -/
def RegTarget.wf (t : RegTarget) : Bool :=
  match t with
  | .bar fn off size _ => barServes fn.toNat off.toNat size.bytes
  | .cfg fn field _ =>
    match field with
    | .vfEnable | .numVfs | .completionTimeout => fn == 0
    | .msixEnable | .functionMask | .relaxedOrdering => true

/-- A register number of a thread: 128 at most (04 R121, R122). -/
def regOk (r : Nat) : Bool :=
  decide (r < 128)

def Src.wf (x : Src) : Bool :=
  match x with
  | .reg r => regOk r
  | .lit v => decide (v < 2 ^ 64)

def MemPtr.wf (p : MemPtr) : Bool :=
  match p with
  | .va r => regOk (r + 1)
  | .buffer _ _ off => off.wf
  | .shared off => off.wf
  | .tile off => off.wf

/-- The registers that an access of a size fills. -/
def MemSize.words (z : MemSize) : Nat :=
  match z with
  | .b1 | .b2 | .b4 => 1
  | .b8 => 2
  | .b16 => 4

/-- An integer width of SPIR-V. -/
def widthOk (w : Nat) : Bool :=
  w == 8 || w == 16 || w == 32 || w == 64

def CvtFn.wf (f : CvtFn) : Bool :=
  match f with
  | .toInt _ w => widthOk w
  | .ofInt _ w => widthOk w
  | .float _ _ _ => true

def CoreOp.wf (o : CoreOp) : Bool :=
  match o with
  | .int _ w dst a b => widthOk w && regOk dst && a.wf && b.wf
  | .cmp _ w dst a b => widthOk w && regOk dst && a.wf && b.wf
  | .fp _ dst a b c => regOk dst && a.wf && b.wf && c.wf
  | .fcmp _ dst a b => regOk dst && a.wf && b.wf
  | .cvt f dst a => f.wf && regOk dst && a.wf
  | .select w dst c a b => widthOk w && regOk dst && c.wf && a.wf && b.wf
  | .other dst n uses => decide (dst + n ≤ 128) && uses.all regOk
  | .switch sel _ _ => sel.wf
  | .exit_ | .discard | .demote | .unreachable | .badFetch | .interlockEnd => true
  | .builtIn _ dst => regOk dst
  | .push _ n dst => decide (dst + n ≤ 128)
  | .output _ a => a.wf
  | .vertexIn _ dst => regOk dst
  | .stageIn _ inv dst => inv.wf && regOk dst
  | .varying dst n => decide (dst + n ≤ 128)
  | .attachment _ _ dst => regOk dst

/-- What eDP training reached: a rate code of 07 R288, and 1, 2 or 4 lanes. -/
def trainWf (t : Option (Nat × Nat)) : Bool :=
  match t with
  | none => true
  | some (r, l) => decide (r < 8) && (l == 1 || l == 2 || l == 4)

/-- A command that the block can receive. -/
def Instr.wf (i : Instr) : Bool :=
  match i with
  | .registerWrite t => t.wf
  | .unsupportedBarAccess fn off bytes _ => ! barServes fn.toNat off.toNat bytes
  | .logicalCoreAssignment back => back.all (fun n => decide (n < 64))
  | .vfFlr n => n != 0
  | .claimFillingEnd claim => decide (claim.toNat < 95)
  | .groupInstruction _ _ op => op.wf
  | .groupOperation _ _ _ _ dst a b => regOk dst && a.wf && b.wf
  | .load _ _ ptr size dst _ _ => ptr.wf && regOk (dst + (size.words - 1))
  | .store _ _ ptr size src => ptr.wf && regOk (src + (size.words - 1))
  | .atomic _ _ ptr _ wide dst val cmp => ptr.wf && regOk (dst + b2n wide) && regOk (val + b2n wide) && regOk (cmp + b2n wide)
  | .opReadClockKhr _ _ _ dst => regOk (dst + 1)
  | .imageSample _ _ _ _ _ dst => regOk (dst + 3)
  | .tensorIssue _ _ ptr dst => ptr.wf && regOk dst
  | .tensorWait _ _ ticket dst => ticket.wf && regOk dst
  | .tensorPoll _ _ ticket dst => ticket.wf && regOk dst
  | .tileHandoff _ _ ptr => ptr.wf
  | .cadenceRead _ _ dst => regOk (dst + 1)
  | .lineRead _ _ _ dst => regOk (dst + 1)
  | .markFeed _ _ ptr value _ => regOk (ptr + 1) && value.wf
  | .asyncCopy _ _ dst src bytes out => dst.wf && src.wf && bytes.wf && regOk out
  | .copyWait _ _ ticket => ticket.wf
  | .l1Prefetch _ _ ptr bytes => ptr.wf && bytes.wf
  | .sleep _ _ ns => ns.wf
  | .trap _ _ value => value.wf
  | .headEnable _ train => trainWf train
  | .hpdInterrupt _ train => trainWf train
  | .translationWalk cache _ => decide (cache.toNat ≤ 8)
  | .markRun _ unit _ => decide (unit.toNat < 24)
  | .markAttach unit _ => decide (unit.toNat < 24)
  | .markGrant unit _ => decide (unit.toNat < 24)
  | .flit _ bytes => bytes.length == 256
  | .symbolErrorWindow _ errs => errs.length == 9
  | .sampleRecord _ bytes _ => decide (bytes.length ≤ 56)
  | .sampleStall _ got => decide (got.length < 56)
  | .heartbeatMiss processor => decide (processor.toNat < 5)
  | .powerOn _ | .pwrgdDeassert | .railUndervoltage | .keyDerivation _ | .configurationRecordChoice _ _ | .stackTraining _ _
  | .memoryFill | .slotBootVerify | .gantryRelease | .ready | .perstAssert | .perstRelease | .configurationRecordAppend _
  | .hotReset | .linkDownReset | .pfFlr | .vfEnableClear | .msixUnmask _ _ | .pcieMsixAllocWrite _ _ | .completionTimeout _
  | .partCreate _ _ _ | .partDestroy _ | .setGrant _ _ | .ringCreate _ _ _ | .ringDestroy _ _ | .ringStop _ _
  | .ringResume _ _ | .ringQuery _ _ | .ringCmdReserved _ _ | .tailPoll _ _ | .tailReadReturn _ _ _ | .entryFetch _ _ _ _
  | .idleSequence _ _ | .idleTailReturn _ _ _ | .gantryWake _ _ | .payloadRead _ _ _ | .inFlightAdmission _ _
  | .entryRetirement _ | .nop _ _ | .dispatch _ _ | .tensor _ _ | .render _ _ | .copy _ _ | .zero _ _ | .preload _ _
  | .preloadLock _ _ | .unlock _ _ | .writeback _ _ | .scrub _ _ | .copyEngineBoundary _ _ | .copyPreemption _ _
  | .loadModule _ _ | .moduleLoadEnd _ _ _ _ | .unloadModule _ _ | .segUpdate _ _ | .call _ _ | .timestamp _ _
  | .rotation _ _ | .workgroupBarrier _ _ | .subgroupBarrier _ _ | .memoryBarrier _ _ _ _ _ | .asyncCopyComplete _ _ _
  | .yield _ _ | .sleepExpiry _ _ | .workgroupPlacement _ | .preemptionRequest _ _ _ | .coreSave _ _ _ | .resumption _
  | .replyDelivery _ _ _ _ _ | .kStep _ | .tensorCompletion _ | .tensorFault _ | .tensorPreemption _ _ | .tensorResume _
  | .drawRecordFetch _ | .batch _ _ _ | .primitive _ _ | .geomBinGrant _ _ | .binGrowthTimeout _ | .tileHandout _ _
  | .beginInvocationInterlock _ _ | .tileEnd _ _ _ | .tileBankRelease _ _ _ | .renderPassComplete _
  | .geometryPreemption _ _ | .tilePhasePreemption _ _ | .dressFlip _ _ _ | .latchLine _ | .frameStart _ | .doneRecord _
  | .layerFetch _ _ | .headDisable _ | .dsiCommand _ | .dsiPacketSend _ _ | .memXlateInval _ _ | .invalidationComplete _
  | .lineFill _ _ | .evictionWriteComplete _ _ | .fastPathRead _ _ | .slowPathDecode _ _ | .sectorWrite _ _ _
  | .patrolScrub _ | .readRaw _ | .writeRaw _ | .encode _ | .sramError _ _ _ | .thresholdWindow | .errFrameRetire _
  | .errCoreRetire _ | .frameRetirement | .retirementPageCopy | .spareAssignment _ | .promotionComplete _
  | .coreUnavailable _ | .objCreate _ _ _ | .addRef _ _ | .release _ _ | .signal _ _ | .objRead _ _ | .objQuery _ _
  | .arm _ _ | .kill _ _ | .ownerGone _ _ | .objCmdReserved _ _ | .killEngineStop _ _ | .killRetirement _ _
  | .killSummaryRecord _ _ | .contextWatchdog _ _ | .waitTimeout _ | .eventTimeout _ _ | .deadlockScan | .deadlockBreak
  | .faultqTail _ _ | .hang _ | .hangCapture _ | .slotEviction _ _ | .slotRotation _ _ | .placement _
  | .virtualTimeUpdate _ _ _ _ _ | .timeSlice _ | .cadenceInEdge _ _ | .pulse | .missingPulse | .phaseWrap | .gateOpen _
  | .deadlineMiss _ | .planLaunch _ _ | .planLoad _ _ _ | .planUnload _ _ | .nodeDispatch _ | .nodeCompletion _
  | .modelCreate _ _ | .modelLoad _ _ | .modelLoadEnd | .modelSwapTimeout | .modelDestroy _ _ | .serveStart _ _
  | .serveStop _ _ | .request _ _ | .cancel _ _ | .stepBoundary _ | .acctSel _ _ | .compress _ _ | .decompress _ _
  | .check _ _ | .crusherBlock _ _ _ | .crusherPreemption _ _ | .feed _ _ | .alive _ _ | .markEnd _ _ | .endNocheck _ _
  | .markRestart _ _ | .snoopedMessage _ | .markStall _ | .retryTimeout _ | .training _ | .prbs31Test _ _
  | .deviceIdExchange _ _ | .trainingDone _ _ | .trainingTimeout _ | .portDisable _ | .read _ | .readReply _ | .write _
  | .writeAck _ | .importMsg _ | .importReply _ | .releaseMessage _ | .haulReq _ | .haulBlock _ | .stalled _
  | .remoteTimeout _ | .burstStall _ _ | .linkImportDrop _ | .blRefclkLoss | .a2Request _ | .a3Request _ | .a4Request _
  | .pmeToAck _ | .handshakeTimeout | .targetStateEntry | .a1Entry | .a2Exit | .retainedDigestCheck _ | .a2RefillEnd
  | .a3Exit _ | .powerMean _ _ | .tclkThrottleStep | .tclkRaiseStep | .powerLimitAbort | .normalPlacementResume
  | .pwrCoolant _ | .coolantLoss | .coolantReportMissing | .coolantLossEnd | .thermalTrip | .sample _ | .weighbridgeWatchdog
  | .weighbridgeResetEnd _ | .classEvClear _ | .stage _ | .stageComplete _ _ | .activate | .standbySelfTest | .roleMove
  | .confirm | .selfConfirmation | .healthWindowExpiry | .restart | .fwCtlReserved | .fwHaulEnable _ | .haulRequestTimer
  | .getVersion _ | .getCapabilities _ | .negotiateAlgorithms _ | .getDigests _ | .getCertificate _ _ _ | .challenge _
  | .getMeasurements _ | .keyExchange _ | .finish _ _ | .endSession _ _ | .keyUpdate _ _ | .heartbeat _ _
  | .vendorDefinedRequest _ _ _ | .engineResetEnd _ | .deferredWakeRelease _ | .ideKm _ _ _ _ | .doeDiscovery _ => true

end Sys2Proof
end

