-- ==== Sys2Proof/Tests/Slice0.lean ====
section
/-! SUPPORT. Tests: for each statement, states that meet its hypotheses (`wit_<Statement>`); ill-formed terms that WellFormed refuses
(`test_wf_…`); and results that the spec works out (`test_…`). -/
open Sys2Proof Sys2Proof.Machine
namespace Sys2Proof.Tests

set_option Elab.async false

/-! Small states, built from the state after reset. -/

/-- A partition of generous quotas. -/
def tPart : Partition :=
  { created := true, destroying := false, ringQuota := 8, inflightQuota := 8, slotQuota := 8, segs := [], faultq := [], notify := true,
    filling := [] }

/-- A live context without segments. -/
def tCtx : Ctx :=
  { gen := 1, owner := 0, refs := { host := [(0, 1)], dev := 0 }, live := true, watchdogMs := 0, waitTimeoutMs := 0, sched := 0,
    segs := [], slot := none, slotSince := 0, cond := .idle, condSince := 0, idled := true, vtime := 0, runSince := none,
    wdRestart := none, wdHeld := 0, wdSince := none }

/-- Work of ring 0 of partition 0, in its context 0. -/
def tOrg : Origin :=
  { wid := 1, part := 0, ctx := 0, ring := 0, entry := 0 }

/-- A ring entry of a kind at a step, with a descriptor. -/
def tEntry (kind : Nat) (st : EStep) (desc : List Byte) : Entry :=
  { wid := 1, count := 0, inCall := none, bytes := padTo 64 [BitVec.ofNat 8 kind], addr := 0, step := st, since := 0, step2End := 0,
    desc := padTo 128 desc, waitRef := false, sigRef := false, ctxRef := false, counted := false, bufFetched := 0, bufCode := 0 }

/-- An active ring of 16 entries that holds these. -/
def tRing (l : List Entry) : Ring :=
  { state := .active, base := 0x100000, log2 := 4, inDevice := false, ctx := 0, vector := 0, doorbell := 0x200000, idleAfterUs := 10,
    fetched := l.length, retired := 0, lastTail := l.length, tailSince := 0, pollAt := 0, wake := false, poll := false,
    pollFresh := false, d2 := false, d2Fresh := false, errorWord := 0, entries := l, waitFor := none }

/-- The state after reset a second later, with a created partition 0, its context 0 and a ring 0. -/
def tWith (r : Ring) : State :=
  { State.reset with
    dtime := 1000000000
    host := { State.reset.host with parts := [(0, tPart)], ctxs := [(0, tCtx)], rings := [(0, r)] } }

/-- An entry of a kind stands ready at the head of ring 0. -/
def tReady (kind : Nat) (desc : List Byte) : State :=
  tWith (tRing [tEntry kind .ready desc])

/-- Start-up stands before step `n`. -/
def tBoot (n : Nat) : State :=
  { State.reset with sec := { State.reset.sec with step := n - 1 } }

/-- The state with registers written. -/
def tRegs (s : State) (l : List (Nat × Word)) : State :=
  l.foldl (fun s e => wr s e.1 e.2) s

/-- The next state of an outcome, if it is one. -/
def nextOf (o : Host.Outcome State Fault Refusal) : Option State :=
  match o with
  | .next t => some t
  | _ => none

/-- A claim segment of 2 GiB. -/
def tSeg : Seg :=
  { kind := .claim, base := 0, read := true, write := true, frames := 1024, target := 0, device := 0 }

/-- The state `tWith` with all cores live and a segment; the translation of its first frame is cached in bench 0 and the system
cache. -/
def tLive (r : Ring) : State :=
  let s := wr { tWith r with
    host := { (tWith r).host with ctxs := [(0, { tCtx with segs := [tSeg] })] } } Reg.cfgnetCoreLive 0xFFFFFFFFFFFFFFFF
  [0, 8].foldl (fun s c => xput s c { table := .ctx 0, vframe := 0, frame := 2 ^ 33, word := 0 }) s

/-- A group whose thread 0 can issue. -/
def tGroup : Group :=
  { gid := 5, idx := 0, path := 0, cur := { pc := 0, mask := 1, wait := .run }, others := [], count := 0, regs := [], seed := 0,
    reads := [], sleep := none, copyIssued := 0, copies := [], stopping := false }

/-- A workgroup of a stage with these groups and 1 KiB of shared memory. -/
def tWg (st : Stage) (l : List Group) : WG :=
  { wgid := 3, org := tOrg, job := 7, index := 0, stage := st, modKey := 0, entry := 0, regs := 16, sharedKib := 1, sharedAt := 0,
    groups := l, shared := [], seed := 0, issued := 0, ended := 0, placedAt := 0, saved := none }

/-- A module of one entry point. -/
def tMod (model : Nat) : Module :=
  { gen := 1, codeAddr := 0, codeBytes := 0, atomicMode := none, entries := [
    { model := model, regs := 16, threads := 32, shared := 0, outLocs := 0, interlock := 0, writesDepth := false, earlyTests := false,
      kills := false, sampleRate := false, patchVerts := 0, domain := 0, spacing := 0, ccw := false, pointMode := false,
      ftz := false }] }

/-- Workgroups and tiles on core 0. -/
def tCore (ws : List WG) (ts : List TileSt) : State :=
  { tLive (tRing []) with core := { resetCore with
      cores := [(0, { wgs := ws, tiles := ts, l1 := [], clockAt := 0, clockBase := 0 })], modules := [(0, tMod 5)] } }

/-- A tile of pass 7 on a core, with one bank. -/
def tTile : TileSt :=
  { pass := 7, tile := 0, bank := 0, banks := 1, tb := [], seed := 0, pos := 0, frags := [], handoffs := [], ended := false,
    stored := false, items := [], placedAt := 0, saved := none }

/-- A copy of 128 bytes on a copy engine. -/
def tCopy : CopyOp :=
  { org := tOrg, kind := .copy, src := 0, dst := 4096, bytes := 128, pos := 0, compl := 0, lines := 0, refused := 0,
    scrub := { pages := 0, corrected := 0, symbols := 0, uncorr := 0, lost := 0, maxSymbols := 0, retires := 0, firstUncorr := none },
    start := none, readyAt := 0, placedAt := 0, saved := none }

/-- A tensor work item, and a run of it on an array. -/
def tItem (runs : Nat) : TItem :=
  { org := tOrg, path := .gantry, desc := zeroBytes 128, descAddr := 0, spread := 0, runsLeft := runs,
    counts := { sat := 0, nanInt := 0, expandSat := 0, w2t := 0, flush := 0, nanBlock := 0, preempts := 0, tiles := 0 },
    partials := [], start := none, lastOut := 0, cores := [0], open_ := 0, fault := none, readyAt := 0 }

/-- A run of item 4. -/
def tRun : TRun :=
  { item := 4, first := 0, count := 1, set := 0, setLen := 1, tile := 0, k := 0, acc := [], placedAt := 0, saved := none }

/-! Every statement's hypotheses are met: one theorem for each statement that has some. -/

theorem wit_EmptyQueueIdles : State.reset.pending = [] := by decide +kernel

theorem wit_EveryStepKeepsSound :
    (mwfD State.reset.regs resetVal && mwfD State.reset.mem.dram (fun _ => 0)) = true ∧ State.reset.heads.length = 2 ∧
    State.reset.link.ports.length = 4 ∧ State.reset.sec.slots.length = 2 ∧ (nextOf (step State.reset)).isSome = true := by
  decide +kernel

theorem wit_StepsTakeQueueInOrder :
    (nextOf (step { State.reset with pending := [.thresholdWindow, .ready] })).map (fun t => t.pending) = some [.ready] := by
  decide +kernel

theorem wit_RecoveryIgnoresHostCommands :
    { State.reset with sec := { State.reset.sec with recovery := true } }.sec.recovery = true ∧ hostWritten (.portDisable 0) = true := by
  decide +kernel

theorem wit_BootStepsComplete :
    bootStep (tBoot 2) 2 = true ∧ bootStep (tBoot 3) 3 = true ∧ (recJudge (tBoot 3) 0 0).isLeft = true ∧
    (recJudge { tBoot 3 with sec := { (tBoot 3).sec with recs := [some { gen := 0, base := [], made := [], added := [] },
      some { gen := 1, base := [], made := [], added := [] }] } } 1 0).isLeft = true ∧
    bootStep (tBoot 4) 4 = true ∧ bootStep (tBoot 5) 5 = true ∧ (tBoot 5).sec.filled = false ∧ bootStep (tBoot 7) 7 = true ∧
    bootStep (tBoot 8) 8 = true ∧ (tBoot 5).sec.verified = false ∧ (tBoot 5).sec.trial = none := by
  decide +kernel

theorem wit_BootStepsComplete_image :
    { tBoot 5 with sec := { (tBoot 5).sec with slots := [⟨3, []⟩, ⟨0, []⟩] } }.sec.slots = [⟨3, []⟩, ⟨0, []⟩] ∧
    bootStep { tBoot 5 with sec := { (tBoot 5).sec with filled := true, verified := true, running := some 0 } } 5 = true ∧
    lmsLeft { tBoot 3 with sec := { (tBoot 3).sec with taken := some 0, repairs := [(1, 2)], ident := true } } ≠ 0 := by
  decide +kernel

theorem wit_PinCommandsComplete :
    { State.reset with sec := { State.reset.sec with pwrgd := false } }.sec.pwrgd = false ∧ State.reset.sec.pwrgd = true ∧
    State.reset.sec.perst = false ∧ pwrState State.reset < 2 ∧
    { State.reset with sec := { State.reset.sec with cause := .fundamental } }.sec.cause ≠ .powerOn ∧
    { State.reset with sec := { State.reset.sec with perst := true, held := true, factory := true } }.sec.held = true := by
  decide +kernel

theorem wit_FunctionResetsComplete : (3 : Part) ≠ 0 ∧ (partOf (hostTouch State.reset) 3).created = false := by decide +kernel

/-- MSI-X is enabled in function 0, and its entry 5 is masked and pending. -/
def tMsix (pend : Bool) : State :=
  { State.reset with host := { State.reset.host with
      pcie := { State.reset.host.pcie with msixEnable := 1 }, msix := [(5, { addr := 0, data := 0, masked := true, pend := pend })] } }

theorem wit_PcieCommandsComplete :
    (tMsix true).sec.recovery = false ∧ 5 < msixSize (hostTouch (tMsix true)) 0 ∧ (msixGet (hostTouch (tMsix true)) 0 5).pend = true ∧
    (hostTouch (tMsix true)).host.pcie.funcMask.getLsbD 0 = false ∧ (hostTouch (tMsix true)).host.pcie.msixEnable.getLsbD 0 = true ∧
    (msixGet (hostTouch (tMsix false)) 0 5).pend = false ∧ allocRefused (hostTouch State.reset) 0 1 = false ∧
    due (tWith { tRing [] with poll := true }) 0 (timeoutNs 0) = true ∧ accessOk 0 1 4 = false ∧ accessOk 0 0 16 = false := by
  decide +kernel

theorem wit_RegisterWritesComplete :
    accessOk 0 0x100000 4 = true ∧ inMbox 0 0x100000 = false ∧ barKey (hostTouch State.reset) 0 Reg.errCtl = some Reg.errCtl ∧
    (regAt Reg.errCtl).map (fun d => d.width) = some 32 ∧
    (regAt Reg.errCtl).map (fun d => voidWrite (hostTouch State.reset) Reg.errCtl d 7) = some false ∧
    accessOk 0 Reg.errThresh 8 = true ∧ (regAt Reg.errThresh).map (fun d => d.width) = some 64 ∧
    (regAt Reg.errThresh).map (fun d => voidWrite (hostTouch State.reset) Reg.errThresh d 0x3C010) = some true ∧
    (regAt Reg.errThresh).map (fun d => voidWrite (hostTouch State.reset) Reg.errThresh d 0x3C0104040) = some false ∧
    accessOk 0 2 4 = false := by
  decide +kernel

theorem wit_PartitionCommandsComplete :
    partTaken (hostTouch (tWith (tRing []))) = true ∧ (partOf (hostTouch (tWith (tRing []))) 0).created = true ∧
    (partOf (hostTouch (tWith (tRing []))) 0).destroying = false ∧ partTaken (hostTouch State.reset) = true ∧
    (createJudge (hostTouch State.reset) 0 (.fail .timeout) (.ok [])).1 ≠ 0 ∧
    (createJudge (hostTouch State.reset) 0 (.ok (padTo 576 (leBytes 8 0x0008000400040000))) (.ok [])).1 = 0 ∧
    { State.reset with mem := { State.reset.mem with fillQ := [7] } }.mem.fillQ = [7] := by
  decide +kernel

theorem wit_RingLifeCommandsComplete :
    ringCmdTaken (hostTouch (tWith (tRing []))) 0 = true ∧
    ringCreateResult (hostTouch (tWith (tRing []))) 0 1 (.ok (padTo 64 (leBytes 8 0x1001))) ≠ 0 ∧
    ringCreateResult (hostTouch (tWith (tRing []))) 0 1
      (.ok (padTo 64 (leBytes 8 0x1000 ++ leBytes 8 4 ++ leBytes 8 (mkHandle tyCtx 0 1) ++ leBytes 8 0x2000))) = 0 ∧
    (mget (hostTouch (tWith (tRing []))).host.rings (rkey 0 0)).isSome = true ∧ ctxLive (hostTouch (tWith (tRing []))) 0 = true ∧
    { tRing [] with state := .stopped }.state = .stopped := by
  decide +kernel

theorem wit_RingTailCommandsComplete :
    mayPoll (tWith (tRing [])) (tRing []) = true ∧ mayIdle (tWith (tRing [])) (tRing []) = true ∧
    { tRing [] with poll := true }.poll = true ∧ tailValid { tRing [] with poll := true } 16 = true ∧
    tailValid { tRing [] with d2 := true } 0 = true ∧ tailAhead { tRing [] with d2 := true } 0 = false ∧
    tWith (tRing []) = hostTouch (tWith (tRing [])) ∧ (partOf (tWith (tRing [])) 0).created = true := by
  decide +kernel

theorem wit_RingEntryCommandsComplete :
    fetchHalted (tWith { tRing [] with lastTail := 1 }) = false ∧ tailAhead { tRing [] with lastTail := 1 } 1 = true ∧
    lead { tRing [] with lastTail := 1 } < 17 ∧ (headEntry (tRing [tEntry 0 .payload []])).isSome = true ∧
    (headEntry (tRing [tEntry 0 .payload []])).map (fun e => mayAdvance (tRing [tEntry 0 .payload []]) e) = some true ∧
    (headEntry (tRing [tEntry 0 .room []])).map (fun e => hasRoom (tWith (tRing [e])) 0 && planRoom (tWith (tRing [e])) 0 e) = some true ∧
    ringOfWid (tWith (tRing [tEntry 0 .work []])) 1 = some 0 ∧ ringCmdTaken (hostTouch State.reset) 0 = true := by
  decide +kernel

theorem wit_PlainEntriesComplete :
    (readyEntry (tReady 0x00 []) 0 0 0x00).isSome = true ∧ (readyEntry (tReady 0x0D []) 0 0 0x0D).isSome = true ∧
    (readyEntry (tReady 0x09 []) 0 0 0x09).isSome = true ∧ (readyEntry (tReady 0x0E []) 0 0 0x0E).isSome = true := by
  decide +kernel

theorem wit_EngineEntriesComplete :
    (readyEntry (tReady 0x01 []) 0 0 0x01).isSome = true ∧ (readyEntry (tReady 0x02 []) 0 0 0x02).isSome = true ∧
    (readyEntry (tReady 0x07 []) 0 0 0x07).isSome = true ∧ (readyEntry (tReady 0x08 []) 0 0 0x08).isSome = true ∧
    (findModule { tReady 0x08 [] with core := { State.reset.core with
      modules := [(0, { gen := 0, codeAddr := 0, codeBytes := 0, entries := [], atomicMode := none })] } } 0 0).isSome = true ∧
    (readyEntry (tReady 0x04 []) 0 0 0x04).isSome = true ∧ (readyEntry (tReady 0x06 []) 0 0 0x06).isSome = true := by
  decide +kernel

theorem wit_CacheEntriesComplete :
    (readyEntry (tReady 0x05 [1]) 0 0 0x05).map (fun e => fAt e.2.desc 0 3 0) = some 1 ∧
    (readyEntry (tReady 0x05 [2]) 0 0 0x05).map (fun e => fAt e.2.desc 0 3 0) = some 2 ∧
    (readyEntry (tReady 0x05 [3]) 0 0 0x05).map (fun e => fAt e.2.desc 0 3 0) = some 3 ∧
    (readyEntry (tReady 0x05 [4]) 0 0 0x05).map (fun e => fAt e.2.desc 0 3 0) = some 4 ∧
    (readyEntry (tReady 0x05 [5]) 0 0 0x05).map (fun e => fAt e.2.desc 0 3 0) = some 5 := by
  decide +kernel

theorem wit_EngineStepsComplete_copy :
    copyNext { tLive (tRing []) with sched := { resetSched with copies := [(0, [tCopy])] } } 0 = some tCopy ∧
    ((copiesOf { tLive (tRing []) with sched := { resetSched with copies := [(0, [tCopy])], stopOps := [(Engine.copy 0, 1)] } } 0).find?
      (fun q => q.org.wid = 1)) = some tCopy ∧
    mgetD { tLive (tRing []) with core := { resetCore with loads := [(0, [⟨tOrg, [], 0⟩])] } }.core.loads 0 [] = [⟨tOrg, [], 0⟩] := by
  decide +kernel

/-- Item 4 at the head of core 0's array. -/
def tTensor : State :=
  { tLive (tRing []) with core := { resetCore with items := [(4, tItem 1)], queues := [(0, [tRun])] } }

/-- The same, a GEMM of one element whose operands lie outside every segment. -/
def tLost : State :=
  { tTensor with
    host := { tTensor.host with ctxs := [(0, tCtx)] }
    core := { tTensor.core with
      items := [(4, { tItem 1 with desc := padTo 128 (leBytes 8 1 ++ leBytes 8 0x100000001 ++ leBytes 8 1) })] } }

theorem wit_EngineStepsComplete_tensor :
    coreLive tTensor 0 = true ∧ headLive tTensor 0 = true ∧ queueOf tTensor 0 = [tRun] ∧ headLive tLost 0 = true ∧ (arrayFault tLost 0 4).isSome ∧
    (itemOf ((faultingArrays tLost 4).foldl (fun s n => arrayRecord s n 4) tLost) 4).isSome ∧
    itemFirst { tTensor with core := { tTensor.core with items := [(4, tItem 0)] } } 4 (tItem 0) = true ∧
    arrayAsked { tTensor with sched := { resetSched with stopOps := [(Engine.tensor 0, 4)] } } 0 4 (tItem 1) = true := by
  decide +kernel

theorem wit_GroupInstructionsComplete :
    (readyGroup (tCore [tWg .compute [tGroup]] []) 0 5 (opUses (.int .add 32 1 (.reg 2) (.lit 3)))).isSome := by
  decide +kernel

theorem wit_CoreAccessesComplete_shared :
    (readyGroup (tCore [tWg .compute [tGroup]] []) 0 5 (ptrUses (.shared (.lit 8)) ++ [1])).isSome ∧
    (ptrBase (tCore [tWg .compute [tGroup]] []) 0 (tWg .compute [tGroup]) 5 (.shared (.lit 8))).2 = .inr (0, 0) ∧
    accessFaults (tCore [tWg .compute [tGroup]] []) 0 (tWg .compute [tGroup]) .read 4 (targetsOf tGroup 4 (.shared (.lit 8)) (0, 0)) = [] ∧
    walkersFree (tCore [tWg .compute [tGroup]] []) 0 (tWg .compute [tGroup]) (targetsOf tGroup 4 (.shared (.lit 8)) (0, 0)) = true ∧
    accessFaults (tCore [tWg .compute [tGroup]] []) 0 (tWg .compute [tGroup]) .read 4 (targetsOf (regWrN tGroup 0 2 2 64) 4 (.va 2) (0, 0)) = [] ∧
    walkersFree (tCore [tWg .compute [tGroup]] []) 0 (tWg .compute [tGroup]) (targetsOf (regWrN tGroup 0 2 2 64) 4 (.va 2) (0, 0)) = true ∧
    (prepare (tCore [tWg .compute [tGroup]] []) 0 (tWg .compute [tGroup]) .write 4 (targetsOf tGroup 4 (.shared (.lit 8)) (0, 0))).2.1 = [] ∧
    (prepare (tCore [tWg .compute [tGroup]] []) 0 (tWg .compute [tGroup]) .atomic 4 (targetsOf tGroup 4 (.shared (.lit 8)) (0, 0))).2.1 = [] := by
  decide +kernel

/-- A read of the host by thread 0 is outstanding. -/
def tHostRead : Group :=
  { tGroup with reads := [{ tag := 2, thread := 0, dest := 1, size := 4, va := 0, host := true, peer := false, got := none }] }

theorem wit_CoreAccessesComplete_replies :
    (hostPend (tCore [tWg .compute [tHostRead]] []) 5 2 0).isSome ∧
    (walksOf { State.reset with mem := { resetMem with walks := [(0, [⟨.ctx 0, 1, []⟩])] } } 0)[0]? = some ⟨.ctx 0, 1, []⟩ ∧
    (missOf { State.reset with mem := { resetMem with miss := [(0, [⟨9, [false, false], []⟩])] } } 0).find? (fun m => m.line = 9) =
      some ⟨9, [false, false], []⟩ ∧ fillReady State.reset ⟨9, [false, false], []⟩ = true := by
  decide +kernel

/-- Two sets of threads of a group on a fragment tile. -/
def tFragGroup : Group :=
  { tGroup with cur := { pc := 0, mask := 3, wait := .run } }

/-- The fragment of a thread, in an order. -/
def tFrag (order thread : Nat) : Frag :=
  { order := order, draw := 0, x := 0, y := 0, cover := 1, depth := [], gid := 5, thread := thread, helper := false, killed := false,
    step := .running, outs := [] }

theorem wit_GroupSynchronisationCompletes :
    (readyGroup (tCore [tWg .compute [tGroup]] []) 0 5 []).isSome ∧ awaitsAck (tCore [tWg .compute [tGroup]] []) 0 5 = false ∧
    (readyGroup (tCore [tWg .compute [tGroup]] []) 0 5 [3, 4]).isSome ∧ (joinSubgroup tGroup).isSome ∧
    (tileOfWG (tCore [tWg .fragment [tFragGroup]] [tTile]) 0 (tWg .fragment [tFragGroup])).isSome ∧
    (entryOf (tCore [tWg .fragment [tFragGroup]] [tTile]) 0 0).isSome ∧ mayEnter tTile 1 5 0 = true ∧
    (threadsOf 3).filter (mayEnter { tTile with frags := [tFrag 0 0, tFrag 1 1] } 1 5) = [0] ∧
    (threadsOf 2).filter (mayEnter { tTile with frags := [tFrag 0 0, tFrag 1 1] } 1 5) = [] ∧
    rotateLimit (tCore [tWg .compute [{ tGroup with count := 9999 }]] []) ≤ 9999 ∧
    (findGroup (tCore [tWg .compute [{ tGroup with count := 9999 }]] []) 0 5).isSome := by
  decide +kernel

/-- A job of compute workgroups of the partition's module; some are saved. -/
def tJob (saved : List WG) : Job :=
  { org := tOrg, stage := .compute, modKey := 0, entry := 0, cores := 64, bench := none, total := 4, next := 0, done := 0,
    dims := (4, 1), threads := 32, bind := 0, push := 0, compat := false, draw := 0, saved := saved, readyAt := 0, start := none,
    used := [], outs := [] }

/-- The state after reset with that job, its context in a slot. -/
def tJobs (saved : List WG) : State :=
  { tLive (tRing []) with
    core := { resetCore with jobs := [(7, tJob saved)], modules := [(0, tMod 5)] }
    host := { (tLive (tRing [])).host with ctxs := [(0, { tCtx with slot := some 0 })] }
    regs := mset (tLive (tRing [])).regs (pkey 0 Reg.schedSave) 64 }

theorem wit_CorePlacementCompletes :
    (bestCoreWork (tJobs []) 0).map isOld = some false ∧
    (bestCoreWork (tJobs [{ tWg .compute [tGroup] with saved := some (0, 0) }]) 0).map isOld = some true ∧
    stopsOn { tCore [] [] with sched := { resetSched with stopCtx := [(Engine.core 0, 0)] } } 0 0 = true ∧
    savedAlone (tCore [tWg .compute [{ tGroup with stopping := true }]] []) 0 0 = [tWg .compute [{ tGroup with stopping := true }]] ∧
    drained { tGroup with stopping := true } = true := by
  decide +kernel

theorem wit_XmtCoreInstructionsComplete :
    (readyGroup (tCore [tWg .compute [tGroup]] []) 0 5 (1 :: ptrUses (.shared (.lit 0)))).isSome ∧
    tensorStage (tWg .compute [tGroup]) = true ∧ arrayFull (tCore [tWg .compute [tGroup]] []) 0 = false ∧
    (ptrBase (tCore [tWg .compute [tGroup]] []) 0 (tWg .compute [tGroup]) 5 (.shared (.lit 0))).2 = .inr (0, 0) ∧
    descFaults (tCore [tWg .compute [tGroup]] []) 0 (tWg .compute [tGroup]) (targetsOf tGroup 128 (.shared (.lit 0)) (0, 0)) = [] ∧
    latest ([4].filter (fun t => ! ticketDone { tWg .compute [tGroup] with issued := 4 } t)) = some 4 ∧
    latest ([4].filter (fun t => ! ticketDone { tWg .compute [tGroup] with issued := 4, ended := 4 } t)) = none ∧
    ticketVoid 4 4 = false ∧
    (readyGroup (tCore [tWg .fragment [tGroup]] [tTile]) 0 5 [2, 3]).isSome ∧
    (tileOfWG (tCore [tWg .fragment [tGroup]] [tTile]) 0 (tWg .fragment [tGroup])).map (fun t => t.banks) = some 1 ∧
    addHandoffs [] [64] = .inl [64] ∧
    (findGroup (tCore [tWg .compute [{ tGroup with sleep := some (0, 5) }]] []) 0 5).isSome := by
  decide +kernel

/-- The state `tCore` with bytes written at an address of its segment. -/
def tBytes (s : State) (a : Nat) (b : List Byte) : State :=
  (engineWrite s 8 (.ctx 0) .write a b).1

/-- A 2D image of 8-bit elements in the image table, at set 0, binding 1. -/
def tImage : State :=
  tBytes (tCore [tWg .compute [tGroup]] []) 32 (leBytes 8 (2 ^ 48 + 2 ^ 56) ++ zeroBytes 24)

/-- Mark unit 0 is fed by partition 0 through the page that its context sees at 0x200000. -/
def tFeed : State :=
  let s := wr (tCore [tWg .compute [tGroup]] []) (Reg.markGrant 0) (32 + 2 ^ 30)
  xput s 0 { table := .ctx 0, vframe := 1, frame := 2 ^ 36, word := 0 }

theorem wit_XmtCopiesAndImagesComplete_copies :
    (asyncFaults (tCore [tWg .compute [tGroup]] []) 0 (tWg .compute [tGroup]) (regWrN tGroup 0 2 2 64) (.lit 0) (.lit 16)
      (copyTargets (regWrN tGroup 0 2 2 64) (.va 2) (.lit 16) (0, 0))).2 = [] ∧
    copyBytes (tCore [tWg .compute [tGroup]] []) 0 + 16 ≤ 65536 ∧
    (findGroup (tCore [tWg .compute [{ tGroup with copies := [⟨1, 0, 0, 64, 16⟩] }]] []) 0 5).map
      (fun x => x.2.copies.find? (fun c => c.ticket = 1)) = some (some ⟨1, 0, 0, 64, 16⟩) ∧
    ctxLive (tCore [] []) 0 = true ∧ latest [1] = some 1 ∧
    copiesDone { tGroup with copyIssued := 1, copies := [⟨1, 0, 0, 64, 16⟩] } 1 = false ∧
    (match (ptrBase tImage 0 (tWg .compute [tGroup]) 5 (.buffer 0 1 (.lit 0))).2 with | .inr _ => true | .inl _ => false) = true ∧
    (match (coreRead tImage 0 (tWg .compute [tGroup]) (bindEntry tImage 0 (tWg .compute [tGroup]) 5 0 1) 32).2 with
      | .inr e => ! imageBad e false | .inl _ => false) = true ∧
    (feedTargets tFeed 0 (tWg .compute [tGroup]) (regWrN tGroup 0 2 2 0x200000) 2).2 = ([], [(0, 0, .feed)]) := by
  decide +kernel

/-- A pass of one 32 by 32 tile with one bank, no planes and no draws, in a phase. -/
def tPass (st : PassStep) : RPass :=
  { org := { tOrg with wid := 7 }, desc := padTo 128 (leBytes 8 (32 + 32 * 2 ^ 16 + 2 ^ 33)), planes := [], draws := [], step := st, nextBatch := 0,
    at_ := (0, 0, 0), units := [], savedUnits := [], prims := [], used := 0, commit := 0, lists := [], stalls := [], nextTile := 0,
    savedTiles := [], finished := 0, stored := 0, binned := 0, culled := 0, growths := 0, preempts := 0, decodeErrs := 0, start := none,
    binnedAt := 0, readyAt := 0, cores := [] }

/-- Pass 7 with a context in a slot and room to save. -/
def tRaster (q : RPass) : State :=
  let s := tCore [] []
  { s with raster := { resetRaster with passes := [(7, q)] }, regs := mset s.regs (pkey 0 Reg.schedSave) 64,
           host := { s.host with ctxs := [(0, { tCtx with segs := [tSeg], slot := some 0 })] } }

/-- A batch in its set-up. -/
def tBatch : Batch :=
  { index := 0, prims := [], verts := [], step := .setup, job := 0, outs := [], points := [], gen := [], pos := 0, made := 0, paged := true }

/-- A draw record of vertices by module handle 0 of partition 0, with patches of one vertex. -/
def tDraw : List Byte :=
  padTo 128 (leBytes 8 (2 ^ 17 + 2 ^ 32 * 0 + 2 ^ 40 * 0xFF + 2 ^ 48 * 0xFF + 2 ^ 56 * 1) ++ leBytes 8 0x10)

/-- A pass whose one draw record stands at 0x1000. -/
def tDraws : State :=
  let q := { tPass .geometry with desc := padTo 128 (leBytes 8 (32 + 32 * 2 ^ 16 + 2 ^ 33) ++ zeroBytes 16 ++ leBytes 8 0x1000 ++ leBytes 8 1) }
  let s := tBytes (tRaster q) 0x1000 tDraw
  { s with core := { s.core with modules := [(0, { tMod 0 with entries := (tMod 0).entries ++ (tMod 4).entries })] } }

theorem wit_GeometryCommandsComplete_draws :
    (passOf tDraws 7).map (fun q => (q.step, ctxLive tDraws q.org.ctx, decide (q.draws.length < pDrawCount q.desc))) =
      some (.geometry, true, true) ∧
    (match (engineRead tDraws 8 (.ctx 0) .read 0x1000 128 (.fail .unsupported)).2 with
      | .inr d => d == tDraw && (drawFault (engineRead tDraws 8 (.ctx 0) .read 0x1000 128 (.fail .unsupported)).1 0 d).isNone
      | .inl _ => false) = true := by
  decide +kernel

theorem wit_GeometryCommandsComplete :
    (readyEntry (tReady 0x03 []) 0 0 0x03).isSome = true ∧ unitSaved (tPass .geometry) 0 = false ∧
    engineUp (tRaster (tPass .geometry)) (Engine.geom 0) = true ∧ jobsOver (batchJobs (tRaster (tPass .geometry)) (tPass .geometry) 0) = true ∧
    (mget { tPass .geometry with units := [(0, tBatch)] }.units 0).map (fun b => (b.gen[b.pos]?).isNone) = some true ∧
    (mget { tPass .geometry with units := [(0, { tBatch with gen := [(0, [0, 1, 2])] })] }.units 0).map (fun b => (b.gen[b.pos]?).isSome) = some true ∧
    (pendingPass { tRaster (tPass .geometry) with raster := { passes := [(7, tPass .geometry)], growth := [(0, [7])], postedAt := [] } } 0).isSome ∧
    pBinMax (padTo 128 (leBytes 8 0 ++ leBytes 8 0 ++ leBytes 8 (0x10000 * 2 ^ 32))) = 0x10000 ∧
    due (tRaster (tPass .geometry)) 0 (rdF (tRaster (tPass .geometry)) Reg.geomCfg 9 0 * 1000000) = true ∧
    unitAsked { tRaster (tPass .geometry) with sched := { resetSched with stopOps := [(Engine.geom 0, 7)] } } 0 7 (tPass .geometry) = true := by
  decide +kernel

theorem wit_TileCommandsComplete_handout :
    (passOf (closeGeometry (tRaster (tPass .tiles)) 7) 7).isSome ∧ passTiles (tPass .tiles).desc = 1 ∧
    (passCores (tRaster (tPass .tiles)) (tPass .tiles)).contains 0 = true ∧ tileSlot (tRaster (tPass .tiles)) 0 (tPass .tiles) = true ∧
    mayPlace (tRaster (tPass .tiles)) 0 (tileKib (tPass .tiles).desc) = true ∧ engineUp (tRaster (tPass .tiles)) (Engine.core 0) = true ∧
    tilePlace (tRaster (tPass .tiles)) 0 (tPass .tiles) = some 0 ∧
    (match (startTile (tRaster (tPass .tiles)) 0 (tPass .tiles) 0).2 with | .inr _ => true | .inl _ => false) = true ∧
    (passOf (draw (takeBanks (startTile (tRaster (tPass .tiles)) 0 (tPass .tiles) 0).1 0 0 32)).2 7).isSome := by
  decide +kernel

/-- Pass 7 in its tile phase, its tile on core 0. -/
def tTiled (q : RPass) (t : TileSt) : State :=
  let s := tRaster q
  { s with core := { s.core with cores := [(0, { wgs := [], tiles := [t], l1 := [], clockAt := 0, clockBase := 0 })] } }

theorem wit_TileCommandsComplete_end :
    (tileOn (tTiled (tPass .tiles) tTile) 0 7 0).isSome ∧ tileQuads (tTiled (tPass .tiles) tTile) (tPass .tiles) 0 = [] ∧
    tileBusy (tTiled (tPass .tiles) tTile) 0 tTile = false ∧ ctxLive (tTiled (tPass .tiles) tTile) 0 = true ∧
    ctxLive (issueTile (setTile (tTiled (tPass .tiles) tTile) 0 { tTile with ended := true }) 0 (tPass .tiles) tTile) 0 = true ∧
    (storePlanes (issueTile (setTile (tTiled (tPass .tiles) tTile) 0 { tTile with ended := true }) 0 (tPass .tiles) tTile) 0
      (tPass .tiles) tTile).2.isNone ∧
    (passOf (bump64 (setTile (tTiled (tPass .tiles) tTile) 0 tTile) Reg.rasterTileCount Reg.rasterStatus 0 1) 7).isSome ∧
    tileRead (tTiled (tPass .tiles) { tTile with stored := true }) { tTile with stored := true } = false ∧
    itemsOpen (tRaster { tPass .tiles with finished := 1 }) 7 = false ∧
    (writeResult (tRaster { tPass .tiles with finished := 1 }) { tPass .tiles with finished := 1 } Cond.ok).2.isNone ∧
    tileAsked { tTiled (tPass .tiles) tTile with sched := { resetSched with stopOps := [(Engine.core 0, 7)] } } 0 7 (tPass .tiles) = true := by
  decide +kernel

/-- Head 0 runs 640 by 480 from line `n`. -/
def tHead (f : HeadSt → HeadSt) : State :=
  { tRegs State.reset [(Reg.dressHeadVtiming 0, BitVec.ofNat 64 (480 + 10 * 2 ^ 16 + 2 * 2 ^ 32 + 33 * 2 ^ 48)),
      (Reg.dressHeadHtiming 0, BitVec.ofNat 64 (640 + 16 * 2 ^ 16 + 96 * 2 ^ 32 + 48 * 2 ^ 48)), (Reg.dressHeadPclk 0, 25175)] with
    heads := [f { noHead with enabled := true }, noHead], dtime := 1000000000 }

theorem wit_TileCommandsComplete_line :
    (headOf (tHead id) 0).enabled = true ∧ (headOf (tHead id) 0).fetchLine < vActive (tHead id) 0 := by decide +kernel

theorem wit_DisplayCommandsComplete :
    rdF (hostTouch (tHead id)) (Reg.dressHeadCtl 0) 0 0 = 0 ∧ enableRefused (hostTouch (tHead id)) 0 none = false ∧
    headOwner (hostTouch (tHead id)) 0 = 0 ∧ headOwner (hostTouch (tHead id)) 0 ≠ 1 ∧
    vActive (tHead id) 0 ≤ { noHead with line := 479 }.line + { noHead with line := 479 }.lead ∧
    vTotal (tHead id) 0 ≤ { noHead with line := 524 }.line + 1 ∧ lineClocks (tHead id) 0 ≤ 800000000 ∧
    (headOf (tHead (fun x => { x with doneDue := true })) 0).doneDue = true ∧
    rdF (wr (tHead id) (Reg.dressDsiCmd 0) 0x80000000) (Reg.dressDsiCmd 0) 31 31 = 1 ∧
    headOutput (wr (tHead id) (Reg.dressHeadCtl 0) 2) 0 = 1 ∧ headOutput (wr (tHead id) (Reg.dressHeadCtl 0) 4) 0 = 2 := by
  decide +kernel

/-- A sector of memory is waited for in its slice; page `pg`'s sector 0. -/
def tWanted (pg : Nat) : State :=
  { State.reset with mem := { resetMem with miss := [(homeSlice (pg * 2048), [⟨pg * 16, [true, false], []⟩])] } }

/-- A dirty line in an eviction buffer. -/
def tEvict (d : List Bool) (i : Bool) : EvEntry :=
  { line := { addr := 5, valid := [true, true], dirty := d, bytes := zeroBytes 128, lock := none }, issued := i }

theorem wit_MemoryStepsComplete :
    wanted (tWanted 3) 96 = true ∧ decoding (tWanted 3) 96 = false ∧ sectorMatches (applyUpset (tWanted 3) 3 []) (96 * 64) = true ∧
    sectorMatches (applyUpset (tWanted 3) (physPage (tWanted 3) 3) [(0, 1)]) (96 * 64) = false ∧
    ({ State.reset with mem := { resetMem with slowQ := [⟨3, [0]⟩] } }.mem.slowQ.find? (fun (q : SlowReq) => q.page = 3)) = some ⟨3, [0]⟩ ∧
    (evOf { State.reset with mem := { resetMem with evb := [(1, [tEvict [true, false] false])] } } 1)[0]? =
      some (tEvict [true, false] false) ∧
    (∀ d ∈ (tEvict [false, false] true).line.dirty, d = false) := by
  decide +kernel

theorem wit_MemoryUpkeepCompletes :
    mgetD { State.reset with mem := { resetMem with inval := [(0, [⟨0, 1⟩])] } }.mem.inval 0 [] ≠ [] ∧
    oldAccess { State.reset with mem := { resetMem with inval := [(0, [⟨0, 1⟩])] } } 0 = false ∧
    rdF State.reset Reg.errCfg 7 0 ≠ 0 ∧ State.reset.mem.patrolTime = 0 ∧ patrolTarget State.reset 0 = some 0 ∧
    patrolTarget State.reset (48900 * 1024) = none ∧
    testAllowed (wr { State.reset with mem := { resetMem with claims := [(0, ⟨0, .priv, 0, 0⟩)] } } Reg.errCfg 0x200) = true ∧
    bitN 0x11 4 = true ∧ bitsN 0x11 1 0 = 1 ∧ bitsN 0x12 1 0 = 2 ∧ bitsN 0x13 1 0 = 3 ∧
    due { State.reset with dtime := 10 ^ 15 } 0 (rdF State.reset Reg.errThresh 39 28 * 60000000000) = true ∧
    { State.reset with mem := { resetMem with retireQ := [⟨3, 1, none, 0⟩] } }.mem.retireQ = [⟨3, 1, none, 0⟩] ∧
    ({ frame := 3, reason := 1, toFrame := some 48900, page := 1023 } : Retire).toFrame = some 48900 := by
  decide +kernel

/-- Core 3 drains to be retired. -/
def tDrain (assigned : Bool) (spares : Map Nat) : State :=
  { State.reset with site := { resetSites with sites := [(3, 3)], spares := spares, drains := [⟨3, 1, 3, assigned⟩] } }

theorem wit_SpareCommandsComplete :
    (drainOf (tDrain false [(0, 8)]) 3).map (fun d => d.assigned) = some false ∧ mget (tDrain false [(0, 8)]).site.spares 0 = some 8 ∧
    coreEmpty (tDrain false [(0, 8)]) 3 = true ∧ (drainOf (tDrain true []) 3).map (fun d => d.assigned) = some true ∧
    (mget (tDrain false []).site.spares 0).isNone := by
  decide +kernel

/-- A fence of partition 0 and an event of it, with a live context; OBJ_HANDLE names an object of a type. -/
def tObj (ty : Nat) : State :=
  let s := tWith (tRing [])
  let refs : Refs := { host := [(1, 1)], dev := 0 }
  wr { s with host := { s.host with
    fences := [(0, ⟨1, 0, refs, 0, none, true, false, 0, false⟩)],
    events := [(0, ⟨1, 0, refs, mkHandle tyFence 0 1, 5, 0, 0, false, 3, true, 0, 0⟩)] } }
    (pkey 0 Reg.objHandle) (BitVec.ofNat 64 (mkHandle ty 0 1))

theorem wit_ObjectCommandsComplete :
    objTaken (hostTouch (tObj 2)) 0 = true ∧ objOpen (hostTouch (tObj 2)) 0 = true ∧
    createResult (hostTouch (tObj 2)) 0 (padTo 64 [2]) = ObjRes.ok ∧ createResult (hostTouch (tObj 2)) 0 (padTo 64 []) ≠ ObjRes.ok ∧
    (refsOf (hostTouch (tObj 2)) 0 (objHandle (hostTouch (tObj 2)) 0)).map (fun r => (decide (r.host.length < 8),
      decide (hostRefs r < 2 ^ 32 - 1), (mget r.host 1).isSome, (mget r.host 2).isNone)) = some (true, true, true, true) ∧
    (refsOf (hostTouch State.reset) 0 (objHandle (hostTouch State.reset) 0)).isNone ∧
    (hostFence (hostTouch (tObj 2)) 0).map (fun f => f.hostSignal) = some true ∧ (queryOut (hostTouch (tObj 2)) 0).isSome ∧
    (hostEvent (hostTouch (tObj 3)) 0).isSome ∧ killResult (hostTouch (tObj 1)) 0 = ObjRes.ok := by
  decide +kernel

/-- Entries of ring 0 that wait for a fence that no one signals. -/
def tWaits : State :=
  let s := tObj 2
  let e := { tEntry 0 .wait [] with bytes := padTo 64 (zeroBytes 24 ++ leBytes 8 (mkHandle tyFence 0 1) ++ leBytes 8 7) }
  let f : Fence := ⟨1, 0, { host := [(1, 1)], dev := 0 }, 0, none, false, false, 0, false⟩
  let c := { tCtx with waitTimeoutMs := 3, cond := .blocked }
  { s with host := { s.host with rings := [(0, tRing [e])], ctxs := [(0, c)], scanSet := [1], fences := [(0, f)] } }

/-- A capture of partition 0. -/
def tCapture : Capture :=
  { part := 0, record := ⟨1, 0, 0, 0, 0, 0, 0, 0, 0, []⟩, rest := [] }

theorem wit_WaitCommandsComplete :
    (mget (tObj 3).host.events 0).map (fun e => (e.armed, due (tObj 3) e.armedAt (e.timeoutMs * 1000000))) = some (true, true) ∧
    ((entryWaits tWaits ++ nodeWaits tWaits).find? (fun w => w.wid = 1)).map (fun w => due tWaits (waitSince tWaits w) 3000000) = some true ∧
    tWaits.host.scanAt / 1000000 < tWaits.dtime / 1000000 ∧
    ((blockedWaits tWaits).filter (fun w => tWaits.host.scanSet.any (· == w.wid))).length = tWaits.host.scanSet.length ∧
    cdiff 4 (rdF (wr State.reset (pkey 0 Reg.faultqHead) 5) (pkey 0 Reg.faultqTail) 31 0) ≤ cdiff 5 0 ∧
    mget { State.reset with host := { State.reset.host with captures := [(0, tCapture), (fatalKey, tCapture)] } }.host.captures fatalKey =
      some tCapture := by
  decide +kernel

/-- A kill of context 0 under way. -/
def tKill (stopped retired : Bool) : State :=
  let s := tWith (tRing [])
  { s with host := { s.host with kills := [(0, ⟨0, 1, none, 0, [], stopped, retired, none, 0, 0⟩)] } }

theorem wit_KillCommandsComplete :
    (mget (tKill false false).host.kills 0).map (fun q => q.stopped) = some false ∧
    (mget (tKill true false).host.kills 0).map (fun q => (q.stopped, q.retiredAll)) = some (true, false) ∧
    (mget (tKill true true).host.kills 0).map (fun q => q.retiredAll) = some true ∧
    watchdogMs (tWith (tRing [])) { tCtx with watchdogMs := 1, wdSince := some 0 } * 1000000 ≤
      watchdogNow (tWith (tRing [])) { tCtx with watchdogMs := 1, wdSince := some 0 } ∧
    (hangRequest { tKill false false with sched := { resetSched with copies := [(0, [tCopy])] } } (Engine.copy 0)).isSome := by
  decide +kernel

/-- Two more contexts, the first in a slot for 0.9 s: context 1 waits for a slot, and a quota of one slot. -/
def tSlots (cond : CtxCond) : State :=
  let s := tLive (tRing [])
  { s with host := { s.host with
      parts := [(0, { tPart with slotQuota := 1 })]
      ctxs := [(0, { tCtx with slot := some 0, cond := cond, runSince := some 0 }), (1, { tCtx with cond := .runnable })] } }

theorem wit_SchedulingCommandsComplete_slots :
    wantsSlot (tSlots .idle) 1 = true ∧ holdsSlot (takeSlot (tSlots .idle) 1) 1 = false ∧ (easyVictim (tSlots .idle) 1).isSome ∧
    (easyVictim (tSlots .runnable) 1).isNone ∧ (rotateVictim (tSlots .runnable) 1 { tCtx with cond := .runnable }).isSome ∧
    (let s := tSlots .idle
     let u := { s with host := { s.host with parts := [(0, tPart)] } }
     wantsSlot u 1 && holdsSlot (takeSlot u 1) 1) = true ∧ noServe.step.isNone := by
  decide +kernel

/-- Copies of context 0 fill the copy engines, and one of context 1, which may be placed, waits. -/
def tSliced : State :=
  let s := tSlots .runnable
  let op := fun (c : Nat) => { tCopy with org := { tOrg with ctx := c } }
  { s with
    host := { s.host with ctxs := [(0, { tCtx with slot := some 0, runSince := some 0 }), (1, { tCtx with slot := some 1 })] }
    regs := mset s.regs (pkey 0 Reg.schedSave) 64
    sched := { resetSched with copies := (List.range 4).map (fun i => (i, List.replicate 16 (op 0))), copyWait := [op 1] } }

theorem wit_SchedulingCommandsComplete_slices :
    (bestIdx (victimRank tSliced) (sliced tSliced (Engine.copy 0))).map (fun i => ((sliced tSliced (Engine.copy 0))[i]?).map (fun v => v.ctx)) =
      some (some 0) := by
  decide +kernel

/-- The cadence unit of the state after reset, a second later. -/
def tCad (f : CadenceSt → CadenceSt) : State :=
  { State.reset with dtime := 1000000000, sched := { resetSched with cadence := f resetSched.cadence } }

/-- A launch of one node at a step. -/
def tNode (st : NStep) (d : Option (Nat × Nat)) : NodeSt :=
  { wid := 9, step := st, node := zeroBytes 64, desc := zeroBytes 128, selfFailed := false, since := 0, counted := true, refs := [],
    ctxRef := false, deadline := d, missed := false }

/-- Launch 5 of plan 0, with one node. -/
def tLaunch (n : NodeSt) : State :=
  let s := tLive (tRing [])
  { s with sched := { resetSched with
      gates := [(9, ⟨1, 0, 0⟩)]
      launches := [(5, ⟨5, 0, tOrg, tOrg, 0, 0, [n], 0, 0, 0, none, 0⟩)] } }

theorem wit_CadenceCommandsComplete :
    selected (tCad id) true = true ∧ selected (tCad id) false = false ∧
    missed (tCad (fun c => { c with locked := true, lastPulse := some 0 })) 1000000000 = true ∧ due (tCad id) 0 100 = true ∧
    cadPeriod (tCad id) ≤ elapsed (tCad id) (tCad id).sched.cadence.t ∧
    gateOpen (tLaunch (tNode .gate none)) ⟨1, 0, 0⟩ = true ∧ atGate (tLaunch (tNode .gate none)) 9 = true ∧
    (findNode (tLaunch (tNode .ready (some (0, 0)))) 9).map (fun x => (x.2.2.deadline, nodeOpen x.2.2, x.2.2.missed)) =
      some (some (0, 0), true, false) ∧ deadlinePassed (tLaunch (tNode .ready (some (0, 0)))) (0, 0) = true := by
  decide +kernel

theorem wit_PlanCommandsComplete :
    (readyPlan (tReady 0x0A [1]) 0 0 1).isSome ∧ (readyPlan (tReady 0x0A [2]) 0 0 2).isSome ∧
    (readyPlan (tReady 0x0A (zeroBytes 8 ++ leBytes 4 (2 ^ 13))) 0 0 0).isSome ∧
    (findPlan { State.reset with sched := { resetSched with plans := [(0, ⟨0, 0, [], [], [], 0, 0⟩)], planGens := [(0, 1)] } } 0 (2 ^ 13)).isSome ∧
    (findNode (tLaunch (tNode .ready none)) 9).map (fun x => (x.2.2.step, mayDispatch (tLaunch (tNode .ready none)) x.2.1,
      (x.2.1.nodes.takeWhile (fun m => m.wid ≠ 9)).length)) = some (.ready, true, 0) ∧
    (mget (tLaunch (tNode .ready none)).host.finished 9).isNone ∧
    mget { State.reset with host := { State.reset.host with finished := [(9, 0)] } }.host.finished 9 = some 0 ∧
    nodeOpen (tNode .work none) = true := by
  decide +kernel

/-- A MODEL entry stands ready at the head of ring 0 of partition 0, which may use the model object. -/
def tModel (desc : List Byte) (sch : SchedSt) : State :=
  let s := tLive (tRing [tEntry 0x0B .ready desc])
  { s with mem := { s.mem with modelCount := 1, grant := 1 }, sched := sch }

/-- A request's descriptor: its arrays at 0x1000, 0x2000 and 0x3000. -/
def tRequest : List Byte :=
  leBytes 8 6 ++ leBytes 8 0x1000 ++ leBytes 8 0x2000 ++ leBytes 8 0x3000

theorem wit_ModelCommandsComplete :
    (readyModel (tModel [1] resetSched) 0 0 1).map (fun x => (mFirst x.2.desc, mCount x.2.desc)) = some (0, 0) ∧
    resetSched.model = false ∧ (claimOf (tModel [1] resetSched) 4).kind = .free ∧
    (readyModel (tModel [2] { resetSched with model := true }) 0 0 2).map (fun x => decide (fAt x.2.desc 0x10 39 0 ≤ 2 ^ 30)) = some true ∧
    modelHere (tModel [2] { resetSched with model := true }) = true ∧
    (readyModel (tModel [3] { resetSched with model := true }) 0 0 3).isSome ∧
    (readyModel (tModel [5] { resetSched with serve := { noServe with active := true } }) 0 0 5).isSome ∧
    (readyModel (tModel tRequest { resetSched with serve := { noServe with active := true } }) 0 0 6).isSome ∧
    (∀ off ∈ [0x08, 0x10, 0x18], inClaimOrHost (tModel tRequest resetSched) 0 (fAt tRequest off 47 0) = true) ∧
    (tModel tRequest resetSched).mem.grant.getLsbD 0 = true ∧
    (writeProgress (tModel tRequest resetSched) (newRequest (tModel tRequest resetSched) tOrg tRequest) 0 Progress.queued).2 = 0 ∧
    (readyModel (tModel [7] resetSched) 0 0 7).isSome ∧
    due { tModel [2] resetSched with dtime := 10 ^ 15 } 0 (rdF State.reset Reg.schedCfg 25 20 * 1000000000) = true ∧
    ctxLive (tModel [] { resetSched with serve := { noServe with active := true } }) 0 = true := by
  decide +kernel

theorem wit_ModelCommandsComplete_serve :
    (let s := tModel ([4] ++ zeroBytes 7 ++ leBytes 8 (2 ^ 13)) { resetSched with
       model := true, modelGen := 1, plans := [(0, ⟨0, mkHandle tyModel 0 1, [], [], [], 0, 0⟩)], planGens := [(0, 1)] }
     (readyModel s 0 0 4).map (fun x => serveFault s x.2.desc)) = some none := by
  decide +kernel

/-- A compression on engine 0. -/
def tCrush (k : CrushKind) : CrushOp :=
  { org := tOrg, kind := k, both := false, engine := 0, src := 0, dst := 4096, srcBytes := 64, dstBytes := 4096, compl := 0, block := 0,
    inPos := 0, outPos := 0, last := false, stored := 0, fill := 0, preempts := 0, start := none, readyAt := 0, placedAt := 0,
    saved := none }

/-- The state with work on engine 0. -/
def tCrushing (k : CrushKind) : State :=
  { tLive (tRing []) with sched := { resetSched with crush := [tCrush k], stopOps := [(Engine.crush 0, 1)] } }

theorem wit_CrusherCommandsComplete :
    (readyCrush (tReady 0x0C [0]) 0 0 0).isSome ∧ (readyCrush (tReady 0x0C [1]) 0 0 1).isSome ∧ (readyCrush (tReady 0x0C [2]) 0 0 2).isSome ∧
    (bestIdx (crushRank (tCrushing .compress)) (crushOn (tCrushing .compress) 0)).map (fun k => (crushOn (tCrushing .compress) 0)[k]?) =
      some (some (tCrush .compress)) ∧
    (bestIdx (crushRank (tCrushing .check)) (crushOn (tCrushing .check) 0)).map (fun k => (crushOn (tCrushing .check) 0)[k]?) =
      some (some (tCrush .check)) ∧
    (crushOn (tCrushing .check) 0).find? (fun op => op.org.wid = 1) = some (tCrush .check) := by
  decide +kernel

/-- Mark unit 16 enabled with a preset, its run open since reset. -/
def tSnoop : State :=
  { tRegs State.reset [(Reg.markCtl 16, 3), (Reg.markRun 16, 2 ^ 49)] with dtime := 1000000000 }

theorem wit_MarkCommandsComplete :
    (markOf State.reset 3).queue.length < 64 ∧ (markOf { State.reset with marks := [(3, { noMark with queue := [⟨.feed, 4, 0⟩] })] } 3).queue =
      [⟨.feed, 4, 0⟩] ∧
    (unitParams tSnoop 16).isSome ∧ runOpen tSnoop 16 = true ∧ (markOf tSnoop 16).pieces = [] ∧ stallHeld tSnoop 16 = false ∧
    due tSnoop (markOf tSnoop 16).byteAt (rdF tSnoop Reg.markCfg 13 0 * 1000) = true ∧ markReach (hostTouch State.reset) 0 3 = true ∧
    rdF (hostTouch tSnoop) (Reg.markCtl 16) 0 0 ≠ 0 ∧ rdF (hostTouch State.reset) (Reg.markCtl 16) 0 0 = 0 ∧
    attachOk (hostTouch State.reset) 16 1 = true ∧ attachOk (hostTouch State.reset) 16 5 = false ∧
    (claimOf (hostTouch { State.reset with mem := { resetMem with claims := [(0, ⟨0, .priv, 0, 0⟩)] } }) (bitsN 32 30 6 * 4096 / 2 ^ 30)).kind = .priv ∧
    (claimOf (hostTouch State.reset) 0).kind ≠ .priv := by
  decide +kernel

/-- Port 0 is UP, a second after reset; device identifier 0. -/
def tUp (f : PortSt → PortSt) : State :=
  { tRegs State.reset [(Reg.linkPortStatus 0, 2), (Reg.linkPortCtl 0, 1)] with
    dtime := 1000000000, link := { State.reset.link with ports := lset State.reset.link.ports 0 (f resetPort) } }

/-- A flit of a sequence number and kind, its check right. -/
def tFlit (k seq : Nat) : List Byte :=
  let b := leBytes 2 (k * 4096 + seq) ++ zeroBytes 246
  b ++ leBytes 8 (crcOf crcFlit b)

theorem tShift_small (c : Nat) : crcShift crcFlit c < 2 ^ 64 := by
  unfold crcShift
  split <;> exact Nat.mod_lt _ (by decide)

theorem tFeed_small (c : Nat) (b : Byte) : crcFeed crcFlit c b < 2 ^ 64 := tShift_small _

theorem tCrc_small (bs : List Byte) : crcOf crcFlit bs < 2 ^ 64 := by
  have h : ∀ (l : List Byte) (c : Nat), c < 2 ^ 64 → l.foldl (crcFeed crcFlit) c < 2 ^ 64 := by
    intro l
    induction l with
    | nil => exact fun c h => h
    | cons b r ih => exact fun c _ => ih _ (tFeed_small c b)
  have hz : ∀ c : Nat, crcResult crcFlit c = c := fun c => Nat.xor_zero c
  rw [crcOf, hz]
  exact h bs 0 (by decide)

theorem tLe_reads (x : Nat) (h : x < 2 ^ 64) : leNat (leBytes 8 x) = x := by
  simp only [leBytes, leNat, BitVec.toNat_ofNat]
  omega

theorem tFlit_parts (b : List Byte) (x : Nat) (hb : b.length = 248) (hx : x < 2 ^ 64) :
    (padTo 256 (b ++ leBytes 8 x)).take 248 = b ∧ fieldAt (padTo 256 (b ++ leBytes 8 x)) 248 8 = x := by
  have hc : (leBytes 8 x).length = 8 := rfl
  have hp : padTo 256 (b ++ leBytes 8 x) = b ++ leBytes 8 x := by
    rw [padTo, List.take_append_of_le_length (by simp [hb, hc])]
    exact List.take_of_length_le (by simp [hb, hc])
  rw [hp, fieldAt, slice, List.take_left' hb, List.drop_left' hb]
  exact ⟨rfl, tLe_reads x hx⟩

theorem tHead_length (k seq : Nat) : (leBytes 2 (k * 4096 + seq) ++ zeroBytes 246).length = 248 := by
  simp only [leBytes, zeroBytes, List.length_append, List.length_replicate, List.length_cons, List.length_nil]

theorem wit_LinkPortCommandsComplete_check (k seq : Nat) :
    crcOf crcFlit ((padTo 256 (tFlit k seq)).take 248) = fieldAt (padTo 256 (tFlit k seq)) 248 8 := by
  obtain ⟨h1, h2⟩ := tFlit_parts _ _ (tHead_length k seq) (tCrc_small _)
  rw [tFlit, h1, h2]

theorem wit_LinkPortCommandsComplete_badCheck (k seq : Nat) : ∃ bytes,
    crcOf crcFlit ((padTo 256 bytes).take 248) ≠ fieldAt (padTo 256 bytes) 248 8 := by
  obtain ⟨h1, h2⟩ := tFlit_parts _ ((crcOf crcFlit (leBytes 2 (k * 4096 + seq) ++ zeroBytes 246) + 1) % 2 ^ 64) (tHead_length k seq)
    (Nat.mod_lt _ (by decide))
  have hs := tCrc_small (leBytes 2 (k * 4096 + seq) ++ zeroBytes 246)
  exact ⟨_, by rw [h1, h2]; omega⟩

theorem wit_LinkPortCommandsComplete_flits :
    portState (tUp id) 0 = portUp ∧ fieldAt (padTo 256 (tFlit 0 0)) 0 2 % 4096 = (portOf (tUp id) 0).rxNext ∧
    fieldAt (padTo 256 (tFlit 0 0)) 0 2 / 4096 = 0 ∧ fieldAt (padTo 256 (tFlit 1 5)) 0 2 / 4096 = 1 ∧
    fieldAt (padTo 256 (tFlit 2 5)) 0 2 / 4096 = 2 ∧ fieldAt (padTo 256 (tFlit 0 5)) 0 2 % 4096 ≠ (portOf (tUp id) 0).rxNext := by
  decide +kernel

theorem wit_LinkPortCommandsComplete :
    due (tUp id) 0 (rdF (tUp id) Reg.linkCfg 9 0) = true ∧ due (tUp id) (portOf (tUp id) 0).winAt 1000000 = true ∧
    (portOf (tUp (fun q => { q with want := true })) 0).want = true ∧ rdF (tUp id) (Reg.linkPortCtl 0) 0 0 = 1 ∧
    portState (wr (tUp id) (Reg.linkPortStatus 0) 1) 0 = portTraining ∧
    ((List.range 9).filter (fun i => (0x1FF : BitVec 9).getLsbD i)).length = 9 ∧
    ((List.range 9).filter (fun i => (7 : BitVec 9).getLsbD i)).length < 4 ∧ ownId (tUp id) = 0 ∧
    (portOf (tUp (fun q => { q with again := true, trainAt := 0 })) 0).again = true ∧ due (tUp id) 0 10000000 = true := by
  decide +kernel

/-- A message of an opcode for this device, tag 9, and the state in which port 0 holds it. -/
def tMsg (op dest status : Nat) : List Byte :=
  leBytes 1 op ++ leBytes 1 dest ++ zeroBytes 3 ++ leBytes 1 status ++ zeroBytes 10 ++ leBytes 4 9 ++ zeroBytes 44

/-- The state in which port 0 holds a message, and a request of tag 9 is outstanding. -/
def tInbox (op dest status : Nat) (k : ReqKind) : State :=
  let s := tUp (fun q => { q with inbox := [(vcOf op, tMsg op dest status)] })
  { s with link := { s.link with reqs := [(9, { kind := k, org := tOrg, engine := 0, core := 0, gid := 0, device := 1, mem := 0, va := 0,
                                                n := 32, msg := [], port := some 0, attempts := 0, stalls := 0, sentAt := 0 })] },
           host := (tWith (tRing [])).host }

theorem wit_LinkMessageCommandsComplete :
    ([opRead, opWrite, opImport, opRelease, opReadReply, opWriteAck, opImportReply, opStalled].all (fun op =>
      (nextMsg (tInbox op 0 0 .write) 0 op).map (fun x => (mDest x.1, ownId x.2, mTag x.1, mStatus x.1)) == some (0, 0, 9, 0))) = true ∧
    ((nextMsg (tInbox opReadReply 0 3 (.coreRead 0 5 2 0)) 0 opReadReply).map (fun x => mStatus x.1)) = some 3 ∧
    ((mget (tInbox opReadReply 0 0 (.coreRead 0 5 2 0)).link.reqs 9).map (fun r => (decide (r.kind = .coreRead 0 5 2 0),
      ctxLive (tInbox opReadReply 0 0 .write) r.org.ctx, due (tInbox opRead 0 0 .write) r.sentAt
        (rdF (tInbox opRead 0 0 .write) Reg.linkCfg 33 20 * 100000)))) = some (true, true, true) ∧
    ([opRead, opWrite].all (fun op =>
      (nextMsg (tInbox op 4 0 .write) 0 op).map (fun x => mDest x.1) == some 4)) = true ∧
    (portOf (tUp (fun q => { q with bursts := [⟨1, [], 0, false⟩] })) 0).bursts.find?
      (fun b => decide (b.vc = 1) && ! b.dead && due (tUp id) b.since (rdF (tUp id) Reg.linkCfg 19 10 * 1000)) = some ⟨1, [], 0, false⟩ := by
  decide +kernel

/-- The state a second after reset in a power state. -/
def tPower (n : Nat) (f : PowerSt → PowerSt) : State :=
  { wrF State.reset Reg.pwrStatus 2 0 n with dtime := 10000000000, power := f State.reset.power }

theorem wit_PowerStateCommandsComplete :
    pwrState (hostTouch State.reset) < 2 ∧ (hostTouch State.reset).power.req.isNone ∧
    (refusers (wrF (wrF (leaveA1 (hostTouch State.reset)) Reg.pwrCtl 2 0 2) Reg.pwrCtl 3 3 0)).filter (fun k => ! false || k = 4) = [] ∧
    (tPower 0 (fun p => { p with req := some ⟨2, 0, none⟩ })).power.req = some ⟨2, 0, none⟩ ∧
    due (tPower 0 id) 0 1000000000 = true ∧
    (noteIdle (tPower 0 (fun p => { p with idleSince := some 0 }))).power.idleSince = some 0 ∧
    pwrState (noteIdle (tPower 0 (fun p => { p with idleSince := some 0 }))) = 0 ∧
    due (tPower 0 id) 0 (rdF (tPower 0 id) Reg.pwrCfg 44 35 * 1000) = true ∧
    pwrState (tPower 2 (fun p => { p with wake := some 0 })) = 2 ∧ (tPower 2 (fun p => { p with exit := 1 })).power.exit = 1 ∧
    pwrState (tPower 3 (fun p => { p with wake := some 0 })) = 3 := by
  decide +kernel

theorem wit_PowerLimitCommandsComplete :
    overLimit (wrF (tPower 0 id) Reg.pwrReading 9 0 1023) = true ∧
    tclkFloor < { tPower 0 id with core := { resetCore with tclk := tclkFull } }.core.tclk ∧ due (tPower 0 id) 0 10000 = true ∧
    wattsNow (tPower 0 id) * 100 < effLimit (tPower 0 id) * 97 ∧ junctionNow (tPower 0 id) < tjLimit (tPower 0 id) - 2 ∧
    due (tPower 0 id) 0 100000 = true ∧ due (tPower 0 id) 0 10000000 = true ∧
    coolantOn (wrF (tPower 0 id) Reg.pwrCfg 24 24 1) = true ∧ rdF (tPower 0 id) Reg.pwrStatus 25 25 = 0 ∧
    holdExpired (tPower 0 id) (some 0) = true ∧ holdExpired (tPower 0 id) none = false ∧ due (tPower 0 id) 0 1000000000 = true ∧
    rdF (wrF (tPower 0 id) Reg.pwrStatus 25 25 1) Reg.pwrStatus 25 25 = 1 ∧ due (tPower 0 id) 0 5000000000 = true := by
  decide +kernel

theorem wit_WeighbridgeCommandsComplete :
    wbRuns (wr (tPower 0 id) (Reg.wbStream 3) 1) = true ∧ sOn (wr (tPower 0 id) (Reg.wbStream 3) 1) 3 = true ∧
    (streamOf (tPower 0 id) 3).reading.isNone ∧ (streamOf (tPower 0 id) 3).last.isNone ∧
    (let s := { tPower 0 id with wb := { State.reset.wb with streams := [(3, { noStream with reading := some (0, 1) })] } }
     ((streamOf s 3).reading.isSome && due s 0 (rdF s Reg.wbCfg 16 0 * 1000))) = true ∧
    { tPower 0 id with wb := { State.reset.wb with resetAt := some 0 } }.wb.resetAt.isSome := by
  decide +kernel

/-- The security state a second after reset, changed. -/
def tSec (f : SecSt → SecSt) : State :=
  { State.reset with dtime := 100000000000, sec := f State.reset.sec }

theorem wit_FirmwareCommandsComplete :
    fwBusy (hostTouch State.reset) = false ∧ (slotIn (hostTouch (tSec (fun x => { x with ident := true }))) 2).isNone ∧
    (hostTouch (tSec (fun x => { x with ident := true }))).sec.ident = true ∧
    slotIn (hostTouch (tSec (fun x => { x with slots := [⟨1, []⟩, ⟨3, []⟩], standby := some 4 }))) 1 = some 0 ∧
    slotIn (hostTouch (tSec (fun x => { x with slots := [⟨2, []⟩, ⟨3, []⟩] }))) 2 = some 0 ∧
    imgStateMin [] ≤ (hostTouch (tSec id)).sec.book ∧
    (slotIn (hostTouch (tSec (fun x => { x with slots := [⟨0, []⟩, ⟨3, []⟩] }))) 1).isNone ∧
    rdF (wrF (tSec id) Reg.fwCfg 10 10 1) Reg.fwCfg 10 10 = 1 ∧ (tSec id).sec.staged.isNone ∧
    (tSec (fun x => { x with hand := some ⟨0, false, true, 0, 0⟩, standby := some 4 })).sec.hand = some ⟨0, false, true, 0, 0⟩ ∧
    due (tSec id) 0 1000000 = true ∧ due (tSec id) (tSec id).sec.heartAt 1000000000 = true ∧ rdF (tSec id) Reg.fwCfg 10 10 = 0 ∧
    due { tSec id with dtime := 10 ^ 18 } 0 (rdF (tSec id) Reg.fwCfg 9 0 * 1000000000) = true ∧
    slotIn (tSec (fun x => { x with slots := [⟨2, []⟩, ⟨3, []⟩] })) 3 = some 1 := by
  decide +kernel

theorem wit_HaulCommandsComplete :
    haulOn (hostTouch State.reset) = false ∧ haulOn (wrF State.reset Reg.fwHaul 0 0 1) = true ∧
    (tSec (fun x => { x with haul := some ⟨0, 0, 0, []⟩ })).sec.haul = some ⟨0, 0, 0, []⟩ ∧ due (tSec id) 0 10000000 = true ∧
    ([opHaulReq, opHaulBlock].all (fun op => (nextMsg (tInbox op 0 0 .write) 0 op).map (fun x => (mDest x.1, ownId x.2)) == some (0, 0))) = true := by
  decide +kernel

/-- A session 7, open or not, after the identity is derived. -/
def tSpdm (o : Bool) : State :=
  tSec (fun x => { x with ident := true, spdm := { x.spdm with level := 3, sessions := [⟨7, o, 0⟩], streams := [(2, 1)] } })

/-- A configuration record. -/
def tRec : ConfigRec :=
  { gen := 1, base := [], made := [], added := [] }

theorem wit_SpdmCommandsComplete :
    3 ≤ (hostTouch (tSpdm true)).sec.spdm.level ∧ (hostTouch (tSpdm true)).sec.ident = true ∧ sessionIs (hostTouch (tSpdm true)) 7 true = true ∧
    sessionIs (hostTouch (tSpdm false)) 7 false = true ∧ (mget (hostTouch (tSpdm true)).sec.spdm.streams 2).isSome ∧
    ((hostTouch (tSpdm true)).sec.reports.filter (fun t => elapsed (hostTouch (tSpdm true)) t < 3600000000000)).length < 60 ∧
    1024 < lmsLeft (hostTouch (tSpdm true)) ∧
    (baseSection (hostTouch (tSec (fun x => { x with taken := some 0, recs := [some tRec, none] })))).isSome ∧
    60 ≤ ((tSec (fun x => { x with reports := List.replicate 60 99999999999 })).sec.reports.filter (fun t =>
      elapsed (tSec id) t < 3600000000000)).length := by
  decide +kernel

theorem wit_SignalsMoveFencesForward :
    (mget (tObj 2).host.fences 0).map (fun f => (f.err, ((5 : Word) - f.value).toNat, ((2 ^ 63 : Word) - f.value).toNat, (0 - f.value).toNat)) =
      some (none, 5, 2 ^ 63, 0) := by
  decide +kernel

theorem wit_FenceReachedRule : reached 5 5 = true ∧ reached 5 4 = true ∧ reached 4 5 = false ∧ reached 4 (4 - 2 ^ 63) = false := by
  decide +kernel

theorem wit_MaskedMessagesAreSentOnce :
    msixSize State.reset 0 ≤ 2048 ∧ (rd State.reset Reg.pcieMsiDropCount).toNat < 2 ^ 32 - 1 ∧ 5 < msixSize (tMsix false) 0 ∧
    (tMsix false).host.pcie.msixEnable.getLsbD 0 = true ∧ (msixGet (tMsix false) 0 5).masked = true ∧
    (tMsix false).host.pcie.funcMask.getLsbD 0 = false ∧ (tMsix false).sec.recovery = false ∧ hostTouch (tMsix false) = tMsix false := by
  decide +kernel

theorem wit_RegisterFieldsFollowTheirTypes :
    ([.ro, .own, .rw, .rwl, .w1c, .w1s].all (fun a => (devRegs ++ pageRegs).any (fun d => d.fields.any (fun f => f.ty == a)))) = true ∧
    devRegs.any (fun d => d.fields.any (fun f => f.ty == .rw && holdsRange f f.mn)) = true ∧
    devRegs.any (fun d => d.fields.any (fun f => f.ty == .rw && ! holdsRange f (wbits (BitVec.allOnes 64) f.hi f.lo))) = true ∧
    (regAt Reg.errStatus).map (fun d => d.fields.any (fun f => f.ty == .w1c)) = some true := by
  decide +kernel

theorem wit_CountersSaturate :
    Reg.memXlateMissCount ∉ [Reg.memStatus, Reg.errStatus, Reg.pcieStatus, Reg.pcieMsiDropCount] ∧
    Reg.memStatus ∉ [Reg.pcieMsiDropCount] ∧ rdF State.reset Reg.memXlateMissCount 31 0 + 1 ≤ 2 ^ 32 - 1 ∧
    2 ^ 32 - 1 < rdF (wr State.reset Reg.memXlateMissCount 0xFFFFFFFF) Reg.memXlateMissCount 31 0 + 1 := by
  decide +kernel

theorem wit_HandlesNameTheirSlot :
    (31 : Nat) < 32 ∧ (65535 : Nat) < 65536 ∧ mkHandle 5 (okey 31 65535) 255 = 0xFFBFFFFF ∧ mkHandle 1 (okey 0 0) 1 = 0x01200000 := by
  decide +kernel

theorem wit_WrittenSectorsReadBack : (31 : Nat) < 32 ∧ (zeroBytes 64).length = 64 ∧ physPage State.reset 7 ≠ 8 := by decide +kernel

theorem wit_PagesSpreadOverChannels :
    (2 ^ 26 - 1 : Nat) < 2 ^ 26 ∧ (49151 : Nat) < 49152 ∧ place 129 = (0, 0, 1, 0) ∧ (2 ^ 13 : Nat) / 2 ^ 13 = 1 := by
  decide +kernel

theorem wit_E4m3HasTwoNansAndNoInfinity : (0x7F : Nat) < 256 ∧ 0x7E / 8 % 16 = 15 ∧ 0x7E % 8 ≤ 6 := by decide

theorem wit_WeightsPackFromBitZero :
    (Fmt.W4I, 4, 2) ∈ [(Fmt.W1, 1, 8), (Fmt.W2T, 2, 4), (Fmt.W2C, 2, 4), (Fmt.W4I, 4, 2), (Fmt.W4C, 4, 2)] ∧ (1 : Nat) < 2 ∧
    (2 : Nat) ≤ 2 * ([0x21] : List Byte).length := by
  decide

/-! WellFormed refuses an ill-formed term for each of its checks. -/

theorem test_wf_register_writes :
    ([.registerWrite (.bar 0 0x100000 .b2 0), .registerWrite (.bar 0 0x100002 .b4 0), .registerWrite (.bar 1 0x1E4001 .b1 0),
      .registerWrite (.cfg 1 .vfEnable 1), .unsupportedBarAccess 0 0x100000 4 true] : List Instr).all (fun i => ! i.wf) = true ∧
    ([.registerWrite (.bar 0 0x100000 .b4 0), .registerWrite (.bar 0 0x1E4001 .b1 0), .registerWrite (.cfg 1 .msixEnable 1),
      .unsupportedBarAccess 0 0x100001 4 true] : List Instr).all Instr.wf = true := by decide

theorem test_wf_group_instructions :
    ([.groupInstruction 0 0 (.int .add 24 0 (.reg 0) (.reg 0)), .groupInstruction 0 0 (.int .add 32 128 (.reg 0) (.reg 0)),
      .groupInstruction 0 0 (.int .add 32 0 (.reg 128) (.reg 0)), .groupInstruction 0 0 (.int .add 32 0 (.reg 0) (.lit (2 ^ 64))),
      .groupInstruction 0 0 (.cmp .eq 7 0 (.reg 0) (.reg 0)), .groupInstruction 0 0 (.fp .add 128 (.reg 0) (.reg 0) (.reg 0)),
      .groupInstruction 0 0 (.fcmp .oeq 0 (.reg 128) (.reg 0)), .groupInstruction 0 0 (.cvt (.toInt true 12) 0 (.reg 0)),
      .groupInstruction 0 0 (.cvt (.ofInt true 12) 0 (.reg 0)), .groupInstruction 0 0 (.select 9 0 (.reg 0) (.reg 0) (.reg 0)),
      .groupInstruction 0 0 (.other 127 2 []), .groupInstruction 0 0 (.other 0 1 [128]), .groupInstruction 0 0 (.switch (.reg 128) [] 0),
      .groupInstruction 0 0 (.builtIn .lane 128), .groupInstruction 0 0 (.push 0 2 127), .groupInstruction 0 0 (.output 0 (.reg 128)),
      .groupInstruction 0 0 (.vertexIn 0 128), .groupInstruction 0 0 (.stageIn 0 (.reg 128) 0), .groupInstruction 0 0 (.varying 127 2),
      .groupInstruction 0 0 (.attachment 0 0 128), .groupOperation 0 0 .elect false 128 (.reg 0) (.reg 0)] : List Instr).all
        (fun i => ! i.wf) = true ∧
    ([.groupInstruction 0 0 (.int .add 32 127 (.reg 127) (.lit 5)), .groupInstruction 0 0 (.other 126 2 [127])] : List Instr).all
        Instr.wf = true := by decide

theorem test_wf_core_accesses :
    ([.load 0 0 (.va 127) .b4 0 false false, .load 0 0 (.buffer 0 0 (.reg 128)) .b4 0 false false, .load 0 0 (.shared (.reg 128)) .b4 0 false false,
      .load 0 0 (.tile (.reg 128)) .b4 0 false false, .load 0 0 (.va 0) .b16 125 false false, .load 0 0 (.va 0) .b8 127 false false,
      .store 0 0 (.va 127) .b4 0, .atomic 0 0 (.va 0) .add true 127 0 0, .atomic 0 0 (.va 0) .add false 0 128 0,
      .atomic 0 0 (.va 0) .add true 0 0 127, .opReadClockKhr 0 0 true 127, .imageSample 0 0 (.sample 0 0 []) 0 0 125] : List Instr).all
        (fun i => ! i.wf) = true ∧
    ([.load 0 0 (.va 126) .b16 124 false false, .atomic 0 0 (.va 0) .add false 127 127 127] : List Instr).all Instr.wf = true := by decide

theorem test_wf_xmt :
    ([.tensorIssue 0 0 (.va 127) 0, .tensorIssue 0 0 (.va 0) 128, .tensorWait 0 0 (.reg 128) 0, .tensorPoll 0 0 (.reg 0) 128,
      .tileHandoff 0 0 (.va 127), .cadenceRead 0 0 127, .lineRead 0 0 0 127, .markFeed 0 0 127 (.reg 0) .b4, .markFeed 0 0 0 (.reg 128) .b4,
      .asyncCopy 0 0 (.reg 128) (.va 0) (.reg 0) 0, .asyncCopy 0 0 (.reg 0) (.va 0) (.reg 0) 128, .copyWait 0 0 (.reg 128),
      .l1Prefetch 0 0 (.va 127) (.reg 0), .sleep 0 0 (.reg 128), .trap 0 0 (.reg 128)] : List Instr).all (fun i => ! i.wf) = true := by
  decide

theorem test_wf_units :
    ([.logicalCoreAssignment [64], .vfFlr 0, .claimFillingEnd 95, .headEnable 0 (some (8, 1)), .headEnable 0 (some (0, 3)),
      .hpdInterrupt true (some (8, 1)), .translationWalk 9 0, .markRun 0 24 0, .markAttach 24 0, .markGrant 24 0, .flit 0 [],
      .symbolErrorWindow 0 [], .sampleRecord 0 (List.replicate 57 0) false, .sampleStall 0 (List.replicate 56 0), .heartbeatMiss 5] :
        List Instr).all (fun i => ! i.wf) = true ∧
    ([.logicalCoreAssignment [63], .vfFlr 1, .claimFillingEnd 94, .headEnable 0 (some (7, 4)), .headEnable 0 none, .translationWalk 8 0,
      .markRun 0 23 0, .symbolErrorWindow 0 (List.replicate 9 0), .heartbeatMiss 4] : List Instr).all Instr.wf = true := by decide

/-! Results that the spec works out. -/

/-- 02, after R35: 0x7E is 448, 0x01 is 2^-9; after R56: 500.0 overflows to 0x7E when it saturates. -/
theorem test_e4m3 :
    decodeFmt Fmt.E4M3 0x7E = .fin false 14 5 ∧ decodeFmt Fmt.E4M3 0x01 = .fin false 1 (-9) ∧
    (convOut Fmt.E4M3 .rne false (ofInt 500)).bits = 0x7E ∧ (convOut Fmt.E4M3 .rne false (ofInt 500)).sat = true ∧
    (convOut Fmt.E4M3 .rne true (ofInt (-500))).bits = 0x7F ∧ (convOut Fmt.E4M3 .rne false (ofInt 464)).bits = 0x7E ∧
    (convOut Fmt.E4M3 .rne false (ofInt 464)).sat = false := by decide +kernel

/-- 02, after R46: W4I weights of z 8, with scales 0.0625 into E4M3 and 4.0 into INT8. -/
theorem test_w4i :
    (expandW4i Fmt.E4M3 [0x00, 0x2C, 8, 0] 3).1 = decodeFmt Fmt.E4M3 0xAA ∧
    (expandW4i Fmt.INT8 [0x00, 0x44, 8, 0] 3).1 = decodeFmt Fmt.INT8 0xEC := by decide +kernel

/-- 02, the adder-only example: 0xCD packs the W2T codes 01, 11, 00 and 11. -/
theorem test_w2t_unpack : unpack Fmt.W2T 4 [0xCD] = [1, 3, 0, 3] := by decide

/-- 13 R565: the check values of the presets for "123456789". -/
theorem test_crc_presets :
    ([1, 2, 3, 4, 5, 6].map (fun n => (crcPreset n).map (fun q => crcOf q [0x31, 0x32, 0x33, 0x34, 0x35, 0x36, 0x37, 0x38, 0x39]))) =
      [some 0xCBF43926, some 0xE3069283, some 0x1697D06A, some 0x29B1, some 0x4B, some 0xDF] := by decide +kernel

/-- 08, after R328: the home and the place of mem 0x12_3456_7880. -/
theorem test_home_and_place :
    homeSlice 0x1234567880 = 24 ∧ setIdx (0x1234567880 / 128) = 24 * 1024 + 438 ∧ place 38177487 = (2, 26, 21, 4660) := by decide +kernel

/-- 11, after R466: signals and waits around the wrap of a fence. -/
theorem test_fence_wrap :
    let s := { tObj 2 with host := { (tObj 2).host with
      fences := [(0, ⟨1, 0, { host := [(1, 1)], dev := 0 }, 0xFFFFFFFFFFFFFFF0, none, true, false, 0, false⟩)] } }
    let t := signalFence s 0 0x10 Engine.gantry
    let u := signalFence t 0 0xFFFFFFFFFFFFFFFC Engine.gantry
    (mget t.host.fences 0).map (fun f => f.value) = some 0x10 ∧ reached 0x10 0xFFFFFFFFFFFFFFF8 = true ∧ reached 0x10 0x11 = false ∧
    (mget u.host.fences 0).map (fun f => (f.value, f.regressRec)) = some (0x10, true) ∧
    rdF u (pkey 0 Reg.objFenceRegressCount) 31 0 = 1 := by decide +kernel

/-- 10, after R426: RETIRED at 0xFFFF_FFF0 in a ring of 256 slots. -/
theorem test_tail_wrap :
    let r := { tRing [] with log2 := 8, retired := 0xFFFFFFF0, fetched := 0xFFFFFFF0 }
    tailValid r 0x10 = true ∧ tailAhead r 0x10 = true ∧ tailValid r 0xF1 = false := by decide +kernel

/-- 12, after R512: a pulse 1,040,000 ns after the last one changes P to 1,005,000; a missing one is noticed at 1,062,500 ns. -/
theorem test_cadence_period :
    let c := { resetSched.cadence with period := some 1000000, locked := true, lastPulse := some 0 }
    let s := { wrF State.reset Reg.cadenceCfg 14 0 1000 with sched := { resetSched with cadence := c } }
    (pulseAct s 1040000).sched.cadence.period = some 1005000 ∧ missed s 1062499 = false ∧ missed s 1062500 = true := by decide +kernel

/-- 18, after R704: MARK_RESULT of unit 18 in the physical function's BAR0. -/
theorem test_register_place : Reg.markResult 18 = 0x1A05A8 := by decide

/-- 18 R710: one 64-bit write of ERR_THRESH, taken from the queue; 10 R410: a ring that was never created is DISABLED. -/
theorem test_steps :
    (nextOf (step { State.reset with pending := [.registerWrite (.bar 0 (BitVec.ofNat 26 Reg.errThresh) .b8 0x3C0104040)] })).map
      (fun t => (rd t Reg.errThresh, t.pending)) = some (0x3C0104040, []) ∧
    (nextOf (exec (.ringQuery 0 1) (tWith (tRing [])))).map (fun t => rd t (pkey 0 Reg.ringCmdStatus)) = some 0 := by decide +kernel

/-- 02, after R61: FP32 0.3 into E4M3 by each rounding mode. -/
theorem test_rounding :
    ([Rnd.rne, .rtz, .sr 0x7000, .sr 0x2000].map (fun r => (convOut Fmt.E4M3 r false (decodeFmt Fmt.FP32 0x3E99999A)).bits)) =
      [0x2A, 0x29, 0x2A, 0x29] := by decide +kernel

/-- 02, after R73: a block of 1000.0, -3.0, 20.0, 0.01 and zeros, as QB8I and as QB8F. -/
theorem test_block_formats :
    let l := ([0x447A0000, 0xC0400000, 0x41A00000, 0x3C23D70A] ++ List.replicate 28 0).map (fun x => (decodeFmt Fmt.FP32 x, Rnd.rne))
    ((blockQuant Fmt.QB8I l).scale, (blockQuant Fmt.QB8I l).elems.take 4, (blockQuant Fmt.QB8I l).flush) = (0x82, [0x7D, 0, 2, 0], 2) ∧
    ((blockQuant Fmt.QB8F l).scale, (blockQuant Fmt.QB8F l).elems.take 4, (blockQuant Fmt.QB8F l).flush) =
      (0x81, [0x78, 0xB4, 0x4A, 0x01], 0) := by decide +kernel

end Sys2Proof.Tests
end

section
/-! PROOFS. Multi-byte fields are little-endian (00 R2). -/
namespace Sys2Proof

@[simp] theorem length_leBytes (n x : Nat) : (leBytes n x).length = n := by
  induction n generalizing x with
  | zero => rfl
  | succ n ih => simp [leBytes, ih]

/-- The bytes of a number spell what of it fits into them. -/
@[simp] theorem leNat_leBytes (n x : Nat) : leNat (leBytes n x) = x % 256 ^ n := by
  induction n generalizing x with
  | zero => simp [leBytes, leNat, Nat.mod_one]
  | succ n ih => rw [leBytes, leNat, ih, BitVec.toNat_ofNat, Nat.pow_succ' (m := 256), Nat.mod_mul]

/-- Byte `i` holds bits [8i+7:8i]. -/
theorem leBytes_getElem? {n i : Nat} (x : Nat) (h : i < n) :
    (leBytes n x)[i]? = some (BitVec.ofNat 8 (x / 256 ^ i)) := by
  induction n generalizing x i with
  | zero => omega
  | succ n ih =>
    cases i with
    | zero => simp [leBytes]
    | succ i => rw [leBytes, List.getElem?_cons_succ, ih _ (by omega), Nat.div_div_eq_div_mul, Nat.pow_succ']

/-- A field is the number that its own bytes spell, whatever stands around them. -/
theorem fieldAt_append (a m b : List Byte) : fieldAt (a ++ m ++ b) a.length m.length = leNat m := by
  rw [fieldAt, slice, List.append_assoc, List.drop_left, List.take_left]

/-- Settles O56: by induction on the number of bytes. -/
theorem fieldsAreLittleEndian : Obligations.FieldsAreLittleEndian := by
  intro n x
  refine ⟨length_leBytes n x, leNat_leBytes n x, fun i hi => ?_, fun a b => ?_⟩
  · simp [leBytes_getElem? x hi]
  · simpa using fieldAt_append a (leBytes n x) b

end Sys2Proof
end

section
/-! PROOFS. How each field of a register takes a write (00 R6, R8; 18 R713, R714). -/
namespace Sys2Proof

/-- The bits of a field lie in a word. -/
abbrev FieldDesc.InWord (f : FieldDesc) : Prop := f.lo ≤ f.hi ∧ f.hi < 64

/-- Two fields share no bit. -/
abbrev FieldDesc.Apart (f g : FieldDesc) : Prop := f.hi < g.lo ∨ g.hi < f.lo

/-- The fields of a register lie in its word and share no bit. -/
abbrev RegDesc.FieldsApart (d : RegDesc) : Prop :=
  (∀ f ∈ d.fields, f.InWord) ∧ d.fields.Pairwise FieldDesc.Apart

theorem regs_fieldsApart : ∀ d ∈ devRegs ++ pageRegs, d.FieldsApart := by decide +kernel

theorem mem_regs_of_regAt {k : Nat} {d : RegDesc} (h : regAt k = some d) : d ∈ devRegs ++ pageRegs := by
  rw [List.mem_append]
  unfold regAt at h
  split at h
  · exact .inl (List.mem_of_find?_eq_some h)
  · exact .inr (List.mem_of_find?_eq_some h)

end Sys2Proof

namespace Sys2Proof.Machine

/-! Bits of a field. -/

theorem wbits_wput_apart (w : Word) {f g : FieldDesc} (x : Nat) (hf : f.InWord) (hg : g.InWord) (h : f.Apart g) :
    wbits (wput w f.hi f.lo x) g.hi g.lo = wbits w g.hi g.lo :=
  h.elim (wbits_wput_above w x hf.1 hf.2) (wbits_wput_below w x hf.1 hf.2 hg.1)

theorem wbits_lt (w : Word) (hi lo : Nat) : wbits w hi lo < 2 ^ (hi + 1 - lo) :=
  Nat.mod_lt _ (by positivity)

theorem testBit_wbits (w : Word) {hi lo i : Nat} (hl : lo ≤ i) (hh : i ≤ hi) :
    (wbits w hi lo).testBit (i - lo) = w.getLsbD i := by
  have hi' : i - lo < hi + 1 - lo := by omega
  rw [wbits, bitsN, Nat.testBit_mod_two_pow, Nat.testBit_div_two_pow, Nat.sub_add_cancel hl, BitVec.getLsbD]
  simp [hi']

/-- What a field put into a word reads as there. -/
theorem getLsbD_of_wbits_wput {u w : Word} {f : FieldDesc} {x i : Nat} (hf : f.InWord)
    (h : wbits w f.hi f.lo = wbits (wput u f.hi f.lo x) f.hi f.lo) (hl : f.lo ≤ i) (hh : i ≤ f.hi) :
    w.getLsbD i = x.testBit (i - f.lo) := by
  have hi : i - f.lo < f.hi + 1 - f.lo := by omega
  rw [← testBit_wbits w hl hh, h, wbits_wput_same u x hf.1 hf.2, Nat.testBit_mod_two_pow]
  simp [hi]

/-! One field. -/

section
variable {f : FieldDesc} {data : Word} {locked : Bool} {frozen : FieldDesc → Bool} (v : Word)

theorem putField_of_unwritten (h : f.ty = .ro ∨ f.ty = .own) : putField data locked frozen v f = v := by
  rcases h with h | h <;> simp [putField, h]

theorem putField_of_taken (h : f.ty = .rw ∨ f.ty = .rwl) (hl : locked = false) (hz : frozen f = false)
    (hr : holdsRange f (wbits data f.hi f.lo) = true) :
    putField data locked frozen v f = wput v f.hi f.lo (wbits data f.hi f.lo) := by
  rcases h with h | h <;> simp [putField, h, hl, hz, hr]

theorem putField_of_locked (h : f.ty = .rwl) (hl : locked = true) : putField data locked frozen v f = v := by
  simp [putField, h, hl]

theorem putField_of_ignored (h : f.ty = .rw ∨ f.ty = .rwl)
    (hi : frozen f = true ∨ holdsRange f (wbits data f.hi f.lo) = false) : putField data locked frozen v f = v := by
  rcases h with h | h <;> rcases hi with hi | hi <;> simp [putField, h, hi]

theorem putField_of_w1c (h : f.ty = .w1c) : putField data locked frozen v f =
    wput v f.hi f.lo (BitVec.ofNat 64 (wbits v f.hi f.lo) &&& ~~~ BitVec.ofNat 64 (wbits data f.hi f.lo)).toNat := by
  simp [putField, h]

theorem putField_of_w1s (h : f.ty = .w1s) : putField data locked frozen v f =
    wput v f.hi f.lo (BitVec.ofNat 64 (wbits v f.hi f.lo) ||| BitVec.ofNat 64 (wbits data f.hi f.lo)).toNat := by
  simp [putField, h]

end

/-- A field keeps its word, or puts a value into its own bits. -/
theorem putField_eq_or_wput (data : Word) (locked : Bool) (frozen : FieldDesc → Bool) (v : Word) (f : FieldDesc) :
    putField data locked frozen v f = v ∨ ∃ x, putField data locked frozen v f = wput v f.hi f.lo x := by
  simp only [putField]
  split
  · exact .inl rfl
  · exact .inl rfl
  · split
    · exact .inl rfl
    · exact .inr ⟨_, rfl⟩
  · split
    · exact .inl rfl
    · exact .inr ⟨_, rfl⟩
  · exact .inr ⟨_, rfl⟩
  · exact .inr ⟨_, rfl⟩

/-- One field leaves every field that shares no bit with it. -/
theorem wbits_putField_apart (data : Word) (locked : Bool) (frozen : FieldDesc → Bool) (v : Word) {f g : FieldDesc}
    (hf : f.InWord) (hg : g.InWord) (h : f.Apart g) :
    wbits (putField data locked frozen v f) g.hi g.lo = wbits v g.hi g.lo := by
  obtain he | ⟨x, he⟩ := putField_eq_or_wput data locked frozen v f
  · rw [he]
  · rw [he, wbits_wput_apart v x hf hg h]

/-! The fields of a register. -/

theorem wbits_foldl_putField_apart (data : Word) (locked : Bool) (frozen : FieldDesc → Bool) (v : Word) {l : List FieldDesc}
    {g : FieldDesc} (hg : g.InWord) (h : ∀ f ∈ l, f.InWord ∧ f.Apart g) :
    wbits (l.foldl (putField data locked frozen) v) g.hi g.lo = wbits v g.hi g.lo := by
  induction l generalizing v with
  | nil => rfl
  | cons f r ih =>
    obtain ⟨⟨hf, ha⟩, hr⟩ := List.forall_mem_cons.mp h
    rw [List.foldl_cons, ih _ hr, wbits_putField_apart data locked frozen v hf hg ha]

/-- In a register whose fields share no bit, a field after the write is that of its own `putField`, at a word that holds its old
value. -/
theorem putFields_field {d : RegDesc} (hd : d.FieldsApart) {f : FieldDesc} (hf : f ∈ d.fields) (data : Word) (locked : Bool)
    (frozen : FieldDesc → Bool) (v : Word) :
    ∃ u, wbits u f.hi f.lo = wbits v f.hi f.lo ∧
      wbits (putFields d data locked frozen v) f.hi f.lo = wbits (putField data locked frozen u f) f.hi f.lo := by
  obtain ⟨hin, hap⟩ := hd
  obtain ⟨l, r, hlr⟩ := List.append_of_mem hf
  rw [hlr, List.pairwise_append, List.pairwise_cons] at hap
  obtain ⟨-, ⟨hfr, -⟩, hlf⟩ := hap
  have hmem : ∀ g, g ∈ l ∨ g ∈ r → g.InWord := fun g hg =>
    hin g (hlr ▸ List.mem_append.mpr (hg.imp_right (List.mem_cons_of_mem f)))
  refine ⟨l.foldl (putField data locked frozen) v, ?_, ?_⟩
  · exact wbits_foldl_putField_apart data locked frozen v (hin f hf)
      fun g hg => ⟨hmem g (.inl hg), hlf g hg f List.mem_cons_self⟩
  · rw [putFields, hlr, List.foldl_append, List.foldl_cons]
    exact wbits_foldl_putField_apart data locked frozen _ (hin f hf) fun g hg => ⟨hmem g (.inr hg), (hfr g hg).symm⟩

/-- A bit of a field in a word made of the field's value alone. -/
theorem getLsbD_ofNat_wbits (w : Word) {f : FieldDesc} {i : Nat} (hf : f.InWord) (hl : f.lo ≤ i) (hh : i ≤ f.hi) :
    (BitVec.ofNat 64 (wbits w f.hi f.lo)).getLsbD (i - f.lo) = w.getLsbD i := by
  obtain ⟨-, h64⟩ := hf
  have hi : i - f.lo < 64 := by omega
  rw [BitVec.getLsbD_ofNat, testBit_wbits w hl hh, decide_eq_true hi, Bool.true_and]

/-- Settles O53: the fields of every register share no bit, so that each field takes the write by itself. -/
theorem registerFieldsFollowTheirTypes : Obligations.RegisterFieldsFollowTheirTypes := by
  intro k d f data v w locked frozen hk hf hw
  have hd := regs_fieldsApart d (mem_regs_of_regAt hk)
  have hin := hd.1 f hf
  obtain ⟨u, hu, he⟩ := putFields_field hd hf data locked frozen v
  rw [← hw] at he
  refine ⟨fun h => ?_, fun h hl hz hr => ?_, fun h hl => ?_, fun h hi => ?_, fun h i hl hh => ?_, fun h i hl hh => ?_⟩
  · rw [he, putField_of_unwritten u h, hu]
  · rw [he, putField_of_taken u h hl hz hr, wbits_wput_same u _ hin.1 hin.2, Nat.mod_eq_of_lt (wbits_lt data _ _)]
  · rw [he, putField_of_locked u h hl, hu]
  · rw [he, putField_of_ignored u h hi, hu]
  · have h64 : i - f.lo < 64 := by omega
    rw [putField_of_w1c u h, hu] at he
    rw [getLsbD_of_wbits_wput hin he hl hh, BitVec.testBit_toNat, BitVec.getLsbD_and, BitVec.getLsbD_not,
      getLsbD_ofNat_wbits v hin hl hh, getLsbD_ofNat_wbits data hin hl hh]
    simp [h64]
  · rw [putField_of_w1s u h, hu] at he
    rw [getLsbD_of_wbits_wput hin he hl hh, BitVec.testBit_toNat, BitVec.getLsbD_or,
      getLsbD_ofNat_wbits v hin hl hh, getLsbD_ofNat_wbits data hin hl hh]

end Sys2Proof.Machine
end

section
/-! PROOFS. Where a register write lands (00 R10, R11; 18 R701 to R705). -/
namespace Sys2Proof.Machine

theorem storeReg_of_not_void {s : State} {k : Nat} {d : RegDesc} {data : Word} (h : voidWrite s k d data = false) :
    storeReg s k d data =
      afterWrite s (wr s k (putFields d data (lockSet s k d) (frozenField s k data) (rd s k))) k data := by
  simp [storeReg, h]

theorem write32_of_reg {s : State} {f off k : Nat} {d : RegDesc} (data : Word) (hk : barKey s f off = some k)
    (hd : regAt k = some d) (hw : d.width = 32) : write32 s f off data = storeReg s k d (data &&& 0xFFFFFFFF) := by
  simp [write32, hk, hd, hw]

theorem reg64_of_reg {s : State} {f off k : Nat} {d : RegDesc} (hk : barKey s f off = some k) (hd : regAt k = some d)
    (hw : d.width = 64) : reg64 s f off = some (k, d) := by
  simp [reg64, hk, hd, hw]

theorem writeHalf_of_not_msix {s : State} {f off : Nat} (data : Word) (h : ¬ (0x20000 ≤ off ∧ off < 0x28000)) :
    writeHalf s f off data = write32 s f off data := by
  rw [writeHalf, if_neg (by simpa using h)]

theorem barWrite_of_unsupported {s : State} {f off n : Nat} (data : Word) (h : accessOk f off n = false) :
    barWrite s f off n data = s := by
  simp [barWrite, h]

theorem barWrite_four {s : State} {f off : Nat} (data : Word) (ha : accessOk f off 4 = true) (hm : inMbox f off = false) :
    barWrite s f off 4 data = writeHalf s f off data := by
  simp [barWrite, ha, hm]

theorem barWrite_eight_of_reg64 {s : State} {f off k : Nat} {d : RegDesc} (data : Word) (ha : accessOk f off 8 = true)
    (hm : inMbox f off = false) (hr : reg64 s f off = some (k, d)) : barWrite s f off 8 data = storeReg s k d data := by
  simp [barWrite, ha, hm, hr]

theorem exec_registerWrite_bar (fn : Part) (off : BitVec 26) (z : BarSize) (v : Word) (s : State) :
    exec (.registerWrite (.bar fn off z v)) s = .next (barWrite (hostTouch s) fn.toNat off.toNat (sizeBytes z) v) :=
  exec_registerWrite (.bar fn off z v) s

theorem exec_registerWrite_cfg (fn : Part) (c : CfgField) (v : Nat) (s : State) :
    exec (.registerWrite (.cfg fn c v)) s = .next (cfgWrite (hostTouch s) fn.toNat c v) :=
  exec_registerWrite (.cfg fn c v) s

/-- Settles O12: an access of a register's own width stores that register; an unsupported one stores nothing. -/
theorem registerWritesComplete : Obligations.RegisterWritesComplete := by
  rintro fn s u rfl
  refine ⟨?word32, ?word64, fun off z v ha => ?unsupported, fun c v => exec_registerWrite_cfg fn c v s⟩
  case word32 =>
    rintro off v k d ha hm hx hk hd hw hv t rfl
    rw [exec_registerWrite_bar, sizeBytes, barWrite_four v ha hm, writeHalf_of_not_msix v hx, write32_of_reg v hk hd hw,
      storeReg_of_not_void hv]
  case word64 =>
    rintro off v k d ha hm hk hd hw hv t rfl
    rw [exec_registerWrite_bar, sizeBytes, barWrite_eight_of_reg64 v ha hm (reg64_of_reg hk hd hw), storeReg_of_not_void hv]
  case unsupported =>
    rw [exec_registerWrite_bar, barWrite_of_unsupported v ha]

end Sys2Proof.Machine
end

section
/-! PROOFS. What counters, messages and error records change: registers, the host side and what has been sent, and nothing else
(09 R378 to R381; 10 R398; 11 R486, R488). -/
namespace Sys2Proof.Machine

/-- From `s` to `t` only registers, the host side and what has been sent may change. -/
def ReportsOnly (s t : State) : Prop :=
  { t with regs := s.regs, host := s.host, out := s.out } = s

namespace ReportsOnly

theorem refl (s : State) : ReportsOnly s s := rfl

theorem eq {s t : State} (h : ReportsOnly s t) : { t with regs := s.regs, host := s.host, out := s.out } = s := h

theorem trans {s t u : State} (h : ReportsOnly s t) (k : ReportsOnly t u) : ReportsOnly s u :=
  calc { u with regs := s.regs, host := s.host, out := s.out }
      = { { u with regs := t.regs, host := t.host, out := t.out } with regs := s.regs, host := s.host, out := s.out } := rfl
    _ = { t with regs := s.regs, host := s.host, out := s.out } := by rw [k.eq]
    _ = s := h.eq

theorem mem {s t : State} (h : ReportsOnly s t) : t.mem = s.mem := (congrArg State.mem h.eq :)
theorem sec {s t : State} (h : ReportsOnly s t) : t.sec = s.sec := (congrArg State.sec h.eq :)

theorem ite {s t u : State} {p : Prop} [Decidable p] (ht : ReportsOnly s t) (hu : ReportsOnly s u) :
    ReportsOnly s (if p then t else u) := by
  split
  · exact ht
  · exact hu

end ReportsOnly

theorem wr_reportsOnly (s : State) (key : Nat) (v : Word) : ReportsOnly s (wr s key v) := rfl

theorem wrF_reportsOnly (s : State) (key hi lo x : Nat) : ReportsOnly s (wrF s key hi lo x) := rfl

theorem emit_reportsOnly (s : State) (o : Output) : ReportsOnly s (emit s o) := rfl

theorem msixPut_reportsOnly (s : State) (f i : Nat) (e : Msix) : ReportsOnly s (msixPut s f i e) := rfl

theorem setPart_reportsOnly (s : State) (p : Nat) (x : Partition) : ReportsOnly s (setPart s p x) := rfl

theorem deliverMsix_reportsOnly (s : State) (f i : Nat) : ReportsOnly s (deliverMsix s f i) :=
  .ite (.ite (msixPut_reportsOnly s f i _) (emit_reportsOnly s _)) (.refl s)

theorem dropMsix_reportsOnly (s : State) : ReportsOnly s (dropMsix s) := by
  have flagged := (wrF_reportsOnly s Reg.pcieStatus 0 0 1).trans (wrF_reportsOnly _ Reg.errStatus 0 0 1)
  exact .ite (wr_reportsOnly s _ _) (.ite (.refl s) (.ite (flagged.trans (deliverMsix_reportsOnly _ 0 _)) flagged))

theorem sendMsix_reportsOnly (s : State) (f i : Nat) : ReportsOnly s (sendMsix s f i) :=
  .ite (deliverMsix_reportsOnly s f i) (dropMsix_reportsOnly s)

theorem counterEvent_reportsOnly (s : State) : ReportsOnly s (counterEvent s) :=
  (wrF_reportsOnly s Reg.errStatus 0 0 1).trans (sendMsix_reportsOnly _ 0 _)

theorem setOverflow_reportsOnly (s : State) (status bit : Nat) : ReportsOnly s (setOverflow s status bit) :=
  .ite (.refl s) ((wrF_reportsOnly s status bit bit 1).trans (counterEvent_reportsOnly _))

theorem bumpF_reportsOnly (s : State) (key hi lo status bit n : Nat) : ReportsOnly s (bumpF s key hi lo status bit n) :=
  .ite (wrF_reportsOnly s key hi lo _) ((wrF_reportsOnly s key hi lo _).trans (setOverflow_reportsOnly _ status bit))

theorem bump32_reportsOnly (s : State) (key status bit n : Nat) : ReportsOnly s (bump32 s key status bit n) :=
  bumpF_reportsOnly s key 31 0 status bit n

theorem notifyFaultq_reportsOnly (s : State) (p : Nat) : ReportsOnly s (notifyFaultq s p) :=
  have disarmed := setPart_reportsOnly s p { partOf s p with notify := false }
  .ite (.ite (disarmed.trans (sendMsix_reportsOnly _ p _)) disarmed) (.refl s)

theorem appendRec_reportsOnly (s : State) (r : ErrRec) : ReportsOnly s (appendRec s r) :=
  have stored := (setPart_reportsOnly s r.part _).trans (wr_reportsOnly _ (pkey r.part Reg.faultqHead) _)
  .ite ((bump32_reportsOnly s _ _ 0 1).trans (notifyFaultq_reportsOnly _ r.part)) (stored.trans (notifyFaultq_reportsOnly _ r.part))

theorem countSigFail_reportsOnly (s : State) (code : Nat) : ReportsOnly s (countSigFail s code) :=
  .ite (.refl s) (bump32_reportsOnly s _ _ 2 1)

theorem countFallback_reportsOnly (s : State) : ReportsOnly s (countFallback s) :=
  bump32_reportsOnly s _ _ 0 1

end Sys2Proof.Machine
end

section
/-! PROOFS. The firmware slots at start-up: what the loading of Keystone's registers leaves, and what the choice of a slot ends with
(16 R658, R667; 18 R712). -/
namespace Sys2Proof.Machine

theorem lset_lget {α : Type} (l : List α) (i : Nat) (d : α) : lset l i (lget l i d) = l := by
  induction l generalizing i with
  | nil => rfl
  | cons a r ih =>
    cases i with
    | zero => rfl
    | succ i => simpa [lset, lget] using ih i

theorem setSlotState_reportsOnly (s : State) (i state : Nat) :
    ReportsOnly (setSec s { s.sec with slots := lset s.sec.slots i { state := state, img := (slotAt s i).img } }) (setSlotState s i state) :=
  wr_reportsOnly _ _ _

theorem setSlotState_mem (s : State) (i state : Nat) : (setSlotState s i state).mem = s.mem :=
  (setSlotState_reportsOnly s i state).mem.trans (setSec_mem s _)

theorem setSlotState_host (s : State) (i state : Nat) : (setSlotState s i state).host = s.host :=
  (wr_host _ _ _).trans (setSec_host s _)

/-- A slot that is written with its own state is only shown again. -/
theorem setSlotState_same_reportsOnly (s : State) (i : Nat) : ReportsOnly s (setSlotState s i (slotAt s i).state) := by
  have hs : setSec s { s.sec with slots := lset s.sec.slots i (slotAt s i) } = s := by rw [slotAt, lset_lget]; rfl
  have h := setSlotState_reportsOnly s i (slotAt s i).state
  rwa [hs] at h

theorem slotAt_of_reportsOnly {s t : State} (h : ReportsOnly s t) (i : Nat) : slotAt t i = slotAt s i := by
  rw [slotAt, h.sec, slotAt]

theorem loadKeys_reportsOnly (s : State) : ReportsOnly s (loadKeys s) := by
  have h0 := setSlotState_same_reportsOnly s 0
  have h1 := setSlotState_same_reportsOnly (setSlotState s 0 (slotAt s 0).state) 1
  rw [slotAt_of_reportsOnly h0 1] at h1
  exact (h0.trans h1).trans (((wr_reportsOnly _ _ _).trans (wr_reportsOnly _ _ _)).trans (wr_reportsOnly _ _ _))

theorem loadKeys_host (s : State) : (loadKeys s).host = s.host := by
  unfold loadKeys
  extract_lets
  rw [wr_host, wr_host, wr_host, setSlotState_host, setSlotState_host]

theorem slotAt_loadKeys (s : State) (i : Nat) : slotAt (loadKeys s) i = slotAt s i :=
  slotAt_of_reportsOnly (loadKeys_reportsOnly s) i

theorem bootSlot_mem (s : State) (i : Nat) : (bootSlot s i).mem = s.mem := rfl
theorem bootSlot_host (s : State) (i : Nat) : (bootSlot s i).host = s.host := rfl
theorem bootSlot_running (s : State) (i : Nat) : (bootSlot s i).sec.running = some i := rfl
theorem bootSlot_verified (s : State) (i : Nat) : (bootSlot s i).sec.verified = true := rfl

theorem toRecovery_reportsOnly (s : State) (code : Nat) :
    ReportsOnly (setSec s { s.sec with recovery := true }) (toRecovery s code) :=
  wrF_reportsOnly _ _ _ _ _

theorem bootFail_reportsOnly (s : State) (i : Nat) (c : ImgCheck) : ReportsOnly (setSlotState s i 4) (bootFail s i c) :=
  (countSigFail_reportsOnly _ _).trans (wrF_reportsOnly _ _ _ _ _)

theorem bootFail_mem (s : State) (i : Nat) (c : ImgCheck) : (bootFail s i c).mem = s.mem :=
  (bootFail_reportsOnly s i c).mem.trans (setSlotState_mem s i 4)

/-- The choice of a slot from `s` is over in `t`, and memory is as it was. -/
def ChoiceOver (s t : State) : Prop :=
  t.sec.verified = true ∧ t.mem = s.mem

namespace ChoiceOver
variable {s t u : State}

theorem of_mem_eq (hm : u.mem = s.mem) (h : ChoiceOver u t) : ChoiceOver s t :=
  ⟨h.1, h.2.trans hm⟩

theorem reports (h : ChoiceOver s t) (k : ReportsOnly t u) : ChoiceOver s u :=
  ⟨(congrArg SecSt.verified k.sec).trans h.1, k.mem.trans h.2⟩

theorem setWaiting (h : ChoiceOver s t) (w : List ErrRec) : ChoiceOver s (setSec t { t.sec with waiting := w }) := h

end ChoiceOver

theorem bootSlot_choiceOver (s : State) (i : Nat) : ChoiceOver s (bootSlot s i) :=
  ⟨bootSlot_verified s i, bootSlot_mem s i⟩

theorem toRecovery_choiceOver (s : State) (code : Nat) : ChoiceOver s (toRecovery (setSec s { s.sec with verified := true }) code) := by
  have h : ChoiceOver s (setSec (setSec s { s.sec with verified := true }) { s.sec with verified := true, recovery := true }) := ⟨rfl, rfl⟩
  exact h.reports (toRecovery_reportsOnly _ code)

/-- A fallback ends the choice of a slot, whether one is booted or none. -/
theorem bootFallback_choiceOver (s : State) (failed : Option (Nat × ImgCheck)) : ChoiceOver s (bootFallback s failed) := by
  unfold bootFallback
  split
  case h_1 => exact toRecovery_choiceOver s _
  case h_2 i _ =>
    dsimp only
    split
    · have booted : ChoiceOver s (bootSlot (setSlotState s i 3) i) := (bootSlot_choiceOver _ i).of_mem_eq (setSlotState_mem s i 3)
      cases failed with
      | none => exact booted
      | some f => exact (booted.reports (countFallback_reportsOnly _)).setWaiting _
    · exact (toRecovery_choiceOver (bootFail s i _) _).of_mem_eq (bootFail_mem s i _)

theorem bootActive_of_passes {s : State} {i : Nat} (hi : slotIn s 3 = some i) (hc : (checkImage s (slotAt s i).img).result = 0) :
    bootActive s = bootSlot s i := by
  simp [bootActive, hi, hc]

theorem bootActive_choiceOver (s : State) : ChoiceOver s (bootActive s) := by
  unfold bootActive
  split
  case h_1 => exact bootFallback_choiceOver s none
  case h_2 i _ =>
    dsimp only
    split
    · exact bootSlot_choiceOver s i
    · exact (bootFallback_choiceOver (bootFail s i _) _).of_mem_eq (bootFail_mem s i _)

/-- Without a trial, the slots' choice starts from the ACTIVE slot. -/
theorem exec_slotBootVerify_of_no_trial {s : State} (hb : bootStep s 5 = true) (hv : s.sec.verified = false) (ht : s.sec.trial = none)
    (h0 : (slotAt s 0).state ≠ 2) (h1 : (slotAt s 1).state ≠ 2) : exec .slotBootVerify s = .next (bootActive (loadKeys s)) := by
  have fold : (List.range 2).foldl (fun s i => if (slotAt s i).state = 2 then setSlotState s i 4 else s) (loadKeys s) = loadKeys s := by
    simp [List.range_succ, slotAt_loadKeys, h0, h1]
  rw [exec_slotBootVerify, execSlotBootVerify, if_pos (by simp [hb, hv]), fold]
  simp [(loadKeys_reportsOnly s).sec, ht]

/-- The lower slot is the ACTIVE one. -/
theorem slotIn_active_zero {s : State} (h : (slotAt s 0).state = 3) : slotIn s 3 = some 0 := by
  simp [slotIn, List.range_succ, h]

end Sys2Proof.Machine
end

section
/-! PROOFS. The steps of start-up and the record of repairs (09 R362, R377; 14 R588; 16 R645, R653, R654, R657, R665). -/
namespace Sys2Proof.Machine

theorem not_recovery_of_bootStep {s : State} {n : Nat} (h : bootStep s n = true) : s.sec.recovery = false := by
  simp only [bootStep, Bool.and_eq_true, Bool.not_eq_true'] at h
  obtain ⟨⟨⟨-, hr⟩, -⟩, -⟩ := h
  exact hr

theorem exec_keyDerivation_some {s : State} (h : bootStep s 2 = true) (u : BitVec 128) :
    exec (.keyDerivation (some u)) s = .next (stepDone (setSec s { s.sec with ident := true, uid := u.toNat }) 2) := by
  rw [exec_keyDerivation, execKeyDerivation, if_pos h]

/-- Of two good copies of the record, the one of the higher generation is taken, and copy 0 where they are equal. -/
theorem exec_configurationRecordChoice_good {s : State} (h : bootStep s 3 = true) {b0 b1 : BitVec 2} {x y : Nat}
    (h0 : recJudge s 0 b0 = .inl x) (h1 : recJudge s 1 b1 = .inl y) :
    exec (.configurationRecordChoice b0 b1) s =
      .next (stepDone (setSec s { s.sec with taken := some (if x < y then 1 else 0), repairs := [] }) 3) := by
  rw [exec_configurationRecordChoice, execConfigurationRecordChoice, if_pos h]
  by_cases hxy : x < y <;> simp [h0, h1, hxy]

theorem exec_stackTraining_clocked {s : State} (h : bootStep s 4 = true) (id : BitVec 3) :
    exec (.stackTraining true id) s = .next (stepDone (setTclk (wr (draw s).2 Reg.linkId
      (BitVec.ofNat 64 (id.toNat + (draw s).1 % 2 ^ 32 * 2 ^ 32))) tclkFull) 4) := by
  rw [exec_stackTraining, execStackTraining, if_pos h]
  rfl

/-- DEVICE_ID stands below EPOCH. -/
theorem wbits_deviceId (id : BitVec 3) (e : Nat) : wbits (BitVec.ofNat 64 (id.toNat + e % 2 ^ 32 * 2 ^ 32)) 2 0 = id.toNat := by
  have hid := id.isLt
  rw [wbits, bitsN, BitVec.toNat_ofNat]
  omega

theorem exec_memoryFill_once {s : State} (h : bootStep s 5 = true) (hf : s.sec.filled = false) :
    exec .memoryFill s =
      .next (setSec (setMem s { s.mem with dram := [], pdev := [], claims := [], fillQ := [] }) { s.sec with filled := true }) := by
  rw [exec_memoryFill, execMemoryFill, if_pos (by simp [h, hf])]

/-- The release of the Gantry writes its digests and, but for an exit from A3, the Weighbridge. -/
theorem exec_gantryRelease_running {s : State} (h : bootStep s 5 = true) (hf : s.sec.filled = true) (hv : s.sec.verified = true) {i : Nat}
    (hr : s.sec.running = some i) : ∃ (w : WbSt) (ds : List (List Byte)),
      exec .gantryRelease s = .next (stepDone (setSec (setWb s w) { s.sec with digests := ds }) 6) := by
  rw [exec_gantryRelease, execGantryRelease, if_pos (by simp [h, hf, hv]), hr]
  by_cases ha : s.sec.cause = .exitA3
  · simp only [ha, if_true]
    exact ⟨s.wb, _, rfl⟩
  · simp only [ha, if_false]
    exact ⟨_, _, rfl⟩

theorem wrF_mem (s : State) (key hi lo x : Nat) : (wrF s key hi lo x).mem = s.mem := rfl
theorem wrF_host (s : State) (key hi lo x : Nat) : (wrF s key hi lo x).host = s.host := rfl
theorem rdF_setSec (s : State) (x : SecSt) (key hi lo : Nat) : rdF (setSec s x) key hi lo = rdF s key hi lo := rfl

/-- FW_STATUS as READY leaves it outside recovery. -/
def showReady (s : State) (standby trial : Bool) : State :=
  wrF (wrF (wrF (wrF s Reg.fwStatus 1 1 1) Reg.fwStatus 2 2 0) Reg.fwStatus 3 3 (b2n standby)) Reg.fwStatus 4 4 (b2n trial)

theorem showReady_ready (s : State) (standby trial : Bool) : rdF (showReady s standby trial) Reg.fwStatus 1 1 = 1 := by
  unfold showReady
  rw [rdF_wrF_below, rdF_wrF_below, rdF_wrF_below, rdF_wrF_same] <;> decide

theorem showReady_recovery (s : State) (standby trial : Bool) : rdF (showReady s standby trial) Reg.fwStatus 2 2 = 0 := by
  unfold showReady
  rw [rdF_wrF_below, rdF_wrF_below, rdF_wrF_same] <;> decide

theorem showReady_mem (s : State) (standby trial : Bool) : (showReady s standby trial).mem = s.mem := by
  rw [showReady, wrF_mem, wrF_mem, wrF_mem, wrF_mem]

theorem showReady_host (s : State) (standby trial : Bool) : (showReady s standby trial).host = s.host := by
  rw [showReady, wrF_host, wrF_host, wrF_host, wrF_host]

theorem exec_ready_of_bootStep {s : State} (h : bootStep s 8 = true) :
    ∃ x : SecSt, x.step = 8 ∧ exec .ready s = .next (setSec (showReady s s.sec.standby.isSome s.sec.trial.isSome) x) := by
  have hr := not_recovery_of_bootStep h
  rw [exec_ready, execReady, if_pos (by simp [h])]
  simp only [hr]
  exact ⟨_, rfl, rfl⟩

theorem exec_logicalCoreAssignment_next {s : State} (h : bootStep s 7 = true) (back : List Nat) :
    ∃ t, exec (.logicalCoreAssignment back) s = .next t ∧ t.sec.step = 7 := by
  rw [exec_logicalCoreAssignment, execLogicalCoreAssignment, if_pos h]
  exact ⟨_, rfl, rfl⟩

theorem showKeys_reportsOnly (s : State) : ReportsOnly s (showKeys s) :=
  ((wrF_reportsOnly s Reg.keyStatus 20 0 _).trans (wrF_reportsOnly _ Reg.keyStatus 47 32 _)).trans (wrF_reportsOnly _ Reg.keyStatus 51 48 _)

/-- A signature by the device's HSS key leaves memory. -/
theorem useKey_mem (s : State) : (useKey s).mem = s.mem := by
  have noted : ∀ x y r, (appendRec (setSec (showKeys (setSec s x)) y) r).mem = s.mem := fun x y r => by
    rw [(appendRec_reportsOnly _ r).mem, setSec_mem, (showKeys_reportsOnly _).mem, setSec_mem]
  simp only [useKey]
  split
  · exact noted _ _ _
  · split
    · exact noted _ _ _
    · rw [(showKeys_reportsOnly _).mem, setSec_mem]

/-- An append that reads back takes the new copy. -/
theorem exec_configurationRecordAppend_good {s : State} {i : Nat} {r : ConfigRec} (ht : s.sec.taken = some i)
    (hr : (s.sec.recs[i]?).join = some r) (hp : s.sec.repairs ≠ []) (hi : s.sec.ident = true) (hl : lmsLeft s ≠ 0) :
    exec (.configurationRecordAppend true) s = .next (setSec (useKey s) { (useKey s).sec with
      recs := lset (useKey s).sec.recs (1 - i) (some { r with gen := r.gen + 1, added := r.added ++ s.sec.repairs }),
      taken := some (1 - i), cfgGen := r.gen + 1, repairs := [] }) := by
  simp [execConfigurationRecordAppend, ht, hr, hp, hi, hl]

/-- Settles O8: each step of start-up from the equation of its command; the slot from the case that the ACTIVE one passes. -/
theorem bootStepsComplete : Obligations.BootStepsComplete := by
  refine ⟨fun s => ⟨fun h u => ?key, fun h b0 b1 x y h0 h1 => ?record, fun h id => ?training, fun h hf => ?fill,
    fun h hf hv i hr => ?gantry, fun h => ?ready⟩,
    fun s => ⟨fun h hv ht a b hs ha hb => ?slot, exec_logicalCoreAssignment_next, fun i r ht hr hp hi hl => ?append⟩⟩
  case key => exact ⟨_, exec_keyDerivation_some h u, rfl, rfl, rfl, not_recovery_of_bootStep (s := s) h, rfl⟩
  case record => exact ⟨_, exec_configurationRecordChoice_good h h0 h1, rfl, rfl, rfl⟩
  case training =>
    refine ⟨_, exec_stackTraining_clocked h id, ?_, rfl, rfl, rfl⟩
    change wbits (rd (wr (draw s).2 Reg.linkId _) Reg.linkId) 2 0 = id.toNat
    rw [rd_wr_same, wbits_deviceId]
  case fill => exact ⟨_, exec_memoryFill_once h hf, rfl, rfl, rfl, rfl⟩
  case gantry =>
    obtain ⟨w, ds, he⟩ := exec_gantryRelease_running h hf hv hr
    exact ⟨_, he, rfl, rfl, rfl⟩
  case ready =>
    obtain ⟨x, hx, he⟩ := exec_ready_of_bootStep h
    refine ⟨_, he, hx, ?_, ?_, ?_, ?_⟩
    · rw [rdF_setSec, showReady_ready]
    · rw [rdF_setSec, showReady_recovery]
    · rw [setSec_mem, showReady_mem]
    · rw [setSec_host, showReady_host]
  case slot =>
    have h0 : slotAt s 0 = a := by rw [slotAt, hs]; rfl
    have h1 : slotAt s 1 = b := by rw [slotAt, hs]; rfl
    have hin : slotIn (loadKeys s) 3 = some 0 := slotIn_active_zero (by rw [slotAt_loadKeys, h0, ha])
    obtain ⟨hver, hmem⟩ := bootActive_choiceOver (loadKeys s)
    refine ⟨_, exec_slotBootVerify_of_no_trial h hv ht (by simp [h0, ha]) (by simpa [h1] using hb), hver,
      hmem.trans (loadKeys_reportsOnly s).mem, fun hc => ?_⟩
    rw [bootActive_of_passes hin (by rw [slotAt_loadKeys, h0, hc])]
    exact ⟨bootSlot_running _ 0, (bootSlot_host _ 0).trans (loadKeys_host s)⟩
  case append => exact ⟨_, exec_configurationRecordAppend_good ht hr hp hi hl, rfl, rfl, rfl, useKey_mem s⟩

end Sys2Proof.Machine
end

section
/-! PROOFS. SRAM errors and the retirement of core sites (09 R369, R371, R374, R375). -/
namespace Sys2Proof.Machine

section
variable {s : State} {n : CoreId} {d : Drain}

/-- A drained core that is empty goes to the free spare site of its bench. -/
theorem exec_spareAssignment_of_spare {k : Nat} (hd : drainOf s n.toNat = some d) (hk : mget s.site.spares (n.toNat / 8) = some k)
    (ha : d.assigned = false) (he : coreEmpty s n.toNat = true) {u : State}
    (hu : u = setCore s { s.core with cores := mdel s.core.cores n.toNat }) :
    exec (.spareAssignment n) s = .next (showSites { u with site := { u.site with
      sites := mset s.site.sites n.toNat k, spares := mdel s.site.spares (n.toNat / 8),
      drains := s.site.drains.map (fun x => if x.core = n.toNat then { x with assigned := true } else x) } }) := by
  subst hu
  simp [execSpareAssignment, hd, hk, ha, he]

/-- A promotion ends once the core has its spare site. -/
theorem exec_promotionComplete_of_assigned (hd : drainOf s n.toNat = some d) (ha : d.assigned = true) {u v : State}
    (hu : u = showSites { s with site := { s.site with drains := s.site.drains.filter (fun x => x.core ≠ n.toNat) } })
    (hv : v = bump32 (retireSite u d) Reg.errCorePromoteCount Reg.errStatus 10 1) :
    exec (.promotionComplete n) s =
      .next (settle (appendRec v (coreRecord v Cond.corePromoted d (mgetD s.site.sites n.toNat 0)))) := by
  subst hv hu
  simp [execPromotionComplete, hd, ha]

/-- A drained core that is empty is lost where its bench has no spare site. -/
theorem exec_coreUnavailable_of_no_spare (hd : drainOf s n.toNat = some d) (ha : d.assigned = false)
    (hk : mget s.site.spares (n.toNat / 8) = none) (he : coreEmpty s n.toNat = true) {u : State}
    (hu : u = showSites { s with site := { s.site with
      sites := mdel s.site.sites n.toNat, drains := s.site.drains.filter (fun x => x.core ≠ n.toNat) } }) :
    exec (.coreUnavailable n) s = .next (settle (appendRec (retireSite u d) (coreRecord u Cond.coreUnavailable d 0xFF))) := by
  subst hu
  simp [execCoreUnavailable, hd, ha, hk, he]

end

theorem exec_errCoreRetire_of_not_recovery {s : State} (h : s.sec.recovery = false) (v : Word32) :
    exec (.errCoreRetire v) s = .next (settle (triggerCore (hostTouch s) (bitsN v.toNat 5 0) 3)) := by
  simp [execErrCoreRetire, h]

theorem exec_sramError_corrected (a : SramArray) (row : BitVec 32) (s : State) : exec (.sramError a row true) s =
    .next (settle (countRow (countCore (bump64 s Reg.errSramCorrCount Reg.errStatus 7 1) a) row.toNat)) := by
  rw [exec_sramError, execSramError, if_pos rfl]

theorem exec_sramError_uncorrected (a : SramArray) (row : BitVec 32) (s : State) : exec (.sramError a row false) s =
    .next (settle (sramLost (addRepair (countCore (bump32 s Reg.errSramUncorrCount Reg.errStatus 8 1) a) 4 row.toNat) a)) := by
  rw [exec_sramError, execSramError, if_neg Bool.false_ne_true]

/-- Settles O32: the three ends of a drain by whether it has a spare site and was given it. -/
theorem spareCommandsComplete : Obligations.SpareCommandsComplete := by
  refine ⟨fun a row s u => ⟨?corrected, ?uncorrected⟩, ?retire, fun n s u d hd => ⟨?spare, ?promoted, ?unavailable⟩⟩
  case corrected => rintro rfl; exact exec_sramError_corrected a row s
  case uncorrected => rintro rfl; exact exec_sramError_uncorrected a row s
  case retire => rintro v s u h rfl; exact exec_errCoreRetire_of_not_recovery h v
  case spare => exact fun k hk ha he hu => exec_spareAssignment_of_spare hd hk ha he hu
  case promoted => exact fun v ha hu hv => exec_promotionComplete_of_assigned hd ha hu hv
  case unavailable => exact fun ha hk he hu => exec_coreUnavailable_of_no_spare hd ha hk he hu

end Sys2Proof.Machine
end

section
/-! PROOFS. The codes of E4M3 (02 R34, R35). -/
namespace Sys2Proof

/-- E4M3 by the fields of the code: the one NaN of a sign, the zero exponent field, and every other code normal. -/
theorem decodeFmt_e4m3 (x : Nat) : decodeFmt Fmt.E4M3 x =
    if x / 8 % 16 = 15 ∧ x % 8 = 7 then .nan
    else if x / 8 % 16 = 0 then .fin (bitN x 7) (x % 8) (-9)
    else .fin (bitN x 7) (8 + x % 8) ((x / 8 % 16 : Nat) - 10) := by
  have hexp : -6 + (x : Int) / 8 % 16 - 1 - 3 = (x : Int) / 8 % 16 - 10 := by ring
  simp [decodeFmt, fpOf, decodeFp, hexp]

/-- The sign of a byte is its top bit. -/
theorem bitN_seven_of_byte {x : Nat} (h : x < 256) : bitN x 7 = decide (128 ≤ x) := by
  rw [bitN, decide_eq_decide]
  omega

theorem decodeFmt_e4m3_eq_nan_iff (x : Nat) : decodeFmt Fmt.E4M3 x = .nan ↔ x / 8 % 16 = 15 ∧ x % 8 = 7 := by
  rw [decodeFmt_e4m3]
  split
  next h => simp [h]
  next h => split <;> simp [h]

theorem decodeFmt_e4m3_ne_inf (x : Nat) (n : Bool) : decodeFmt Fmt.E4M3 x ≠ .inf n := by
  rw [decodeFmt_e4m3]
  split
  · exact Val.noConfusion
  · split <;> exact Val.noConfusion

/-- Settles O59: by the fields of the code. -/
theorem e4m3HasTwoNansAndNoInfinity : Obligations.E4m3HasTwoNansAndNoInfinity := by
  refine fun x hx => ⟨?nan, decodeFmt_e4m3_ne_inf x, fun he hm => ?normal⟩
  case nan =>
    rw [decodeFmt_e4m3_eq_nan_iff]
    omega
  case normal =>
    rw [decodeFmt_e4m3, if_neg (by omega), if_neg (by omega), bitN_seven_of_byte hx, he]
    rfl

end Sys2Proof
end

section
/-! PROOFS. The elements of a packed run (02 R41). -/
namespace Sys2Proof.Machine

/-- Byte `j` of the number that bytes spell. -/
theorem leNat_div_mod_of_getElem? {bs : List Byte} {j : Nat} {v : Byte} (h : bs[j]? = some v) :
    leNat bs / 256 ^ j % 256 = v.toNat := by
  induction bs generalizing j with
  | nil => simp at h
  | cons a r ih =>
    cases j with
    | zero =>
      have ha : a = v := by simpa using h
      have := v.isLt
      rw [leNat, ha]
      omega
    | succ j =>
      have hd : leNat (a :: r) / 256 = leNat r := by
        have := a.isLt
        rw [leNat]
        omega
      rw [Nat.pow_succ', ← Nat.div_div_eq_div_mul, hd]
      exact ih (by simpa using h)

/-- Bits of a number's low byte are bits of the number. -/
theorem mod_byte_div_mod (y : Nat) {r b : Nat} (h : r + b ≤ 8) : y % 256 / 2 ^ r % 2 ^ b = y / 2 ^ r % 2 ^ b := by
  have hd : 2 ^ r * 2 ^ b ∣ 256 := by
    rw [← pow_add]
    exact pow_dvd_pow 2 h
  rw [← Nat.mod_mul_right_div_self, Nat.mod_mod_of_dvd y hd, Nat.mod_mul_right_div_self]

/-- Element `i` of a run, of `p` elements a byte. -/
theorem unpack_getElem? {fmt p n i : Nat} {bs : List Byte} {v : Byte} (hp : fmtBits fmt * p = 8) (hi : i < n)
    (hv : bs[i / p]? = some v) :
    (unpack fmt n bs)[i]? = some (v.toNat / 2 ^ (fmtBits fmt * (i % p)) % 2 ^ fmtBits fmt) := by
  generalize hb : fmtBits fmt = b at hp ⊢
  have hbit : b * i = 8 * (i / p) + b * (i % p) := by
    rw [← hp, Nat.mul_assoc, ← Nat.mul_add, Nat.div_add_mod]
  have hin : b * (i % p) + b ≤ 8 := by
    have : i % p < p := Nat.mod_lt _ (Nat.pos_of_ne_zero (by rintro rfl; omega))
    calc b * (i % p) + b = b * (i % p + 1) := by ring
      _ ≤ b * p := Nat.mul_le_mul_left b this
      _ = 8 := hp
  have hx : leNat bs / 2 ^ (b * i) = leNat bs / 256 ^ (i / p) / 2 ^ (b * (i % p)) := by
    rw [hbit, pow_add, pow_mul, show 2 ^ 8 = 256 from rfl, Nat.div_div_eq_div_mul]
  rw [← leNat_div_mod_of_getElem? hv, mod_byte_div_mod _ hin, ← hx]
  simp [unpack, hb, hi]

/-- The weight formats fill a byte with whole elements. -/
theorem weightFmts_fill_byte :
    ∀ w ∈ [(Fmt.W1, 1, 8), (Fmt.W2T, 2, 4), (Fmt.W2C, 2, 4), (Fmt.W4I, 4, 2), (Fmt.W4C, 4, 2)],
      fmtBits w.1 = w.2.1 ∧ w.2.1 * w.2.2 = 8 := by
  decide

/-- Settles O60: by where the element's byte lies in the number that the run spells. -/
theorem weightsPackFromBitZero : Obligations.WeightsPackFromBitZero := by
  intro fmt b p n i bs hf hi hn
  obtain ⟨rfl, hp⟩ : fmtBits fmt = b ∧ b * p = 8 := weightFmts_fill_byte _ hf
  have hj : i / p < bs.length := Nat.div_lt_of_lt_mul (hi.trans_le hn)
  rw [unpack_getElem? hp hi (List.getElem?_eq_getElem hj), List.getElem?_eq_getElem hj, Option.map_some]

end Sys2Proof.Machine
end

section
/-! PROOFS. Entries that go to an engine (03 R86; 05 R170, R182; 09 R364; 10 R416, R420, R421). -/
namespace Sys2Proof.Machine

theorem mgetD_mset_same {α : Type} (m : Map α) (k : Nat) (v d : α) : mgetD (mset m k v) k d = v := by
  rw [mgetD, mget_mset_same, Option.getD_some]

section
variable {s : State} {p : Part} {i : BitVec 10} {r : Ring} {e : Entry}

theorem exec_dispatch_of_ready (h : readyEntry s p.toNat i.toNat 0x01 = some (r, e)) {rk : Nat} (hk : rk = rkey p.toNat i.toNat) :
    exec (.dispatch p i) s = .next (settle (startDispatch (dispatched s rk r e) (entryOrigin rk r e) e.desc)) := by
  rw [exec_dispatch, execDispatch, h, hk]

theorem exec_tensor_of_ready (h : readyEntry s p.toNat i.toNat 0x02 = some (r, e)) {rk : Nat} (hk : rk = rkey p.toNat i.toNat) :
    exec (.tensor p i) s =
      .next (settle (startTensor (dispatched s rk r e) (entryOrigin rk r e) e.desc (ePayload e.bytes))) := by
  rw [exec_tensor, execTensor, h, hk]

/-- A load's entry lets its load join the line of its partition, which changes the core side alone. -/
theorem exec_loadModule_of_ready (h : readyEntry s p.toNat i.toNat 0x07 = some (r, e)) {rk : Nat} (hk : rk = rkey p.toNat i.toNat)
    {t : State} (ht : t = dispatched s rk r e) :
    exec (.loadModule p i) s = .next (settle (setCore t { t.core with
      loads := mset t.core.loads p.toNat (mgetD t.core.loads p.toNat [] ++
        [{ org := entryOrigin rk r e, desc := e.desc, start := s.dtime }]) })) := by
  rw [exec_loadModule, execLoadModule, h, ht, hk]

/-- The unload of a module that the handle names waits under its work's identifier. -/
theorem exec_unloadModule_of_found (h : readyEntry s p.toNat i.toNat 0x08 = some (r, e)) {k : Nat} {m : Module}
    (hm : findModule s p.toNat (eArg e.bytes % 2 ^ 32) = some (k, m)) {rk : Nat} (hk : rk = rkey p.toNat i.toNat)
    {t : State} (ht : t = dispatched s rk r e) :
    exec (.unloadModule p i) s =
      .next (settle (setCore t { t.core with modUnloads := mset t.core.modUnloads e.wid k })) := by
  rw [exec_unloadModule, execUnloadModule, h, ht, hk]
  simp only [hm]

theorem exec_copy_of_ready (h : readyEntry s p.toNat i.toNat 0x04 = some (r, e)) {rk : Nat} (hk : rk = rkey p.toNat i.toNat) :
    exec (.copy p i) s = .next (settle (addCopy (dispatched s rk r e) (copyOf s (entryOrigin rk r e) e.desc))) := by
  rw [exec_copy, execCopy, h, hk]
  rfl

theorem exec_scrub_of_ready (h : readyEntry s p.toNat i.toNat 0x06 = some (r, e)) {rk : Nat} (hk : rk = rkey p.toNat i.toNat) :
    exec (.scrub p i) s = .next (settle (addCopy (dispatched s rk r e) (scrubOf s (entryOrigin rk r e) e.desc))) := by
  rw [exec_scrub, execScrub, h, hk]
  rfl

end

/-- Settles O18: each entry by its own command's equation at a ready entry. -/
theorem engineEntriesComplete : Obligations.EngineEntriesComplete := by
  intro p i s rk r e hk
  refine ⟨fun h => exec_dispatch_of_ready h hk, fun h => exec_tensor_of_ready h hk, fun h => ?load, fun k m h hm => ?unload,
    ?copy, ?scrub⟩
  case load =>
    refine ⟨_, exec_loadModule_of_ready h hk rfl, setCore_frame _ _, ?_⟩
    rw [setCore_core, mgetD_mset_same]
  case unload =>
    refine ⟨_, exec_unloadModule_of_found h hm hk rfl, setCore_frame _ _, ?_⟩
    rw [setCore_core, mget_mset_same]
  case copy =>
    rintro q h rfl
    exact exec_copy_of_ready h hk
  case scrub =>
    rintro q h rfl
    exact exec_scrub_of_ready h hk

end Sys2Proof.Machine
end

section
/-! PROOFS. The units of copy engines, the end of a module load, and the steps of tensor work (03 R75, R78, R85, R108, R109, R111;
05 R174; 10 R718; 12 R516). -/
namespace Sys2Proof.Machine

section
variable {s : State}

theorem exec_copyEngineBoundary_of_next {c : BitVec 2} {op : CopyOp} (h : copyNext s c.toNat = some op) (ext : HostRead) :
    exec (.copyEngineBoundary c ext) s = .next (settle (copyStep s c.toNat op ext)) := by
  rw [exec_copyEngineBoundary, execCopyEngineBoundary, h]

/-- An operation stops where its own preemption was asked for, or that of its context. -/
theorem exec_copyPreemption_of_asked {c : BitVec 2} {wid : Nat} {op : CopyOp}
    (h : (copiesOf s c.toNat).find? (fun q => q.org.wid = wid) = some op)
    (ha : (Engine.copy c.toNat, wid) ∈ s.sched.stopOps ∨ (Engine.copy c.toNat, op.org.ctx) ∈ s.sched.stopCtx) :
    exec (.copyPreemption c wid) s = .next (preemptCopy (stopMade s (Engine.copy c.toNat) wid) c.toNat op) := by
  simp [execCopyPreemption, h, ha]

theorem exec_moduleLoadEnd_of_line {p : Part} {l : LoadOp} {rest : List LoadOp} (h : mgetD s.core.loads p.toNat [] = l :: rest)
    (a b : HostRead) (f : Findings) : exec (.moduleLoadEnd p a b f) s = .next (endLoad s p.toNat l rest a b f) := by
  rw [exec_moduleLoadEnd, execModuleLoadEnd, h]

theorem exec_kStep_of_live {n : CoreId} (hc : coreLive s n.toNat = true) (hh : headLive s n.toNat = true) :
    exec (.kStep n) s = .next (arrayStep s n.toNat) := by
  rw [exec_kStep, execKStep, if_pos (by simp [hc, hh])]

/-- The records of a fault are those of every array that runs the item and meets one; then the item stops. -/
theorem exec_tensorFault_of_head {n : CoreId} {r : TRun} {rest : List TRun} (hq : queueOf s n.toNat = r :: rest)
    (hh : headLive s n.toNat = true) (hf : (arrayFault s n.toNat r.item).isSome) {t : State}
    (ht : t = (faultingArrays s r.item).foldl (fun s n => arrayRecord s n r.item) s) {it : TItem} (hi : itemOf t r.item = some it) :
    exec (.tensorFault n) s = .next (noteConds (stopItem t r.item it)) := by
  obtain ⟨x, hx⟩ := Option.isSome_iff_exists.mp hf
  rw [exec_tensorFault, execTensorFault, hq]
  simp [hh, hx, ← ht, hi]

theorem exec_tensorCompletion_of_first {item : Nat} {it : TItem} (hi : itemOf s item = some it) (hr : it.runsLeft = 0)
    (hf : itemFirst s item it = true) : exec (.tensorCompletion item) s = .next (settle (endItem s item it)) := by
  simp [execTensorCompletion, hi, hr, hf]

theorem exec_tensorPreemption_of_asked {n : CoreId} {item : Nat} {r : TRun} {it : TItem}
    (hr : (queueOf s n.toNat).find? (fun r => r.item = item) = some r) (hi : itemOf s item = some it)
    (ha : arrayAsked s n.toNat item it = true) : exec (.tensorPreemption n item) s =
      .next (noteConds (stopMade (saveRun s n.toNat r it) (Engine.tensor n.toNat) item)) := by
  simp [execTensorPreemption, hr, hi, ha]

end

/-- Settles O20: a resumption needs nothing; every other step by its command's equation where it is due. -/
theorem engineStepsComplete : Obligations.EngineStepsComplete := by
  refine ⟨fun c ext s op h => exec_copyEngineBoundary_of_next h ext, fun c wid s op => exec_copyPreemption_of_asked,
    fun p a b f s l rest h => exec_moduleLoadEnd_of_line h a b f, fun n s => ⟨?resume, exec_kStep_of_live, ?fault⟩,
    fun item s it => exec_tensorCompletion_of_first, fun n item s r it => exec_tensorPreemption_of_asked⟩
  case resume => rw [exec_tensorResume, execTensorResume]
  case fault => exact fun r rest it hq hh hf hi => exec_tensorFault_of_head hq hh hf rfl hi

end Sys2Proof.Machine
end

section
/-! PROOFS. XMT.core instructions on tensor tickets, tiles, time bases and the scan; YIELD, SLEEP and TRAP (03 R84; 04 R127; 05 R196
to R198, R200 to R202, R208, R209). -/
namespace Sys2Proof.Machine

/-- The thread and the device address of a target, where it has one. -/
def devTarget (e : Nat × Target) : Option (Nat × Nat) :=
  match e.2 with
  | .dev va => some (e.1, va)
  | _ => none

section
variable {s : State} {n : CoreId} {gid : Nat} {w : WG} {g : Group}

/-- An issue that faults nowhere: each distinct descriptor becomes one item, and each thread gets the ticket of its own. -/
theorem exec_tensorIssue_of_no_fault {p : MemPtr} {dst : Nat} {u : State} {base : Nat × Nat} {ds : List Target}
    (h : readyGroup s n.toNat gid (dst :: ptrUses p) = some (w, g)) (hw : tensorStage w = true) (hf : arrayFull s n.toNat = false)
    (hp : ptrBase s n.toNat w gid p = (u, .inr base)) (hd : descFaults u n.toNat w (targetsOf g 128 p base) = [])
    (hds : ds = distinctTargets (targetsOf g 128 p base)) :
    exec (.tensorIssue n gid p dst) s = .next (settle (ds.foldl (fun s x => issueOne s n.toNat w.wgid x)
      (nextInstr u n.toNat w ((targetsOf g 128 p base).foldl (fun h e =>
        regWrN h e.1 dst 1 (ticketAfter w.issued (ds.findIdx (fun x => x = e.2)))) g)))) := by
  simp [execTensorIssue, h, hw, hf, hp, hd, hds]

section
variable {a : Src} {dst : Nat} (h : readyGroup s n.toNat gid (dst :: srcUses 32 a) = some (w, g)) (hw : tensorStage w = true)
include h hw

/-- A wait for items of which one is not done: the set waits for the latest of these. -/
theorem exec_tensorWait_of_pending {wait : List Nat}
    (hl : wait = ((threadsOf g.cur.mask).map (fun t => srcVal g t a)).filter (fun t => ! ticketVoid t w.issued)) {t : Nat}
    (ht : latest (wait.filter (fun t => ! ticketDone w t)) = some t) :
    exec (.tensorWait n gid a dst) s = .next (setGroup s n.toNat w (waitSet (countIssue g) (.ticket t))) := by
  subst hl
  simp only [exec_tensorWait, execTensorWait, h, hw, ht, Bool.not_true, Bool.false_eq_true, if_false]

/-- A wait for items that are all done: each thread gets whether its ticket names one, after an acquire where one does. -/
theorem exec_tensorWait_of_done {wait : List Nat}
    (hl : wait = ((threadsOf g.cur.mask).map (fun t => srcVal g t a)).filter (fun t => ! ticketVoid t w.issued))
    (ht : latest (wait.filter (fun t => ! ticketDone w t)) = none) {t : State}
    (hu : t = nextInstr s n.toNat w (perThread g (fun t h => regWrN h t dst 1 (b2n (! ticketVoid (srcVal g t a) w.issued))))) :
    exec (.tensorWait n gid a dst) s = .next (if wait = [] then t else l1Clear t n.toNat) := by
  subst hl hu
  simp only [exec_tensorWait, execTensorWait, h, hw, ht, Bool.not_true, Bool.false_eq_true, if_false, List.isEmpty_iff]

/-- A poll: each thread gets whether its ticket names an item that is done, with an acquire where one does. -/
theorem exec_tensorPoll_of_ready {ok : Nat → Bool}
    (hok : ∀ x, ok x = (! ticketVoid (srcVal g x a) w.issued && ticketDone w (srcVal g x a))) {t : State}
    (ht : t = nextInstr s n.toNat w (perThread g (fun x h => regWrN h x dst 1 (b2n (ok x))))) :
    exec (.tensorPoll n gid a dst) s = .next (if (threadsOf g.cur.mask).any ok then l1Clear t n.toNat else t) := by
  obtain rfl := funext hok
  subst ht
  simp only [exec_tensorPoll, execTensorPoll, h, hw, Bool.not_true, Bool.false_eq_true, if_false]

end

/-- A handoff whose distinct addresses fit the tile is registered there. -/
theorem exec_tileHandoff_of_fit {p : MemPtr} {u : State} {base : Nat × Nat} {t : TileSt} {l : List (Nat × Nat)} {hs : List Nat}
    (h : readyGroup s n.toNat gid (ptrUses p) = some (w, g)) (ht : tileOfWG s n.toNat w = some t) (hb : t.banks ≠ 0)
    (hp : ptrBase s n.toNat w gid p = (u, .inr base)) (hl : l = (targetsOf g 0 p base).filterMap devTarget)
    (hh : addHandoffs t.handoffs (l.map (fun e => e.2)) = .inl hs) :
    exec (.tileHandoff n gid p) s = .next (nextInstr (setTile u n.toNat { t with handoffs := hs }) n.toNat w g) := by
  simp only [exec_tileHandoff, execTileHandoff, h, ht, hb, hp, if_false]
  generalize hm : List.filterMap _ _ = m
  obtain rfl : l = m := hl.trans hm
  rw [hh]

theorem exec_cadenceRead_of_ready {dst : Nat} (h : readyGroup s n.toNat gid [dst, dst + 1] = some (w, g)) :
    exec (.cadenceRead n gid dst) s = .next (nextInstr s n.toNat w (regAll g g.cur.mask dst 2
      ((cadNow s).2 + ((cadNow s).1 % 2 ^ 31 + b2n s.sched.cadence.locked * 2 ^ 31) * 2 ^ 32))) := by
  simp only [exec_cadenceRead, execCadenceRead, h]

theorem exec_lineRead_of_ready {dst : Nat} (h : readyGroup s n.toNat gid [dst] = some (w, g)) (d : BitVec 1) :
    exec (.lineRead n gid d dst) s = .next (nextInstr s n.toNat w (regAll g g.cur.mask dst 1 (lineWord s d.toNat))) := by
  simp only [exec_lineRead, execLineRead, h]

theorem exec_yield_of_ready (h : readyGroup s n.toNat gid [] = some (w, g)) :
    exec (.yield n gid) s = .next (setGroup s n.toNat w { switchSet (stepSet (countIssue g)) with count := 0 }) := by
  simp only [exec_yield, execYield, h]

theorem exec_sleep_of_ready {a : Src} (h : readyGroup s n.toNat gid (srcUses 32 a) = some (w, g)) : exec (.sleep n gid a) s =
    .next (nextInstr s n.toNat w (if sleepNs g a = 0 then g else { g with sleep := some (s.dtime, sleepNs g a) })) := by
  simp only [exec_sleep, execSleep, h]

theorem exec_trap_of_ready {a : Src} (h : readyGroup s n.toNat gid (srcUses 32 a) = some (w, g)) : exec (.trap n gid a) s =
    .next (settle (coreFaultAt s n.toNat w g Cond.groupTrap 0 g.cur.mask 1 (srcVal g ((threadsOf g.cur.mask).headD 0) a))) := by
  simp only [exec_trap, execTrap, h]

theorem exec_sleepExpiry_of_found (h : findGroup s n.toNat gid = some (w, g)) :
    exec (.sleepExpiry n gid) s = .next (setGroup s n.toNat w (wakeSleep s g)) := by
  rw [exec_sleepExpiry, execSleepExpiry, h]

end

/-- Settles O25: each instruction by its command's equation for a group that is ready; a wait by whether an item is not done. -/
theorem xmtCoreInstructionsComplete : Obligations.XmtCoreInstructionsComplete := by
  intro n gid s w g
  refine ⟨fun p dst u base ds => exec_tensorIssue_of_no_fault,
    fun a dst h hw => ⟨fun wait hl => ⟨fun t => exec_tensorWait_of_pending h hw hl, fun ht => ?done⟩,
      fun ok t hok => exec_tensorPoll_of_ready h hw hok⟩,
    fun p u base t l hs => exec_tileHandoff_of_fit, fun dst => exec_cadenceRead_of_ready,
    fun d dst h => exec_lineRead_of_ready h d, exec_yield_of_ready,
    fun a h => ⟨exec_sleep_of_ready h, exec_trap_of_ready h⟩, exec_sleepExpiry_of_found⟩
  case done => exact ⟨_, rfl, exec_tensorWait_of_done h hw hl ht rfl⟩

end Sys2Proof.Machine
end

section
/-! PROOFS. The instructions of groups, and the placement and preemption of work on cores (04 R122, R124, R135, R151, R164, R165,
R167; 06 R232, R258; 12 R507, R509). -/
namespace Sys2Proof.Machine

theorem exec_groupInstruction_of_ready {s : State} {n : CoreId} {gid : Nat} {op : CoreOp} {w : WG} {g : Group}
    (h : readyGroup s n.toNat gid (opUses op) = some (w, g)) :
    exec (.groupInstruction n gid op) s = .next (coreInstr op s n.toNat w g) := by
  rw [exec_groupInstruction, execGroupInstruction, h]

/-- Settles O21: what a ready group does is its operation's own clause of `coreInstr`. -/
theorem groupInstructionsComplete : Obligations.GroupInstructionsComplete := by
  rintro n gid op s w g z h rfl
  rw [exec_groupInstruction_of_ready h]
  cases op <;> rfl

section
variable {s : State} {n : CoreId}

theorem exec_workgroupPlacement_of_new {w : CoreWork} (h : bestCoreWork s n.toNat = some w) (ho : isOld w = false) :
    exec (.workgroupPlacement n) s = .next (noteConds (placeWork s n.toNat w)) := by
  simp [execWorkgroupPlacement, h, ho]

theorem exec_resumption_of_old {w : CoreWork} (h : bestCoreWork s n.toNat = some w) (ho : isOld w = true) :
    exec (.resumption n) s = .next (noteConds (placeWork s n.toNat w)) := by
  simp [execResumption, h, ho]

section
variable {p : Part} {c : BitVec 16} (h : stopsOn s n.toNat (okey p.toNat c.toNat) = true)
include h

theorem exec_preemptionRequest_of_asked :
    exec (.preemptionRequest n p c) s = .next (stopGroups s n.toNat (okey p.toNat c.toNat)) := by
  rw [exec_preemptionRequest, execPreemptionRequest, if_pos h]

/-- Workgroups of which every group has stopped and drained are saved one by one; their preemption counts once. -/
theorem exec_coreSave_of_drained {w : WG} {ws : List WG} (hw : savedAlone s n.toNat (okey p.toNat c.toNat) = w :: ws)
    (hd : ∀ x ∈ w :: ws, ∀ g ∈ x.groups, g.stopping = true ∧ drained g = true) :
    exec (.coreSave n p c) s = .next (noteConds ((w :: ws).foldl (fun s w => saveWG s n.toNat w) (countPreempt s w.org))) := by
  have hall : ((w :: ws).all fun x => x.groups.all fun g => g.stopping && drained g) = true := by
    simpa only [List.all_eq_true, Bool.and_eq_true] using hd
  simp only [exec_coreSave, execCoreSave, h, hw, hall, Bool.not_true, Bool.or_self, Bool.false_eq_true, if_false]

end
end

/-- Settles O24: by each command's equation where it has something to do. -/
theorem corePlacementCompletes : Obligations.CorePlacementCompletes := fun _ _ =>
  ⟨fun _ h => ⟨exec_workgroupPlacement_of_new h, exec_resumption_of_old h⟩,
    fun _ _ h => ⟨exec_preemptionRequest_of_asked h, fun _ _ => exec_coreSave_of_drained h⟩⟩

end Sys2Proof.Machine
end

section
/-! PROOFS. Loads, stores and atomics whose accesses are allowed, and what a read returned (04 R144, R147, R150, R151, R158, R163,
R166; 05 R191; 08 R321, R330). -/
namespace Sys2Proof.Machine

/-- What a thread stores: the first bytes of `size` in its registers from `r`. -/
def storedBytes (g : Group) (size r t : Nat) : List Byte :=
  ((List.range (regsOfSize size)).flatMap (fun i => leBytes 4 (regRd g t (r + i)).toNat)).take size

/-- What a prepared store sends to a peer: the device, the address there and the thread's bytes. -/
def peerStore (data : Nat → List Byte) (e : Nat × Target × Loc) : Option (Nat × Nat × Nat × List Byte) :=
  match e.2 with
  | (.dev va, .peer d a _) => some (d, a, va, data e.1)
  | _ => none

section
variable {s u : State} {n : CoreId} {gid : Nat} {p : MemPtr} {w : WG} {g : Group} {base : Nat × Nat}

section
variable {z : MemSize} {size reg : Nat} (hz : sizeOf z = size)
  (h : readyGroup s n.toNat gid (ptrUses p ++ (List.range (regsOfSize size)).map (reg + ·)) = some (w, g))
  (hp : ptrBase s n.toNat w gid p = (u, .inr base))
include hz h hp

/-- A load no thread of which faults starts its reads where walkers are free for the frames they miss. -/
theorem exec_load_of_allowed (vol nt : Bool) (ha : accessFaults u n.toNat w .read size (targetsOf g size p base) = [])
    (hw : walkersFree u n.toNat w (targetsOf g size p base) = true) :
    exec (.load n gid p z reg vol nt) s = .next (startLoads u n.toNat w g size reg vol nt (targetsOf g size p base)) := by
  simp only [exec_load, execLoad, hz, h, hp, ha, hw, if_true]

/-- A store no thread of which faults: the bytes for peers leave after those of every other thread are written. -/
theorem exec_store_of_allowed {v : State} {l : List (Nat × Target × Loc)}
    (hl : prepare u n.toNat w .write size (targetsOf g size p base) = (v, [], l)) :
    exec (.store n gid p z reg) s = .next (sendPeers
      (l.foldl (fun s e => storeOne s n.toNat w.wgid e.2 (storedBytes g size reg e.1)) (nextInstr v n.toNat w g)) n.toNat gid w.org
      (l.filterMap (peerStore (storedBytes g size reg)))) := by
  simp only [exec_store, execStore, hz, h, hp, hl]
  rfl

end

/-- An atomic no thread of which faults: the threads' updates one after the other, once its passes beyond the first are counted. -/
theorem exec_atomic_of_allowed {f : AtomFn} {wide : Bool} {dst val cmp bits : Nat} (hb : bits = if wide then 64 else 32)
    (h : readyGroup s n.toNat gid (ptrUses p ++ (List.range (bits / 32)).map (dst + ·) ++ (List.range (bits / 32)).map (val + ·) ++
      (List.range (bits / 32)).map (cmp + ·)) = some (w, g))
    (hp : ptrBase s n.toNat w gid p = (u, .inr base)) {v : State} {l : List (Nat × Target × Loc)}
    (hl : prepare u n.toNat w .atomic (bits / 8) (targetsOf g (bits / 8) p base) = (v, [], l)) {k : Nat}
    (hk : k = extraPasses (compatOf s w && atomCombines f) (bits / 8) l) {x : State}
    (hx : x = nextInstr (if k = 0 then v else bump64 v Reg.coreAtomicSerialCount Reg.coreStatus 1 k) n.toNat w g) :
    exec (.atomic n gid p f wide dst val cmp) s = .next (l.foldl (fun s e =>
      atomStep s n.toNat w.wgid gid f bits dst e (srcWide g e.1 bits (.reg val)) (srcWide g e.1 bits (.reg cmp))) x) := by
  simp only [exec_atomic, execAtomic, ← hb, h, hp, hl, ← hk, ← hx]

/-- A reply's bytes reach the read that waits for them, padded to its size. -/
theorem exec_replyDelivery_ok_of_pending {tag t : Nat} {r : PendRead} (h : hostPend s gid tag t = some (w, g, r)) (b : List Byte) :
    exec (.replyDelivery n gid tag t (.ok b)) s = .next (deliverRead s n.toNat gid tag t (padTo r.size b)) := by
  rw [exec_replyDelivery, execReplyDelivery, hostReply, h]

theorem exec_translationWalk_of_outstanding {c : BitVec 4} {i : Nat} {k : Walk} (h : (walksOf s c.toNat)[i]? = some k) :
    exec (.translationWalk c i) s = .next (endWalk (setWalks s c.toNat ((walksOf s c.toNat).eraseIdx i)) c.toNat k) := by
  rw [exec_translationWalk, execTranslationWalk, h]

theorem exec_lineFill_of_ready {c : BitVec 5} {la : BitVec 30} {m : MissReg}
    (h : (missOf s c.toNat).find? (fun m => m.line = la.toNat) = some m) (hr : fillReady s m = true) :
    exec (.lineFill c la) s = .next (endFill s c.toNat m) := by
  simp only [exec_lineFill, execLineFill, h, hr, if_true]

end

/-- Settles O22: each command by its equation where every access is allowed, or where what it returns to is outstanding. -/
theorem coreAccessesComplete : Obligations.CoreAccessesComplete := by
  refine ⟨fun n gid p z s u w g base reg h hp => ⟨exec_load_of_allowed rfl h hp, fun v l data hl hd => ?store⟩,
    fun n gid p f wide dst val cmp bits k s u v x w g base l hb h hp hl hk => exec_atomic_of_allowed hb h hp hl hk,
    fun n gid tag t b s w g r h => exec_replyDelivery_ok_of_pending h b,
    fun c i s k => exec_translationWalk_of_outstanding, fun c la s m => exec_lineFill_of_ready⟩
  case store =>
    obtain rfl := funext hd
    exact exec_store_of_allowed rfl h hp hl

end Sys2Proof.Machine
end

section
/-! PROOFS. Barriers, clocks, group operations, turns and the raster-order interlock (04 R127, R131 to R134, R145, R146, R149; 05
R189; 06 R238, R240). -/
namespace Sys2Proof.Machine

section
variable {s : State} {n : CoreId} {gid : Nat} {w : WG} {g : Group}

section
variable (h : readyGroup s n.toNat gid [] = some (w, g))
include h

/-- A memory barrier that need not wait for an acknowledgement: a CrossDevice release starts its zero-length read, and an acquire
that reaches L1 clears it. -/
theorem exec_memoryBarrier_of_acked {rel acq : Bool} {sc : MemScope}
    (ha : rel = true ∧ sc = .crossDevice → awaitsAck s n.toNat gid = false) {u : State}
    (hu : u = if rel = true ∧ sc = .crossDevice then zeroRead s n.toNat w (stepSet (countIssue g)) else nextInstr s n.toNat w g) :
    exec (.memoryBarrier n gid rel acq sc) s = .next (if acq && scopeDevice sc then l1Clear u n.toNat else u) := by
  rw [exec_memoryBarrier, execMemoryBarrier, h, hu]
  by_cases hr : rel = true ∧ sc = .crossDevice
  · simp [hr, ha hr]
  · simp [hr, nextInstr]

theorem exec_workgroupBarrier_of_ready : exec (.workgroupBarrier n gid) s =
    .next (setWG s n.toNat (settleBarrier (putGroup w (waitSet (countIssue g) .barrier)))) := by
  simp only [exec_workgroupBarrier, execWorkgroupBarrier, h]

theorem exec_subgroupBarrier_of_joined {q : Group} (hq : joinSubgroup g = some q) :
    exec (.subgroupBarrier n gid) s = .next (nextInstr s n.toNat w q) := by
  simp only [exec_subgroupBarrier, execSubgroupBarrier, h, hq]

theorem exec_subgroupBarrier_of_apart (hq : joinSubgroup g = none) :
    exec (.subgroupBarrier n gid) s = .next (setGroup s n.toNat w (waitSet (countIssue g) .subgroup)) := by
  simp only [exec_subgroupBarrier, execSubgroupBarrier, h, hq]

section
variable {t : TileSt} {e : EntryPt} (ht : tileOfWG s n.toNat w = some t) (he : entryOf s w.modKey w.entry = some e)
include ht he

/-- Threads that all may enter go on together. -/
theorem exec_beginInvocationInterlock_of_free
    (hf : e.interlock = 0 ∨ ∀ x ∈ threadsOf g.cur.mask, mayEnter t e.interlock gid x = true) :
    exec (.beginInvocationInterlock n gid) s = .next (nextInstr s n.toNat w g) := by
  rw [exec_beginInvocationInterlock, execBeginInvocationInterlock, h]
  obtain hi | hm := hf
  · simp [ht, he, hi]
  · have hall : (threadsOf g.cur.mask).filter (mayEnter t e.interlock gid) = threadsOf g.cur.mask :=
      List.filter_eq_self.mpr hm
    simp [ht, he, hall]

section
variable {enter stay : List Nat} (hg : enter = (threadsOf g.cur.mask).filter (mayEnter t e.interlock gid))
  (hs : stay = (threadsOf g.cur.mask).filter (fun x => ! enter.contains x)) (hi : e.interlock ≠ 0) (hne : stay ≠ [])
include hg hs hi hne

/-- Where no thread may enter, the set waits. -/
theorem exec_beginInvocationInterlock_of_none_enters (hz : enter = []) :
    exec (.beginInvocationInterlock n gid) s = .next (setGroup s n.toNat w (waitSet (countIssue g) .interlock)) := by
  simp only [exec_beginInvocationInterlock, execBeginInvocationInterlock, h, ht, he, ← hg, ← hs]
  simp [hi, hne, hz]

/-- Where some threads may enter, these go on and the others form a set that waits. -/
theorem exec_beginInvocationInterlock_of_some_enter (hz : enter ≠ []) :
    exec (.beginInvocationInterlock n gid) s = .next (setGroup s n.toNat w (mergeSets { countIssue g with
      cur := { g.cur with pc := g.cur.pc + 1, mask := maskOf enter },
      others := g.others ++ [{ pc := g.cur.pc, mask := maskOf stay, wait := .interlock }] })) := by
  simp only [exec_beginInvocationInterlock, execBeginInvocationInterlock, h, ht, he, ← hg, ← hs]
  simp [hi, hne, hz, countIssue]

end
end
end

theorem exec_opReadClockKhr_of_ready {dst : Nat} (h : readyGroup s n.toNat gid [dst, dst + 1] = some (w, g)) (dev : Bool) :
    exec (.opReadClockKhr n gid dev dst) s =
      .next (nextInstr s n.toNat w (regAll g g.cur.mask dst 2 (if dev then s.dtime else coreClock s n.toNat))) := by
  simp only [exec_opReadClockKhr, execOpReadClockKhr, h]

/-- A group operation over the threads of `q`: those of the current set, or for a uniform one those that it joins. -/
theorem exec_groupOperation_of_over {f : GroupFn} {dst : Nat} {a b : Src} {uniform : Bool} {q : Group}
    (h : readyGroup s n.toNat gid (srcUses 32 a ++ srcUses 32 b ++ (List.range (groupRegs f)).map (dst + ·)) = some (w, g))
    (hq : (if uniform then joinSubgroup g else some g) = some q) :
    exec (.groupOperation n gid f uniform dst a b) s =
      .next (nextInstr (draw s).2 n.toNat w ((threadsOf q.cur.mask).foldl (fun x t =>
        regWrN x t dst (groupRegs f) (groupResult f q a b (Config.freeNat ((draw s).1 + t)) t)) q)) := by
  simp only [exec_groupOperation, execGroupOperation, h, hq]

/-- After ROTATE_LIMIT instructions the next set takes its turn; a switch to another set is counted. -/
theorem exec_rotation_of_limit (h : findGroup s n.toNat gid = some (w, g)) (hl : rotateLimit s ≤ g.count) {u : State}
    (hu : u = setGroup s n.toNat w { switchSet g with count := 0 }) :
    exec (.rotation n gid) s =
      .next (if (switchSet g).cur = g.cur then u else bump64 u Reg.coreRotateCount Reg.coreStatus 0 1) := by
  simp only [exec_rotation, execRotation, h, hl.not_gt, if_false, hu]

end

/-- Settles O23: a Subgroup barrier by whether one set holds every thread, the interlock by who may enter, and the others by their
one equation. -/
theorem groupSynchronisationCompletes : Obligations.GroupSynchronisationCompletes := by
  intro n gid s w g
  refine ⟨fun h => ⟨fun rel acq sc ha u => exec_memoryBarrier_of_acked h ha, exec_workgroupBarrier_of_ready h, ?subgroup,
      fun t e ht he => ⟨exec_beginInvocationInterlock_of_free h ht he, fun enter stay hg hs hi hne =>
        ⟨exec_beginInvocationInterlock_of_none_enters h ht he hg hs hi hne,
          exec_beginInvocationInterlock_of_some_enter h ht he hg hs hi hne⟩⟩⟩,
    fun dev dst h => exec_opReadClockKhr_of_ready h dev,
    fun f dst a b h => ⟨exec_groupOperation_of_over h rfl, fun q hq => exec_groupOperation_of_over h hq⟩,
    fun h hl u => exec_rotation_of_limit h hl⟩
  case subgroup =>
    cases hq : joinSubgroup g with
    | none => exact exec_subgroupBarrier_of_apart h hq
    | some q => exact exec_subgroupBarrier_of_joined h hq

end Sys2Proof.Machine
end

section
/-! PROOFS. XMT.core copies, prefetch and Mark feeds, and image instructions (05 R203 to R207; 06 R241, R247; 13 R567, R568). -/
namespace Sys2Proof.Machine

section
variable {s u : State} {n : CoreId} {gid : Nat} {w : WG} {g : Group}

/-- Feeds whose pointers all reach a feed page, with room in every queue: each thread's operation enters its unit's queue. -/
theorem exec_markFeed_of_room {ptr : Nat} {a : Src} {z : MemSize} {l : List (Nat × Nat × MarkOpKind)}
    (h : readyGroup s n.toNat gid ([ptr, ptr + 1] ++ srcUses 32 a) = some (w, g)) (ht : feedTargets s n.toNat w g ptr = (u, [], l))
    (hr : ∀ e ∈ l, (markOf u e.2.1).queue.length + (l.filter (fun x => x.2.1 = e.2.1)).length ≤ 64) :
    exec (.markFeed n gid ptr a z) s = .next (l.foldl (fun s e =>
      queueMark s e.2.1 { kind := e.2.2, size := min (sizeOf z) 4, value := srcVal g e.1 a }) (nextInstr u n.toNat w g)) := by
  have room : ¬ l.any (fun e => 64 < (markOf u e.2.1).queue.length + (l.filter (fun x => x.2.1 = e.2.1)).length) := by
    simpa only [List.any_eq_true, decide_eq_true_eq, not_exists, not_and, not_lt] using hr
  simp only [exec_markFeed, execMarkFeed, h, ht, if_neg room]

/-- Copies that fault nowhere and keep the core within 64 KiB are recorded, each with its ticket. -/
theorem exec_asyncCopy_of_fit {dst bytes : Src} {src : MemPtr} {out : Nat} {v : State} {base : Nat × Nat}
    (h : readyGroup s n.toNat gid (out :: (srcUses 32 dst ++ ptrUses src ++ srcUses 32 bytes)) = some (w, g)) (hw : w.stage = .compute)
    (hp : ptrBase s n.toNat w gid src = (u, .inr base))
    (hf : asyncFaults u n.toNat w g dst bytes (copyTargets g src bytes base) = (v, []))
    (hb : copyBytes s n.toNat + ((threadsOf g.cur.mask).map (fun t => srcVal g t bytes)).foldl (· + ·) 0 ≤ 65536) :
    exec (.asyncCopy n gid dst src bytes out) s =
      .next (nextInstr v n.toNat w (startCopies g dst bytes out (copyTargets g src bytes base))) := by
  simp only [exec_asyncCopy, execAsyncCopy, h, hw, hp, hf, hb.not_gt, ne_eq, not_true_eq_false, if_false]

theorem exec_asyncCopyComplete_of_outstanding {k : Nat} {c : ACopy} (h : findGroup s n.toNat gid = some (w, g))
    (hc : g.copies.find? (fun c => c.ticket = k) = some c) (hl : ctxLive s w.org.ctx = true) :
    exec (.asyncCopyComplete n gid k) s = .next (copyArrives s n.toNat w g c) := by
  simp only [exec_asyncCopyComplete, execAsyncCopyComplete, h, hc, hl, if_true]

/-- The copies that a COPY_WAIT of the current set waits for: those of its threads' tickets that are issued and have not completed. -/
def pendingCopies (g : Group) (a : Src) : List Nat :=
  ((threadsOf g.cur.mask).map (fun t => srcVal g t a)).filter (fun t => ! ticketVoid t g.copyIssued && ! copiesDone g t)

section
variable {a : Src} (h : readyGroup s n.toNat gid (srcUses 32 a) = some (w, g)) (hw : w.stage = .compute)
include h hw

/-- A wait with nothing pending goes on. -/
theorem exec_copyWait_of_none_pending (hp : pendingCopies g a = []) :
    exec (.copyWait n gid a) s = .next (nextInstr s n.toNat w g) := by
  have hn : latest (pendingCopies g a) = none := by rw [hp, latest, List.foldl_nil]
  rw [pendingCopies] at hn
  simp only [exec_copyWait, execCopyWait, h, hw, hn, ne_eq, not_true_eq_false, if_false]

/-- A wait with copies pending waits for the latest of them. -/
theorem exec_copyWait_of_pending {t : Nat} (ht : latest (pendingCopies g a) = some t) :
    exec (.copyWait n gid a) s = .next (setGroup s n.toNat w (waitSet (countIssue g) (.copy t))) := by
  rw [pendingCopies] at ht
  simp only [exec_copyWait, execCopyWait, h, hw, ht, ne_eq, not_true_eq_false, if_false]

end

section
variable {p : MemPtr} {a : Src} (h : readyGroup s n.toNat gid (ptrUses p ++ srcUses 32 a) = some (w, g))
include h

theorem exec_l1Prefetch_of_base {base : Nat × Nat} (hp : ptrBase s n.toNat w gid p = (u, .inr base)) :
    exec (.l1Prefetch n gid p a) s = .next ((targetsOf g 1 p base).foldl (fun s e =>
      prefetchRange s n.toNat w (srcVal g e.1 a) e.2) (nextInstr u n.toNat w g)) := by
  simp only [exec_l1Prefetch, execL1Prefetch, h, hp]

/-- A hint never faults: where its binding cannot be read it does nothing. -/
theorem exec_l1Prefetch_of_fault {f : XFault} (hp : ptrBase s n.toNat w gid p = (u, .inl f)) :
    exec (.l1Prefetch n gid p a) s = .next (nextInstr u n.toNat w g) := by
  simp only [exec_l1Prefetch, execL1Prefetch, h, hp]

end

/-- An image instruction whose image entry is read and is of the kind that it uses. -/
theorem exec_imageSample_of_entry {f : ImageFn} {set b dst : Nat} {e : List Byte}
    (h : readyGroup s n.toNat gid (imageUses f dst) = some (w, g))
    (hr : coreRead s n.toNat w (bindEntry s n.toNat w gid set b) 32 = (u, .inr e)) (he : imageBad e (usesStorage f) = false) :
    exec (.imageSample n gid f set b dst) s = .next (imageInstr f u n.toNat w g e dst) := by
  simp only [exec_imageSample, execImageSample, h, hr, he, Bool.false_eq_true, if_false]

end

/-- Settles O26: each instruction by its command's equation where nothing faults and there is room; a wait by whether a copy is
pending. -/
theorem xmtCopiesAndImagesComplete : Obligations.XmtCopiesAndImagesComplete := by
  intro n gid s w g
  refine ⟨fun ptr a z u l => exec_markFeed_of_room, fun dst src bytes out u v base => exec_asyncCopy_of_fit,
    fun k c => exec_asyncCopyComplete_of_outstanding, fun a wait h hw hl => ?wait,
    fun p a u h => ⟨fun base => exec_l1Prefetch_of_base h, fun f => exec_l1Prefetch_of_fault h⟩,
    fun f set b dst u e => exec_imageSample_of_entry⟩
  case wait =>
    obtain rfl : wait = pendingCopies g a := hl
    exact ⟨exec_copyWait_of_none_pending h hw, fun t => exec_copyWait_of_pending h hw⟩

end Sys2Proof.Machine
end

section
/-! PROOFS. The geometry phase of a render pass: its start, its draw records, its batches and primitives, its bin memory and its
preemption (06 R211, R215, R217, R219, R225, R226, R227, R257; 10 R416). -/
namespace Sys2Proof.Machine

theorem exec_render_of_ready {s : State} {p : Part} {i : BitVec 10} {r : Ring} {e : Entry}
    (h : readyEntry s p.toNat i.toNat 0x03 = some (r, e)) {rk : Nat} (hk : rk = rkey p.toNat i.toNat) :
    exec (.render p i) s = .next (settle (startPass (dispatched s rk r e) (entryOrigin rk r e) e.desc)) := by
  rw [exec_render, execRender, h, hk]

section
variable {id : Nat} {s : State} {q : RPass} (hq : passOf s id = some q) (hg : q.step = .geometry)
  (hl : ctxLive s q.org.ctx = true)
include hq hg hl

/-- A draw record that is read and keeps the rules joins the records of its pass. -/
theorem exec_drawRecordFetch_of_good {u : State} {d : List Byte} (hn : q.draws.length < pDrawCount q.desc)
    (hr : engineRead s 8 (.ctx q.org.ctx) .read (fAt q.desc 0x18 47 0 + 128 * q.draws.length) 128 (.fail .unsupported) = (u, .inr d))
    (hd : drawFault u q.org.part d = none) :
    exec (.drawRecordFetch id) s = .next (setPass u id { q with draws := q.draws ++ [d] }) := by
  simp [execDrawRecordFetch, hq, hg, hl, hn, hr, hd]

section
variable {n : BitVec 3} (hs : unitSaved q n.toNat = false) (ht : mget q.stalls n.toNat = none)
include hs ht

theorem exec_batch_of_free_unit (he : engineUp s (Engine.geom n.toNat) = true) (hu : mget q.units n.toNat = none)
    (tess : List (List (Nat × Nat × Nat) × List (List Nat))) :
    exec (.batch id n tess) s = .next (noteConds (takeBatch s id n.toNat q)) := by
  simp [execBatch, hq, hg, hl, hs, ht, he, hu]

/-- A batch in set-up, or whose programs have ended, goes on. -/
theorem exec_batch_of_programs_ended {b : Batch} (he : engineUp s (Engine.geom n.toNat) = true)
    (hu : mget q.units n.toNat = some b) (hj : b.step = .setup ∨ jobsOver (batchJobs s q n.toNat) = true)
    (tess : List (List (Nat × Nat × Nat) × List (List Nat))) :
    exec (.batch id n tess) s = .next (settle (nextStage s id n.toNat q b (batchJobs s q n.toNat) tess)) := by
  simp [execBatch, hq, hg, hl, hs, ht, he, hu, hj]

section
variable {b : Batch} (hu : mget q.units n.toNat = some b) (hb : b.step = .setup) (hp : b.paged = true)
include hu hb hp

theorem exec_primitive_of_none_left (hn : b.gen[b.pos]? = none) :
    exec (.primitive id n) s = .next (settleGeometry (endBatch s id n.toNat q b) id) := by
  simp only [exec_primitive, execPrimitive, hq, hg, hl, hs, ht, hu, hb, hp, hn, ne_eq, not_true_eq_false, decide_false, Bool.not_true,
    Option.isSome_none, Bool.or_self, Bool.false_eq_true, if_false]

theorem exec_primitive_of_next {k : Nat} {v : List Nat} (hn : b.gen[b.pos]? = some (k, v)) :
    exec (.primitive id n) s = .next (settle (settleGeometry (binPrim s id n.toNat q b k v) id)) := by
  simp only [exec_primitive, execPrimitive, hq, hg, hl, hs, ht, hu, hb, hp, hn, ne_eq, not_true_eq_false, decide_false, Bool.not_true,
    Option.isSome_none, Bool.or_self, Bool.false_eq_true, if_false]

end
end
end

section
variable {p : Part} {v : Word32} {s u : State} {id : Nat} {q : RPass} (hr : s.sec.recovery = false) (hu : u = hostTouch s)
  (hq : pendingPass u p.toNat = some (id, q))
include hr hu hq

/-- A grant above the commit and within BIN_MAX, in whole pages, raises the commit. -/
theorem exec_geomBinGrant_of_fit (hc : q.commit < v.toNat / 4096 * 4096) (hm : v.toNat / 4096 * 4096 ≤ pBinMax q.desc) :
    exec (.geomBinGrant p v) s = .next (settle (grantPass u id q (v.toNat / 4096 * 4096))) := by
  simp [execGeomBinGrant, roundDown, hr, ← hu, hq, hc, hm]

/-- Any other grant denies the request. -/
theorem exec_geomBinGrant_of_unfit (h : v.toNat / 4096 * 4096 ≤ q.commit ∨ pBinMax q.desc < v.toNat / 4096 * 4096) :
    exec (.geomBinGrant p v) s = .next (settle (denyPass u id q 1 (passNeed q))) := by
  have hf : ¬ (q.commit < roundDown v.toNat 4096 && roundDown v.toNat 4096 ≤ pBinMax q.desc) = true := by
    rwa [Bool.and_eq_true, decide_eq_true_eq, decide_eq_true_eq, not_and_or, not_lt, not_le]
  simp only [exec_geomBinGrant, execGeomBinGrant, hr, ← hu, hq, if_neg hf, Bool.false_eq_true, if_false]

end

theorem exec_binGrowthTimeout_of_due {p : Part} {s : State} {id : Nat} {q : RPass} (hq : pendingPass s p.toNat = some (id, q))
    (hd : due s (mgetD s.raster.postedAt p.toNat 0) (rdF s Reg.geomCfg 9 0 * 1000000) = true) :
    exec (.binGrowthTimeout p) s = .next (settle (denyPass s id q 2 (passNeed q))) := by
  simp only [exec_binGrowthTimeout, execBinGrowthTimeout, hq, hd, if_true]

/-- A unit that is asked for and works on a batch is saved, and remembers where and when. -/
theorem exec_geometryPreemption_of_asked {id : Nat} {n : BitVec 3} {s t : State} {q : RPass} {b : Batch} {a : Nat}
    (hq : passOf s id = some q) (ha : unitAsked s n.toNat id q = true) (hb : mget q.units n.toNat = some b)
    (hs : unitSaved q n.toNat = false)
    (ht : saveUnit (countPreempt s q.org) q.org (Engine.geom n.toNat) 2048 = (t, a)) :
    exec (.geometryPreemption id n) s = .next (noteConds (stopMade (setPass t id { q with
      preempts := q.preempts + 1, savedUnits := q.savedUnits ++ [(n.toNat, a, t.dtime)] }) (Engine.geom n.toNat) id)) := by
  simp [execGeometryPreemption, hq, ha, hb, hs, ht]

/-- Settles O27: each command by its equation where the pass, the unit and the request are there; a batch by whether its unit holds
one, a primitive by whether one is left, a grant by whether it fits. -/
theorem geometryCommandsComplete : Obligations.GeometryCommandsComplete := by
  refine ⟨fun p i s rk r e hk h => exec_render_of_ready h hk, fun id s q hq hg hl =>
      ⟨fun u d => exec_drawRecordFetch_of_good hq hg hl, fun n hs ht => ⟨exec_batch_of_free_unit hq hg hl hs ht,
        fun b tess he hu hj => exec_batch_of_programs_ended hq hg hl hs ht he hu hj tess, fun b hu hb hp => ?primitive⟩⟩,
    fun p v s u id q hr hu hq => ⟨exec_geomBinGrant_of_fit hr hu hq, exec_geomBinGrant_of_unfit hr hu hq⟩,
    fun p s id q => exec_binGrowthTimeout_of_due, fun id n s t q b a => exec_geometryPreemption_of_asked⟩
  case primitive =>
    exact ⟨exec_primitive_of_none_left hq hg hl hs ht hu hb hp, fun k v => exec_primitive_of_next hq hg hl hs ht hu hb hp⟩

end Sys2Proof.Machine
end

section
/-! PROOFS. The tile phase of a render pass, its end and its preemption, and the lines of a display (06 R230, R234, R254 to R256,
R258; 07 R281). -/
namespace Sys2Proof.Machine

@[simp] theorem passOf_setCoreOf (s : State) (n : Nat) (c : CoreSt) (id : Nat) : passOf (setCoreOf s n c) id = passOf s id := by
  rw [passOf, setCoreOf, setCore_raster, passOf]

@[simp] theorem passOf_reserve (s : State) (p kib id : Nat) : passOf (reserve s p kib) id = passOf s id := by
  rw [passOf, reserve, setSched_raster, passOf]

/-- The tile that a handout puts on a core: the next of its pass, with nothing shaded yet. -/
def handedTile (s : State) (id : Nat) (q : RPass) (bank seed : Nat) (tb : Map Byte) : TileSt :=
  { pass := id, tile := q.nextTile, bank := bank, banks := pBanks q.desc, tb := tb, seed := seed, pos := 0, frags := [],
    handoffs := [], ended := false, stored := false, items := [], placedAt := s.dtime, saved := none }

/-- A core that takes part, with a slot, banks and save space free, is handed the next tile once its planes have their start
content. -/
theorem exec_tileHandout_of_room {id : Nat} {n : CoreId} {s u v w : State} {q q1 : RPass} {bank seed : Nat} {tb : Map Byte}
    (hu : u = closeGeometry s id) (hq : passOf u id = some q) (hs : q.step = .tiles) (hn : q.nextTile < passTiles q.desc)
    (hc : (passCores u q).contains n.toNat = true) (hf : tileSlot u n.toNat q = true)
    (he : engineUp u (Engine.core n.toNat) = true) (hm : mayPlace u q.org.ctx (tileKib q.desc) = true)
    (hb : tilePlace u n.toNat q = some bank) (hv : startTile u n.toNat q q.nextTile = (v, .inr tb))
    (hw : draw (takeBanks v n.toNat (bank * 32) (pBanks q.desc * 32)) = (seed, w)) (hq1 : passOf w id = some q1) :
    exec (.tileHandout id n) s = .next (noteConds (setPass (reserve (setCoreOf w n.toNat { coreOf w n.toNat with
      tiles := (coreOf w n.toNat).tiles ++ [handedTile s id q bank seed tb] }) q.org.part (tileKib q.desc)) id
      { q1 with nextTile := q.nextTile + 1 })) := by
  have go : ¬ (q.step ≠ .tiles || passTiles q.desc ≤ q.nextTile || ! (passCores u q).contains n.toNat || ! tileSlot u n.toNat q ||
      ! engineUp u (Engine.core n.toNat) || ! mayPlace u q.org.ctx (tileKib q.desc)) = true := by
    simp [hs, hn, List.contains_iff_mem.mp hc, hf, he, hm]
  simp only [exec_tileHandout, execTileHandout, ← hu, hq, if_neg go, hb, hv, hw, passOf_reserve, passOf_setCoreOf, hq1,
    handedTile]

section
variable {id : Nat} {n : CoreId} {k : Nat} {s : State} {q : RPass} {t : TileSt} (hq : passOf s id = some q)
  (ht : tileOn s n.toNat id k = some t)
include hq ht

/-- A tile whose fragments have all retired issues its tensor work, stores its planes and is counted. -/
theorem exec_tileEnd_of_retired {u v w : State} {q1 : RPass} (he : t.ended = false) (hf : t.frags = [])
    (hp : (tileQuads s q k).length ≤ t.pos) (hb : tileBusy s n.toNat t = false) (hl : ctxLive s q.org.ctx = true)
    (hu : u = issueTile (setTile s n.toNat { t with ended := true }) n.toNat q t) (hlu : ctxLive u q.org.ctx = true)
    (hv : storePlanes u n.toNat q t = (v, none))
    (hw : w = bump64 (setTile v n.toNat { t with ended := true, stored := true }) Reg.rasterTileCount Reg.rasterStatus 0 1)
    (hq1 : passOf w id = some q1) :
    exec (.tileEnd id n k) s = .next (setPass (claimReqs w q.org n.toNat 0xFFFF 0) id { q1 with stored := q1.stored + 1 }) := by
  have go : ¬ (t.ended || ! t.frags.isEmpty || t.pos < (tileQuads s q k).length || tileBusy s n.toNat t ||
      ! ctxLive s q.org.ctx) = true := by
    simp [he, hf, hp, hb, hl]
  simp only [exec_tileEnd, execTileEnd, hq, ht, if_neg go, ← hu, hlu, Bool.not_true, Bool.false_eq_true, if_false, hv, ← hw, hq1]

/-- A stored tile whose handoff items have read it leaves its core. -/
theorem exec_tileBankRelease_of_stored (hs : t.stored = true) (hr : tileRead s t = false) {u : State}
    (hu : u = setCoreOf s n.toNat { coreOf s n.toNat with
      tiles := (coreOf s n.toNat).tiles.filter (fun x => ! (x.pass = id && x.tile = k)) }) :
    exec (.tileBankRelease id n k) s =
      .next (noteConds (unreserve (setPass u id { q with finished := q.finished + 1 }) q.org.part (tileKib q.desc))) := by
  simp only [exec_tileBankRelease, execTileBankRelease, hq, ht, hs, hr, Bool.not_true, Bool.or_self, Bool.false_eq_true, if_false, hu]

end

section
variable {id : Nat} {s : State} {q : RPass} (hq : passOf s id = some q)
include hq

/-- A pass of which every tile and every tensor work item is over ends with its result record. -/
theorem exec_renderPassComplete_of_finished {u : State} (hs : q.step = .tiles) (hf : passTiles q.desc ≤ q.finished)
    (hi : itemsOpen s q.org.wid = false) (hl : ctxLive s q.org.ctx = true) (hw : writeResult s q Cond.ok = (u, none)) :
    exec (.renderPassComplete id) s = .next (settle (finish (dropPass u id q) q.org.wid 0)) := by
  simp [execRenderPassComplete, hq, hs, hf, hi, hl, hw]

/-- Where no read of the pass's groups inside the device is outstanding, each tile in progress is saved. -/
theorem exec_tilePhasePreemption_of_drained {n : CoreId} (ha : tileAsked s n.toNat id q = true)
    (hd : ∀ w ∈ (coreOf s n.toNat).wgs, w.stage = .fragment → w.job = id → ∀ g ∈ w.groups, drained g = true) :
    exec (.tilePhasePreemption id n) s = .next (noteConds (stopMade
      (((coreOf s n.toNat).tiles.filter (fun t => t.pass = id && ! t.ended)).foldl (fun s t => saveTile s n.toNat q t) s)
      (Engine.core n.toNat) id)) := by
  have hall : (((coreOf s n.toNat).wgs.filter (fun w => w.stage = .fragment && w.job = id) |>.flatMap
      (fun w => w.groups)).all drained) = true := by
    rw [List.all_eq_true]
    intro g hg
    obtain ⟨w, hw, hgw⟩ := List.mem_flatMap.mp hg
    obtain ⟨hwc, hmine⟩ := List.mem_filter.mp hw
    obtain ⟨hst, hj⟩ := Bool.and_eq_true_iff.mp hmine
    exact hd w hwc (of_decide_eq_true hst) (of_decide_eq_true hj) g hgw
  simp only [exec_tilePhasePreemption, execTilePhasePreemption, hq, ha, hall, Bool.and_self, if_true]

end

theorem exec_layerFetch_of_line_left {h : BitVec 1} {s : State} (he : (headOf s h.toNat).enabled = true)
    (hl : (headOf s h.toNat).fetchLine < vActive s h.toNat) (late : Bool) :
    exec (.layerFetch h late) s = .next (composeLine s h.toNat late) := by
  simp [execLayerFetch, he, hl]

/-- Settles O28: each command by its equation where its tile, its pass or its head has something left to do; the handout by that
neither the core nor the reservation it writes is a pass. -/
theorem tileCommandsComplete : Obligations.TileCommandsComplete := by
  refine ⟨?handout,
    fun id n k s q t hq ht => ⟨fun u v w q1 => exec_tileEnd_of_retired hq ht,
      fun hs hr u => exec_tileBankRelease_of_stored hq ht hs hr⟩,
    fun id s u q hq => exec_renderPassComplete_of_finished hq,
    fun id n s q hq => exec_tilePhasePreemption_of_drained hq,
    fun h late s he hl => exec_layerFetch_of_line_left he hl late⟩
  case handout =>
    rintro id n s u v w q q1 bank seed tb t hu hq hs hn hc hf he hm hb hv hw rfl hq1
    exact exec_tileHandout_of_room hu hq hs hn hc hf he hm hb hv hw hq1

end Sys2Proof.Machine
end

section
/-! PROOFS. Heads of the display: enabling, flips, latch line, frames, DONE records, DSI packets and the eDP hot-plug pin (07 R270 to
R272, R274, R287 to R289, R293, R295). -/
namespace Sys2Proof.Machine

/-! Writes of the host, outside recovery. -/

section
variable {h : BitVec 1} {s u : State} (hr : s.sec.recovery = false) (hu : u = hostTouch s)
include hr hu

/-- A write of 1 to ENABLE while it is 0 starts a head that no limit refuses. -/
theorem exec_headEnable_of_allowed {train : Option (Nat × Nat)} (he : rdF u (Reg.dressHeadCtl h.toNat) 0 0 = 0)
    (ha : enableRefused u h.toNat train = false) : exec (.headEnable h train) s = .next (startHead u h.toNat train) := by
  simp only [exec_headEnable, execHeadEnable, hr, ← hu, he, ha, Bool.false_eq_true, zero_ne_one, if_false]

theorem exec_headDisable_of_not_recovery : exec (.headDisable h) s =
    .next (setHead (wrF u (Reg.dressHeadCtl h.toNat) 0 0 0) h.toNat
      { headOf u h.toNat with stopping := (headOf u h.toNat).enabled }) := by
  simp only [exec_headDisable, execHeadDisable, hr, ← hu, Bool.false_eq_true, if_false]

theorem exec_dressFlip_of_owner {p : Part} (ho : headOwner u h.toNat = p.toNat) (v : Word) :
    exec (.dressFlip p h v) s = .next (flipHead u h.toNat (wbits v 47 0)) := by
  simp only [exec_dressFlip, execDressFlip, hr, ← hu, ho, Bool.false_eq_true, if_false, if_true]

theorem exec_dressFlip_of_other {p : Part} (ho : headOwner u h.toNat ≠ p.toNat) (v : Word) :
    exec (.dressFlip p h v) s = .next u := by
  simp only [exec_dressFlip, execDressFlip, hr, ← hu, ho, Bool.false_eq_true, if_false]

theorem exec_dsiCommand_of_not_recovery :
    exec (.dsiCommand h) s = .next (wrF u (Reg.dressDsiCmd h.toNat) 31 31 1) := by
  simp only [exec_dsiCommand, execDsiCommand, hr, ← hu, Bool.false_eq_true, if_false]

end

/-! What a write of one field leaves. -/

theorem wrF_frame (s : State) (key hi lo x : Nat) : { wrF s key hi lo x with regs := s.regs } = s :=
  wr_frame s key _

theorem wrF_onlyRegs (s : State) (key hi lo x : Nat) : onlyRegs s (wrF s key hi lo x) [key] :=
  fun _ hk => rd_wrF_ne s hi lo x (List.ne_of_not_mem_cons hk)

theorem headOf_wrF (s : State) (key hi lo x h : Nat) : headOf (wrF s key hi lo x) h = headOf s h := rfl

/-- DRESS_EDP_CFG lies below the registers of the heads. -/
theorem headOutput_wrF_edpCfg (s : State) (hi lo x h : Nat) : headOutput (wrF s Reg.dressEdpCfg hi lo x) h = headOutput s h :=
  rdF_wrF_ne s hi lo x 2 1 (by unfold Reg.dressHeadCtl Reg.dressEdpCfg; omega)

/-! The lines of a frame. -/

section
variable {h : BitVec 1} {s : State} {x : HeadSt} (hx : headOf s h.toNat = x)
include hx

theorem exec_latchLine_of_due (he : x.enabled = true) (hm : x.latchMade = false) (hl : vActive s h.toNat ≤ x.line + x.lead) :
    exec (.latchLine h) s = .next (latchHead s h.toNat) := by
  simp [execLatchLine, hx, he, hm, hl]

theorem exec_frameStart_of_last_line_over (he : x.enabled = true) (hl : vTotal s h.toNat ≤ x.line + 1)
    (ha : lineClocks s h.toNat ≤ x.acc) : exec (.frameStart h) s = .next (startFrame s h.toNat) := by
  simp [execFrameStart, hx, he, hl, ha]

theorem exec_doneRecord_of_due (hd : x.doneDue = true) : exec (.doneRecord h) s = .next (writeDone s h.toNat) := by
  simp [execDoneRecord, hx, hd]

/-- A queued packet leaves in vertical blanking of the head that its port serves. -/
theorem exec_dsiPacketSend_of_blanking (hg : rdF s (Reg.dressDsiCmd h.toNat) 31 31 = 1) (he : x.enabled = true)
    (ho : headOutput s h.toNat = 1) (hl : vActive s h.toNat ≤ x.line) (resp : Option (List Byte)) :
    exec (.dsiPacketSend h resp) s = .next (dsiSend s h.toNat resp) := by
  simp [execDsiPacketSend, hx, hg, he, ho, hl]

end

/-! The eDP hot-plug pin. -/

/-- Head `h` is enabled and drives the eDP port. -/
def EdpScans (s : State) (h : Nat) : Prop := (headOf s h).enabled = true ∧ headOutput s h = 2

theorem any_head_edpScans_iff (s : State) :
    [0, 1].any (fun h => (headOf s h).enabled && headOutput s h = 2) = true ↔ ∃ h < 2, EdpScans s h := by
  simp [EdpScans, Nat.le_one_iff_eq_zero_or_eq_one, or_and_right, exists_or]

/-- The pin's level is no part of what a head drives. -/
theorem edpScans_wrF_edpCfg (s : State) (hi lo x h : Nat) : EdpScans (wrF s Reg.dressEdpCfg hi lo x) h ↔ EdpScans s h := by
  rw [EdpScans, EdpScans, headOf_wrF, headOutput_wrF_edpCfg]

section
variable (level : Bool) (train : Option (Nat × Nat)) {s u : State} (hu : u = wrF s Reg.dressEdpCfg 14 14 (b2n level))
include hu

theorem exec_hpdInterrupt_of_no_edp_head (hn : ¬ ∃ h < 2, EdpScans u h) : exec (.hpdInterrupt level train) s = .next u := by
  subst hu
  simp only [edpScans_wrF_edpCfg] at hn
  rw [exec_hpdInterrupt, execHpdInterrupt, if_neg (mt (any_head_edpScans_iff s).mp hn)]

/-- The link of an enabled eDP head is trained again, and counted. -/
theorem exec_hpdInterrupt_of_edp_head (he : ∃ h < 2, EdpScans u h) : exec (.hpdInterrupt level train) s =
    .next (setTrained (bump32 u Reg.dressRetrainCount Reg.dressStatus 4 1) (trainOk u train)) := by
  subst hu
  simp only [edpScans_wrF_edpCfg] at he
  rw [exec_hpdInterrupt, execHpdInterrupt, if_pos ((any_head_edpScans_iff s).mpr he)]

end

/-- Settles O29: each command by its equation where its head is due; the hot-plug pin by whether a head drives the eDP port. -/
theorem displayCommandsComplete : Obligations.DisplayCommandsComplete := by
  refine ⟨fun h s u hr hu => ⟨fun train => exec_headEnable_of_allowed hr hu, ?disable,
      fun p v ho => exec_dressFlip_of_owner hr hu ho v, fun p v ho => exec_dressFlip_of_other hr hu ho v, ?dsi⟩,
    fun h s x hx => ⟨exec_latchLine_of_due hx, exec_frameStart_of_last_line_over hx, exec_doneRecord_of_due hx,
      fun resp hg he ho hl => exec_dsiPacketSend_of_blanking hx hg he ho hl resp⟩,
    fun level train s u hu => ⟨?no_edp_head, ?edp_head⟩⟩
  case disable =>
    rintro v rfl
    exact exec_headDisable_of_not_recovery hr hu
  case dsi =>
    exact ⟨_, exec_dsiCommand_of_not_recovery hr hu, rdF_wrF_same u _ 1 (by decide) (by decide),
      rdF_wrF_below u _ 1 (by decide) (by decide) (by decide) (by decide), wrF_frame u _ 31 31 1, wrF_onlyRegs u _ 31 31 1⟩
  case no_edp_head =>
    intro hn
    refine exec_hpdInterrupt_of_no_edp_head level train hu ?_
    rintro ⟨h, hlt, hen, hout⟩
    exact (hn h hlt).elim (fun hd => Bool.false_ne_true (hd.symm.trans hen)) (· hout)
  case edp_head =>
    rintro h v hlt hen hout rfl
    exact exec_hpdInterrupt_of_edp_head level train hu ⟨h, hlt, hen, hout⟩

end Sys2Proof.Machine
end
section
/-! PROOFS. A sector written to a page of DRAM, and what the page then reads as (08 R303; 09 R350 to R352, R358). -/
namespace Sys2Proof.Machine

/-! The sector check is a 16-bit number. -/

theorem checkBit_lt (c : Nat) : checkBit c < 2 ^ 16 := by
  have h : 2 * c % 65536 < 2 ^ 16 := Nat.mod_lt _ (by norm_num)
  unfold checkBit
  split
  · exact Nat.xor_lt_two_pow h (by norm_num)
  · exact h

theorem bitsN_lt (n hi lo : Nat) : bitsN n hi lo < 2 ^ (hi + 1 - lo) :=
  Nat.mod_lt _ (by positivity)

theorem sectorCheck_lt (data : List Byte) (mem : Nat) : sectorCheck data mem < 2 ^ 16 := by
  have hhi : bitsN mem 36 22 < 2 ^ 16 := (bitsN_lt mem 36 22).trans (by norm_num)
  refine Nat.xor_lt_two_pow (Nat.xor_lt_two_pow ?_ (bitsN_lt mem 21 6)) hhi
  exact List.foldlRecOn (motive := (· < 2 ^ 16)) data _ (by norm_num) (fun _ _ _ _ => checkBit_lt _)

theorem checkErr_lt (d : PageDev) (k : Nat) : checkErr d k < 2 ^ 16 := by
  have h0 := (mgetD d.err (2240 + 2 * k) 0).isLt
  have h1 := (mgetD d.err (2241 + 2 * k) 0).isLt
  unfold checkErr
  omega

/-! Bytes stored in a page. -/

/-- Bytes stored from address `a` on read back there, and every other address reads as before. -/
theorem mgetD_foldl_msetD (m : Map Byte) (a x : Nat) (bs : List Byte) :
    mgetD ((bs.zip (List.range bs.length)).foldl (fun m e => msetD m (a + e.2) e.1 0) m) x 0 =
      if a ≤ x then (bs[x - a]?).getD (mgetD m x 0) else mgetD m x 0 := by
  induction bs using List.reverseRecOn with
  | nil => simp
  | append_singleton bs b ih =>
    rw [List.length_append, List.length_singleton, List.range_succ, List.zip_append (by simp), List.foldl_append, List.zip_cons_cons,
      List.zip_nil_left, List.foldl_cons, List.foldl_nil]
    by_cases hx : x = a + bs.length
    · subst hx
      simp [mgetD_msetD_same]
    · rw [mgetD_msetD_ne _ _ _ _ hx, ih]
      by_cases ha : a ≤ x
      · rw [if_pos ha, if_pos ha, List.getElem?_append]
        split
        · rfl
        · next hl =>
          rw [List.getElem?_eq_none (by omega), List.getElem?_eq_none (by simp; omega)]
      · rw [if_neg ha, if_neg ha]

theorem rawByte_putBytes (s : State) (pp i : Nat) (bs : List Byte) (pq j : Nat) :
    rawByte (putBytes s pp i bs) pq j =
      if pp * 2048 + i ≤ pq * 2048 + j then (bs[pq * 2048 + j - (pp * 2048 + i)]?).getD (rawByte s pq j) else rawByte s pq j :=
  mgetD_foldl_msetD s.mem.dram (pp * 2048 + i) (pq * 2048 + j) bs

/-- The bytes of a sector just stored. -/
theorem rawSector_putBytes (s : State) (pp k : Nat) {data : List Byte} (h : data.length = 64) :
    rawSector (putBytes s pp (64 * k) data) pp k = data := by
  refine List.ext_getElem (by simp [rawSector, h]) fun i hi hd => ?_
  have hi' : pp * 2048 + (64 * k + i) - (pp * 2048 + 64 * k) = i := by omega
  simp only [rawSector, List.getElem_map, List.getElem_range]
  rw [rawByte_putBytes, if_pos (by omega), hi', List.getElem?_eq_getElem hd, Option.getD_some]

/-- A byte of another page, or outside the 64 bytes of the sector, is as before. -/
theorem rawByte_putBytes_outside (s : State) {pp k pq i : Nat} {data : List Byte} (hd : data.length = 64) (hk : k < 32)
    (hi : i < 2048) (ho : pq ≠ pp ∨ i < 64 * k ∨ 64 * k + 64 ≤ i) :
    rawByte (putBytes s pp (64 * k) data) pq i = rawByte s pq i := by
  rw [rawByte_putBytes]
  split
  · rw [List.getElem?_eq_none (by omega), Option.getD_none]
  · rfl

/-! The update of a sector. -/

theorem devOf_setDev_same (s : State) (pp : Nat) (d : PageDev) : devOf (setDev s pp d) pp = d :=
  mgetD_msetD_same s.mem.pdev pp d _

theorem xor_cancel_ends (a e w : Nat) : Nat.xor (Nat.xor a (Nat.xor (Nat.xor w e) a)) e = w := by
  change (a ^^^ ((w ^^^ e) ^^^ a)) ^^^ e = w
  rw [Nat.xor_comm a, Nat.xor_xor_cancel_right, Nat.xor_xor_cancel_right]

section
variable (s : State) (page k : Nat) (data : List Byte) (complement : Bool)

theorem updateSector_frame : { updateSector s page k data complement with mem := s.mem } = s := rfl

theorem physPage_updateSector (q : Nat) : physPage (updateSector s page k data complement) q = physPage s q := rfl

theorem rawByte_updateSector (pp i : Nat) :
    rawByte (updateSector s page k data complement) pp i = rawByte (putBytes s (physPage s page) (64 * k) data) pp i := rfl

theorem rawSector_updateSector (h : data.length = 64) :
    rawSector (updateSector s page k data complement) (physPage s page) k = data :=
  rawSector_putBytes s (physPage s page) k h

/-- The check difference that an update stores for its sector. -/
def newCheck (s : State) (page k : Nat) (data : List Byte) (complement : Bool) : Nat :=
  Nat.xor (Nat.xor (Nat.xor (sectorCheck data (page * 2048 + 64 * k)) (if complement then 0xFFFF else 0))
    (checkErr (devOf s (physPage s page)) k))
    (sectorCheck (codeSector (putBytes s (physPage s page) (64 * k) data) (physPage s page) k) (page * 2048 + 64 * k))

theorem newCheck_lt : newCheck s page k data complement < 2 ^ 16 := by
  have hc : (if complement then 0xFFFF else 0) < 2 ^ 16 := by cases complement <;> decide
  exact Nat.xor_lt_two_pow (Nat.xor_lt_two_pow (Nat.xor_lt_two_pow (sectorCheck_lt _ _) hc) (checkErr_lt _ _)) (sectorCheck_lt _ _)

theorem devOf_updateSector : devOf (updateSector s page k data complement) (physPage s page) =
    { devOf s (physPage s page) with
      chk := msetD (devOf s (physPage s page)).chk k (BitVec.ofNat 16 (newCheck s page k data complement)) 0 } :=
  devOf_setDev_same _ _ _

/-- The codeword's bytes follow the stored data, whatever errors the page holds. -/
theorem codeSector_updateSector : codeSector (updateSector s page k data complement) (physPage s page) k =
    codeSector (putBytes s (physPage s page) (64 * k) data) (physPage s page) k := by
  unfold codeSector
  rw [devOf_updateSector]
  rfl

/-- The check stored for a sector just updated is that of its data, complemented where the sector is written as lost: the check of the
codeword's bytes and the page's error of the check cancel. -/
theorem storedCheck_updateSector :
    storedCheck (updateSector s page k data complement) (physPage s page) k (page * 2048 + 64 * k) =
      Nat.xor (sectorCheck data (page * 2048 + 64 * k)) (if complement then 0xFFFF else 0) := by
  rw [storedCheck, codeSector_updateSector, devOf_updateSector, mgetD_msetD_same, BitVec.toNat_ofNat,
    Nat.mod_eq_of_lt (newCheck_lt s page k data complement)]
  exact xor_cancel_ends _ _ _

end

/-! The memory address of sector `k` of a page. -/

theorem sector_addr_page {k : Nat} (hk : k < 32) (page : Nat) : (page * 2048 + 64 * k) / 2048 = page := by omega

theorem sector_addr_index {k : Nat} (hk : k < 32) (page : Nat) : (page * 2048 + 64 * k) / 64 % 32 = k := by omega

theorem sectorMatches_updateSector (s : State) {page k : Nat} (hk : k < 32) {data : List Byte} (hd : data.length = 64) :
    sectorMatches (updateSector s page k data false) (page * 2048 + 64 * k) = true := by
  have hmem : (page * 2048 + 64 * k) / 64 * 64 = page * 2048 + 64 * k := by omega
  rw [sectorMatches, sector_addr_page hk, sector_addr_index hk, hmem, physPage_updateSector, rawSector_updateSector s page k data false hd,
    storedCheck_updateSector]
  exact decide_eq_true (Nat.xor_zero _).symm

theorem readSector_of_matches {s : State} {mem : Nat} (h : sectorMatches s mem = true) :
    readSector s mem = (s, .bytes (rawSector s (physPage s (mem / 2048)) (mem / 64 % 32))) :=
  if_pos h

/-- Settles O57: the sector's check is that of its data, so the read takes the fast path. -/
theorem writtenSectorsReadBack : Obligations.WrittenSectorsReadBack := by
  rintro s t page k data hk hd rfl
  refine ⟨?reads_back, fun pp i hi ho => ?outside, updateSector_frame s page k data false, physPage_updateSector s page k data false page⟩
  case reads_back =>
    rw [readSector_of_matches (sectorMatches_updateSector s hk hd), sector_addr_page hk, sector_addr_index hk, physPage_updateSector,
      rawSector_updateSector s page k data false hd]
  case outside =>
    rw [rawByte_updateSector]
    exact rawByte_putBytes_outside s hd hk hi ho

end Sys2Proof.Machine
end
section
/-! PROOFS. Where the pages of DRAM are placed (08 R303). -/
namespace Sys2Proof.Machine

/-- The pseudo-channel of a physical page among all 128 (08 R303). -/
def channelOf (p : Nat) : Nat := p % 128 ^^^ p / 128 % 128

theorem place_eq (p : Nat) : place p = (channelOf p / 32, channelOf p % 32, p / 128 % 64, p / 8192) := rfl

theorem place_injective : Function.Injective place := by
  intro p q h
  simp only [place_eq, Prod.mk.injEq] at h
  obtain ⟨hstack, hchannel, hbank, hrow⟩ := h
  have hgroup : p / 128 = q / 128 := by omega
  have hpair : channelOf p = channelOf q := by omega
  have hlow : p % 128 = q % 128 := by
    unfold channelOf at hpair
    rw [hgroup] at hpair
    exact Nat.xor_left_injective.eq_iff.mp hpair
  omega

/-- The page of row `j` of a frame that pseudo-channel `g` holds: a frame is 8 rows of 128 pages, each spread over all channels. -/
def visit (f g j : Nat) : Nat := 128 * j + (g ^^^ (f * 8 + j) % 128)

theorem visit_low_lt {g : Nat} (hg : g < 128) (f j : Nat) : g ^^^ (f * 8 + j) % 128 < 128 :=
  Nat.xor_lt_two_pow (n := 7) hg (Nat.mod_lt _ (by norm_num))

theorem visit_row {g : Nat} (hg : g < 128) (f j : Nat) : visit f g j / 128 = j := by
  have := visit_low_lt hg f j
  unfold visit
  omega

theorem channelOf_frame_page (f i : Nat) : channelOf (f * 1024 + i) = i % 128 ^^^ (f * 8 + i / 128) % 128 := by
  have hlow : (f * 1024 + i) % 128 = i % 128 := by omega
  have hrow : (f * 1024 + i) / 128 = f * 8 + i / 128 := by omega
  rw [channelOf, hlow, hrow]

/-- A channel holds one page of each row of a frame. -/
theorem channelOf_frame_page_eq_iff {g : Nat} (hg : g < 128) (f i : Nat) :
    channelOf (f * 1024 + i) = g ↔ i = visit f g (i / 128) := by
  have hlow := visit_low_lt hg f (i / 128)
  rw [channelOf_frame_page]
  constructor
  · rintro rfl
    rw [visit, Nat.xor_xor_cancel_right]
    omega
  · intro hi
    have hmod : i % 128 = g ^^^ (f * 8 + i / 128) % 128 := by
      unfold visit at hi
      omega
    rw [hmod, Nat.xor_xor_cancel_right]

theorem card_frame_pages_of_channel {g : Nat} (hg : g < 128) (f : Nat) :
    ((Finset.range 1024).filter (fun i => channelOf (f * 1024 + i) = g)).card = 8 := by
  have hrows : ((Finset.range 1024).filter (fun i => channelOf (f * 1024 + i) = g)).card = (Finset.range 8).card := by
    refine Finset.card_nbij' (· / 128) (visit f g) ?_ ?_ ?_ ?_
    · intro i hi
      simp at hi ⊢
      omega
    · intro j hj
      have := visit_low_lt hg f j
      have hrow := visit_row hg f j
      simp only [Finset.coe_range, Set.mem_Iio, Finset.coe_filter, Finset.mem_range, Set.mem_ofPred_eq] at hj ⊢
      exact ⟨by unfold visit; omega, (channelOf_frame_page_eq_iff hg f _).mpr (by rw [hrow])⟩
    · intro i hi
      exact ((channelOf_frame_page_eq_iff hg f i).mp (Finset.mem_filter.mp hi).2).symm
    · intro j _
      exact visit_row hg f j
  rw [hrows, Finset.card_range]

theorem place_channel_iff {channel : Nat} (hc : channel < 32) (p stack : Nat) :
    (place p).1 = stack ∧ (place p).2.1 = channel ↔ channelOf p = stack * 32 + channel := by
  rw [place_eq]
  change channelOf p / 32 = stack ∧ channelOf p % 32 = channel ↔ _
  omega

/-- Settles O58: a page's place gives back its row of pages and, the exclusive or undone, its number in the row. -/
theorem pagesSpreadOverChannels : Obligations.PagesSpreadOverChannels := by
  refine ⟨fun p _ => rfl, fun p q _ _ h => place_injective h, fun f stack channel _ hs hc => ?visits⟩
  case visits =>
    simp only [← Bool.decide_and, place_channel_iff hc]
    rw [← List.toFinset_card_of_nodup (List.nodup_range.filter _), List.toFinset_filter, List.toFinset_range]
    simpa only [decide_eq_true_eq] using card_frame_pages_of_channel (by omega) f

end Sys2Proof.Machine
end
section
/-! PROOFS. The five cache operations (08 R335, R336). -/
namespace Sys2Proof.Machine

section
variable {s : State} {p : Part} {i : BitVec 10} {rk : Nat} {r : Ring} {e : Entry} {q : CopyKind → CopyOp}
  (hk : rk = rkey p.toNat i.toNat) (h : readyEntry s p.toNat i.toNat 0x05 = some (r, e))
  (hq : ∀ k, q k = newCopy s (entryOrigin rk r e) k (fAt e.desc 8 47 0) 0 (fAt e.desc 16 31 0) (fAt e.desc 24 47 0))

include h in
theorem readyCache_of_code {op : Nat} (ho : fAt e.desc 0 3 0 = op) : readyCache s p.toNat i.toNat op = some (r, e) := by
  rw [readyCache, h]
  exact if_pos ho

include hk hq in
theorem dispatchCache_of_kind {k : CopyKind} (hc : cacheKind (fAt e.desc 0 3 0) = some k) :
    dispatchCache s p.toNat i.toNat r e = settle (addCopy (dispatched s rk r e) (q k)) := by
  rw [dispatchCache, dispatchCopy, cacheOf, hc, Option.getD_some, hq, hk]

include hk h hq

theorem exec_zero_of_ready (ho : fAt e.desc 0 3 0 = 1) :
    exec (.zero p i) s = .next (settle (addCopy (dispatched s rk r e) (q .zero))) := by
  rw [exec_zero, execZero, readyCache_of_code h ho, ← dispatchCache_of_kind hk hq (congrArg cacheKind ho)]

theorem exec_preload_of_ready (ho : fAt e.desc 0 3 0 = 2) :
    exec (.preload p i) s = .next (settle (addCopy (dispatched s rk r e) (q .preload))) := by
  rw [exec_preload, execPreload, readyCache_of_code h ho, ← dispatchCache_of_kind hk hq (congrArg cacheKind ho)]

theorem exec_preloadLock_of_ready (ho : fAt e.desc 0 3 0 = 3) :
    exec (.preloadLock p i) s = .next (settle (addCopy (dispatched s rk r e) (q .preloadLock))) := by
  rw [exec_preloadLock, execPreloadLock, readyCache_of_code h ho, ← dispatchCache_of_kind hk hq (congrArg cacheKind ho)]

theorem exec_unlock_of_ready (ho : fAt e.desc 0 3 0 = 4) :
    exec (.unlock p i) s = .next (settle (addCopy (dispatched s rk r e) (q .unlock))) := by
  rw [exec_unlock, execUnlock, readyCache_of_code h ho, ← dispatchCache_of_kind hk hq (congrArg cacheKind ho)]

theorem exec_writeback_of_ready (ho : fAt e.desc 0 3 0 = 5) :
    exec (.writeback p i) s = .next (settle (addCopy (dispatched s rk r e) (q .writeback))) := by
  rw [exec_writeback, execWriteback, readyCache_of_code h ho, ← dispatchCache_of_kind hk hq (congrArg cacheKind ho)]

end

/-- Settles O19: each code names its own operation, which the ready entry sends to a copy engine. -/
theorem cacheEntriesComplete : Obligations.CacheEntriesComplete := by
  intro p i s rk r e q hk h hq
  exact ⟨exec_zero_of_ready hk h hq, exec_preload_of_ready hk h hq, exec_preloadLock_of_ready hk h hq,
    exec_unlock_of_ready hk h hq, exec_writeback_of_ready hk h hq⟩

end Sys2Proof.Machine
end
section
/-! PROOFS. Sector reads, decodes, sector writes and the ends of evictions (08 R330, R331; 09 R352, R353, R358). -/
namespace Sys2Proof.Machine

section
variable {k : BitVec 31} {up : List (Nat × Byte)} {s u : State} (hw : wanted s k.toNat = true) (hd : decoding s k.toNat = false)
  (hu : u = applyUpset s (physPage s (k.toNat / 32)) up)
include hw hd hu

/-- A wanted sector whose check matches is delivered. -/
theorem exec_fastPathRead_of_match (hm : sectorMatches u (k.toNat * 64) = true) : exec (.fastPathRead k up) s =
    .next (deliverSector u k.toNat (.bytes (rawSector u (physPage u (k.toNat / 32)) (k.toNat % 32)))) := by
  subst hu
  simp only [exec_fastPathRead, execFastPathRead, hw, hd, hm, Bool.not_false, Bool.and_self, if_true]

/-- A wanted sector whose check does not match takes the slow path. -/
theorem exec_fastPathRead_of_mismatch (hm : sectorMatches u (k.toNat * 64) = false) :
    exec (.fastPathRead k up) s = .next (joinSlow u k.toNat) := by
  subst hu
  simp only [exec_fastPathRead, execFastPathRead, hw, hd, hm, Bool.not_false, Bool.and_self, if_true, Bool.false_eq_true, if_false]

end

/-- The end of a page's decode delivers every sector that waited for it. -/
theorem exec_slowPathDecode_of_waiting {page : BitVec 26} {up : List (Nat × Byte)} {s u t : State} {q : SlowReq}
    {l : List (Nat × SectorData)} (hq : s.mem.slowQ.find? (fun q => q.page = page.toNat) = some q)
    (hu : u = applyUpset s (physPage s q.page) up)
    (hl : slowDecode (setMem u { u.mem with slowQ := u.mem.slowQ.filter (fun x => x.page != q.page) }) q.page q.sectors = (t, l)) :
    exec (.slowPathDecode page up) s = .next (l.foldl (fun s e => deliverSector s (q.page * 32 + e.1) e.2) t) := by
  subst hu
  simp only [exec_slowPathDecode, execSlowPathDecode, hq, hl]

section
variable {c : BitVec 5} {i : Nat} {s : State} {e : EvEntry} (he : (evOf s c.toNat)[i]? = some e)
include he

theorem exec_sectorWrite_of_dirty {half : Bool} (hd : lget e.line.dirty (b2n half) false = true) {u : State}
    (hu : u = writeSector s (e.line.addr * 128 + 64 * b2n half) (slice e.line.bytes (64 * b2n half) 64) false) :
    exec (.sectorWrite c i half) s = .next (setEv u c.toNat (lupd (evOf u c.toNat) i
      (fun e => { line := { e.line with dirty := lset e.line.dirty (b2n half) false }, issued := true }))) := by
  subst hu
  simp only [exec_sectorWrite, execSectorWrite, he, hd, if_true]

/-- An entry whose writes are issued and that has no dirty sector left is freed. -/
theorem exec_evictionWriteComplete_of_clean (hs : e.issued = true) (hc : ∀ d ∈ e.line.dirty, d = false) :
    exec (.evictionWriteComplete c i) s = .next (setEv s c.toNat ((evOf s c.toNat).eraseIdx i)) := by
  have hany : e.line.dirty.any id = false := List.any_eq_false.mpr fun d hd => by simp [hc d hd]
  simp only [exec_evictionWriteComplete, execEvictionWriteComplete, he, hs, hany, Bool.not_false, Bool.and_self, if_true]

end

/-- Settles O30: a read by whether its sector's check matches, the others by their own equations. -/
theorem memoryStepsComplete : Obligations.MemoryStepsComplete := by
  refine ⟨fun k up s u hw hd hu => ⟨exec_fastPathRead_of_match hw hd hu, exec_fastPathRead_of_mismatch hw hd hu⟩,
    fun page up s t q l hq hl => exec_slowPathDecode_of_waiting hq rfl hl,
    fun c i s e he => ⟨fun half hd => ⟨_, exec_sectorWrite_of_dirty he hd rfl, rfl⟩, exec_evictionWriteComplete_of_clean he⟩⟩

end Sys2Proof.Machine
end
section
/-! PROOFS. The commands of PART_CMD, and the end of a claim's filling (08 R306, R323; 10 R400, R403 to R406). -/
namespace Sys2Proof.Machine

/-! PART_STATUS once a command has ended. -/

theorem rdF_partResult_busy (s : State) (result entry : Nat) : rdF (partResult s result entry) Reg.partStatus 0 0 = 0 := by
  rw [rdF, partResult, rd_wr_same, wbits, bitsN, BitVec.toNat_ofNat]
  omega

theorem rdF_partResult_result (s : State) (result entry : Nat) :
    rdF (partResult s result entry) Reg.partStatus 15 8 = result % 256 := by
  rw [rdF, partResult, rd_wr_same, wbits, bitsN, BitVec.toNat_ofNat]
  omega

/-! The grant of a partition. -/

theorem putGrant_grant (s : State) {p : Nat} (hp : p < 32) (on : Bool) : (putGrant s p on).mem.grant.getLsbD p = on := by
  have hbit : (BitVec.ofNat 32 (2 ^ p)).getLsbD p = true := by
    rw [BitVec.getLsbD_ofNat, Nat.testBit_two_pow_self, decide_eq_true hp, Bool.and_true]
  cases on with
  | false =>
    change (s.mem.grant &&& ~~~ BitVec.ofNat 32 (2 ^ p)).getLsbD p = false
    rw [BitVec.getLsbD_and, BitVec.getLsbD_not, hbit, Bool.not_true, Bool.and_false, Bool.and_false]
  | true =>
    change (s.mem.grant ||| BitVec.ofNat 32 (2 ^ p)).getLsbD p = true
    rw [BitVec.getLsbD_or, hbit, Bool.or_true]

/-- From `s` to `t` translations and walks have changed, and nothing else. -/
def TranslationsOnly (s t : State) : Prop :=
  { t with mem := { t.mem with xsets := s.mem.xsets, walks := s.mem.walks } } = s

namespace TranslationsOnly

theorem dropTable {s t : State} (h : TranslationsOnly s t) (x : TableId) : TranslationsOnly s (dropTable t x) := h

theorem host {s t : State} (h : TranslationsOnly s t) : t.host = s.host := (congrArg State.host h :)
theorem grant {s t : State} (h : TranslationsOnly s t) : t.mem.grant = s.mem.grant :=
  (congrArg (fun u : State => u.mem.grant) h :)
theorem dram {s t : State} (h : TranslationsOnly s t) : t.mem.dram = s.mem.dram :=
  (congrArg (fun u : State => u.mem.dram) h :)

end TranslationsOnly

theorem dropPartTables_translationsOnly (s : State) (p : Nat) : TranslationsOnly s (dropPartTables s p) :=
  List.foldlRecOn (motive := TranslationsOnly s) _ _ rfl fun _ h c _ => h.dropTable (.ctx c.1)

/-! A write of PART_CMD outside recovery, while no command is at work. -/

section
variable {p : Part} {s u : State} (hr : s.sec.recovery = false) (hu : u = hostTouch s) (ht : partTaken u = true)
include hr hu ht

theorem exec_partDestroy_of_created (hc : (partOf u p.toNat).created = true) (hd : (partOf u p.toNat).destroying = false) :
    exec (.partDestroy p) s =
      .next (settle (destroyPart (wr { u with host := { u.host with partCmd := some p.toNat } } Reg.partStatus 1) p.toNat)) := by
  simp only [exec_partDestroy, execPartDestroy, hr, ← hu, ht, hc, hd, Bool.not_true, Bool.or_self, Bool.false_eq_true, if_false]

theorem exec_setGrant_of_created (hc : (partOf u p.toNat).created = true) (hd : (partOf u p.toNat).destroying = false) (g : Bool) :
    exec (.setGrant p g) s = .next (partResult (dropPartTables (putGrant u p.toNat g) p.toNat) PartRes.ok 0) := by
  simp only [exec_setGrant, execSetGrant, hr, ← hu, ht, hc, hd, Bool.not_true, Bool.or_self, Bool.false_eq_true, if_false]

theorem exec_partCreate_of_taken (h c : HostRead) : exec (.partCreate p h c) s = .next (settle (partCreate u p.toNat h c)) := by
  simp only [exec_partCreate, execPartCreate, hr, ← hu, ht, Bool.false_eq_true, if_false, if_true]

end

theorem partCreate_of_refused {s : State} {p r i : Nat} {h c : HostRead} (hj : createJudge s p h c = (r, i)) (hr : r ≠ 0) :
    partCreate s p h c = partResult s r i := by
  obtain ⟨n, rfl⟩ := Nat.exists_eq_succ_of_ne_zero hr
  simp only [partCreate, hj]

theorem partCreate_of_accepted {s : State} {p i : Nat} {b l : List Byte} (hj : createJudge s p (.ok b) (.ok l) = (0, i)) :
    partCreate s p (.ok b) (.ok l) = partResult (createPart s p b (claimEntries l (hdrClaims b))) PartRes.ok 0 := by
  simp only [partCreate, hj]

/-! The filling of a claim. -/

/-- The claim at the head of the queue is filled and FREE. -/
def freeClaim (s : State) (n : Nat) : State :=
  let u := fillClaim s n (claimOf s n).strength
  setMem u { u.mem with
    claims := msetD u.mem.claims n { owner := 0, kind := .free, strength := (claimOf s n).strength, peerMask := 0 }
      { owner := 0, kind := .free, strength := 3, peerMask := 0 }
    fillQ := u.mem.fillQ.drop 1 }

theorem freeClaim_fillQ (s : State) (n : Nat) : (freeClaim s n).mem.fillQ = s.mem.fillQ.drop 1 := rfl

theorem claimOf_freeClaim (s : State) (n : Nat) :
    claimOf (freeClaim s n) n = { owner := 0, kind := .free, strength := (claimOf s n).strength, peerMask := 0 } :=
  mgetD_msetD_same _ _ _ _

/-- Where no partition is being destroyed, the end of a filling only frees the claim. -/
theorem exec_claimFillingEnd_of_no_destroy {s : State} {n : BitVec 7} {rest : List Nat} (hf : s.mem.fillQ = n.toNat :: rest)
    (hd : ∀ q ∈ s.host.parts, q.2.destroying = false) : exec (.claimFillingEnd n) s = .next (freeClaim s n.toNat) := by
  have hnone : (freeClaim s n.toNat).host.parts.find? (fun q => q.2.destroying && q.2.filling.contains n.toNat) = none := by
    refine List.find?_eq_none.mpr fun q hq => ?_
    simp [hd q hq]
  rw [exec_claimFillingEnd, execClaimFillingEnd, hf, List.head?_cons, if_neg (not_not_intro rfl)]
  dsimp only
  split
  · rfl
  · next hsome => exact absurd (hnone.symm.trans hsome) (Option.some_ne_none _).symm

/-- Settles O13: each command by its equation once it is taken, CREATE by its judgement. -/
theorem partitionCommandsComplete : Obligations.PartitionCommandsComplete := by
  refine fun p s u hr hu => ⟨fun ht hc hd => ⟨exec_partDestroy_of_created hr hu ht hc hd, fun g => ?grant⟩,
    fun ht h c r i hj hn => ?refused, fun ht b l i hj => ?created, fun n rest hf hd => ?filled⟩
  case grant =>
    have hx := dropPartTables_translationsOnly (putGrant u p.toNat g) p.toNat
    refine ⟨_, exec_setGrant_of_created hr hu ht hc hd g, ?_, rdF_partResult_busy _ _ _, rdF_partResult_result _ _ _, hx.dram, hx.host⟩
    exact (congrArg (BitVec.getLsbD · p.toNat) hx.grant).trans (putGrant_grant u p.isLt g)
  case refused => rw [exec_partCreate_of_taken hr hu ht, partCreate_of_refused hj hn]
  case created => rw [exec_partCreate_of_taken hr hu ht, partCreate_of_accepted hj]
  case filled =>
    refine ⟨_, exec_claimFillingEnd_of_no_destroy hf hd, ?_, ?_, rfl⟩
    · rw [freeClaim_fillQ, hf, List.drop_one, List.tail_cons]
    · rw [claimOf_freeClaim]

end Sys2Proof.Machine
end
section
/-! PROOFS. The upkeep of memory: invalidation of translations, the patrol, the check-bit test unit, the threshold window and the
retirement of frames (08 R323, R324; 09 R363, R367, R368, R371, R372, R384, R385). -/
namespace Sys2Proof.Machine

/-! The invalidation of translations. -/

theorem mget_mmap {α β : Type} (m : Map α) (f : Nat → α → β) (k : Nat) : mget (mmap m f) k = (mget m k).map (f k) := by
  induction m with
  | nil => rfl
  | cons e r ih =>
    obtain ⟨j, v⟩ := e
    by_cases hj : j = k
    · subst hj
      simp [mmap, mget]
    · simpa [mmap, mget, hj] using ih

theorem rd_wrN_same (s : State) (key n : Nat) : rd (wrN s key n) key = BitVec.ofNat 64 n := rd_wr_same s key _
theorem wrN_onlyRegs (s : State) (key n : Nat) : onlyRegs s (wrN s key n) [key] :=
  fun _ hk => rd_wr_ne s _ (List.ne_of_not_mem_cons hk)

/-- A register write over a change of memory leaves the rest of the state. -/
theorem wrN_setMem_frame (s : State) (m : MemSt) (key n : Nat) :
    { wrN (setMem s m) key n with regs := s.regs, mem := s.mem } = s := rfl

/-- Memory with a range added to a partition's pending invalidations. -/
def addInval (m : MemSt) (p : Nat) (r : InvalRange) : MemSt :=
  { m with inval := mset m.inval p (mgetD m.inval p [] ++ [r]) }

theorem addInval_inval_self (m : MemSt) (p : Nat) (r : InvalRange) :
    mgetD (addInval m p r).inval p [] = mgetD m.inval p [] ++ [r] :=
  mgetD_mset_same _ _ _ _

theorem exec_memXlateInval_of_not_recovery {p : Part} {s u : State} (hr : s.sec.recovery = false) (hu : u = hostTouch s) (v : Word) :
    exec (.memXlateInval p v) s = .next (wrN (setMem u (addInval u.mem p.toNat { vframe := wbits v 47 21, count := wbits v 15 0 }))
      (pkey p.toNat Reg.memXlateStatus) 1) := by
  simp only [exec_memXlateInval, execMemXlateInval, hr, ← hu, Bool.false_eq_true, if_false, addInval]

/-- Memory without a partition's pending invalidations and the translations that they name. -/
def invalidated (m : MemSt) (p : Nat) : MemSt :=
  { m with
    xsets := mmap m.xsets (fun _ es => es.filter (fun e =>
      ! (tablePart e.table = p && (mgetD m.inval p []).any (fun r => inRange r e.vframe))))
    inval := mdel m.inval p }

theorem invalidated_inval_self (m : MemSt) (p : Nat) : mget (invalidated m p).inval p = none := by
  rw [invalidated, mget_mdel, if_pos rfl]

/-- No translation cache holds a translation of the partition in a range that was pending. -/
theorem not_inRange_of_mem_invalidated {m : MemSt} {p c : Nat} {es : List XEntry} (hc : mget (invalidated m p).xsets c = some es)
    {e : XEntry} (he : e ∈ es) (hp : tablePart e.table = p) {r : InvalRange} (hr : r ∈ mgetD m.inval p []) :
    inRange r e.vframe = false := by
  rw [invalidated, mget_mmap, Option.map_eq_some_iff] at hc
  obtain ⟨old, -, rfl⟩ := hc
  have hkept := (List.mem_filter.mp he).2
  rw [decide_eq_true hp, Bool.true_and, Bool.not_eq_true', List.any_eq_false] at hkept
  exact Bool.eq_false_of_not_eq_true (hkept r hr)

theorem exec_invalidationComplete_of_no_old_access {p : Part} {s : State} (hi : mgetD s.mem.inval p.toNat [] ≠ [])
    (ha : oldAccess s p.toNat = false) : exec (.invalidationComplete p) s =
      .next (wrN (setMem s (invalidated s.mem p.toNat)) (pkey p.toNat Reg.memXlateStatus) 0) := by
  simp only [exec_invalidationComplete, execInvalidationComplete, hi, ha, decide_false, Bool.or_self, Bool.false_eq_true, if_false,
    invalidated]

/-! The patrol. -/

section
variable {s u : State} {up : List (Nat × Byte)} (hh : rdF s Reg.errCfg 7 0 ≠ 0)
  (hd : s.mem.patrolPage ≠ 0 ∨ s.mem.patrolTime = 0 ∨ due s s.mem.patrolTime (rdF s Reg.errCfg 7 0 * 3600000000000) = true)
  (hu : u = applyUpset (if s.mem.patrolPage = 0 then setMem s { s.mem with patrolTime := s.dtime } else s) s.mem.patrolPage up)

include hh hd in
/-- The patrol runs: its period is not 0, and a round is under way or due. -/
theorem patrol_goes : ¬ (rdF s Reg.errCfg 7 0 = 0 || (s.mem.patrolPage = 0 && s.mem.patrolTime ≠ 0 &&
    ! due s s.mem.patrolTime (rdF s Reg.errCfg 7 0 * 3600000000000))) = true := by
  rcases hd with hd | hd | hd <;> simp [hh, hd]

include hh hd hu

theorem exec_patrolScrub_of_memory_page {m : Nat} (hm : patrolTarget u s.mem.patrolPage = some m) :
    exec (.patrolScrub up) s = .next (patrolNext (scrubPage u (m * 2048) true).1) := by
  subst hu
  simp only [exec_patrolScrub, execPatrolScrub, if_neg (patrol_goes hh hd), hm]

theorem exec_patrolScrub_of_spare_page (hm : patrolTarget u s.mem.patrolPage = none) :
    exec (.patrolScrub up) s = .next (patrolNext (patrolSpare u s.mem.patrolPage)) := by
  subst hu
  simp only [exec_patrolScrub, execPatrolScrub, if_neg (patrol_goes hh hd), hm]

end

/-! Writes of ERR_TEST_CTL and ERR_FRAME_RETIRE outside recovery. -/

theorem testOp_of_allowed {s : State} {v : Word32} {op : Nat} (ho : bitsN v.toNat 1 0 = op) (hg : bitN v.toNat 4 = true)
    (ha : testAllowed (wrF s Reg.errTestCtl 3 0 (bitsN v.toNat 3 0)) = true) (f : State → State) :
    testOp s v op f = f (wrF (wrF s Reg.errTestCtl 3 0 (bitsN v.toNat 3 0)) Reg.errTestCtl 6 6 0) := by
  simp only [testOp, ho, hg, ha, decide_true, Bool.and_self, if_true]

section
variable {s u : State} (hr : s.sec.recovery = false) (hu : u = hostTouch s) (v : Word32)
include hr hu

theorem exec_readRaw_of_not_recovery : exec (.readRaw v) s = .next (testOp u v 1 readRawOp) := by
  simp only [exec_readRaw, execReadRaw, hr, ← hu, Bool.false_eq_true, if_false]

theorem exec_writeRaw_of_not_recovery : exec (.writeRaw v) s = .next (testOp u v 2 writeRawOp) := by
  simp only [exec_writeRaw, execWriteRaw, hr, ← hu, Bool.false_eq_true, if_false]

theorem exec_encode_of_not_recovery : exec (.encode v) s = .next (testOp u v 3 encodeOp) := by
  simp only [exec_encode, execEncode, hr, ← hu, Bool.false_eq_true, if_false]

theorem exec_errFrameRetire_of_frame (hf : bitsN v.toNat 15 0 ≤ 48895) :
    exec (.errFrameRetire v) s = .next (triggerFrame u (bitsN v.toNat 15 0) 4) := by
  simp only [exec_errFrameRetire, execErrFrameRetire, hr, ← hu, hf, Bool.false_eq_true, if_false, if_true]

end

/-! The threshold window. -/

/-- The state with every count of the window restarted. -/
def newWindow (s : State) : State :=
  { setMem s { s.mem with frameSyms := [], coreErrs := [], recorded := [], windowStart := s.dtime } with
    site := { s.site with sram := [] } }

theorem exec_thresholdWindow_of_due {s : State} (h : due s s.mem.windowStart (rdF s Reg.errThresh 39 28 * 60000000000) = true) :
    exec .thresholdWindow s = .next (newWindow s) := by
  rw [exec_thresholdWindow, execThresholdWindow, if_pos h, newWindow]

/-! The retirement of the frame at the head of the queue. -/

section
variable {s : State} {r : Retire} {rest : List Retire} (hq : s.mem.retireQ = r :: rest)
include hq

theorem exec_frameRetirement_of_waiting (hr : r.toFrame = none) : exec .frameRetirement s = .next (beginRetire s r rest) := by
  simp only [exec_frameRetirement, execFrameRetirement, hq, hr, Option.isSome_none, Bool.false_eq_true, if_false]

/-- A retirement in progress copies its next page; the last ends it. -/
theorem exec_retirementPageCopy_of_started {q : Nat} (hr : r.toFrame = some q) {u t : State}
    (hu : u = copyPage s (r.frame * 1024 + r.page) (q * 1024 + r.page))
    (ht : t = setMem u { u.mem with retireQ := { r with page := r.page + 1 } :: u.mem.retireQ.tail }) :
    exec .retirementPageCopy s = .next (if r.page < 1023 then t else endRetire t r q u.mem.retireQ.tail) := by
  subst ht hu
  simp only [exec_retirementPageCopy, execRetirementPageCopy, hq, hr]
  split <;> rfl

end

/-- Settles O31: each command by its own equation, those of the host outside recovery. -/
theorem memoryUpkeepCompletes : Obligations.MemoryUpkeepCompletes := by
  refine ⟨fun p v s u hr hu => ?invalidate, fun p s hi ha => ?invalidated,
    fun up s u hh hd hu => ⟨fun m hm => exec_patrolScrub_of_memory_page hh hd hu hm, exec_patrolScrub_of_spare_page hh hd hu⟩,
    fun v s u hr hu => ⟨?test, exec_errFrameRetire_of_frame hr hu v⟩,
    fun s h => ⟨_, exec_thresholdWindow_of_due h, rfl, rfl, rfl, rfl, rfl, rfl⟩,
    fun s r rest hq => ⟨exec_frameRetirement_of_waiting hq, fun q u hr hu => ⟨_, rfl, exec_retirementPageCopy_of_started hq hr hu rfl⟩⟩⟩
  case invalidate =>
    refine ⟨_, exec_memXlateInval_of_not_recovery hr hu v, ?_⟩
    generalize pkey p.toNat Reg.memXlateStatus = key
    exact ⟨rd_wrN_same _ _ 1, wrN_setMem_frame u _ key 1, wrN_onlyRegs _ key 1, addInval_inval_self _ _ _, rfl, rfl⟩
  case invalidated =>
    refine ⟨_, exec_invalidationComplete_of_no_old_access hi ha, ?_⟩
    generalize pkey p.toNat Reg.memXlateStatus = key
    exact ⟨rd_wrN_same _ _ 0, invalidated_inval_self _ _, wrN_setMem_frame s _ key 0, wrN_onlyRegs _ key 0, rfl,
      fun _ _ _ hc he hp _ hq => not_inRange_of_mem_invalidated hc he hp hq⟩
  case test =>
    rintro w rfl hg ha
    refine ⟨fun ho => ?_, fun ho => ?_, fun ho => ?_⟩
    · rw [exec_readRaw_of_not_recovery hr hu, testOp_of_allowed ho hg ha]
    · rw [exec_writeRaw_of_not_recovery hr hu, testOp_of_allowed ho hg ha]
    · rw [exec_encode_of_not_recovery hr hu, testOp_of_allowed ho hg ha]

end Sys2Proof.Machine
end

section
/-! PROOFS. Every step keeps the canonical forms and the fixed parts of the device. -/
namespace Sys2Proof.Machine

/-- Every command keeps the queue it is given and soundness: each by its own meaning's rule. -/
theorem exec_keep {s0 s : State} (h : Keep s0 s) (c : Instr) : KeepO s0 (exec c s) :=
  match c with
  | .registerWrite _ => execRegisterWrite_keep h
  | .unsupportedBarAccess _ _ _ _ => execUnsupportedBarAccess_keep h
  | .powerOn _ => execPowerOn_keep h
  | .pwrgdDeassert => execPwrgdDeassert_keep h
  | .railUndervoltage => execRailUndervoltage_keep h
  | .keyDerivation _ => execKeyDerivation_keep h
  | .configurationRecordChoice _ _ => execConfigurationRecordChoice_keep h
  | .stackTraining _ _ => execStackTraining_keep h
  | .memoryFill => execMemoryFill_keep h
  | .slotBootVerify => execSlotBootVerify_keep h
  | .gantryRelease => execGantryRelease_keep h
  | .logicalCoreAssignment _ => execLogicalCoreAssignment_keep h
  | .ready => execReady_keep h
  | .perstAssert => execPerstAssert_keep h
  | .perstRelease => execPerstRelease_keep h
  | .configurationRecordAppend _ => execConfigurationRecordAppend_keep h
  | .hotReset => execHotReset_keep h
  | .linkDownReset => execLinkDownReset_keep h
  | .pfFlr => execPfFlr_keep h
  | .vfFlr _ => execVfFlr_keep h
  | .vfEnableClear => execVfEnableClear_keep h
  | .msixUnmask _ _ => execMsixUnmask_keep h
  | .pcieMsixAllocWrite _ _ => execPcieMsixAllocWrite_keep h
  | .completionTimeout _ => execCompletionTimeout_keep h
  | .partCreate _ _ _ => execPartCreate_keep h
  | .partDestroy _ => execPartDestroy_keep h
  | .setGrant _ _ => execSetGrant_keep h
  | .claimFillingEnd _ => execClaimFillingEnd_keep h
  | .ringCreate _ _ _ => execRingCreate_keep h
  | .ringDestroy _ _ => execRingDestroy_keep h
  | .ringStop _ _ => execRingStop_keep h
  | .ringResume _ _ => execRingResume_keep h
  | .ringQuery _ _ => execRingQuery_keep h
  | .ringCmdReserved _ _ => execRingCmdReserved_keep h
  | .tailPoll _ _ => execTailPoll_keep h
  | .tailReadReturn _ _ _ => execTailReadReturn_keep h
  | .entryFetch _ _ _ _ => execEntryFetch_keep h
  | .idleSequence _ _ => execIdleSequence_keep h
  | .idleTailReturn _ _ _ => execIdleTailReturn_keep h
  | .gantryWake _ _ => execGantryWake_keep h
  | .payloadRead _ _ _ => execPayloadRead_keep h
  | .inFlightAdmission _ _ => execInFlightAdmission_keep h
  | .entryRetirement _ => execEntryRetirement_keep h
  | .nop _ _ => execNop_keep h
  | .dispatch _ _ => execDispatch_keep h
  | .tensor _ _ => execTensor_keep h
  | .render _ _ => execRender_keep h
  | .copy _ _ => execCopy_keep h
  | .zero _ _ => execZero_keep h
  | .preload _ _ => execPreload_keep h
  | .preloadLock _ _ => execPreloadLock_keep h
  | .unlock _ _ => execUnlock_keep h
  | .writeback _ _ => execWriteback_keep h
  | .scrub _ _ => execScrub_keep h
  | .copyEngineBoundary _ _ => execCopyEngineBoundary_keep h
  | .copyPreemption _ _ => execCopyPreemption_keep h
  | .loadModule _ _ => execLoadModule_keep h
  | .moduleLoadEnd _ _ _ _ => execModuleLoadEnd_keep h
  | .unloadModule _ _ => execUnloadModule_keep h
  | .segUpdate _ _ => execSegUpdate_keep h
  | .call _ _ => execCall_keep h
  | .timestamp _ _ => execTimestamp_keep h
  | .groupInstruction _ _ _ => execGroupInstruction_keep h
  | .rotation _ _ => execRotation_keep h
  | .workgroupBarrier _ _ => execWorkgroupBarrier_keep h
  | .subgroupBarrier _ _ => execSubgroupBarrier_keep h
  | .groupOperation _ _ _ _ _ _ _ => execGroupOperation_keep h
  | .load _ _ _ _ _ _ _ => execLoad_keep h
  | .store _ _ _ _ _ => execStore_keep h
  | .memoryBarrier _ _ _ _ _ => execMemoryBarrier_keep h
  | .atomic _ _ _ _ _ _ _ _ => execAtomic_keep h
  | .opReadClockKhr _ _ _ _ => execOpReadClockKhr_keep h
  | .imageSample _ _ _ _ _ _ => execImageSample_keep h
  | .tensorIssue _ _ _ _ => execTensorIssue_keep h
  | .tensorWait _ _ _ _ => execTensorWait_keep h
  | .tensorPoll _ _ _ _ => execTensorPoll_keep h
  | .tileHandoff _ _ _ => execTileHandoff_keep h
  | .cadenceRead _ _ _ => execCadenceRead_keep h
  | .lineRead _ _ _ _ => execLineRead_keep h
  | .markFeed _ _ _ _ _ => execMarkFeed_keep h
  | .asyncCopy _ _ _ _ _ _ => execAsyncCopy_keep h
  | .asyncCopyComplete _ _ _ => execAsyncCopyComplete_keep h
  | .copyWait _ _ _ => execCopyWait_keep h
  | .l1Prefetch _ _ _ _ => execL1Prefetch_keep h
  | .yield _ _ => execYield_keep h
  | .sleep _ _ _ => execSleep_keep h
  | .sleepExpiry _ _ => execSleepExpiry_keep h
  | .trap _ _ _ => execTrap_keep h
  | .workgroupPlacement _ => execWorkgroupPlacement_keep h
  | .preemptionRequest _ _ _ => execPreemptionRequest_keep h
  | .coreSave _ _ _ => execCoreSave_keep h
  | .resumption _ => execResumption_keep h
  | .replyDelivery _ _ _ _ _ => execReplyDelivery_keep h
  | .kStep _ => execKStep_keep h
  | .tensorCompletion _ => execTensorCompletion_keep h
  | .tensorFault _ => execTensorFault_keep h
  | .tensorPreemption _ _ => execTensorPreemption_keep h
  | .tensorResume _ => execTensorResume_keep h
  | .drawRecordFetch _ => execDrawRecordFetch_keep h
  | .batch _ _ _ => execBatch_keep h
  | .primitive _ _ => execPrimitive_keep h
  | .geomBinGrant _ _ => execGeomBinGrant_keep h
  | .binGrowthTimeout _ => execBinGrowthTimeout_keep h
  | .tileHandout _ _ => execTileHandout_keep h
  | .beginInvocationInterlock _ _ => execBeginInvocationInterlock_keep h
  | .tileEnd _ _ _ => execTileEnd_keep h
  | .tileBankRelease _ _ _ => execTileBankRelease_keep h
  | .renderPassComplete _ => execRenderPassComplete_keep h
  | .geometryPreemption _ _ => execGeometryPreemption_keep h
  | .tilePhasePreemption _ _ => execTilePhasePreemption_keep h
  | .dressFlip _ _ _ => execDressFlip_keep h
  | .latchLine _ => execLatchLine_keep h
  | .frameStart _ => execFrameStart_keep h
  | .doneRecord _ => execDoneRecord_keep h
  | .layerFetch _ _ => execLayerFetch_keep h
  | .headEnable _ _ => execHeadEnable_keep h
  | .headDisable _ => execHeadDisable_keep h
  | .hpdInterrupt _ _ => execHpdInterrupt_keep h
  | .dsiCommand _ => execDsiCommand_keep h
  | .dsiPacketSend _ _ => execDsiPacketSend_keep h
  | .translationWalk _ _ => execTranslationWalk_keep h
  | .memXlateInval _ _ => execMemXlateInval_keep h
  | .invalidationComplete _ => execInvalidationComplete_keep h
  | .lineFill _ _ => execLineFill_keep h
  | .evictionWriteComplete _ _ => execEvictionWriteComplete_keep h
  | .fastPathRead _ _ => execFastPathRead_keep h
  | .slowPathDecode _ _ => execSlowPathDecode_keep h
  | .sectorWrite _ _ _ => execSectorWrite_keep h
  | .patrolScrub _ => execPatrolScrub_keep h
  | .readRaw _ => execReadRaw_keep h
  | .writeRaw _ => execWriteRaw_keep h
  | .encode _ => execEncode_keep h
  | .sramError _ _ _ => execSramError_keep h
  | .thresholdWindow => execThresholdWindow_keep h
  | .errFrameRetire _ => execErrFrameRetire_keep h
  | .errCoreRetire _ => execErrCoreRetire_keep h
  | .frameRetirement => execFrameRetirement_keep h
  | .retirementPageCopy => execRetirementPageCopy_keep h
  | .spareAssignment _ => execSpareAssignment_keep h
  | .promotionComplete _ => execPromotionComplete_keep h
  | .coreUnavailable _ => execCoreUnavailable_keep h
  | .objCreate _ _ _ => execObjCreate_keep h
  | .addRef _ _ => execAddRef_keep h
  | .release _ _ => execRelease_keep h
  | .signal _ owner => execSignal_keep (_owner := owner) h
  | .objRead _ owner => execObjRead_keep (_owner := owner) h
  | .objQuery _ owner => execObjQuery_keep (_owner := owner) h
  | .arm _ owner => execArm_keep (_owner := owner) h
  | .kill _ owner => execKill_keep (_owner := owner) h
  | .ownerGone _ _ => execOwnerGone_keep h
  | .objCmdReserved _ owner => execObjCmdReserved_keep (_owner := owner) h
  | .killEngineStop _ _ => execKillEngineStop_keep h
  | .killRetirement _ _ => execKillRetirement_keep h
  | .killSummaryRecord _ _ => execKillSummaryRecord_keep h
  | .contextWatchdog _ _ => execContextWatchdog_keep h
  | .waitTimeout _ => execWaitTimeout_keep h
  | .eventTimeout _ _ => execEventTimeout_keep h
  | .deadlockScan => execDeadlockScan_keep h
  | .deadlockBreak => execDeadlockBreak_keep h
  | .faultqTail _ _ => execFaultqTail_keep h
  | .hang _ => execHang_keep h
  | .hangCapture _ => execHangCapture_keep h
  | .slotEviction _ _ => execSlotEviction_keep h
  | .slotRotation _ _ => execSlotRotation_keep h
  | .placement _ => execPlacement_keep h
  | .virtualTimeUpdate _ _ _ _ _ => execVirtualTimeUpdate_keep h
  | .timeSlice _ => execTimeSlice_keep h
  | .cadenceInEdge _ _ => execCadenceInEdge_keep h
  | .pulse => execPulse_keep h
  | .missingPulse => execMissingPulse_keep h
  | .phaseWrap => execPhaseWrap_keep h
  | .gateOpen _ => execGateOpen_keep h
  | .deadlineMiss _ => execDeadlineMiss_keep h
  | .planLaunch _ _ => execPlanLaunch_keep h
  | .planLoad _ _ _ => execPlanLoad_keep h
  | .planUnload _ _ => execPlanUnload_keep h
  | .nodeDispatch _ => execNodeDispatch_keep h
  | .nodeCompletion _ => execNodeCompletion_keep h
  | .modelCreate _ _ => execModelCreate_keep h
  | .modelLoad _ _ => execModelLoad_keep h
  | .modelLoadEnd => execModelLoadEnd_keep h
  | .modelSwapTimeout => execModelSwapTimeout_keep h
  | .modelDestroy _ _ => execModelDestroy_keep h
  | .serveStart _ _ => execServeStart_keep h
  | .serveStop _ _ => execServeStop_keep h
  | .request _ _ => execRequest_keep h
  | .cancel _ _ => execCancel_keep h
  | .stepBoundary _ => execStepBoundary_keep h
  | .acctSel _ _ => execAcctSel_keep h
  | .compress _ _ => execCompress_keep h
  | .decompress _ _ => execDecompress_keep h
  | .check _ _ => execCheck_keep h
  | .crusherBlock _ _ _ => execCrusherBlock_keep h
  | .crusherPreemption _ _ => execCrusherPreemption_keep h
  | .feed _ _ => execFeed_keep h
  | .alive _ _ => execAlive_keep h
  | .markEnd _ _ => execMarkEnd_keep h
  | .endNocheck _ _ => execEndNocheck_keep h
  | .markRestart _ _ => execMarkRestart_keep h
  | .snoopedMessage _ => execSnoopedMessage_keep h
  | .markStall _ => execMarkStall_keep h
  | .markRun _ _ _ => execMarkRun_keep h
  | .markAttach _ _ => execMarkAttach_keep h
  | .markGrant _ _ => execMarkGrant_keep h
  | .flit _ _ => execFlit_keep h
  | .retryTimeout _ => execRetryTimeout_keep h
  | .symbolErrorWindow _ _ => execSymbolErrorWindow_keep h
  | .training _ => execTraining_keep h
  | .prbs31Test _ _ => execPrbs31Test_keep h
  | .deviceIdExchange _ _ => execDeviceIdExchange_keep h
  | .trainingDone _ _ => execTrainingDone_keep h
  | .trainingTimeout _ => execTrainingTimeout_keep h
  | .portDisable _ => execPortDisable_keep h
  | .read _ => execRead_keep h
  | .readReply _ => execReadReply_keep h
  | .write _ => execWrite_keep h
  | .writeAck _ => execWriteAck_keep h
  | .importMsg _ => execImportMsg_keep h
  | .importReply _ => execImportReply_keep h
  | .releaseMessage _ => execReleaseMessage_keep h
  | .haulReq _ => execHaulReq_keep h
  | .haulBlock _ => execHaulBlock_keep h
  | .stalled _ => execStalled_keep h
  | .remoteTimeout _ => execRemoteTimeout_keep h
  | .burstStall _ _ => execBurstStall_keep h
  | .linkImportDrop _ => execLinkImportDrop_keep h
  | .blRefclkLoss => execBlRefclkLoss_keep h
  | .a2Request _ => execA2Request_keep h
  | .a3Request _ => execA3Request_keep h
  | .a4Request _ => execA4Request_keep h
  | .pmeToAck _ => execPmeToAck_keep h
  | .handshakeTimeout => execHandshakeTimeout_keep h
  | .targetStateEntry => execTargetStateEntry_keep h
  | .a1Entry => execA1Entry_keep h
  | .a2Exit => execA2Exit_keep h
  | .retainedDigestCheck _ => execRetainedDigestCheck_keep h
  | .a2RefillEnd => execA2RefillEnd_keep h
  | .a3Exit _ => execA3Exit_keep h
  | .powerMean _ _ => execPowerMean_keep h
  | .tclkThrottleStep => execTclkThrottleStep_keep h
  | .tclkRaiseStep => execTclkRaiseStep_keep h
  | .powerLimitAbort => execPowerLimitAbort_keep h
  | .normalPlacementResume => execNormalPlacementResume_keep h
  | .pwrCoolant _ => execPwrCoolant_keep h
  | .coolantLoss => execCoolantLoss_keep h
  | .coolantReportMissing => execCoolantReportMissing_keep h
  | .coolantLossEnd => execCoolantLossEnd_keep h
  | .thermalTrip => execThermalTrip_keep h
  | .sample _ => execSample_keep h
  | .sampleRecord _ _ _ => execSampleRecord_keep h
  | .sampleStall _ _ => execSampleStall_keep h
  | .weighbridgeWatchdog => execWeighbridgeWatchdog_keep h
  | .weighbridgeResetEnd _ => execWeighbridgeResetEnd_keep h
  | .classEvClear _ => execClassEvClear_keep h
  | .stage _ => execStage_keep h
  | .stageComplete _ _ => execStageComplete_keep h
  | .activate => execActivate_keep h
  | .standbySelfTest => execStandbySelfTest_keep h
  | .roleMove => execRoleMove_keep h
  | .confirm => execConfirm_keep h
  | .selfConfirmation => execSelfConfirmation_keep h
  | .healthWindowExpiry => execHealthWindowExpiry_keep h
  | .restart => execRestart_keep h
  | .fwCtlReserved => execFwCtlReserved_keep h
  | .heartbeatMiss _ => execHeartbeatMiss_keep h
  | .fwHaulEnable _ => execFwHaulEnable_keep h
  | .haulRequestTimer => execHaulRequestTimer_keep h
  | .getVersion _ => execGetVersion_keep h
  | .getCapabilities _ => execGetCapabilities_keep h
  | .negotiateAlgorithms _ => execNegotiateAlgorithms_keep h
  | .getDigests msg => execGetDigests_keep (_msg := msg) h
  | .getCertificate _ _ _ => execGetCertificate_keep h
  | .challenge _ => execChallenge_keep h
  | .getMeasurements _ => execGetMeasurements_keep h
  | .keyExchange _ => execKeyExchange_keep h
  | .finish _ _ => execFinish_keep h
  | .endSession _ _ => execEndSession_keep h
  | .keyUpdate _ _ => execKeyUpdate_keep h
  | .heartbeat _ _ => execHeartbeat_keep h
  | .vendorDefinedRequest _ _ _ => execVendorDefinedRequest_keep h
  | .engineResetEnd _ => execEngineResetEnd_keep h
  | .deferredWakeRelease _ => execDeferredWakeRelease_keep h
  | .ideKm _ _ _ _ => execIdeKm_keep h
  | .doeDiscovery _ => execDoeDiscovery_keep h

/-- A step is one nanosecond of an idle block, or a command taken from the queue. -/
theorem step_next_cases {s t : State} (h : step s = .next t) :
    t = idle s ∨ ∃ c rest, s.pending = c :: rest ∧ exec c { s with pending := rest } = .next t := by
  unfold step at h
  split at h
  next => exact .inl (Host.Outcome.next.inj h).symm
  next c rest hp => exact .inr ⟨c, rest, hp, h⟩

/-- Soundness does not look at the queue. -/
theorem sound_withPending {s : State} (h : s.Sound) (q : List Instr) : State.Sound { s with pending := q } := h

/-- Settles O4: an idle step and every command keep what `Keep` says of registers, DRAM, heads, ports and slots. -/
theorem everyStepKeepsSound : Obligations.EveryStepKeepsSound := by
  intro s t hs h
  obtain rfl | ⟨c, rest, -, he⟩ := step_next_cases h
  · exact (idle_keep (Keep.refl s)).2 hs
  · exact (exec_keep (Keep.refl _) c t he).2 (sound_withPending hs rest)

end Sys2Proof.Machine
end

section
/-! PROOFS. Saturating counters (09 R378, R379). -/
namespace Sys2Proof.Machine

theorem rdF_eq_of_regs {s t : State} (h : t.regs = s.regs) (key hi lo : Nat) : rdF t key hi lo = rdF s key hi lo := by
  simp only [rdF, rd, h]

/-- A 32-bit field that is written with a number it can hold reads as that number. -/
theorem rdF_wrF_of_le_max (s : State) (key : Nat) {x : Nat} (h : x ≤ 2 ^ 32 - 1) : rdF (wrF s key 31 0 x) key 31 0 = x := by
  rw [rdF_wrF_same s key x (by decide) (by decide), Nat.mod_eq_of_lt (by omega)]

/-- A write of one bit leaves every field of another register, and every field above the bit. -/
theorem rdF_wrF_bit_above_or_ne (s : State) {key k bit lo : Nat} (x hi : Nat) (hb : bit < 64) (h : k ≠ key ∨ bit < lo) :
    rdF (wrF s key bit bit x) k hi lo = rdF s k hi lo := by
  by_cases hk : k = key
  · subst hk
    exact rdF_wrF_above s k x le_rfl hb (h.resolve_left fun hne => hne rfl)
  · exact rdF_wrF_ne s bit bit x hi lo hk

@[simp] theorem deliverMsix_regs (s : State) (f i : Nat) : (deliverMsix s f i).regs = s.regs := by
  unfold deliverMsix
  split
  · split <;> rfl
  · rfl

/-! What the counter event leaves: every field outside the count of dropped messages that is not bit 0 of a status register which
the event sets (09 R380; 10 R398). -/

section
variable {k lo : Nat} (hdrop : k ≠ Reg.pcieMsiDropCount) (hstatus : k ∉ [Reg.errStatus, Reg.pcieStatus] ∨ 1 ≤ lo)
include hstatus

theorem rdF_wrF_errStatus_zero (s : State) (hi : Nat) : rdF (wrF s Reg.errStatus 0 0 1) k hi lo = rdF s k hi lo :=
  rdF_wrF_bit_above_or_ne s 1 hi (by decide) (hstatus.imp_left fun h => List.ne_of_not_mem_cons h)

theorem rdF_wrF_pcieStatus_zero (s : State) (hi : Nat) : rdF (wrF s Reg.pcieStatus 0 0 1) k hi lo = rdF s k hi lo :=
  rdF_wrF_bit_above_or_ne s 1 hi (by decide)
    (hstatus.imp_left fun h => List.ne_of_not_mem_cons (List.not_mem_of_not_mem_cons h))

include hdrop

theorem rdF_dropMsix (s : State) (hi : Nat) : rdF (dropMsix s) k hi lo = rdF s k hi lo := by
  have flagged : rdF (wrF (wrF s Reg.pcieStatus 0 0 1) Reg.errStatus 0 0 1) k hi lo = rdF s k hi lo := by
    rw [rdF_wrF_errStatus_zero hstatus, rdF_wrF_pcieStatus_zero hstatus]
  unfold dropMsix
  split
  · rw [rdF, rd_wr_ne s _ hdrop, rdF]
  · split
    · rfl
    · dsimp only
      split
      · rw [rdF_eq_of_regs (deliverMsix_regs _ _ _), flagged]
      · exact flagged

theorem rdF_sendMsix (s : State) (f i hi : Nat) : rdF (sendMsix s f i) k hi lo = rdF s k hi lo := by
  unfold sendMsix
  split
  · exact rdF_eq_of_regs (deliverMsix_regs s f i) k hi lo
  · exact rdF_dropMsix hdrop hstatus s hi

theorem rdF_counterEvent (s : State) (hi : Nat) : rdF (counterEvent s) k hi lo = rdF s k hi lo := by
  rw [counterEvent, rdF_sendMsix hdrop hstatus, rdF_wrF_errStatus_zero hstatus]

end

/-- An overflow bit above bit 0 is set once its counter has overflowed, and the counter event leaves it set. -/
theorem rdF_setOverflow_same (s : State) {status bit : Nat} (hd : status ≠ Reg.pcieMsiDropCount) (h1 : 1 ≤ bit) (h64 : bit < 64) :
    rdF (setOverflow s status bit) status bit bit = 1 := by
  unfold setOverflow
  split
  next hset => exact hset
  next => rw [rdF_counterEvent hd (.inr h1), rdF_wrF_same s status 1 le_rfl h64, Nat.add_sub_cancel_left,
      Nat.one_mod_two_pow one_pos]

theorem rdF_setOverflow_ne (s : State) {key status bit : Nat} (hne : key ≠ status) (hd : key ≠ Reg.pcieMsiDropCount)
    (hs : key ∉ [Reg.errStatus, Reg.pcieStatus]) (hi lo : Nat) : rdF (setOverflow s status bit) key hi lo = rdF s key hi lo := by
  unfold setOverflow
  split
  · rfl
  · rw [rdF_counterEvent hd (.inl hs), rdF_wrF_ne s bit bit 1 hi lo hne]

theorem bump32_of_fits {s : State} {key n : Nat} (status bit : Nat) (h : rdF s key 31 0 + n ≤ 2 ^ 32 - 1) :
    bump32 s key status bit n = wrF s key 31 0 (rdF s key 31 0 + n) :=
  if_pos h

theorem bump32_of_overflows {s : State} {key n : Nat} (status bit : Nat) (h : 2 ^ 32 - 1 < rdF s key 31 0 + n) :
    bump32 s key status bit n = setOverflow (wrF s key 31 0 (2 ^ 32 - 1)) status bit :=
  if_neg (Nat.not_le.mpr h)

/-- Settles O54: by whether the sum fits in the counter. -/
theorem countersSaturate : Obligations.CountersSaturate := by
  rintro s t key status bit n hkey hstatus h1 h64 rfl
  simp only [List.mem_cons, List.not_mem_nil, or_false, not_or] at hkey hstatus
  obtain ⟨hne, herr, hpcie, hdrop⟩ := hkey
  refine ⟨?count, fun hfit => ?fits, fun hover => ⟨?flag, (bump32_reportsOnly s key status bit n).mem⟩⟩
  case count =>
    obtain hfit | hover := le_or_gt (rdF s key 31 0 + n) (2 ^ 32 - 1)
    · rw [bump32_of_fits status bit hfit, rdF_wrF_of_le_max s key hfit, Nat.min_eq_left hfit]
    · rw [bump32_of_overflows status bit hover, rdF_setOverflow_ne _ hne hdrop (by simp [herr, hpcie]),
        rdF_wrF_of_le_max s key le_rfl, Nat.min_eq_right hover.le]
  case fits =>
    rw [bump32_of_fits status bit hfit]
    exact ⟨wrF_onlyRegs s key 31 0 _, wrF_frame s key 31 0 _⟩
  case flag =>
    rw [bump32_of_overflows status bit hover, rdF_setOverflow_same _ hstatus h1 h64]

end Sys2Proof.Machine
end

section
/-! PROOFS. The resets of the functions (10 R395; 18 R716). -/
namespace Sys2Proof.Machine

theorem mgetD_mkeep {α : Type} (m : Map α) (p : Nat → Bool) (k : Nat) (d : α) :
    mgetD (mkeep m (fun j _ => p j)) k d = if p k then mgetD m k d else d := by
  rw [mgetD, mget_mkeep]
  split
  · rfl
  · rfl

/-! A function's set-up page and MSI-X state after its reset. -/

theorem rd_resetFunction (s : State) (f k : Nat) : rd (resetFunction s f) k = if inPage f k then resetVal k else rd s k := by
  refine (mgetD_mkeep s.regs (fun j => ! inPage f j) k (resetVal k)).trans ?_
  cases inPage f k with
  | false => rfl
  | true => rfl

theorem msixGet_resetFunction (s : State) (f : Nat) {i : Nat} (hi : i < 2048) :
    msixGet (resetFunction s f) f i = msixGet State.reset 0 0 := by
  have hf : (f * 2048 + i) / 2048 = f := by omega
  refine (mgetD_mkeep s.host.msix (fun j => j / 2048 != f) _ _).trans ?_
  rw [if_neg (by simp [hf])]
  rfl

theorem resetFunction_mem (s : State) (f : Nat) : (resetFunction s f).mem = s.mem := rfl

/-- A VF whose partition is not created has nothing to destroy: only its page and its MSI-X state are reset. -/
theorem exec_vfFlr_of_not_created {n : Part} {s u : State} (hu : u = hostTouch s) (hn : n ≠ 0)
    (hc : (partOf u n.toNat).created = false) : exec (.vfFlr n) s = .next (resetFunction u n.toNat) := by
  have hp : n.toNat ≠ 0 := fun h => hn (BitVec.eq_of_toNat_eq h)
  simp only [exec_vfFlr, execVfFlr, ← hu, hp, hc, Bool.false_and, Bool.false_eq_true, if_false]

/-- Settles O10: the resets of the physical function have one effect; that of a VF by what its page and its MSI-X table read. -/
theorem functionResetsComplete : Obligations.FunctionResetsComplete := by
  refine ⟨fun s => ⟨exec_hotReset s, rfl, rfl, rfl⟩, fun n s u hu hn hc => ?vf, fun s u hu => ⟨?clear, rfl⟩⟩
  case vf =>
    refine ⟨_, exec_vfFlr_of_not_created hu hn hc, fun k hk => ?_, fun k hk => ?_,
      fun i => msixGet_resetFunction u _, resetFunction_mem u _⟩
    · rw [rd_resetFunction, if_pos hk]
    · rw [rd_resetFunction, if_neg (Bool.eq_false_iff.mp hk)]
  case clear => rw [exec_vfEnableClear, execVfEnableClear, hu]

end Sys2Proof.Machine
end

section
/-! PROOFS. RING CREATE, DESTROY, STOP, RESUME and QUERY (10 R408 to R412). -/
namespace Sys2Proof.Machine

theorem rpart_rkey (p : Nat) (i : BitVec 10) : rpart (rkey p i.toNat) = p := by
  have := i.isLt
  unfold rpart rkey
  omega

/-! A hold of a context changes contexts alone. -/

theorem holdCtx_rings (s : State) (k : Nat) : (holdCtx s k).host.rings = s.host.rings := by
  unfold holdCtx
  split
  · rfl
  · rfl

theorem holdCtx_mem (s : State) (k : Nat) : (holdCtx s k).mem = s.mem := by
  unfold holdCtx
  split
  · rfl
  · rfl

/-! RING_CMD_STATUS once a command has ended. -/

section
variable (s : State) (rk result : Nat)

theorem ringResult_host : (ringResult s rk result).host = s.host := wr_host s _ _
theorem ringResult_mem : (ringResult s rk result).mem = s.mem := wr_mem s _ _
theorem ringResult_frame : { ringResult s rk result with regs := s.regs } = s := wr_frame s _ _

variable {p : Nat} (hp : rpart rk = p)
include hp

theorem rd_ringResult : rd (ringResult s rk result) (pkey p Reg.ringCmdStatus) = BitVec.ofNat 64 (ringCode s rk * 2 + result * 256) := by
  rw [ringResult, hp, rd_wr_same]

theorem ringResult_onlyRegs : onlyRegs s (ringResult s rk result) [pkey p Reg.ringCmdStatus] := by
  rw [ringResult, hp]
  exact fun _ hk => rd_wr_ne s _ (List.ne_of_not_mem_cons hk)

end

/-! The ring that CREATE makes. -/

theorem ringCode_of_active {s : State} {rk : Nat} {r : Ring} (hr : mget s.host.rings rk = some r) (ha : r.state = .active) :
    ringCode s rk = 1 := by
  simp only [ringCode, hr, ha]

theorem ringCreateOk_ring (s : State) (p i : Nat) (b : List Byte) :
    mget (ringCreateOk s p i b).host.rings (rkey p i) = some (newRing s b) := by
  simp only [ringCreateOk, ringResult_host, dbWrite, emit_host, holdCtx_rings, setRing_host_rings, mget_mset_same]

theorem ringCreateOk_mem (s : State) (p i : Nat) (b : List Byte) : (ringCreateOk s p i b).mem = s.mem := by
  simp only [ringCreateOk, ringResult_mem, dbWrite, emit_mem, holdCtx_mem, setRing_mem]

/-- CREATE reports an ACTIVE ring and result 0. -/
theorem rd_ringCreateOk (s : State) (p : Nat) (i : BitVec 10) (b : List Byte) :
    rd (ringCreateOk s p i.toNat b) (pkey p Reg.ringCmdStatus) = 2 := by
  have hring := ringCreateOk_ring s p i.toNat b
  simp only [ringCreateOk, ringResult_host] at hring
  rw [ringCreateOk, rd_ringResult _ _ _ (rpart_rkey p i), ringCode_of_active hring rfl]
  rfl

/-! A write of RING_CMD outside recovery, while no command of the partition is pending. -/

section
variable {p : Part} {i : BitVec 10} {s u : State} (hr : s.sec.recovery = false) (hu : u = hostTouch s)
  (ht : ringCmdTaken u p.toNat = true)
include hr hu ht

theorem exec_ringCreate_of_accepted {b : List Byte} (h : ringCreateResult u p.toNat i.toNat (.ok b) = 0) :
    exec (.ringCreate p i (.ok b)) s = .next (ringCreateOk u p.toNat i.toNat b) := by
  simp only [exec_ringCreate, execRingCreate, hr, ← hu, ht, h, Bool.false_eq_true, if_false, if_true]

theorem exec_ringCreate_of_refused {d : HostRead} (h : ringCreateResult u p.toNat i.toNat d ≠ 0) :
    exec (.ringCreate p i d) s =
      .next (ringResult u (rkey p.toNat i.toNat) (ringCreateResult u p.toNat i.toNat d)) := by
  obtain ⟨n, hn⟩ := Nat.exists_eq_succ_of_ne_zero h
  simp only [exec_ringCreate, execRingCreate, hr, ← hu, ht, hn, Bool.false_eq_true, if_false, if_true]

theorem exec_ringQuery_of_taken : exec (.ringQuery p i) s =
    .next (ringResult u (rkey p.toNat i.toNat) (if (partOf u p.toNat).created then 0 else 6)) := by
  simp only [exec_ringQuery, execRingQuery, hr, ← hu, ht, Bool.false_eq_true, if_false, if_true]

theorem exec_ringCmdReserved_of_taken : exec (.ringCmdReserved p i) s =
    .next (ringResult u (rkey p.toNat i.toNat) (if (partOf u p.toNat).created then 2 else 6)) := by
  simp only [exec_ringCmdReserved, execRingCmdReserved, hr, ← hu, ht, Bool.false_eq_true, if_false, if_true]

variable {r : Ring} (hc : (partOf u p.toNat).created = true) (hg : mget u.host.rings (rkey p.toNat i.toNat) = some r)
include hc hg

omit hr hu in
theorem onRing_of_ring (f : Ring → State) : onRing u p.toNat i.toNat f = f r := by
  simp only [onRing, ht, hc, hg, Bool.not_true, Bool.false_eq_true, if_false]

theorem exec_ringDestroy_of_ring :
    exec (.ringDestroy p i) s = .next (settle (stopRing u (rkey p.toNat i.toNat) .destroy)) := by
  simp only [exec_ringDestroy, execRingDestroy, hr, ← hu, onRing_of_ring ht hc hg, Bool.false_eq_true, if_false]

theorem exec_ringStop_of_running (hs : r.state = .active ∨ r.state = .idle) :
    exec (.ringStop p i) s = .next (settle (stopRing u (rkey p.toNat i.toNat) .stop)) := by
  simp only [exec_ringStop, execRingStop, hr, ← hu, onRing_of_ring ht hc hg, hs, Bool.false_eq_true, if_false, if_true]

theorem exec_ringResume_of_halted (hs : r.state = .stopped ∨ r.state = .error) (hl : ctxLive u r.ctx = true) :
    exec (.ringResume p i) s = .next (checkDrain (ringPending
      (setRing u (rkey p.toNat i.toNat) { r with waitFor := some .resume }) p.toNat) (rkey p.toNat i.toNat)) := by
  rw [ctxLive] at hl
  have hn : ¬ (r.state ≠ .stopped ∧ r.state ≠ .error) := by tauto
  simp only [exec_ringResume, execRingResume, hr, ← hu, onRing_of_ring ht hc hg, hn, hl, Bool.not_true, Bool.false_eq_true, if_false]

end

/-- Settles O14: each command by its equation once it is taken, CREATE by its result. -/
theorem ringLifeCommandsComplete : Obligations.RingLifeCommandsComplete := by
  rintro p i s u _ hr hu ht rfl
  refine ⟨fun b h => ?created, fun d h => ?refused, fun r hc hg => ⟨exec_ringDestroy_of_ring hr hu ht hc hg,
    exec_ringStop_of_running hr hu ht hc hg, exec_ringResume_of_halted hr hu ht hc hg⟩⟩
  case created =>
    exact ⟨_, exec_ringCreate_of_accepted hr hu ht h, ringCreateOk_ring u _ _ b, rd_ringCreateOk u _ i b, ringCreateOk_mem u _ _ b⟩
  case refused =>
    have hp := rpart_rkey p.toNat i
    exact ⟨_, exec_ringCreate_of_refused hr hu ht h, ringResult_frame u _ _, ringResult_onlyRegs u _ _ hp, rd_ringResult u _ _ hp⟩

end Sys2Proof.Machine
end

section
/-! PROOFS. Fetch, step 3, admission and retirement of ring entries (10 R417 to R419, R433). -/
namespace Sys2Proof.Machine

section
variable {p : Part} {i : BitVec 10} {s : State} {r : Ring} (hr : mget s.host.rings (rkey p.toNat i.toNat) = some r)
include hr

/-- The next entry of a ring in host memory joins its line. -/
theorem exec_entryFetch_of_host_slot (hf : fetchHalted s = false) (ha : r.state = .active) (ht : tailAhead r r.lastTail = true)
    (hl : lead r < 17) (hd : r.inDevice = false) (b : List Byte) : exec (.entryFetch p i false (.ok b)) s =
    .next (settle (bumpWid (setRing s (rkey p.toNat i.toNat) { r with
      entries := r.entries ++ [newEntry s r.fetched none (padTo 64 b) (slotAddr r + 2 ^ 63)]
      fetched := (r.fetched + 1) % 2 ^ 32 }))) := by
  have hgo : ¬ (r.state ≠ .active ∨ (! tailAhead r r.lastTail) = true ∨ 17 ≤ lead r) := by simp [ha, ht, hl]
  simp only [exec_entryFetch, execEntryFetch, fetchEntry, hr, hf, fetchSlot, if_neg hgo, hd, Bool.false_eq_true, if_false]

variable {e : Entry} (he : headEntry r = some e)
include he

theorem exec_payloadRead_of_head (hs : e.step = .payload) (ha : mayAdvance r e = true) (d : HostRead) :
    exec (.payloadRead p i d) s = .next (settle (readPayload s (rkey p.toNat i.toNat) r e d)) := by
  simp only [exec_payloadRead, execPayloadRead, payloadReturn, hr, he, hs, ha, decide_true, Bool.and_self, if_true]

theorem exec_inFlightAdmission_of_room (hs : e.step = .room) (hc : isCall e = true ∨ hasRoom s p.toNat = true)
    (hp : planRoom s p.toNat e = true) :
    exec (.inFlightAdmission p i) s = .next (takeRoom s (rkey p.toNat i.toNat) r e) := by
  simp only [exec_inFlightAdmission, execInFlightAdmission, hr, he, if_pos (And.intro hs (And.intro hc hp))]

end

theorem exec_entryRetirement_of_finished {wid code rk : Nat} {s : State} (hc : mget s.host.finished wid = some code)
    (hk : ringOfWid s wid = some rk) : exec (.entryRetirement wid) s = .next (settle (retireEntry s rk wid code)) := by
  simp only [exec_entryRetirement, execEntryRetirement, hc, hk]

/-- Settles O16: each command by its equation where its ring or its entry has it due; QUERY and the reserved command by the result
that they report. -/
theorem ringEntryCommandsComplete : Obligations.RingEntryCommandsComplete := by
  refine ⟨?entries, fun wid code rk s hc hk => exec_entryRetirement_of_finished hc hk, fun p i s u hr hu ht => ?reports⟩
  case entries =>
    rintro p i s _ r rfl hr
    exact ⟨fun b hf ha ht hl hd => exec_entryFetch_of_host_slot hr hf ha ht hl hd b,
      fun e d he hs ha => exec_payloadRead_of_head hr he hs ha d, fun e he => exec_inFlightAdmission_of_room hr he⟩
  case reports =>
    have hp := rpart_rkey p.toNat i
    exact ⟨_, _, exec_ringQuery_of_taken hr hu ht, exec_ringCmdReserved_of_taken hr hu ht, rd_ringResult u _ _ hp, rd_ringResult u _ _ hp,
      ringResult_frame u _ _, ringResult_onlyRegs u _ _ hp, ringResult_frame u _ _, ringResult_onlyRegs u _ _ hp⟩

end Sys2Proof.Machine
end

section
/-! PROOFS. Polls of TAIL, the idle sequence and WAKE (10 R426 to R428, R431). -/
namespace Sys2Proof.Machine

/-! A read of TAIL that leaves. -/

theorem issueTail_out (s : State) (rk : Nat) (r : Ring) :
    (issueTail s rk r).out = s.out ++ [.hostRead (rpart rk) r.doorbell 4] := rfl

theorem issueTail_ring (s : State) (rk : Nat) (r : Ring) :
    mget (issueTail s rk r).host.rings rk = some { r with poll := true, pollFresh := r.wake, pollAt := s.dtime } :=
  mget_mset_same _ _ _

theorem issueTail_frame (s : State) (rk : Nat) (r : Ring) : { issueTail s rk r with host := s.host, out := s.out } = s := rfl

theorem idleStart_out (s : State) (rk : Nat) (r : Ring) : (idleStart s rk r).out =
    s.out ++ [.hostWrite (rpart rk) (r.doorbell + 8) (leBytes 8 1), .hostRead (rpart rk) r.doorbell 4] := by
  simp only [idleStart, dbWrite, emit_out, setRing_out, List.append_assoc, List.cons_append, List.nil_append]

theorem idleStart_ring (s : State) (rk : Nat) (r : Ring) :
    mget (idleStart s rk r).host.rings rk = some { r with d2 := true, d2Fresh := false, pollAt := s.dtime } :=
  mget_mset_same _ _ _

theorem idleStart_frame (s : State) (rk : Nat) (r : Ring) : { idleStart s rk r with host := s.host, out := s.out } = s := rfl

/-! The TAIL that a read returned. -/

theorem takeTail_of_valid {r : Ring} {t : Nat} (h : tailValid r t = true) (s : State) (rk : Nat) : takeTail s rk r t =
    setRing s rk { r with lastTail := t, tailSince := if t = r.lastTail then r.tailSince else s.dtime } :=
  if_pos h

/-- A ring that nothing woke, and that has fetched all below the TAIL of D2, goes idle. -/
theorem idleJudge_of_not_ahead {r : Ring} {t : Nat} (hv : tailValid r t = true) (ha : tailAhead r t = false) (hw : r.wake = false)
    (s : State) (rk : Nat) : idleJudge s rk r t = setRing s rk { r with state := .idle, lastTail := t } := by
  simp only [idleJudge, hv, ha, hw, Bool.not_true, Bool.or_self, Bool.false_eq_true, if_false]

theorem wakeRing_of_active {s : State} {p i : Nat} {r : Ring} (hc : (partOf s p).created = true) (hd : (partOf s p).destroying = false)
    (hr : mget s.host.rings (rkey p i) = some r) (ha : r.state = .active) :
    wakeRing s p i = setRing s (rkey p i) { r with wake := true } := by
  simp only [wakeRing, hc, hd, hr, ha, Bool.not_true, Bool.or_self, Bool.false_eq_true, if_false]

section
variable {p : Part} {i : BitVec 10} {s : State} {r : Ring} (hr : mget s.host.rings (rkey p.toNat i.toNat) = some r)
include hr

theorem exec_tailPoll_of_due (h : mayPoll s r = true) :
    exec (.tailPoll p i) s = .next (issueTail s (rkey p.toNat i.toNat) r) := by
  simp only [exec_tailPoll, execTailPoll, hr, h, if_true]

theorem exec_idleSequence_of_due (h : mayIdle s r = true) :
    exec (.idleSequence p i) s = .next (idleStart s (rkey p.toNat i.toNat) r) := by
  simp only [exec_idleSequence, execIdleSequence, hr, h, if_true]

section
variable (ha : r.state = .active) {b : List Byte} (hv : tailValid r (fieldAt b 0 4) = true)
include ha hv

/-- The poll returns: the wake bit that was set when it left is consumed. -/
theorem exec_tailReadReturn_of_valid (hp : r.poll = true) : exec (.tailReadReturn p i (.ok b)) s =
    .next (settle (setRing s (rkey p.toNat i.toNat) { r with
      poll := false, pollFresh := false, wake := r.wake && ! r.pollFresh, lastTail := fieldAt b 0 4,
      tailSince := if fieldAt b 0 4 = r.lastTail then r.tailSince else s.dtime })) := by
  have hv' : tailValid { r with poll := false, pollFresh := false, wake := r.wake && ! r.pollFresh } (fieldAt b 0 4) = true := hv
  simp only [exec_tailReadReturn, execTailReadReturn, tailReturn, hr, hp, if_neg (not_not_intro ha), takeTail_of_valid hv',
    Bool.not_true, Bool.false_eq_true, if_false]

theorem exec_idleTailReturn_of_idle (hd : r.d2 = true) (hw : r.wake = false) (hn : tailAhead r (fieldAt b 0 4) = false) :
    exec (.idleTailReturn p i (.ok b)) s = .next (settle (setRing s (rkey p.toNat i.toNat) { r with
      d2 := false, d2Fresh := false, state := .idle, lastTail := fieldAt b 0 4 })) := by
  have hv' : tailValid { r with d2 := false, d2Fresh := false } (fieldAt b 0 4) = true := hv
  have hn' : tailAhead { r with d2 := false, d2Fresh := false } (fieldAt b 0 4) = false := hn
  simp only [exec_idleTailReturn, execIdleTailReturn, idleReturn, hr, hd, if_neg (not_not_intro ha),
    idleJudge_of_not_ahead hv' hn' hw, Bool.not_true, Bool.false_eq_true, if_false]

end

theorem exec_gantryWake_of_active (hn : s.sec.recovery = false) (hs : s = hostTouch s) {v : Word32} (hv : v.toNat % 1024 = i.toNat)
    (hc : (partOf s p.toNat).created = true) (hd : (partOf s p.toNat).destroying = false) (ha : r.state = .active) :
    exec (.gantryWake p v) s = .next (settle (setRing s (rkey p.toNat i.toNat) { r with wake := true })) := by
  simp only [exec_gantryWake, execGantryWake, hn, ← hs, hv, wakeRing_of_active hc hd hr ha, Bool.false_eq_true, if_false]

end

/-- Settles O15: each command by its equation where its ring has it due. -/
theorem ringTailCommandsComplete : Obligations.RingTailCommandsComplete := by
  rintro p i s _ r rfl hr
  have hp := rpart_rkey p.toNat i
  refine ⟨fun h => ⟨_, exec_tailPoll_of_due hr h, ?_, issueTail_ring s _ r, issueTail_frame s _ r⟩,
    fun h => ⟨_, exec_idleSequence_of_due hr h, ?_, idleStart_ring s _ r, idleStart_frame s _ r⟩,
    fun b hd ha hv => exec_tailReadReturn_of_valid hr ha hv hd, fun b hd ha hw hv => exec_idleTailReturn_of_idle hr ha hv hd hw,
    fun v hn hv hs => exec_gantryWake_of_active hr hn hs hv⟩
  · rw [issueTail_out, hp]
  · rw [idleStart_out, hp]

end Sys2Proof.Machine
end

section
/-! PROOFS. The entries that retire at step 6, and CALL (10 R416, R419, R422 to R424). -/
namespace Sys2Proof.Machine

section
variable {s : State} {p : Part} {i : BitVec 10} {r : Ring} {e : Entry}

theorem exec_nop_of_ready (h : readyEntry s p.toNat i.toNat 0x00 = some (r, e)) :
    exec (.nop p i) s = .next (doneAtOnce s (rkey p.toNat i.toNat) r e 0) := by
  rw [exec_nop, execNop, h]

theorem exec_call_of_ready (h : readyEntry s p.toNat i.toNat 0x0D = some (r, e)) :
    exec (.call p i) s = .next (settle (dispatched s (rkey p.toNat i.toNat) r e)) := by
  rw [exec_call, execCall, h]

theorem exec_segUpdate_of_ready (h : readyEntry s p.toNat i.toNat 0x09 = some (r, e)) {rk : Nat} (hk : rk = rkey p.toNat i.toNat) :
    exec (.segUpdate p i) s =
      .next (doneAtOnce (setTable s (updTable rk r e) ((segSlices e.desc).map parseSeg)) rk r e 0) := by
  rw [exec_segUpdate, execSegUpdate, h, hk]

theorem exec_timestamp_of_written (h : readyEntry s p.toNat i.toNat 0x0E = some (r, e)) {u : State}
    (hw : stampWrite s r.ctx (ePayload e.bytes) e.step2End = (u, none)) :
    exec (.timestamp p i) s = .next (doneAtOnce u (rkey p.toNat i.toNat) r e 0) := by
  rw [exec_timestamp, execTimestamp, h]
  simp only [hw]

end

/-- Settles O17: each entry by its own command's equation at a ready entry. -/
theorem plainEntriesComplete : Obligations.PlainEntriesComplete := by
  rintro p i s _ r e rfl
  exact ⟨exec_nop_of_ready, exec_call_of_ready, fun h => exec_segUpdate_of_ready h rfl, fun u h => exec_timestamp_of_written h⟩

end Sys2Proof.Machine
end

section
/-! PROOFS. MSI-X messages: those beyond the table, those of masked entries, and the one that an unmasked entry sends (10 R398). -/
namespace Sys2Proof.Machine

/-! A request of the host leaves a state as it is where no entry waits for E4 and the device is not in A1 (15 R611, R616). -/

theorem leaveA1_power_req (s : State) : (leaveA1 s).power.req = s.power.req := by
  unfold leaveA1
  split
  · rfl
  · rfl

theorem pwrState_leaveA1_ne_one (s : State) : pwrState (leaveA1 s) ≠ 1 := by
  unfold leaveA1
  split
  · have h0 : pwrState (setPwrState s 0) = 0 := rdF_wrF_same s Reg.pwrStatus 0 (by decide) (by decide)
    exact fun h1 => absurd (h0.symm.trans h1) zero_ne_one
  · assumption

theorem ReportsOnly.power {s t : State} (h : ReportsOnly s t) : t.power = s.power := (congrArg State.power h.eq :)

/-- No requested entry can be aborted any more. -/
def ReqCommitted (s : State) : Prop := ∀ r, s.power.req = some r → r.commitAt.isSome = true

theorem abortEntry_of_committed {s : State} (h : ReqCommitted s) (party : Nat) : abortEntry s party = s := by
  unfold abortEntry
  split
  next r hr => simp [Option.isNone_iff_eq_none, Option.ne_none_iff_isSome.mpr (h r hr)]
  next => rfl

theorem reqCommitted_abortEntry (s : State) (party : Nat) : ReqCommitted (abortEntry s party) := by
  unfold abortEntry
  split
  next r hr =>
    split
    next =>
      have aborted : (pwrResult (setPower s { s.power with req := none }) 3 party 0).power.req = none := rfl
      simp [ReqCommitted, (bump32_reportsOnly _ _ _ _ 1).power, aborted]
    next hn => simpa [ReqCommitted, hr, Option.isSome_iff_ne_none] using hn
  next hr => simp [ReqCommitted, hr]

theorem hostTouch_eq_self_iff (s : State) : hostTouch s = s ↔ ReqCommitted s ∧ pwrState s ≠ 1 := by
  constructor
  · intro h
    constructor
    · intro r hr
      rw [← h, hostTouch, leaveA1_power_req] at hr
      exact reqCommitted_abortEntry s 6 r hr
    · rw [← h]
      exact pwrState_leaveA1_ne_one _
  · rintro ⟨hc, hp⟩
    rw [hostTouch, abortEntry_of_committed hc, leaveA1, if_neg hp]

/-- What a request of the host finds at rest is the power state and the registers. -/
theorem hostTouch_eq_self_of_same {s t : State} (hp : t.power = s.power) (hr : t.regs = s.regs) (h : hostTouch s = s) :
    hostTouch t = t := by
  obtain ⟨hc, hn⟩ := (hostTouch_eq_self_iff s).mp h
  refine (hostTouch_eq_self_iff t).mpr ⟨fun r hq => hc r (hp ▸ hq), ?_⟩
  rw [pwrState, rdF_eq_of_regs hr]
  exact hn

/-! A message of an index beyond the table. -/

theorem dropMsix_of_count_lt {s : State} (h : (rd s Reg.pcieMsiDropCount).toNat < 2 ^ 32 - 1) :
    dropMsix s = wr s Reg.pcieMsiDropCount (rd s Reg.pcieMsiDropCount + 1) :=
  if_pos h

theorem sendMsix_of_beyond {s : State} {f i : Nat} (hi : msixSize s f ≤ i) : sendMsix s f i = dropMsix s :=
  if_neg (Nat.not_lt.mpr hi)

/-! A message of a masked entry. -/

theorem msixGet_msixPut_same (s : State) (f i : Nat) (e : Msix) : msixGet (msixPut s f i e) f i = e :=
  mgetD_msetD_same _ _ _ _

theorem sendMsix_of_masked {s : State} {f i : Nat} (hi : i < msixSize s f) (he : s.host.pcie.msixEnable.getLsbD f = true)
    (hm : (msixGet s f i).masked = true) : sendMsix s f i = msixPut s f i { msixGet s f i with pend := true } := by
  rw [sendMsix, if_pos hi, deliverMsix, if_pos he, hm, Bool.or_true, if_pos rfl]

/-- From `s` to `t` the MSI-X tables have changed, and nothing else. -/
def TablesOnly (s t : State) : Prop :=
  { t with host := { t.host with msix := s.host.msix } } = s

namespace TablesOnly

theorem refl (s : State) : TablesOnly s s := rfl

theorem msixPut {s t : State} (h : TablesOnly s t) (f i : Nat) (e : Msix) : TablesOnly s (msixPut t f i e) := h

theorem out {s t : State} (h : TablesOnly s t) : t.out = s.out := (congrArg State.out h :)
theorem regs {s t : State} (h : TablesOnly s t) : t.regs = s.regs := (congrArg State.regs h :)
theorem power {s t : State} (h : TablesOnly s t) : t.power = s.power := (congrArg State.power h :)
theorem sec {s t : State} (h : TablesOnly s t) : t.sec = s.sec := (congrArg State.sec h :)
theorem pcie {s t : State} (h : TablesOnly s t) : t.host.pcie = s.host.pcie := (congrArg (fun u : State => u.host.pcie) h :)

theorem msixSize {s t : State} (h : TablesOnly s t) (f : Nat) : msixSize t f = msixSize s f := rdF_eq_of_regs h.regs _ 11 0

end TablesOnly

/-- Messages to a masked entry, one or many, leave its pending bit set and send nothing. -/
theorem repeat_sendMsix_of_masked {s : State} {f i : Nat} (hi : i < msixSize s f) (he : s.host.pcie.msixEnable.getLsbD f = true)
    (hm : (msixGet s f i).masked = true) (n : Nat) :
    TablesOnly s (Nat.repeat (fun u => sendMsix u f i) (n + 1) s) ∧
      msixGet (Nat.repeat (fun u => sendMsix u f i) (n + 1) s) f i = { msixGet s f i with pend := true } := by
  induction n with
  | zero =>
    change TablesOnly s (sendMsix s f i) ∧ msixGet (sendMsix s f i) f i = _
    rw [sendMsix_of_masked hi he hm]
    exact ⟨(TablesOnly.refl s).msixPut f i _, msixGet_msixPut_same s f i _⟩
  | succ n ih =>
    rw [Nat.repeat]
    generalize Nat.repeat (fun u => sendMsix u f i) (n + 1) s = t at ih ⊢
    obtain ⟨ht, hg⟩ := ih
    rw [sendMsix_of_masked (ht.msixSize f ▸ hi) (ht.pcie ▸ he) (hg ▸ hm), hg]
    exact ⟨ht.msixPut f i _, msixGet_msixPut_same t f i _⟩

/-! The unmasking of an entry. -/

theorem releaseMsix_of_pending {s : State} {f i : Nat} (hp : (msixGet s f i).pend = true) (hm : (msixGet s f i).masked = false)
    (hf : s.host.pcie.funcMask.getLsbD f = false) (he : s.host.pcie.msixEnable.getLsbD f = true) :
    releaseMsix s f i = emit (msixPut s f i { msixGet s f i with pend := false }) (.msix f i) := by
  simp only [releaseMsix, hp, hm, hf, he, Bool.not_false, Bool.and_self, if_true]

/-- The state with the mask of an entry cleared. -/
def unmasked (s : State) (f i : Nat) : State :=
  msixPut s f i { msixGet s f i with masked := false }

theorem msixGet_unmasked_masked (s : State) (f i : Nat) : (msixGet (unmasked s f i) f i).masked = false := by
  rw [unmasked, msixGet_msixPut_same]

theorem msixGet_unmasked_pend (s : State) (f i : Nat) : (msixGet (unmasked s f i) f i).pend = (msixGet s f i).pend := by
  rw [unmasked, msixGet_msixPut_same]

section
variable {fn : Part} {i : BitVec 11} {s : State} (hr : s.sec.recovery = false) (hs : hostTouch s = s)
  (hi : i.toNat < msixSize s fn.toNat)
include hr hs hi

theorem exec_msixUnmask_of_entry : exec (.msixUnmask fn i) s =
    .next (releaseMsix (unmasked s fn.toNat i.toNat) fn.toNat i.toNat) := by
  simp only [exec_msixUnmask, execMsixUnmask, unmasked, hr, hs, hi, Bool.false_eq_true, if_false, if_true]

/-- The unmasking of a pending entry sends its message and clears the pending bit. -/
theorem exec_msixUnmask_of_pending (hp : (msixGet s fn.toNat i.toNat).pend = true)
    (hf : s.host.pcie.funcMask.getLsbD fn.toNat = false) (he : s.host.pcie.msixEnable.getLsbD fn.toNat = true) :
    ∃ v, exec (.msixUnmask fn i) s = .next v ∧ v.out = s.out ++ [.msix fn.toNat i.toNat] ∧
      (msixGet v fn.toNat i.toNat).pend = false := by
  refine ⟨_, exec_msixUnmask_of_entry hr hs hi, ?_⟩
  rw [releaseMsix_of_pending ((msixGet_unmasked_pend s _ _).trans hp) (msixGet_unmasked_masked s _ _) hf he]
  exact ⟨rfl, congrArg Msix.pend (msixGet_msixPut_same _ _ _ _)⟩

end

/-- Settles O52: messages to a masked entry by induction on their number; what they leave is one pending bit. -/
theorem maskedMessagesAreSentOnce : Obligations.MaskedMessagesAreSentOnce := by
  refine ⟨fun s f i hi hc => ?beyond, fun s f i => sendMsix_of_masked, fun fn i s t n hi he hf hm hr hs ht => ?once⟩
  case beyond =>
    rw [sendMsix_of_beyond hi, dropMsix_of_count_lt hc]
    exact ⟨_, rfl, rd_wr_same s _ _, fun k hk => rd_wr_ne s _ (List.ne_of_not_mem_cons hk), wr_frame s _ _⟩
  case once =>
    obtain ⟨hto, hg⟩ : TablesOnly s t ∧ msixGet t fn.toNat i.toNat = { msixGet s fn.toNat i.toNat with pend := true } :=
      ht ▸ repeat_sendMsix_of_masked hi he hm n
    refine ⟨hto.out, ?_⟩
    rw [← hto.out]
    exact exec_msixUnmask_of_pending (hto.sec ▸ hr) (hostTouch_eq_self_of_same hto.power hto.regs hs) (hto.msixSize fn.toNat ▸ hi)
      (congrArg Msix.pend hg) (hto.pcie ▸ hf) (hto.pcie ▸ he)

end Sys2Proof.Machine
end

section
/-! PROOFS. SPDM messages, sessions, the attestation report, IDE_KM and DOE discovery (10 R388; 16 R661 to R665). -/
namespace Sys2Proof.Machine

/-! Before a session. -/

section
variable {s u : State} (hu : u = hostTouch s)
include hu

theorem exec_getVersion_of_touch (m : List Byte) : exec (.getVersion m) s =
    .next (answer (setSpdm u { u.sec.spdm with level := 1, sessions := [] }) 0x04 m) := by
  rw [exec_getVersion, execGetVersion, hu]

theorem exec_getCapabilities_of_level (h : 1 ≤ u.sec.spdm.level) (m : List Byte) : exec (.getCapabilities m) s =
    .next (answer (setSpdm u { u.sec.spdm with level := 2 }) 0x61 m) := by
  simp only [exec_getCapabilities, execGetCapabilities, ← hu, if_pos h]

theorem exec_negotiateAlgorithms_of_level (h : 2 ≤ u.sec.spdm.level) (m : List Byte) : exec (.negotiateAlgorithms m) s =
    .next (answer (setSpdm u { u.sec.spdm with level := 3 }) 0x63 m) := by
  simp only [exec_negotiateAlgorithms, execNegotiateAlgorithms, ← hu, if_pos h]

theorem exec_doeDiscovery_of_touch (i : BitVec 8) : exec (.doeDiscovery i) s =
    .next (emit u (.spdm 0x90 (if i.toNat < 4 then leBytes 1 i.toNat ++ leBytes 1 ((i.toNat + 1) % 4) else []))) := by
  rw [exec_doeDiscovery, execDoeDiscovery, hu]

section
variable {b : List Byte} (hb : baseSection u = some b)
include hb

theorem exec_getDigests_of_record (m : List Byte) : exec (.getDigests m) s =
    .next (emit u (.spdm 0x01 (Config.sha384 (Config.chainOf b)))) := by
  simp only [exec_getDigests, execGetDigests, ← hu, hb]

theorem exec_getCertificate_of_record (o n : BitVec 16) : exec (.getCertificate 0 o n) s =
    .next (emit u (.spdm 0x02 (slice (Config.chainOf b) o.toNat n.toNat))) := by
  simp only [exec_getCertificate, execGetCertificate, ← hu, hb, if_true]

end

section
variable (hi : u.sec.ident = true)
include hi

theorem exec_challenge_of_ident (m : List Byte) : exec (.challenge m) s = .next (answer u 0x03 m) := by
  simp only [exec_challenge, execChallenge, ← hu, hi, if_true]

theorem exec_getMeasurements_of_ident (i : BitVec 8) : exec (.getMeasurements i) s = .next (emit u (.spdm 0x60
    (if 1 ≤ i.toNat && i.toNat ≤ 7 then lget (measurements u) (i.toNat - 1) [] else (measurements u).flatten))) := by
  simp only [exec_getMeasurements, execGetMeasurements, ← hu, hi, Bool.not_true, Bool.false_eq_true, if_false]

/-! The attestation report. -/

/-- The reports of the last hour of DTIME (16 R664). -/
def hourReports (s : State) : List Nat :=
  s.sec.reports.filter (fun t => elapsed s t < 3600000000000)

theorem exec_vendorDefinedRequest_of_few (hf : (hourReports u).length < 60) (hl : 1024 < lmsLeft u) (m : List Byte) :
    exec (.vendorDefinedRequest true 1 m) s =
      .next (emit (useKey (setSec u { u.sec with reports := hourReports u ++ [u.dtime] }))
        (.spdm 0x7E (reportBytes u m ++ Config.deviceSign (reportBytes u m) u.sec.nextQ))) := by
  rw [hourReports] at hf ⊢
  simp only [exec_vendorDefinedRequest, execVendorDefinedRequest, ← hu, hi, Nat.not_le.mpr hf, Nat.not_le.mpr hl, ne_eq,
    not_true_eq_false, decide_false, Bool.not_true, Bool.or_self, Bool.false_eq_true, if_false]

theorem exec_vendorDefinedRequest_of_many (hm : 60 ≤ (hourReports u).length) (m : List Byte) :
    exec (.vendorDefinedRequest true 1 m) s = .next (spdmError u errBusy) := by
  rw [hourReports] at hm
  simp only [exec_vendorDefinedRequest, execVendorDefinedRequest, ← hu, hi, hm, ne_eq,
    not_true_eq_false, decide_false, Bool.not_true, Bool.or_self, Bool.false_eq_true, if_false, if_true]

/-! Sessions. -/

theorem exec_keyExchange_of_level (hl : 3 ≤ u.sec.spdm.level) (m : List Byte) : exec (.keyExchange m) s =
    .next (answer (setSpdm u { u.sec.spdm with
      sessions := u.sec.spdm.sessions ++ [SpdmSession.mk u.sec.spdm.nextId false 0], nextId := u.sec.spdm.nextId + 1 }) 0x64 m) := by
  simp only [exec_keyExchange, execKeyExchange, ← hu, hi, hl, decide_true, Bool.and_self, if_true]

end

theorem exec_finish_of_handshake {i : BitVec 32} (h : sessionIs u i.toNat false = true) (m : List Byte) : exec (.finish i m) s =
    .next (answer (setSpdm u { u.sec.spdm with
      sessions := u.sec.spdm.sessions.map (fun q => if q.id = i.toNat then { q with open_ := true } else q) }) 0x65 m) := by
  simp only [exec_finish, execFinish, ← hu, h, if_true]

section
variable {i : BitVec 32} (ho : sessionIs u i.toNat true = true)
include ho

theorem exec_endSession_of_open (m : List Byte) : exec (.endSession i m) s = .next (answer (setSpdm u { u.sec.spdm with
    sessions := u.sec.spdm.sessions.filter (fun q => q.id ≠ i.toNat) }) 0x6C m) := by
  simp only [exec_endSession, execEndSession, ← hu, ho, if_true]

theorem exec_keyUpdate_of_open (m : List Byte) : exec (.keyUpdate i m) s = .next (answer (setSpdm u { u.sec.spdm with
    sessions := u.sec.spdm.sessions.map (fun q => if q.id = i.toNat then { q with updates := q.updates + 1 } else q) }) 0x69 m) := by
  simp only [exec_keyUpdate, execKeyUpdate, ← hu, ho, if_true]

theorem exec_heartbeat_of_open (m : List Byte) : exec (.heartbeat i m) s = .next (answer u 0x68 m) := by
  simp only [exec_heartbeat, execHeartbeat, ← hu, ho, if_true]

/-! IDE_KM inside an open session. -/

theorem exec_ideKm_query (k : BitVec 8) (m : List Byte) : exec (.ideKm i 0 k m) s = .next (answer u 0x80 m) := by
  simp only [exec_ideKm, execIdeKm, ← hu, ho, Bool.not_true, Bool.false_eq_true, if_false, if_true]

theorem exec_ideKm_keyProg_of_room {k : BitVec 8}
    (hk : (mget u.sec.spdm.streams k.toNat).isSome = true ∨ u.sec.spdm.streams.length < 4) (m : List Byte) :
    exec (.ideKm i 1 k m) s =
      .next (answer (setSpdm u { u.sec.spdm with streams := mset u.sec.spdm.streams k.toNat 1 }) 0x81 m) := by
  have hroom : ((mget u.sec.spdm.streams k.toNat).isSome || u.sec.spdm.streams.length < 4) = true := by simpa using hk
  have h10 : ¬ (1 : BitVec 2) = 0 := by decide
  simp only [exec_ideKm, execIdeKm, ← hu, ho, hroom, h10, Bool.not_true, Bool.false_eq_true, if_false, if_true]

/-- K_SET_GO and K_SET_STOP of a stream that has its keys. -/
theorem exec_ideKm_set_of_known {k : BitVec 8} (hk : (mget u.sec.spdm.streams k.toNat).isSome = true) {op : BitVec 2} (h0 : op ≠ 0)
    (h1 : op ≠ 1) (m : List Byte) : exec (.ideKm i op k m) s = .next (answer (setSpdm u { u.sec.spdm with
      streams := mset u.sec.spdm.streams k.toNat (if op = 2 then 2 else 1) }) (0x80 + op.toNat) m) := by
  simp only [exec_ideKm, execIdeKm, ← hu, ho, hk, h0, h1, Bool.not_true, Bool.false_eq_true, if_false, if_true]

end

end

/-- Settles O49: each message by its command's equation where the connection and the session admit it. -/
theorem spdmCommandsComplete : Obligations.SpdmCommandsComplete := by
  refine ⟨fun s u hu m => ⟨exec_getVersion_of_touch hu m, fun h => exec_getCapabilities_of_level hu h m,
      fun h => exec_negotiateAlgorithms_of_level hu h m,
      fun b hb => ⟨exec_getDigests_of_record hu hb m, exec_getCertificate_of_record hu hb⟩,
      fun hi => ⟨exec_challenge_of_ident hu hi m, fun i h1 h7 => ?one, fun i h => ?all⟩, exec_doeDiscovery_of_touch hu, ?report,
      fun hi hm => exec_vendorDefinedRequest_of_many hu hi hm m⟩,
    ?sessions⟩
  case one =>
    rw [exec_getMeasurements_of_ident hu hi, if_pos (by simp [h1, h7])]
  case all =>
    rw [exec_getMeasurements_of_ident hu hi, if_neg (by simp; omega)]
  case report =>
    rintro _ _ _ hi rfl hf hl rfl rfl
    exact exec_vendorDefinedRequest_of_few hu hi hf hl m
  case sessions =>
    rintro s u _ m hu rfl
    exact ⟨fun hi hl => exec_keyExchange_of_level hu hi hl m, fun i h => exec_finish_of_handshake hu h m,
      fun i ho => ⟨exec_endSession_of_open hu ho m, exec_keyUpdate_of_open hu ho m, exec_heartbeat_of_open hu ho m,
        fun k => ⟨exec_ideKm_query hu ho k m, fun hk => exec_ideKm_keyProg_of_room hu ho hk m,
          fun hk => ⟨exec_ideKm_set_of_known hu ho hk (op := 2) (by decide) (by decide) m,
            exec_ideKm_set_of_known hu ho hk (op := 3) (by decide) (by decide) m⟩⟩⟩⟩

end Sys2Proof.Machine
end

section
/-! PROOFS. What a step does with the queue, what recovery ignores, and that every command goes on (16 R659; 18 R714;
95_what_each_step_holds.md). -/
namespace Sys2Proof.Machine

/-- Settles O1: the front command is taken from the queue, and its meaning does the rest. -/
theorem stepRunsFrontCommand : Obligations.StepRunsFrontCommand := by
  intro s c
  rfl

/-- Settles O5: no command touches the queue that it is given. -/
theorem stepsTakeQueueInOrder : Obligations.StepsTakeQueueInOrder := by
  intro s t c rest hp h
  rw [step, hp] at h
  obtain ⟨hq, -⟩ := exec_keep (Keep.refl _) c t h
  exact hq

/-- Settles O7: a command that the host sends as a write of a register begins with the guard that recovery closes. -/
theorem recoveryIgnoresHostCommands : Obligations.RecoveryIgnoresHostCommands := by
  intro c s hr hc
  cases c <;> simp only [hostWritten, Bool.false_eq_true] at hc
  all_goals exact if_pos hr

/-! A meaning is branches and lookups, and each of its arms answers a next state. -/

theorem next_goesOn (t : State) : goesOn (.next t) := ⟨t, rfl⟩

theorem ite_goesOn {a b : Host.Outcome State Fault Refusal} {p : Prop} [Decidable p] (ha : goesOn a) (hb : goesOn b) :
    goesOn (if p then a else b) := by
  split
  · exact ha
  · exact hb

/-- A1_ENTRY judges the state that its note of idleness leaves, whatever that is. -/
theorem execA1Entry_goesOn (s : State) : goesOn (execA1Entry s) := by
  unfold execA1Entry
  extract_lets +onlyGivenNames u
  clear_value u
  split
  · exact ite_goesOn (next_goesOn _) (next_goesOn _)
  · exact next_goesOn _

/-- Settles O6: a meaning that begins with a lookup is unfolded, and the others are their first branch; every arm is a next
state. -/
theorem noCommandStops : Obligations.NoCommandStops := by
  intro c s
  cases c
  case a1Entry => exact execA1Entry_goesOn s
  case' registerWrite | configurationRecordAppend | completionTimeout | tailPoll | idleSequence | inFlightAdmission |
      entryRetirement | nop | dispatch | tensor | render | copy | zero | preload =>
    simp only [exec, execRegisterWrite, execConfigurationRecordAppend, execCompletionTimeout, execTailPoll, execIdleSequence,
      execInFlightAdmission, execEntryRetirement, execNop, execDispatch, execTensor, execRender, execCopy, execZero, execPreload]
  case' preloadLock | unlock | writeback | scrub | copyEngineBoundary | copyPreemption | loadModule | moduleLoadEnd | unloadModule |
      segUpdate | call | timestamp | groupInstruction | rotation =>
    simp only [exec, execPreloadLock, execUnlock, execWriteback, execScrub, execCopyEngineBoundary, execCopyPreemption, execLoadModule,
      execModuleLoadEnd, execUnloadModule, execSegUpdate, execCall, execTimestamp, execGroupInstruction, execRotation]
  case' workgroupBarrier | subgroupBarrier | groupOperation | load | store | memoryBarrier | atomic | opReadClockKhr | imageSample |
      tensorIssue | tensorWait | tensorPoll | tileHandoff | cadenceRead =>
    simp only [exec, execWorkgroupBarrier, execSubgroupBarrier, execGroupOperation, execLoad, execStore, execMemoryBarrier, execAtomic,
      execOpReadClockKhr, execImageSample, execTensorIssue, execTensorWait, execTensorPoll, execTileHandoff, execCadenceRead]
  case' lineRead | markFeed | asyncCopy | asyncCopyComplete | copyWait | l1Prefetch | yield | sleep | sleepExpiry | trap |
      workgroupPlacement | resumption | tensorCompletion | tensorFault =>
    simp only [exec, execLineRead, execMarkFeed, execAsyncCopy, execAsyncCopyComplete, execCopyWait, execL1Prefetch, execYield,
      execSleep, execSleepExpiry, execTrap, execWorkgroupPlacement, execResumption, execTensorCompletion, execTensorFault]
  case' tensorPreemption | drawRecordFetch | batch | primitive | binGrowthTimeout | tileHandout | beginInvocationInterlock |
      tileEnd | tileBankRelease | renderPassComplete | geometryPreemption | tilePhasePreemption | translationWalk | lineFill =>
    simp only [exec, execTensorPreemption, execDrawRecordFetch, execBatch, execPrimitive, execBinGrowthTimeout, execTileHandout,
      execBeginInvocationInterlock, execTileEnd, execTileBankRelease, execRenderPassComplete, execGeometryPreemption,
      execTilePhasePreemption, execTranslationWalk, execLineFill]
  case' evictionWriteComplete | slowPathDecode | sectorWrite | frameRetirement | retirementPageCopy | spareAssignment |
      promotionComplete | coreUnavailable | killEngineStop | killRetirement | killSummaryRecord | contextWatchdog | waitTimeout |
      eventTimeout =>
    simp only [exec, execEvictionWriteComplete, execSlowPathDecode, execSectorWrite, execFrameRetirement, execRetirementPageCopy,
      execSpareAssignment, execPromotionComplete, execCoreUnavailable, execKillEngineStop, execKillRetirement, execKillSummaryRecord,
      execContextWatchdog, execWaitTimeout, execEventTimeout]
  case' hang | hangCapture | slotRotation | timeSlice | pulse | gateOpen | deadlineMiss | planLaunch | planLoad | planUnload |
      nodeCompletion | modelLoadEnd | modelSwapTimeout | compress =>
    simp only [exec, execHang, execHangCapture, execSlotRotation, execTimeSlice, execPulse, execGateOpen, execDeadlineMiss,
      execPlanLaunch, execPlanLoad, execPlanUnload, execNodeCompletion, execModelLoadEnd, execModelSwapTimeout, execCompress]
  case' decompress | check | crusherBlock | crusherPreemption | snoopedMessage | markStall | remoteTimeout | burstStall | pmeToAck |
      handshakeTimeout | targetStateEntry | powerLimitAbort | normalPlacementResume | coolantLossEnd =>
    simp only [exec, execDecompress, execCheck, execCrusherBlock, execCrusherPreemption, execSnoopedMessage, execMarkStall,
      execRemoteTimeout, execBurstStall, execPmeToAck, execHandshakeTimeout, execTargetStateEntry, execPowerLimitAbort,
      execNormalPlacementResume, execCoolantLossEnd]
  case' sampleRecord | sampleStall | stageComplete | standbySelfTest | roleMove | selfConfirmation | healthWindowExpiry |
      haulRequestTimer | getDigests | getCertificate =>
    simp only [exec, execSampleRecord, execSampleStall, execStageComplete, execStandbySelfTest, execRoleMove, execSelfConfirmation,
      execHealthWindowExpiry, execHaulRequestTimer, execGetDigests, execGetCertificate]
  all_goals
    repeat'
      first
      | with_reducible exact next_goesOn _
      | with_reducible refine ite_goesOn ?_ ?_
      | split
      | exact next_goesOn _
      | refine ite_goesOn ?_ ?_

end Sys2Proof.Machine
end

section
/-! PROOFS. The state after reset (01 R29; 18 R716). -/
namespace Sys2Proof.Machine

/-- After reset only PWR_STATUS is listed with a value of its own. -/
theorem rd_reset_of_ne {k : Nat} (h : k ≠ Reg.pwrStatus) : rd State.reset k = resetVal k := by
  rw [rd, State.reset, mgetD, mget, if_neg h.symm, mget, Option.getD_none]

theorem reset_sound : State.reset.Sound := by
  unfold State.Sound
  decide +kernel

/-- Settles O3: one register is listed, and every map of created things is empty. -/
theorem resetState : Obligations.ResetState :=
  ⟨⟨fun _ => rd_reset_of_ne, fun _ _ => rfl, rfl, fun _ => rfl, rfl, rfl⟩, reset_sound⟩

end Sys2Proof.Machine
end

section
/-! PROOFS. Fence values, signals and handles (11 R444, R462, R463). -/
namespace Sys2Proof.Machine

theorem reached_iff (f v : Word) : reached f v = true ↔ (f - v).toNat < 2 ^ 63 := by
  rw [reached, decide_eq_true_iff]

/-- Settles O51: the difference of two words is their difference modulo 2^64, and one of the two ways round is less than half. -/
theorem fenceReachedRule : Obligations.FenceReachedRule := by
  intro f v
  refine ⟨?_, ?_, fun hf hv => ?_⟩
  · rw [reached_iff, BitVec.toNat_sub]
    omega
  · rw [reached_iff, BitVec.sub_self]
    decide
  · rw [reached_iff] at hf hv
    bv_omega

/-! What messages, counters and records leave of the fences. -/

theorem deliverMsix_fences (s : State) (f i : Nat) : (deliverMsix s f i).host.fences = s.host.fences := by
  unfold deliverMsix
  split
  · split <;> rfl
  · rfl

theorem dropMsix_fences (s : State) : (dropMsix s).host.fences = s.host.fences := by
  unfold dropMsix
  split
  · rfl
  · split
    · rfl
    · dsimp only
      split
      · rw [deliverMsix_fences, wrF_host, wrF_host]
      · rfl

theorem sendMsix_fences (s : State) (f i : Nat) : (sendMsix s f i).host.fences = s.host.fences := by
  unfold sendMsix
  split
  · exact deliverMsix_fences s f i
  · exact dropMsix_fences s

theorem bump32_fences (s : State) (key status bit n : Nat) : (bump32 s key status bit n).host.fences = s.host.fences := by
  unfold bump32 bumpF
  split
  · rw [wrF_host]
  · unfold setOverflow
    split
    · rw [wrF_host]
    · rw [counterEvent, sendMsix_fences, wrF_host, wrF_host, wrF_host]

theorem notifyFaultq_fences (s : State) (p : Nat) : (notifyFaultq s p).host.fences = s.host.fences := by
  unfold notifyFaultq
  split
  · dsimp only
    split
    · rw [sendMsix_fences, setPart_host_fences]
    · rfl
  · rfl

theorem appendRec_fences (s : State) (r : ErrRec) : (appendRec s r).host.fences = s.host.fences := by
  unfold appendRec
  extract_lets p h q u
  have hu : u.host.fences = s.host.fences := setPart_host_fences s p _
  split
  · rw [notifyFaultq_fences, bump32_fences]
  · rw [notifyFaultq_fences, wr_host, hu]

theorem writeMirror_fences (s : State) (k : Nat) : (writeMirror s k).host.fences = s.host.fences := by
  unfold writeMirror
  split
  · split <;> rfl
  · rfl

theorem fireEvent_fences (s : State) (k : Nat) (e : Event) (code : Nat) : (fireEvent s k e code).host.fences = s.host.fences := by
  unfold fireEvent
  dsimp only
  split
  · rw [sendMsix_fences, emit_host, setEvent_host_fences]
  · rw [emit_host, setEvent_host_fences]

theorem judgeEvent_fences (s : State) (k : Nat) : (judgeEvent s k).host.fences = s.host.fences := by
  unfold judgeEvent
  split
  · rfl
  · split
    · rfl
    · split
      · rfl
      · split
        · exact fireEvent_fences s k _ _
        · split
          · exact fireEvent_fences s k _ _
          · rfl

theorem judgeEvents_fences (s : State) (fence : Nat) : (judgeEvents s fence).host.fences = s.host.fences := by
  rw [judgeEvents]
  generalize s.host.events.filter (fun e => decide (e.2.fence = fence)) = l
  induction l generalizing s with
  | nil => rfl
  | cons e l ih => rw [List.foldl_cons, ih, judgeEvent_fences]

/-! The same of everything but registers, the host side and what has been sent. -/

theorem writeMirror_reportsOnly (s : State) (k : Nat) : ReportsOnly s (writeMirror s k) := by
  unfold writeMirror
  split
  · split <;> rfl
  · rfl

theorem fireEvent_reportsOnly (s : State) (k : Nat) (e : Event) (code : Nat) : ReportsOnly s (fireEvent s k e code) := by
  have recorded (x : Event) (o : Output) : ReportsOnly s (emit (setEvent s k x) o) := rfl
  exact .ite ((recorded _ _).trans (sendMsix_reportsOnly _ _ _)) (recorded _ _)

theorem judgeEvent_reportsOnly (s : State) (k : Nat) : ReportsOnly s (judgeEvent s k) := by
  unfold judgeEvent
  split
  · rfl
  · split
    · rfl
    · refine .ite rfl (.ite (fireEvent_reportsOnly s k _ _) ?_)
      split
      · exact fireEvent_reportsOnly s k _ _
      · rfl

theorem judgeEvents_reportsOnly (s : State) (fence : Nat) : ReportsOnly s (judgeEvents s fence) := by
  rw [judgeEvents]
  generalize s.host.events.filter (fun e => decide (e.2.fence = fence)) = l
  induction l generalizing s with
  | nil => rfl
  | cons e l ih => exact (judgeEvent_reportsOnly s e.1).trans (ih _)

theorem setFence_reportsOnly (s : State) (k : Nat) (f : Fence) : ReportsOnly s (setFence s k f) := rfl

theorem regress_reportsOnly (s : State) (k : Nat) (f : Fence) (v : Word) (n : Nat) : ReportsOnly s (regress s k f v n) :=
  have counted := bump32_reportsOnly s (pkey (k / 65536) Reg.objFenceRegressCount) (pkey (k / 65536) Reg.faultqStatus) 1 1
  .ite counted ((counted.trans (setFence_reportsOnly _ _ _)).trans (appendRec_reportsOnly _ _))

/-! The count of regressions in a partition's page is no register that a record or a message writes. -/

theorem pkey_ne_dev (p off : Nat) {k : Nat} (h : k < 67108864) : pkey p off ≠ k := by
  unfold pkey
  omega

theorem pkey_inj_off {p a b : Nat} : pkey p a = pkey p b ↔ a = b := Nat.add_left_cancel_iff

theorem rdF_notifyFaultq {key : Nat} (hd : key ≠ Reg.pcieMsiDropCount) (hs : key ∉ [Reg.errStatus, Reg.pcieStatus]) (s : State)
    (p hi lo : Nat) : rdF (notifyFaultq s p) key hi lo = rdF s key hi lo := by
  unfold notifyFaultq
  split
  · dsimp only
    split
    · rw [rdF_sendMsix hd (.inl hs)]; rfl
    · rfl
  · rfl

theorem rdF_bump32_ne {key count status : Nat} (hd : key ≠ Reg.pcieMsiDropCount) (hs : key ∉ [Reg.errStatus, Reg.pcieStatus])
    (hc : key ≠ count) (ht : key ≠ status) (s : State) (bit n hi lo : Nat) :
    rdF (bump32 s count status bit n) key hi lo = rdF s key hi lo := by
  unfold bump32 bumpF
  split
  · rw [rdF_wrF_ne s _ _ _ _ _ hc]
  · rw [rdF_setOverflow_ne _ ht hd hs, rdF_wrF_ne s _ _ _ _ _ hc]

/-- A record writes its partition's fault queue, its overflow count and its status, and nothing else of its page. -/
theorem rdF_appendRec {key : Nat} (hd : key ≠ Reg.pcieMsiDropCount) (hs : key ∉ [Reg.errStatus, Reg.pcieStatus]) {r : ErrRec}
    (hq : key ∉ [pkey r.part Reg.faultqHead, pkey r.part Reg.faultqOverflowCount, pkey r.part Reg.faultqStatus]) (s : State)
    (hi lo : Nat) : rdF (appendRec s r) key hi lo = rdF s key hi lo := by
  simp only [List.mem_cons, List.not_mem_nil, or_false, not_or] at hq
  obtain ⟨hh, hc, ht⟩ := hq
  unfold appendRec
  dsimp only
  split
  · rw [rdF_notifyFaultq hd hs, rdF_bump32_ne hd hs hc ht]
  · rw [rdF_notifyFaultq hd hs, rdF, rd_wr_ne _ _ hh]; rfl

/-! A signal to a live fence that is not errored, by how far the value lies ahead (11 R463). -/

section
variable {s : State} {k n : Nat} {v : Word} {f : Fence} (hf : mget s.host.fences k = some f) (he : f.err = none)
include hf he

theorem signalFence_of_same (h : (v - f.value).toNat = 0) : signalFence s k v n = s := by
  have hv : v = f.value := by bv_omega
  simp [signalFence, hf, he, hv]

theorem signalFence_of_ahead (h1 : 1 ≤ (v - f.value).toNat) (h2 : (v - f.value).toNat ≤ 2 ^ 63 - 1) : signalFence s k v n =
    judgeEvents (writeMirror (setFence s k { f with value := v, regressRec := false }) k) k := by
  have hv : v ≠ f.value := by rintro rfl; simp at h1
  have hlt : (v - f.value).toNat < 2 ^ 63 := by omega
  simp only [signalFence, hf, he, hv, hlt, Option.isSome_none, Bool.false_eq_true, if_false, if_true]

theorem signalFence_of_behind (h : 2 ^ 63 ≤ (v - f.value).toNat) : signalFence s k v n = regress s k f v n := by
  have hv : v ≠ f.value := by rintro rfl; simp at h
  have hge : ¬ (v - f.value).toNat < 2 ^ 63 := by omega
  simp only [signalFence, hf, he, hv, hge, Option.isSome_none, Bool.false_eq_true, if_false]

theorem signalFence_cases : signalFence s k v n = s ∨ signalFence s k v n = regress s k f v n ∨
    signalFence s k v n = judgeEvents (writeMirror (setFence s k { f with value := v, regressRec := false }) k) k := by
  obtain h0 | hb | ⟨h1, h2⟩ : (v - f.value).toNat = 0 ∨ 2 ^ 63 ≤ (v - f.value).toNat ∨
      1 ≤ (v - f.value).toNat ∧ (v - f.value).toNat ≤ 2 ^ 63 - 1 := by omega
  · exact .inl (signalFence_of_same hf he h0)
  · exact .inr (.inl (signalFence_of_behind hf he hb))
  · exact .inr (.inr (signalFence_of_ahead hf he h1 h2))

end

/-- An advance changes the fence it signals. -/
theorem fences_of_ahead (s : State) (k : Nat) (f : Fence) :
    (judgeEvents (writeMirror (setFence s k f) k) k).host.fences = mset s.host.fences k f := by
  rw [judgeEvents_fences, writeMirror_fences, setFence_host_fences]

/-- A regression changes no more of the fence it signals than that it is recorded. -/
theorem fences_of_behind {s : State} {k : Nat} {f : Fence} (v : Word) (n : Nat) :
    (regress s k f v n).host.fences = s.host.fences ∨
      (regress s k f v n).host.fences = mset s.host.fences k { f with regressRec := true } := by
  unfold regress
  dsimp only
  split
  · exact .inl (bump32_fences _ _ _ _ _)
  · refine .inr ?_
    rw [appendRec_fences, setFence_host_fences, bump32_fences]

theorem mget_regress_same {s : State} {k : Nat} {f : Fence} (hf : mget s.host.fences k = some f) (v : Word) (n : Nat) :
    ∃ b, mget (regress s k f v n).host.fences k = some { f with regressRec := b } := by
  obtain h | h := fences_of_behind (s := s) (k := k) (f := f) v n
  · exact ⟨f.regressRec, h ▸ hf⟩
  · exact ⟨true, h ▸ mget_mset_same _ _ _⟩

theorem rdF_regress_count (s : State) (k : Nat) (f : Fence) (v : Word) (n : Nat) :
    rdF (regress s k f v n) (pkey (k / 65536) Reg.objFenceRegressCount) 31 0 =
      min (rdF s (pkey (k / 65536) Reg.objFenceRegressCount) 31 0 + 1) (2 ^ 32 - 1) := by
  have hd := pkey_ne_dev (k / 65536) Reg.objFenceRegressCount (k := Reg.pcieMsiDropCount) (by decide)
  have he := pkey_ne_dev (k / 65536) Reg.objFenceRegressCount (k := Reg.errStatus) (by decide)
  have hp := pkey_ne_dev (k / 65536) Reg.objFenceRegressCount (k := Reg.pcieStatus) (by decide)
  have hstatus : pkey (k / 65536) Reg.objFenceRegressCount ≠ pkey (k / 65536) Reg.faultqStatus := by simp [pkey_inj_off]
  have counted := (countersSaturate s _ (pkey (k / 65536) Reg.objFenceRegressCount) (pkey (k / 65536) Reg.faultqStatus) 1 1
    (by simp [hstatus, he, hp, hd]) (by simpa using pkey_ne_dev (k / 65536) Reg.faultqStatus (by decide)) le_rfl (by decide) rfl).1
  unfold regress
  dsimp only
  split
  · exact counted
  · rw [rdF_appendRec hd (by simp [he, hp]) (by simp [plainRec, pkey_inj_off])]
    exact counted

/-- Settles O50: by whether the value lies ahead, is the fence's own, or lies behind. -/
theorem signalsMoveFencesForward : Obligations.SignalsMoveFencesForward := by
  rintro s t k v n f hf he rfl
  refine ⟨fun h1 h2 => ?ahead, signalFence_of_same hf he, fun h => ?behind, fun j hj => ?others, ?mem⟩
  case ahead =>
    rw [signalFence_of_ahead hf he h1 h2, fences_of_ahead, mget_mset_same]
    exact ⟨_, rfl, rfl, he, rfl⟩
  case behind =>
    rw [signalFence_of_behind hf he h]
    obtain ⟨b, hb⟩ := mget_regress_same hf v n
    exact ⟨⟨_, hb, rfl, he, rfl⟩, rdF_regress_count s k f v n⟩
  case others =>
    obtain h | h | h := signalFence_cases (v := v) (n := n) hf he
    · rw [h]
    · rw [h]
      obtain h | h := fences_of_behind (s := s) (k := k) (f := f) v n
      · rw [h]
      · rw [h, mget_mset_ne _ _ hj]
    · rw [h, fences_of_ahead, mget_mset_ne _ _ hj]
  case mem =>
    obtain h | h | h := signalFence_cases (v := v) (n := n) hf he
    · rw [h]
    · rw [h, (regress_reportsOnly s k f v n).mem]
    · rw [h, (judgeEvents_reportsOnly _ k).mem, (writeMirror_reportsOnly _ k).mem, setFence_mem]

/-- Settles O55: the four fields of a handle stand side by side. -/
theorem handlesNameTheirSlot : Obligations.HandlesNameTheirSlot := by
  rintro p i ty g hp hi h1 h5 hg1 hg h rfl
  have hk : okey p i % 65536 = i ∧ okey p i / 65536 % 32 = p := by unfold okey; omega
  obtain ⟨hki, hkp⟩ := hk
  simp only [mkHandle, hKey, hki, hkp, bitsN]
  unfold okey
  omega
end Sys2Proof.Machine
end

section
/-! PROOFS. Object commands (11 R447 to R454, R463, R471, R478, R481). -/
namespace Sys2Proof.Machine

/-! A command of an open partition ends with its result, and has its effect where that is OK. -/

section
variable {u : State} {p : Nat} (ht : objTaken u p = true) (ho : objOpen u p = true)
include ht ho

theorem objCommand_of_ok (t : State) : objCommand u p ObjRes.ok t = objResult t p ObjRes.ok := by
  simp [objCommand, ht, ho]

theorem objCommand_of_failed {r : Nat} (hr : r ≠ ObjRes.ok) (t : State) : objCommand u p r t = objResult u p r := by
  simp [objCommand, ht, ho, hr]

end

/-- What three writes of three registers leave. -/
theorem wr_three (u : State) {i j k : Nat} (a b c : Word) (hij : i ≠ j) (hik : i ≠ k) (hjk : j ≠ k) {t : State}
    (h : t = wr (wr (wr u i a) j b) k c) :
    rd t i = a ∧ rd t j = b ∧ rd t k = c ∧ { t with regs := u.regs } = u ∧ onlyRegs u t [i, j, k] := by
  subst h
  refine ⟨?_, ?_, rd_wr_same _ _ _, rfl, fun l hl => ?_⟩
  · rw [rd_wr_ne _ _ hik, rd_wr_ne _ _ hij, rd_wr_same]
  · rw [rd_wr_ne _ _ hjk, rd_wr_same]
  · simp only [List.mem_cons, List.not_mem_nil, or_false, not_or] at hl
    obtain ⟨hi, hj, hk⟩ := hl
    rw [rd_wr_ne _ _ hk, rd_wr_ne _ _ hj, rd_wr_ne _ _ hi]

/-- What QUERY and OBJ_READ leave: two words of output and the result OK. -/
theorem objOutput_of_ok (u : State) (p : Nat) (a b : Word) {t : State}
    (h : t = objResult (wr (wr u (pkey p Reg.objOut) a) (pkey p Reg.objOutAux) b) p ObjRes.ok) :
    rd t (pkey p Reg.objOut) = a ∧ rd t (pkey p Reg.objOutAux) = b ∧ rdF t (pkey p Reg.objStatus) 15 8 = ObjRes.ok ∧
      { t with regs := u.regs } = u ∧ onlyRegs u t [pkey p Reg.objOut, pkey p Reg.objOutAux, pkey p Reg.objStatus] := by
  obtain ⟨ha, hb, hc, hf, ho⟩ := wr_three u a b (BitVec.ofNat 64 (ObjRes.ok * 256)) (by simp [pkey_inj_off]) (by simp [pkey_inj_off])
    (by simp [pkey_inj_off]) h
  refine ⟨ha, hb, ?_, hf, ho⟩
  rw [rdF, hc]
  decide

section
variable {p : Part} {o : BitVec 16} {s u : State} (hr : s.sec.recovery = false) (hu : u = hostTouch s)
include hr hu

section
variable (ht : objTaken u p.toNat = true) (ho : objOpen u p.toNat = true)
include ht ho

theorem exec_objCreate_of_ok {b : List Byte} (h : createResult u p.toNat b = ObjRes.ok) :
    exec (.objCreate p o (.ok b)) s = .next (objResult (createOk u p.toNat o.toNat b) p.toNat ObjRes.ok) := by
  simp [execObjCreate, hr, ← hu, ht, ho, h]

theorem exec_objCreate_of_failed {b : List Byte} (h : createResult u p.toNat b ≠ ObjRes.ok) :
    exec (.objCreate p o (.ok b)) s = .next (objResult u p.toNat (createResult u p.toNat b)) := by
  simp [execObjCreate, hr, ← hu, ht, ho, h]

theorem exec_objCreate_of_unread (e : ReadFail) :
    exec (.objCreate p o (.fail e)) s = .next (objResult u p.toNat ObjRes.descFault) := by
  simp [execObjCreate, hr, ← hu, ht, ho]

theorem exec_addRef_of_room {r : Refs} (h : refsOf u p.toNat (objHandle u p.toNat) = some r)
    (hl : (mget r.host o.toNat).isSome ∨ r.host.length < 8) (hn : hostRefs r < 2 ^ 32 - 1) :
    exec (.addRef p o) s = .next (objResult (putRefs u (bitsN (objHandle u p.toNat) 23 21) (hKey (objHandle u p.toNat))
      { r with host := mset r.host o.toNat (mgetD r.host o.toNat 0 + 1) }) p.toNat ObjRes.ok) := by
  have hroom : ((mget r.host o.toNat).isNone && decide (8 ≤ r.host.length)) = false := by
    obtain hl | hl := hl
    · rw [Option.isNone_eq_false_iff.mpr hl, Bool.false_and]
    · simp [hl]
  have hres : addRefResult u p.toNat o.toNat = ObjRes.ok := by
    simp only [addRefResult, h, hroom, Nat.not_le.mpr hn, Bool.false_eq_true, if_false]
  simp only [exec_addRef, execAddRef, hr, ← hu, hres, objCommand_of_ok ht ho, addRefOk, h, Bool.false_eq_true, if_false]

theorem exec_release_of_owner {r : Refs} (h : refsOf u p.toNat (objHandle u p.toNat) = some r) (hm : (mget r.host o.toNat).isSome) :
    exec (.release p o) s = .next (objResult (releaseOk u p.toNat o.toNat) p.toNat ObjRes.ok) := by
  have hres : releaseResult u p.toNat o.toNat = ObjRes.ok := by
    simp [releaseResult, h, Option.isSome_iff_ne_none.mp hm]
  simp only [exec_release, execRelease, hr, ← hu, hres, objCommand_of_ok ht ho, Bool.false_eq_true, if_false]

theorem exec_release_of_stranger {r : Refs} (h : refsOf u p.toNat (objHandle u p.toNat) = some r) (hm : (mget r.host o.toNat).isNone) :
    exec (.release p o) s = .next (objResult u p.toNat ObjRes.owners) := by
  have hres : releaseResult u p.toNat o.toNat = ObjRes.owners := by simp [releaseResult, h, Option.isNone_iff_eq_none.mp hm]
  simp only [exec_release, execRelease, hr, ← hu, hres, objCommand_of_failed ht ho (r := ObjRes.owners) (by decide),
    Bool.false_eq_true, if_false]

theorem exec_addRef_of_no_object (h : refsOf u p.toNat (objHandle u p.toNat) = none) :
    exec (.addRef p o) s = .next (objResult u p.toNat ObjRes.handle) := by
  have hres : addRefResult u p.toNat o.toNat = ObjRes.handle := by simp [addRefResult, h]
  simp only [exec_addRef, execAddRef, hr, ← hu, hres, objCommand_of_failed ht ho (r := ObjRes.handle) (by decide),
    Bool.false_eq_true, if_false]

theorem exec_release_of_no_object (h : refsOf u p.toNat (objHandle u p.toNat) = none) :
    exec (.release p o) s = .next (objResult u p.toNat ObjRes.handle) := by
  have hres : releaseResult u p.toNat o.toNat = ObjRes.handle := by simp [releaseResult, h]
  simp only [exec_release, execRelease, hr, ← hu, hres, objCommand_of_failed ht ho (r := ObjRes.handle) (by decide),
    Bool.false_eq_true, if_false]

theorem exec_signal_of_allowed {f : Fence} (h : hostFence u p.toNat = some f) (hs : f.hostSignal = true) :
    exec (.signal p o) s = .next (objResult
      (settle (signalFence u (hKey (objHandle u p.toNat)) (objArg u p.toNat) Engine.gantry)) p.toNat ObjRes.ok) := by
  have hres : signalResult u p.toNat = ObjRes.ok := by simp [signalResult, h, hs]
  simp only [exec_signal, execSignal, hr, ← hu, hres, objCommand_of_ok ht ho, Bool.false_eq_true, if_false]

theorem exec_objRead_of_fence {f : Fence} (h : hostFence u p.toNat = some f) : exec (.objRead p o) s = .next (objResult
    (wr (wr u (pkey p.toNat Reg.objOut) f.value) (pkey p.toNat Reg.objOutAux) (BitVec.ofNat 64 (f.err.getD 0))) p.toNat ObjRes.ok) := by
  simp only [exec_objRead, execObjRead, hr, ← hu, h, objCommand_of_ok ht ho, Bool.false_eq_true, if_false]

theorem exec_objQuery_of_object {h d st : Nat} (hq : queryOut u p.toNat = some (h, d, st)) : exec (.objQuery p o) s = .next (objResult
    (wr (wr u (pkey p.toNat Reg.objOut) (BitVec.ofNat 64 (h % 2 ^ 32 + d % 2 ^ 32 * 2 ^ 32)))
      (pkey p.toNat Reg.objOutAux) (BitVec.ofNat 64 st)) p.toNat ObjRes.ok) := by
  simp only [exec_objQuery, execObjQuery, hr, ← hu, hq, objCommand_of_ok ht ho, Bool.false_eq_true, if_false]

theorem exec_arm_of_event {e : Event} (h : hostEvent u p.toNat = some e) : exec (.arm p o) s =
    .next (objResult (armEvent u (hKey (objHandle u p.toNat)) e (objArg u p.toNat)) p.toNat ObjRes.ok) := by
  simp only [exec_arm, execArm, hr, ← hu, h, objCommand_of_ok ht ho, Bool.false_eq_true, if_false]

theorem exec_kill_of_ok (h : killResult u p.toNat = ObjRes.ok) : exec (.kill p o) s =
    .next (objBusy (killCtx u (hKey (objHandle u p.toNat)) (some Cond.contextKilled) []) p.toNat (.kill (hKey (objHandle u p.toNat)))) := by
  simp [execKill, hr, ← hu, ht, ho, h]

theorem exec_ownerGone_of_owner (h : o ≠ 0) : exec (.ownerGone p o) s =
    .next (settle (objWaitDone (objBusy (ownerGoneStart u p.toNat o.toNat) p.toNat (.ownerGone o.toNat)) p.toNat)) := by
  have hne : ¬ o = 0 := h
  simp only [exec_ownerGone, execOwnerGone, hr, ← hu, ht, ho, hne, Bool.not_true, Bool.false_eq_true, if_false]

theorem exec_ownerGone_of_zero (h : o = 0) : exec (.ownerGone p o) s = .next (objResult u p.toNat ObjRes.state) := by
  simp [execOwnerGone, hr, ← hu, ht, ho, h]

theorem exec_objCmdReserved_of_open : exec (.objCmdReserved p o) s = .next (objResult u p.toNat ObjRes.reservedSet) := by
  simp only [exec_objCmdReserved, execObjCmdReserved, hr, ← hu, objCommand_of_failed ht ho (r := ObjRes.reservedSet) (by decide),
    Bool.false_eq_true, if_false]

end

end

/-- Settles O33: each command by its equation at the result that its operation ends with. -/
theorem objectCommandsComplete : Obligations.ObjectCommandsComplete := by
  intro p o s u hr hu ht ho
  refine ⟨fun b => exec_objCreate_of_ok hr hu ht ho, fun b => exec_objCreate_of_failed hr hu ht ho,
    exec_objCreate_of_unread hr hu ht ho,
    fun r h => ⟨exec_addRef_of_room hr hu ht ho h, exec_release_of_owner hr hu ht ho h, exec_release_of_stranger hr hu ht ho h⟩,
    fun h => ⟨exec_addRef_of_no_object hr hu ht ho h, exec_release_of_no_object hr hu ht ho h⟩,
    fun f h => ⟨exec_signal_of_allowed hr hu ht ho h, _, exec_objRead_of_fence hr hu ht ho h, objOutput_of_ok u p.toNat _ _ rfl⟩,
    fun h d st hq => ⟨_, exec_objQuery_of_object hr hu ht ho hq, objOutput_of_ok u p.toNat _ _ rfl⟩,
    fun e => exec_arm_of_event hr hu ht ho, fun h k hk => ?kill, exec_ownerGone_of_owner hr hu ht ho,
    exec_ownerGone_of_zero hr hu ht ho, exec_objCmdReserved_of_open hr hu ht ho⟩
  case kill =>
    subst hk
    exact exec_kill_of_ok hr hu ht ho h

end Sys2Proof.Machine
end

section
/-! PROOFS. Time limits of waits and events, the deadlock scan, the fault queue's tail and hang capture (11 R461, R471, R474, R476,
R487, R491). -/
namespace Sys2Proof.Machine

theorem exec_eventTimeout_of_due {s : State} {p : Part} {k : BitVec 16} {e : Event}
    (he : mget s.host.events (okey p.toNat k.toNat) = some e) (ha : e.armed = true) (ht : e.timeoutMs ≠ 0)
    (hd : due s e.armedAt (e.timeoutMs * 1000000) = true) :
    exec (.eventTimeout p k) s = .next (fireEvent s (okey p.toNat k.toNat) e Cond.waitTimeout) := by
  simp [execEventTimeout, he, ha, ht, hd]

theorem exec_waitTimeout_of_due {s : State} {wid : Nat} {w : WaitAt}
    (hw : (entryWaits s ++ nodeWaits s).find? (fun w => w.wid = wid) = some w) {ms : Nat}
    (hm : ms = ((mget s.host.ctxs w.org.ctx).map (fun c => c.waitTimeoutMs)).getD 0) (h0 : ms ≠ 0)
    (hd : due s (waitSince s w) (ms * 1000000) = true) : exec (.waitTimeout wid) s = .next (waitExpires s w) := by
  simp only [exec_waitTimeout, execWaitTimeout, hw, ← hm, hd, ne_eq, h0, not_false_eq_true, decide_true, Bool.and_self, if_true]

theorem exec_deadlockScan_of_due {s : State} (h : s.host.scanAt / 1000000 < s.dtime / 1000000) : exec .deadlockScan s =
    .next { s with host := { s.host with scanAt := s.dtime, scanSet := (closedSet s).map (fun w => w.wid) } } := by
  rw [exec_deadlockScan, execDeadlockScan, if_pos h]

theorem exec_deadlockBreak_of_blocked {s : State} {l : List WaitAt} (h0 : s.host.scanSet ≠ [])
    (hl : l = (blockedWaits s).filter (fun w => s.host.scanSet.any (· == w.wid))) (hn : l.length = s.host.scanSet.length) :
    exec .deadlockBreak s = .next (breakSet { s with host := { s.host with scanSet := [] } } l) := by
  simp only [exec_deadlockBreak, execDeadlockBreak, ← hl, hn, ne_eq, h0, not_false_eq_true, decide_true, Bool.and_self, if_true]

/-! The fault queue's tail: a value between the tail and the head is taken, and arms the notification. -/

section
variable {p : Part} {v : Word32} {s u : State} (hr : s.sec.recovery = false) (hu : u = hostTouch s)
include hr hu

theorem exec_faultqTail_of_valid (h : cdiff v.toNat (rdF u (pkey p.toNat Reg.faultqTail) 31 0) ≤
      cdiff (rdF u (pkey p.toNat Reg.faultqHead) 31 0) (rdF u (pkey p.toNat Reg.faultqTail) 31 0)) :
    exec (.faultqTail p v) s = .next (setPart (wr u (pkey p.toNat Reg.faultqTail) (BitVec.ofNat 64 v.toNat)) p.toNat
      { partOf u p.toNat with notify := true }) := by
  simp only [exec_faultqTail, execFaultqTail, hr, ← hu, h, Bool.false_eq_true, if_false, if_true]

theorem exec_faultqTail_of_invalid (h : cdiff (rdF u (pkey p.toNat Reg.faultqHead) 31 0) (rdF u (pkey p.toNat Reg.faultqTail) 31 0) <
      cdiff v.toNat (rdF u (pkey p.toNat Reg.faultqTail) 31 0)) : exec (.faultqTail p v) s = .next u := by
  simp only [exec_faultqTail, execFaultqTail, hr, ← hu, Nat.not_le.mpr h, Bool.false_eq_true, if_false]

end

theorem partOf_setPart_same (s : State) (p : Nat) (x : Partition) : partOf (setPart s p x) p = x :=
  mgetD_mset_same s.host.parts p x noPartition

/-- The register that an update of the host side leaves. -/
theorem rd_setPart (s : State) (p : Nat) (x : Partition) (k : Nat) : rd (setPart s p x) k = rd s k := rfl

theorem wr_setPart_frame (s : State) (k p : Nat) (v : Word) (x : Partition) :
    { setPart (wr s k v) p x with regs := s.regs, host := s.host } = s := rfl

theorem wbits_ofNat_word32 (v : Word32) : wbits (BitVec.ofNat 64 v.toNat) 31 0 = v.toNat := by
  have hv := v.isLt
  rw [wbits, bitsN, BitVec.toNat_ofNat]
  omega

/-- What a valid value leaves in the page of its partition and in its notification. -/
theorem faultqTail_effect (u : State) (p : Nat) (v : Word32) {t : State}
    (h : t = setPart (wr u (pkey p Reg.faultqTail) (BitVec.ofNat 64 v.toNat)) p { partOf u p with notify := true }) :
    rdF t (pkey p Reg.faultqTail) 31 0 = v.toNat ∧ rd t (pkey p Reg.faultqHead) = rd u (pkey p Reg.faultqHead) ∧
      (partOf t p).notify = true ∧ { t with regs := u.regs, host := u.host } = u ∧ onlyRegs u t [pkey p Reg.faultqTail] := by
  have hne : pkey p Reg.faultqHead ≠ pkey p Reg.faultqTail := by simp [pkey_inj_off]
  subst h
  refine ⟨?_, ?_, ?_, wr_setPart_frame u _ p _ _, fun k hk => ?_⟩
  · rw [rdF, rd_setPart, rd_wr_same, wbits_ofNat_word32]
  · rw [rd_setPart, rd_wr_ne _ _ hne]
  · rw [partOf_setPart_same]
  · rw [rd_setPart, rd_wr_ne _ _ (List.ne_of_not_mem_cons hk)]

theorem captureNow_of_held {s u : State} {key : Nat} {c : Capture} {ok : Bool} (hc : mget s.host.captures key = some c)
    (hw : writeCapture { s with host := { s.host with captures := mdel s.host.captures key } } c = (u, ok)) :
    captureNow s key = flagRecord u c.record (if ok then flagCapture else flagLost) := by
  simp only [captureNow, hc, hw]

/-- Settles O34: each command by its equation where its time has come; the tail by whether the value is valid. -/
theorem waitCommandsComplete : Obligations.WaitCommandsComplete := by
  refine ⟨fun p k s e => exec_eventTimeout_of_due, fun wid ms s w hw => exec_waitTimeout_of_due hw,
    fun s h => ⟨_, exec_deadlockScan_of_due h, rfl, rfl, rfl, rfl, rfl⟩, fun s l => exec_deadlockBreak_of_blocked,
    fun p v s u hr hu => ⟨fun h => ⟨_, exec_faultqTail_of_valid hr hu h, faultqTail_effect u p.toNat v rfl⟩,
      exec_faultqTail_of_invalid hr hu⟩,
    fun key s u c ok hc hw => ⟨fun p hp => ?record, fun hf => ?fatal⟩⟩
  case record =>
    subst hp
    rw [exec_hangCapture, execHangCapture, captureNow_of_held hc hw]
  case fatal =>
    subst hf
    rw [exec_hangCapture, execHangCapture, captureNow_of_held hc hw]

end Sys2Proof.Machine
end

section
/-! PROOFS. Kills, watchdogs, hangs and engine resets (11 R460, R478, R490). -/
namespace Sys2Proof.Machine

section
variable {p : Part} {c : BitVec 16} {s : State} {k : Nat} (hk : k = okey p.toNat c.toNat)
include hk

section
variable {q : Kill} (hq : mget s.host.kills k = some q)
include hq

theorem exec_killEngineStop_of_running (h : q.stopped = false) : exec (.killEngineStop p c) s = .next (settle (killStop s k)) := by
  simp only [exec_killEngineStop, execKillEngineStop, ← hk, hq, h, Bool.false_eq_true, if_false]

theorem exec_killRetirement_of_stopped (h : q.stopped = true) (hn : q.retiredAll = false) :
    exec (.killRetirement p c) s = .next (settle (killRetire s k q)) := by
  simp only [exec_killRetirement, execKillRetirement, ← hk, hq, h, hn, Bool.not_false, Bool.and_self, if_true]

theorem exec_killSummaryRecord_of_retired (h : q.retiredAll = true) :
    exec (.killSummaryRecord p c) s = .next (settle (objWaitDone (killEnd s k q) p.toNat)) := by
  simp only [exec_killSummaryRecord, execKillSummaryRecord, ← hk, hq, h, if_true]

end

theorem exec_contextWatchdog_of_bitten {x : Ctx} (hx : mget s.host.ctxs k = some x) (hl : x.live = true) (hw : x.wdSince.isSome)
    (ht : watchdogMs s x * 1000000 ≤ watchdogNow s x) : exec (.contextWatchdog p c) s = .next (settle (watchdogBites s k x)) := by
  simp only [exec_contextWatchdog, execContextWatchdog, ← hk, hx, hl, hw, ht, decide_true, Bool.and_self, if_true]

end

theorem exec_hang_of_request {n : BitVec 16} {s : State} {q : Nat × Nat} (h : hangRequest s n.toNat = some q) :
    exec (.hang n) s = .next (settle (raiseHang s n.toNat q)) := by
  simp only [exec_hang, execHang, h]

/-- The reset of an engine has ended. -/
def engineAwake (s : State) (e : Nat) : State :=
  setSched s { s.sched with resetting := s.sched.resetting.filter (fun x => x ≠ e) }

theorem not_mem_engineAwake (s : State) (e : Nat) : e ∉ (engineAwake s e).sched.resetting := by
  simp [engineAwake]

theorem exec_engineResetEnd_awake (n : BitVec 16) (s : State) : exec (.engineResetEnd n) s = .next (settle (engineAwake s n.toNat)) := by
  rw [exec_engineResetEnd, execEngineResetEnd, engineAwake]

/-- Settles O35: a kill's steps by how far it has come, the others by their equations. -/
theorem killCommandsComplete : Obligations.KillCommandsComplete := by
  refine ⟨fun p c s k hk => ⟨fun q hq => ⟨exec_killEngineStop_of_running hk hq, exec_killRetirement_of_stopped hk hq,
      exec_killSummaryRecord_of_retired hk hq⟩, fun x => exec_contextWatchdog_of_bitten hk⟩,
    fun n s => ⟨fun q => exec_hang_of_request, engineAwake s n.toNat, exec_engineResetEnd_awake n s,
      not_mem_engineAwake s n.toNat, setSched_frame s _⟩⟩

end Sys2Proof.Machine
end

section
/-! PROOFS. Slots, placement, time slices, virtual time and the accounts (12 R500 to R509, R543, R544). -/
namespace Sys2Proof.Machine

theorem exec_placement_next (n : BitVec 16) (s : State) :
    exec (.placement n) s = .next (noteConds (makeRoom (placeOn s n.toNat) n.toNat)) := by
  rw [exec_placement, execPlacement]

theorem exec_timeSlice_of_victim {n : BitVec 16} {s : State} {i : Nat} {v : WorkAt}
    (hi : bestIdx (victimRank s) (sliced s n.toNat) = some i) (hv : (sliced s n.toNat)[i]? = some v) :
    exec (.timeSlice n) s = .next (askStop s n.toNat v.ctx) := by
  simp only [exec_timeSlice, execTimeSlice, hi, hv, Option.bind_some]

section
variable {p : Part} {c : BitVec 16} {s : State} {k : Nat} (hk : k = okey p.toNat c.toNat)
include hk

section
variable (hw : wantsSlot s k = true)
include hw

theorem exec_slotEviction_of_free (hh : holdsSlot (takeSlot s k) k = true) :
    exec (.slotEviction p c) s = .next (noteConds (takeSlot s k)) := by
  simp only [exec_slotEviction, execSlotEviction, ← hk, hw, hh, Bool.not_true, Bool.false_eq_true, if_false, if_true]

theorem exec_slotEviction_of_victim {v : Nat} {x : Ctx} (hh : holdsSlot (takeSlot s k) k = false)
    (hv : easyVictim s k = some (v, x)) : exec (.slotEviction p c) s = .next (evictSlot s k v x) := by
  simp only [exec_slotEviction, execSlotEviction, ← hk, hw, hh, hv, Bool.not_true, Bool.false_eq_true, if_false]

theorem exec_slotRotation_of_victim {q : Ctx} {v : Nat} {x : Ctx} (hq : mget s.host.ctxs k = some q)
    (hh : holdsSlot (takeSlot s k) k = false) (he : easyVictim s k = none) (hv : rotateVictim s k q = some (v, x)) :
    exec (.slotRotation p c) s = .next (evictSlot s k v x) := by
  simp only [exec_slotRotation, execSlotRotation, ← hk, hq, hw, hh, he, hv, Bool.not_true, Option.isSome_none, Bool.or_self,
    Bool.false_eq_true, if_false]

end

section
variable {q : Ctx} (hq : mget s.host.ctxs k = some q) (kind : TimeKind) (ns : Nat)
include hq

theorem exec_virtualTimeUpdate_of_own :
    exec (.virtualTimeUpdate p c kind ns false) s = .next (charge (addVtime s k ns) k (timeField kind) ns) := by
  simp only [exec_virtualTimeUpdate, execVirtualTimeUpdate, ← hk, hq, Option.isNone_some, Bool.false_and, Bool.false_eq_true, if_false]

theorem exec_virtualTimeUpdate_of_step (hs : s.sched.serve.step.isSome) (hc : s.sched.serve.ctx = k) :
    exec (.virtualTimeUpdate p c kind ns true) s = .next (chargeRows (addVtime s k ns) (timeField kind) ns) := by
  simp only [exec_virtualTimeUpdate, execVirtualTimeUpdate, ← hk, hq, hs, hc, Option.isNone_some, Bool.and_self, decide_true,
    Bool.false_eq_true, if_false, if_true]

end

end

theorem exec_acctSel_of_not_recovery {p : Part} {v : Word32} {s u w : State} (hr : s.sec.recovery = false) (hu : u = hostTouch s)
    (hw : w = wr u (pkey p.toNat Reg.acctSel) (BitVec.ofNat 64 (v.toNat % 256))) :
    exec (.acctSel p v) s = .next (setSched w { w.sched with
      acctCopy := mset u.sched.acctCopy p.toNat (acctBytes (acctOf w p.toNat (v.toNat % 256))) }) := by
  have hs : w.sched = u.sched := by rw [hw, wr_sched]
  simp only [exec_acctSel, execAcctSel, hr, ← hu, ← hw, hs, Bool.false_eq_true, if_false]

/-- Settles O36: each command by its equation where its context or engine has it due. -/
theorem schedulingCommandsComplete : Obligations.SchedulingCommandsComplete :=
  ⟨fun n s => ⟨exec_placement_next n s, fun _ _ => exec_timeSlice_of_victim⟩,
    fun _ _ _ _ hk => ⟨exec_slotEviction_of_free hk, fun _ _ hw => exec_slotEviction_of_victim hk hw,
      fun _ _ _ hq hw => exec_slotRotation_of_victim hk hw hq,
      fun _ kind ns hq => ⟨exec_virtualTimeUpdate_of_own hk hq kind ns, exec_virtualTimeUpdate_of_step hk hq kind ns⟩⟩,
    fun _ _ _ _ _ => exec_acctSel_of_not_recovery⟩

end Sys2Proof.Machine
end

section
/-! PROOFS. The cadence unit and the gates and deadlines of plan nodes (12 R510 to R515). -/
namespace Sys2Proof.Machine

section
variable {s : State} {c : CadenceSt} (hc : s.sched.cadence = c)
include hc

/-! An edge of the input by the filter of glitches and the selected polarity. -/

theorem exec_cadenceInEdge_of_glitch (h : c.glitch = true) (r : Bool) (n : Nat) :
    exec (.cadenceInEdge r n) s = .next (setCad s { c with glitch := false }) := by
  simp only [exec_cadenceInEdge, execCadenceInEdge, hc, h, if_true]

theorem exec_cadenceInEdge_of_short (h : c.glitch = false) (r : Bool) {n : Nat} (hn : n < 100) :
    exec (.cadenceInEdge r n) s = .next (setCad s { c with glitch := true }) := by
  simp only [exec_cadenceInEdge, execCadenceInEdge, hc, h, hn, Bool.false_eq_true, if_false, if_true]

theorem exec_cadenceInEdge_of_selected (h : c.glitch = false) {r : Bool} {n : Nat} (hn : 100 ≤ n) (hs : selected s r = true) :
    exec (.cadenceInEdge r n) s = .next (takeEdge s) := by
  simp only [exec_cadenceInEdge, execCadenceInEdge, hc, h, Nat.not_lt.mpr hn, hs, Bool.false_eq_true, if_false, if_true]

theorem exec_cadenceInEdge_of_other (h : c.glitch = false) {r : Bool} {n : Nat} (hn : 100 ≤ n) (hs : selected s r = false) :
    exec (.cadenceInEdge r n) s = .next s := by
  simp only [exec_cadenceInEdge, execCadenceInEdge, hc, h, Nat.not_lt.mpr hn, hs, Bool.false_eq_true, if_false]

theorem exec_missingPulse_of_missed (h : c.edge = none) (hm : missed s s.dtime = true) : exec .missingPulse s = .next (missPulse s) := by
  simp only [exec_missingPulse, execMissingPulse, hc, h, hm, Option.isNone_none, Bool.and_self, if_true]

theorem exec_pulse_of_due {e : Nat} (h : c.edge = some e) (hd : due s e 100 = true) : exec .pulse s = .next (pulseAct s e) := by
  simp only [exec_pulse, execPulse, hc, h, hd, if_true]

theorem exec_phaseWrap_of_elapsed (h : c.locked = false) (he : cadPeriod s ≤ elapsed s c.t) : exec .phaseWrap s =
    .next (setCad s { c with t := (c.t + cadPeriod s) % 2 ^ 64, cycles := c.cycles + 1 }) := by
  simp only [exec_phaseWrap, execPhaseWrap, hc, h, he, Bool.not_false, decide_true, Bool.and_self, if_true]

end

theorem exec_gateOpen_of_open {s : State} {wid : Nat} {g : GateWait} (hg : mget s.sched.gates wid = some g)
    (ho : gateOpen s g = true) (ha : atGate s wid = true) : exec (.gateOpen wid) s = .next (settle (passGate (countDead s g) wid)) := by
  simp only [exec_gateOpen, execGateOpen, hg, ho, ha, Bool.and_self, if_true]

theorem exec_deadlineMiss_of_passed {s : State} {wid li : Nat} {l : Launch} {n : NodeSt} {d : Nat × Nat}
    (hf : findNode s wid = some (li, l, n)) (hd : n.deadline = some d) (ho : nodeOpen n = true) (hm : n.missed = false)
    (hp : deadlinePassed s d = true) : exec (.deadlineMiss wid) s = .next (countMiss s li l wid) := by
  simp only [exec_deadlineMiss, execDeadlineMiss, hf, hd, ho, hm, hp, Bool.not_false, Bool.and_self, if_true]

/-- Settles O37: an edge by the filter and its polarity, the others by their equations where they are due. -/
theorem cadenceCommandsComplete : Obligations.CadenceCommandsComplete :=
  fun _ _ hc => ⟨exec_cadenceInEdge_of_glitch hc, fun h r _ => exec_cadenceInEdge_of_short hc h r,
    fun h _ _ => exec_cadenceInEdge_of_selected hc h, fun h _ _ => exec_cadenceInEdge_of_other hc h,
    exec_missingPulse_of_missed hc, fun _ => exec_pulse_of_due hc,
    fun h he => ⟨_, exec_phaseWrap_of_elapsed hc h he, rfl, rfl, rfl⟩, fun _ _ => exec_gateOpen_of_open,
    fun _ _ _ _ _ => exec_deadlineMiss_of_passed⟩

end Sys2Proof.Machine
end

section
/-! PROOFS. Plans and their nodes (12 R524, R526, R528, R530). -/
namespace Sys2Proof.Machine

section
variable {p : Part} {i : BitVec 10} {s : State} {rk : Nat} {r : Ring} {e : Entry} (hk : rk = rkey p.toNat i.toNat)
include hk

theorem exec_planLoad_of_ready {ext : HostRead} {u v : State} {st k h c : Nat} (hr : readyPlan s p.toNat i.toNat 1 = some (r, e))
    (hl : loadPlan (dispatched s rk r e) p.toNat r.ctx e.desc ext = (u, st, k, h))
    (hp : planRecord u (entryOrigin rk r e) (plResult e.desc)
      (leBytes 2 st ++ leBytes 2 k ++ leBytes 4 h ++ leBytes 8 s.dtime ++ zeroBytes 48) = (v, c)) :
    exec (.planLoad p i ext) s = .next (settle (finish v e.wid c)) := by
  simp only [exec_planLoad, execPlanLoad, hr, ← hk, hl, hp]

theorem exec_planUnload_of_ready {u : State} (hr : readyPlan s p.toNat i.toNat 2 = some (r, e)) (hu : u = dispatched s rk r e) :
    exec (.planUnload p i) s = .next (settle (setSched u { u.sched with
      unloads := mset u.sched.unloads e.wid (p.toNat * 256 + bitsN (plHandle e.desc) 7 0) })) := by
  simp only [exec_planUnload, execPlanUnload, hr, ← hk, ← hu]

theorem exec_planLaunch_of_plan {slot : Nat} {q : Plan} (hr : readyPlan s p.toNat i.toNat 0 = some (r, e))
    (hq : findPlan s p.toNat (plHandle e.desc) = some (slot, q)) :
    exec (.planLaunch p i) s = .next (settle (startLaunch (dispatched s rk r e) slot e.wid q (entryOrigin rk r e)
      (ePayload e.bytes) (plResult e.desc) (e.desc.drop 64))) := by
  simp only [exec_planLaunch, execPlanLaunch, hr, ← hk, hq]

end

section
variable {wid li : Nat} {l : Launch} {n : NodeSt} {s : State} (hf : findNode s wid = some (li, l, n))
include hf

theorem atNode_of_other_step {step : NStep} (h : n.step ≠ step) (f : Nat → Launch → NodeSt → State) : atNode s wid step f = s := by
  simp [atNode, hf, h]

theorem atNode_of_step {step : NStep} (h : n.step = step) (hm : mayDispatch s l = true) (hn : mget s.host.finished wid = none)
    (f : Nat → Launch → NodeSt → State) : atNode s wid step f = f li l n := by
  simp [atNode, hf, h, hm, hn]

/-- A ready node takes neither its check nor its room again, and goes where no earlier node of its launch is ready. -/
theorem exec_nodeDispatch_of_first (h : n.step = .ready) (hm : mayDispatch s l = true) (hn : mget s.host.finished wid = none)
    (hb : ∀ m ∈ l.nodes.takeWhile (fun m => m.wid ≠ wid), m.step ≠ .ready) :
    exec (.nodeDispatch wid) s = .next (settle (dispatchNode s li l n)) := by
  have hfirst : (l.nodes.takeWhile (fun m => m.wid ≠ wid)).any (fun m => m.step = .ready) = false := by
    simpa only [List.any_eq_false, decide_eq_true_eq] using hb
  rw [exec_nodeDispatch, execNodeDispatch, atNode_of_other_step hf (by simp [h]), atNode_of_other_step hf (by simp [h]),
    atNode_of_step hf h hm hn, hfirst, if_neg Bool.false_ne_true]

theorem exec_nodeCompletion_of_finished {code : Nat} (hc : mget s.host.finished wid = some code) (ho : nodeOpen n = true) :
    exec (.nodeCompletion wid) s = .next (settle (completeNode s li l n code code)) := by
  simp only [exec_nodeCompletion, execNodeCompletion, hf, hc, ho, if_true]

end

/-- Settles O38: each PLAN entry by its command's equation at a ready entry, a node's steps at the node. -/
theorem planCommandsComplete : Obligations.PlanCommandsComplete :=
  ⟨fun _ _ _ _ _ _ hk => ⟨fun _ _ _ _ _ _ _ => exec_planLoad_of_ready hk, fun _ => exec_planUnload_of_ready hk,
      fun _ _ => exec_planLaunch_of_plan hk⟩,
    fun _ _ _ _ _ hf => ⟨exec_nodeDispatch_of_first hf, fun _ => exec_nodeCompletion_of_finished hf⟩⟩

end Sys2Proof.Machine
end

section
/-! PROOFS. The model object and serving (12 R532 to R541). -/
namespace Sys2Proof.Machine

/-- A model command whose condition no operand breaks takes effect. -/
theorem modelCommand_of_ready {s : State} {p i op : Nat} {r : Ring} {e : Entry} {cond : Ring → Entry → Option Nat}
    (hr : readyModel s p i op = some (r, e)) (hc : cond r e = none) (f : Ring → Entry → State) :
    modelCommand s p i op cond f = f r e := by
  simp only [modelCommand, hr, hc]

section
variable {p : Part} {i : BitVec 10} {s : State} {rk : Nat} {r : Ring} {e : Entry} (hk : rk = rkey p.toNat i.toNat)
include hk

theorem exec_modelCreate_of_free (hr : readyModel s p.toNat i.toNat 1 = some (r, e)) (hm : s.sched.model = false)
    (hf : ∀ k, k < mCount e.desc → (claimOf s (mFirst e.desc + k)).kind = .free) :
    exec (.modelCreate p i) s = .next (modelDone (createModel s (mFirst e.desc) (mCount e.desc) (mStrength e.desc)) rk r e) := by
  have hall : (List.range (mCount e.desc)).all (fun k => (claimOf s (mFirst e.desc + k)).kind = .free) = true := by
    simpa only [List.all_eq_true, List.mem_range, decide_eq_true_eq] using hf
  rw [exec_modelCreate, execModelCreate, ← hk, modelCommand_of_ready hr]
  simp only [hm, hall, Bool.false_eq_true, if_false, if_true]

theorem exec_modelLoad_of_fits (hr : readyModel s p.toNat i.toNat 2 = some (r, e)) (hm : modelHere s = true)
    (hl : s.sched.load = none) (hb : fAt e.desc 0x10 39 0 ≤ s.mem.modelCount * 2 ^ 30) :
    exec (.modelLoad p i) s = .next (startLoad s rk r e) := by
  rw [exec_modelLoad, execModelLoad, ← hk, modelCommand_of_ready hr]
  simp only [hm, hl, Nat.not_lt.mpr hb, Bool.not_true, Option.isSome_none, Bool.or_self, Bool.false_eq_true, if_false]

theorem exec_modelDestroy_of_idle (hr : readyModel s p.toNat i.toNat 3 = some (r, e)) (hm : modelHere s = true)
    (ha : s.sched.serve.active = false) : exec (.modelDestroy p i) s = .next (modelDone (destroyModel s) rk r e) := by
  rw [exec_modelDestroy, execModelDestroy, ← hk, modelCommand_of_ready hr]
  simp only [hm, ha, Bool.not_true, Bool.or_self, Bool.false_eq_true, if_false]

theorem exec_serveStart_of_allowed (hr : readyModel s p.toNat i.toNat 4 = some (r, e)) (hf : serveFault s e.desc = none) :
    exec (.serveStart p i) s = .next (modelDone (startServe s e.desc) rk r e) := by
  rw [exec_serveStart, execServeStart, ← hk, modelCommand_of_ready hr hf]

section
variable (hr : readyModel s p.toNat i.toNat 5 = some (r, e)) (ha : s.sched.serve.active = true)
include hr ha

theorem exec_serveStop_between_steps (hs : s.sched.serve.step = none) :
    exec (.serveStop p i) s = .next (modelDone (endSession s Cond.modelSwapped) rk r e) := by
  rw [exec_serveStop, execServeStop, ← hk, modelCommand_of_ready hr (if_pos ha)]
  simp only [hs, Option.isNone_none, if_true]

theorem exec_serveStop_in_step {u : State} (hu : u = dispatched s rk r e) (hs : s.sched.serve.step ≠ none) : exec (.serveStop p i) s =
    .next (settle (setServe u { u.sched.serve with stopping := some (u.sched.serve.stopping.getD e.wid) })) := by
  rw [exec_serveStop, execServeStop, ← hk, modelCommand_of_ready hr (if_pos ha)]
  simp only [← hu, Option.isNone_eq_false_iff.mpr (Option.isSome_iff_ne_none.mpr hs), Bool.false_eq_true, if_false]

end

theorem exec_request_of_accepted {u v : State} {q : Request} (hu : u = dispatched s rk r e)
    (hr : readyModel s p.toNat i.toNat 6 = some (r, e)) (ha : s.sched.serve.active = true)
    (hg : s.mem.grant.getLsbD p.toNat = true) (hb : ∀ off ∈ [0x08, 0x10, 0x18], inClaimOrHost s r.ctx (fAt e.desc off 47 0) = true)
    (hq : q = newRequest s (entryOrigin rk r e) e.desc) (hw : writeProgress u q 0 Progress.queued = (v, 0)) :
    exec (.request p i) s = .next (settle (setServe v { v.sched.serve with
      queues := mset v.sched.serve.queues p.toNat (mgetD v.sched.serve.queues p.toNat [] ++ [q]) })) := by
  have hnone : [0x08, 0x10, 0x18].find? (fun off => ! inClaimOrHost s r.ctx (fAt e.desc off 47 0)) = none := by
    rw [List.find?_eq_none]
    intro off ho
    rw [hb off ho]
    decide
  rw [exec_request, execRequest, ← hk, modelCommand_of_ready hr (by simp only [ha, hg, hnone, Bool.not_true, Bool.or_self,
    Bool.false_eq_true, if_false])]
  simp only [← hu, ← hq, hw, ne_eq, not_true_eq_false, if_false]

theorem exec_cancel_of_ready (hr : readyModel s p.toNat i.toNat 7 = some (r, e)) :
    exec (.cancel p i) s = .next (modelDone (cancelTag s p.toNat (rqTag e.desc)) rk r e) := by
  rw [exec_cancel, execCancel, ← hk, modelCommand_of_ready hr rfl]

end

section
variable {s u v : State} {l : ModelLoad} {c : Nat} (hl : s.sched.load = some l)
include hl

theorem exec_modelLoadEnd_of_ended (he : l.ended = true) (hu : u = setMem (setSched s { s.sched with
      modelGen := if s.sched.modelGen = 255 then 1 else s.sched.modelGen + 1, swapHeld := false, load := none })
      { s.mem with modelLive := true }) (hr : modelRecord u l.org l.result 0 = (v, c)) :
    exec .modelLoadEnd s = .next (settle (finish v l.org.wid c)) := by
  simp only [exec_modelLoadEnd, execModelLoadEnd, hl, he, ← hu, hr, Bool.not_true, Bool.false_eq_true, if_false]

theorem exec_modelSwapTimeout_of_due (hd : due s l.start (rdF s Reg.schedCfg 25 20 * 1000000000) = true)
    (hu : u = appendRec (dropLoad s l) (workRec s l.org Cond.waitTimeout Engine.gantry 0 0 (zeroBytes 8 ++ leBytes 8 l.written)))
    (hr : modelRecord u l.org l.result Cond.waitTimeout = (v, c)) :
    exec .modelSwapTimeout s = .next (settle (finish v l.org.wid Cond.waitTimeout)) := by
  simp only [exec_modelSwapTimeout, execModelSwapTimeout, hl, hd, ← hu, hr, Bool.not_true, Bool.false_eq_true, if_false]

end

theorem exec_stepBoundary_of_session {s u : State} {ext : HostRead} (ha : s.sched.serve.active = true)
    (hs : s.sched.serve.suspended = false) (hn : s.sched.serve.step = none) (hc : ctxLive s s.sched.serve.ctx = true)
    (hu : u = admitSeqs 64 (endDone (deliverTokens s)) ext) :
    exec (.stepBoundary ext) s = .next (settle (launchStep (fillRows (setServe u { u.sched.serve with rows := [] })))) := by
  simp only [exec_stepBoundary, execStepBoundary, ha, hs, hn, hc, ← hu, Bool.not_true, Option.isSome_none, Bool.or_self,
    Bool.false_eq_true, if_false]

/-- Settles O39: each MODEL entry by its command's equation at a ready entry that breaks no condition, the others where they are due. -/
theorem modelCommandsComplete : Obligations.ModelCommandsComplete :=
  ⟨fun _ _ _ _ _ _ _ hk hu => ⟨exec_modelCreate_of_free hk, exec_modelLoad_of_fits hk, exec_modelDestroy_of_idle hk,
      exec_serveStart_of_allowed hk, exec_serveStop_between_steps hk, fun hr ha => exec_serveStop_in_step hk hr ha hu,
      fun _ _ => exec_request_of_accepted hk hu, exec_cancel_of_ready hk⟩,
    fun _ _ _ _ _ hl => ⟨exec_modelLoadEnd_of_ended hl, exec_modelSwapTimeout_of_due hl⟩,
    fun _ _ _ => exec_stepBoundary_of_session⟩

end Sys2Proof.Machine
end

section
/-! PROOFS. The Crusher engines (13 R556, R558, R563). -/
namespace Sys2Proof.Machine

section
variable {p : Part} {i : BitVec 10} {s : State} {r : Ring} {e : Entry}

theorem exec_compress_of_ready (h : readyCrush s p.toNat i.toNat 0 = some (r, e)) :
    exec (.compress p i) s = .next (dispatchCrush s p.toNat i.toNat r e) := by
  rw [exec_compress, execCompress, h]

theorem exec_decompress_of_ready (h : readyCrush s p.toNat i.toNat 1 = some (r, e)) :
    exec (.decompress p i) s = .next (dispatchCrush s p.toNat i.toNat r e) := by
  rw [exec_decompress, execDecompress, h]

theorem exec_check_of_ready (h : readyCrush s p.toNat i.toNat 2 = some (r, e)) :
    exec (.check p i) s = .next (dispatchCrush s p.toNat i.toNat r e) := by
  rw [exec_check, execCheck, h]

end

/-- The next block of the engine is that of its best operation, which has then started. -/
theorem exec_crusherBlock_of_best {n : BitVec 1} {s : State} {k : Nat} {op q : CrushOp}
    (hb : bestIdx (crushRank s) (crushOn s n.toNat) = some k) (ho : (crushOn s n.toNat)[k]? = some op)
    (hq : q = { op with start := some (op.start.getD s.dtime) }) (ext : HostRead) (up : Bool) :
    exec (.crusherBlock n ext up) s = .next (settle (if q.kind = .compress then compressStep (updCrush s q) n.toNat q ext up
      else decodeStep (updCrush s q) n.toNat q ext)) := by
  subst hq
  simp only [exec_crusherBlock, execCrusherBlock, hb, ho, Option.bind_some]

theorem exec_crusherPreemption_of_asked {n : BitVec 1} {wid : Nat} {s : State} {op : CrushOp}
    (ho : (crushOn s n.toNat).find? (fun op => op.org.wid = wid) = some op)
    (ha : (Engine.crush n.toNat, wid) ∈ s.sched.stopOps ∨ (Engine.crush n.toNat, op.org.ctx) ∈ s.sched.stopCtx) :
    exec (.crusherPreemption n wid) s = .next (preemptCrush (stopMade s (Engine.crush n.toNat) wid) n.toNat op) := by
  have hasked : (s.sched.stopOps.contains (Engine.crush n.toNat, wid) ||
      s.sched.stopCtx.contains (Engine.crush n.toNat, op.org.ctx)) = true := by
    simpa only [Bool.or_eq_true, List.contains_iff_mem] using ha
  simp only [exec_crusherPreemption, execCrusherPreemption, ho, hasked, if_true]

/-- Settles O40: an entry by its command's equation, a block by the kind of its operation. -/
theorem crusherCommandsComplete : Obligations.CrusherCommandsComplete := by
  refine ⟨fun p i s r e => ⟨exec_compress_of_ready, exec_decompress_of_ready, exec_check_of_ready⟩,
    fun n ext up s k op q hb ho hq => ⟨fun h => ?compress, fun h => ?decode⟩, fun n wid s op => exec_crusherPreemption_of_asked⟩
  case compress => rw [exec_crusherBlock_of_best hb ho hq, if_pos h]
  case decode => rw [exec_crusherBlock_of_best hb ho hq, if_neg h]

end Sys2Proof.Machine
end

section
/-! PROOFS. The Mark units: fed and snooped messages, the burst stall, and the registers that claim a unit (13 R567 to R577). -/
namespace Sys2Proof.Machine

/-! What a message port takes and what leaves its queue, whatever the message. -/

section
variable {s : State} {u : Nat}

theorem markStep_of_room (h : (markOf s u).queue.length < 64) (k : MarkOpKind) (z v : Nat) :
    markStep s u k (some (z, v)) = queueMark s u { kind := k, size := min z 4, value := v } := by
  rw [markStep, if_pos h]

theorem markStep_of_front {o : MarkOp} {rest : List MarkOp} (h : (markOf s u).queue = o :: rest) :
    markStep s u o.kind none = markOp (setMark s u { markOf s u with queue := rest }) u o := by
  simp only [markStep, h, if_true]

end

theorem exec_snoopedMessage_of_piece {n : BitVec 3} {s : State} {u : Nat} (hu : u = 16 + n.toNat) {e : MarkPiece}
    {rest : List MarkPiece} (h : (markOf s u).pieces = e :: rest) :
    exec (.snoopedMessage n) s = .next (snoopPiece (setMark s u { markOf s u with pieces := rest }) u e) := by
  simp only [exec_snoopedMessage, execSnoopedMessage, ← hu, h]

theorem exec_markStall_of_due {n : BitVec 3} {s t : State} {u : Nat} (hu : u = 16 + n.toNat) {q : CrcParams}
    (hq : unitParams s u = some q) (ho : runOpen s u = true) (hp : (markOf s u).pieces = []) (hs : stallHeld s u = false)
    (hd : due s (markOf s u).byteAt (rdF s Reg.markCfg 13 0 * 1000) = true)
    (ht : t = dropMsg (markEvent s u 3 Cond.burstStall
      (markDetail s u (crcResult q (runCrc s u)) 0 ((markOf s u).alive.getD 0) (runLast s u))) u q) :
    exec (.markStall n) s = .next (setMark t u { markOf t u with ignoring := true }) := by
  simp only [exec_markStall, execMarkStall, ← hu, hq, ho, hp, hs, hd, ← ht, List.isEmpty_nil, Bool.not_false, Bool.and_self, if_true]

section
variable {n : BitVec 5} {s u : State} (hr : s.sec.recovery = false) (hu : u = hostTouch s)
include hr hu

section
variable {p : Part} (v : Word) (ha : markReach u p.toNat n.toNat = true)
include ha

theorem exec_markRun_of_idle (hi : (n.toNat < 16 ∧ (markOf u n.toNat).queue = []) ∨ (16 ≤ n.toNat ∧ rdF u (Reg.markCtl n.toNat) 0 0 = 0)) :
    exec (.markRun p n v) s = .next (wr u (Reg.markRun n.toNat) (BitVec.ofNat 64 (wbits v 49 0))) := by
  have hidle : ((decide (n.toNat < 16) && (markOf u n.toNat).queue.isEmpty) ||
      (decide (16 ≤ n.toNat) && decide (rdF u (Reg.markCtl n.toNat) 0 0 = 0))) = true := by
    simpa only [Bool.or_eq_true, Bool.and_eq_true, decide_eq_true_eq, List.isEmpty_iff] using hi
  simp only [exec_markRun, execMarkRun, hr, ← hu, ha, hidle, Bool.not_true, Bool.false_eq_true, if_false, if_true]

theorem exec_markRun_of_busy (hb : (n.toNat < 16 ∧ (markOf u n.toNat).queue ≠ []) ∨ (16 ≤ n.toNat ∧ rdF u (Reg.markCtl n.toNat) 0 0 ≠ 0)) :
    exec (.markRun p n v) s = .next (wrF u (Reg.markUnitStatus n.toNat) 10 10 1) := by
  have hbusy : ¬ ((decide (n.toNat < 16) && (markOf u n.toNat).queue.isEmpty) ||
      (decide (16 ≤ n.toNat) && decide (rdF u (Reg.markCtl n.toNat) 0 0 = 0))) = true := by
    simp only [Bool.or_eq_true, Bool.and_eq_true, decide_eq_true_eq, List.isEmpty_iff]
    rintro (⟨hn, hq⟩ | ⟨hn, hc⟩)
    · exact hb.elim (fun h => h.2 hq) (fun h => absurd h.1 (Nat.not_le.mpr hn))
    · exact hb.elim (fun h => absurd h.1 (Nat.not_lt.mpr hn)) (fun h => h.2 hc)
  simp only [exec_markRun, execMarkRun, hr, ← hu, ha, hbusy, Bool.not_true, Bool.false_eq_true, if_false]

end

section
variable {v : Word32} {a : Nat} (hv : a = v.toNat % 2 ^ 24) (hl : 16 ≤ n.toNat) (hh : n.toNat < 24)
  (hc : rdF u (Reg.markCtl n.toNat) 0 0 = 0)
include hv hl hh hc

/-- The attachment of a snooping unit that is off is judged. -/
theorem exec_markAttach_of_off : exec (.markAttach n v) s = .next (if attachOk u n.toNat a then
    wr u (Reg.markAttach n.toNat) (BitVec.ofNat 64 a)
    else wrF (wr u (Reg.markAttach n.toNat) (BitVec.ofNat 64 (a - a % 8))) (Reg.markUnitStatus n.toNat) 9 9 1) := by
  have hoff : (decide (n.toNat < 16) || decide (24 ≤ n.toNat) || decide (rdF u (Reg.markCtl n.toNat) 0 0 = 1)) = false := by
    simp [hc, hl, hh]
  simp only [exec_markAttach, execMarkAttach, hr, ← hu, ← hv, hoff, Bool.false_eq_true, if_false]
  rw [apply_ite Host.Outcome.next]

theorem exec_markAttach_of_allowed (ha : attachOk u n.toNat a = true) :
    exec (.markAttach n v) s = .next (wr u (Reg.markAttach n.toNat) (BitVec.ofNat 64 a)) := by
  rw [exec_markAttach_of_off hr hu hv hl hh hc, if_pos ha]

theorem exec_markAttach_of_refused (ha : attachOk u n.toNat a = false) : exec (.markAttach n v) s =
    .next (wrF (wr u (Reg.markAttach n.toNat) (BitVec.ofNat 64 (a - a % 8))) (Reg.markUnitStatus n.toNat) 9 9 1) := by
  rw [exec_markAttach_of_off hr hu hv hl hh hc, if_neg (Bool.eq_false_iff.mp ha)]

end

section
variable {v : Word32} {g : Nat} (hg : g = v.toNat % 2 ^ 31)
include hg

theorem exec_markGrant_of_snooping (hl : 16 ≤ n.toNat) (hh : n.toNat < 24) :
    exec (.markGrant n v) s = .next (wr u (Reg.markGrant n.toNat) (BitVec.ofNat 64 (g % 32))) := by
  simp only [exec_markGrant, execMarkGrant, hr, ← hu, ← hg, Nat.not_le.mpr hh, hl, Bool.false_eq_true, if_false, if_true]

/-- The grant of a fed unit is judged by the claim that its page lies in. -/
theorem exec_markGrant_of_fed (hn : n.toNat < 16) {c : Claim} (hc : c = claimOf u (bitsN g 30 6 * 4096 / 2 ^ 30)) :
    exec (.markGrant n v) s = .next (if c.kind = .priv ∧ c.owner = g % 32 then wr u (Reg.markGrant n.toNat) (BitVec.ofNat 64 g)
      else wrF u (Reg.markUnitStatus n.toNat) 9 9 1) := by
  have h24 : ¬ 24 ≤ n.toNat := by omega
  simp only [exec_markGrant, execMarkGrant, hr, ← hu, ← hg, ← hc, h24, Nat.not_le.mpr hn, Bool.false_eq_true, if_false,
    Bool.and_eq_true, decide_eq_true_eq]
  rw [apply_ite Host.Outcome.next]

end

end

/-- Settles O41: the five messages by what every port does, the registers by whether the unit may be claimed. -/
theorem markCommandsComplete : Obligations.MarkCommandsComplete := by
  refine ⟨fun n s => ⟨fun z v h o ho => ?queued, fun o rest h t ht => ?taken⟩,
    fun n s u hu => ⟨fun e rest => exec_snoopedMessage_of_piece hu, fun q t => exec_markStall_of_due hu⟩,
    fun n s u hr hu => ⟨fun p v ha => ⟨exec_markRun_of_idle hr hu v ha, exec_markRun_of_busy hr hu v ha⟩,
      fun v a hv hl hh hc => ⟨exec_markAttach_of_allowed hr hu hv hl hh hc, exec_markAttach_of_refused hr hu hv hl hh hc⟩,
      fun v g hg => ⟨exec_markGrant_of_snooping hr hu hg, fun hn c hc => ⟨fun hk hw => ?granted, fun h => ?refused⟩⟩⟩⟩
  case queued =>
    have step (k : MarkOpKind) : markStep s n.toNat k (some (z, v)) = queueMark s n.toNat (o k) := by
      rw [markStep_of_room h, ho]
    simp only [exec_feed, exec_alive, exec_markEnd, exec_endNocheck, exec_markRestart, execFeed, execAlive, execMarkEnd, execEndNocheck,
      execMarkRestart, step, and_self]
  case taken =>
    have step {k : MarkOpKind} (hk : o.kind = k) : markStep s n.toNat k none = t := by rw [ht, ← markStep_of_front h, hk]
    refine ⟨fun hk => ?_, fun hk => ?_, fun hk => ?_, fun hk => ?_, fun hk => ?_⟩
    · rw [exec_feed, execFeed, step hk]
    · rw [exec_alive, execAlive, step hk]
    · rw [exec_markEnd, execMarkEnd, step hk]
    · rw [exec_endNocheck, execEndNocheck, step hk]
    · rw [exec_markRestart, execMarkRestart, step hk]
  case granted => rw [exec_markGrant_of_fed hr hu hg hn hc, if_pos ⟨hk, hw⟩]
  case refused => rw [exec_markGrant_of_fed hr hu hg hn hc, if_neg (not_and_or.mpr h)]

end Sys2Proof.Machine
end

section
/-! PROOFS. Flits, the retry buffer, the lanes and training of a link port (14 R583 to R587, R607; 17 R692). -/
namespace Sys2Proof.Machine

/-! A flit that an UP port receives, by its check and its kind. -/

section
variable {n : BitVec 2} {s : State} (hs : portState s n.toNat = portUp) {b bytes : List Byte} (hb : b = padTo 256 bytes)
include hs hb

theorem exec_flit_of_broken (h : crcOf crcFlit (b.take 248) ≠ fieldAt b 248 8) : exec (.flit n bytes) s = .next (emitNak s n.toNat) := by
  simp only [exec_flit, execFlit, hs, ← hb, h, ne_eq, not_true_eq_false, not_false_eq_true, if_false, if_true]

section
variable (hc : crcOf crcFlit (b.take 248) = fieldAt b 248 8)
include hc

section
variable (hk : fieldAt b 0 2 / 4096 = 0)
include hk

theorem exec_flit_of_next (hq : fieldAt b 0 2 % 4096 = (portOf s n.toNat).rxNext) :
    exec (.flit n bytes) s = .next (acceptFlit s n.toNat b) := by
  simp only [exec_flit, execFlit, hs, ← hb, hc, hk, hq, ne_eq, not_true_eq_false, if_false, if_true]

theorem exec_flit_of_other (hq : fieldAt b 0 2 % 4096 ≠ (portOf s n.toNat).rxNext) :
    exec (.flit n bytes) s = .next (emitNak s n.toNat) := by
  simp only [exec_flit, execFlit, hs, ← hb, hc, hk, hq, ne_eq, not_true_eq_false, if_false, if_true]

end

theorem exec_flit_of_ack (hk : fieldAt b 0 2 / 4096 = 1) :
    exec (.flit n bytes) s = .next (takeAck s n.toNat (fieldAt b 2 2 % 4096)) := by
  simp only [exec_flit, execFlit, hs, ← hb, hc, hk, ne_eq, not_true_eq_false, one_ne_zero, if_false, if_true]

theorem exec_flit_of_nak (hk : fieldAt b 0 2 / 4096 = 2) :
    exec (.flit n bytes) s = .next (resend (takeAck s n.toNat ((fieldAt b 2 2 + 4095) % 4096)) n.toNat) := by
  have h21 : ¬ (2 : Nat) = 1 := by decide
  simp only [exec_flit, execFlit, hs, ← hb, hc, hk, h21, ne_eq, not_true_eq_false, two_ne_zero, if_false, if_true]

end

end

section
variable {n : BitVec 2} {s : State} {q : PortSt} (hq : q = portOf s n.toNat)
include hq

section
variable (hs : portState s n.toNat = portUp)
include hs

theorem exec_retryTimeout_of_due (hu : q.unacked ≠ []) (hd : due s q.ackAt (rdF s Reg.linkCfg 9 0) = true) :
    exec (.retryTimeout n) s = .next (resend s n.toNat) := by
  simp only [exec_retryTimeout, execRetryTimeout, ← hq, hs, hd, List.isEmpty_eq_false_iff.mpr hu, decide_true, Bool.not_false,
    Bool.and_self, if_true]

theorem exec_symbolErrorWindow_of_due (errs : List Nat) (hd : due s q.winAt 1000000 = true) : exec (.symbolErrorWindow n errs) s =
    .next (judgeLanes (setPort s n.toNat { q with winAt := s.dtime }) n.toNat
      ((dataLanes s n.toNat).filter (fun i => rdF s Reg.linkCfg 41 34 ≤ lget errs i 0))) := by
  simp only [exec_symbolErrorWindow, execSymbolErrorWindow, ← hq, hs, hd, decide_true, Bool.and_self, if_true]

end

theorem exec_training_of_wanted (hw : q.want = true) (he : rdF s (Reg.linkPortCtl n.toNat) 0 0 = 1) : exec (.training n) s =
    .next (setPortState (setPort s n.toNat { q with
      want := false, again := decide (portState s n.toNat = portUp), step := .t1, trainAt := s.dtime }) n.toNat portTraining) := by
  simp only [exec_training, execTraining, ← hq, hw, he, decide_true, Bool.and_self, if_true]

/-! Training, step by step. -/

section
variable (hs : portState s n.toNat = portTraining)
include hs

section
variable (ht : q.step = .t1) (lanes : BitVec 9)
include ht

theorem exec_prbs31Test_of_few (h : ((List.range 9).filter (fun i => lanes.getLsbD i)).length < 4) :
    exec (.prbs31Test n lanes) s = .next (portDown s n.toNat) := by
  simp only [exec_prbs31Test, execPrbs31Test, ← hq, hs, ht, h, ne_eq, not_true_eq_false, decide_false, Bool.or_self,
    Bool.false_eq_true, if_false, if_true]

theorem exec_prbs31Test_of_enough (h : 4 ≤ ((List.range 9).filter (fun i => lanes.getLsbD i)).length) :
    exec (.prbs31Test n lanes) s = .next (setPort s n.toNat { q with step := .t2, good := lanes.toNat }) := by
  simp only [exec_prbs31Test, execPrbs31Test, ← hq, hs, ht, Nat.not_lt.mpr h, ne_eq, not_true_eq_false, decide_false, Bool.or_self,
    Bool.false_eq_true, if_false]

end

section
variable (ht : q.step = .t2) (id : BitVec 3)
include ht

theorem exec_deviceIdExchange_of_own (h : id.toNat = ownId s) : exec (.deviceIdExchange n id) s =
    .next (setPortState (setPort s n.toNat { q with step := .none }) n.toNat portConflict) := by
  simp only [exec_deviceIdExchange, execDeviceIdExchange, ← hq, hs, ht, h, ne_eq, not_true_eq_false, decide_false, Bool.or_self,
    Bool.false_eq_true, if_false, if_true]

theorem exec_deviceIdExchange_of_peer (h : id.toNat ≠ ownId s) : exec (.deviceIdExchange n id) s =
    .next (setPort s n.toNat { q with step := .t3, ident := id.toNat }) := by
  simp only [exec_deviceIdExchange, execDeviceIdExchange, ← hq, hs, ht, h, ne_eq, not_true_eq_false, decide_false, Bool.or_self,
    Bool.false_eq_true, if_false]

end

theorem exec_trainingDone_of_last_step {u : State} (ht : q.step = .t3) (last : BitVec 12) {rest : List Flit}
    (hr : rest = if q.unacked.any (fun f => f.seq = last.toNat) then (q.unacked.dropWhile (fun f => f.seq ≠ last.toNat)).drop 1
      else q.unacked) (hu : u = wrF (trainedStatus s n.toNat) (Reg.linkPortCtl n.toNat) 1 1 0) :
    exec (.trainingDone n last) s = .next (pump (rest.foldl (fun s f => emitFlit s n.toNat f) (setPort u n.toNat { q with
      step := .none, again := false, unacked := rest, rounds := 0, ackAt := s.dtime, winAt := s.dtime,
      txSeq := if rest = [] then (last.toNat + 1) % 4096 else q.txSeq })) n.toNat) := by
  simp only [exec_trainingDone, execTrainingDone, ← hq, hs, ht, ← hr, ← hu, List.isEmpty_iff, ne_eq, not_true_eq_false, decide_false,
    Bool.or_self, Bool.false_eq_true, if_false]

theorem exec_trainingTimeout_of_due (ha : q.again = true) (hd : due s q.trainAt 10000000 = true) :
    exec (.trainingTimeout n) s = .next (portDown s n.toNat) := by
  simp only [exec_trainingTimeout, execTrainingTimeout, ← hq, hs, ha, hd, decide_true, Bool.and_self, if_true]

end

end

theorem exec_portDisable_of_not_recovery {n : BitVec 2} {s u : State} (hr : s.sec.recovery = false) (hu : u = hostTouch s) :
    exec (.portDisable n) s = .next (dropPort (wrF u (Reg.linkPortCtl n.toNat) 0 0 0) n.toNat) := by
  simp only [exec_portDisable, execPortDisable, hr, ← hu, Bool.false_eq_true, if_false]

/-- Every enabled port goes DOWN with the reference clock. -/
theorem exec_blRefclkLoss_next (s : State) : exec .blRefclkLoss s = .next ([0, 1, 2, 3].foldl (fun s p =>
    if rdF s (Reg.linkPortCtl p) 0 0 = 1 ∧ portState s p ≠ portDownCode then portDown s p else s) s) := by
  simp only [exec_blRefclkLoss, execBlRefclkLoss, Bool.and_eq_true, decide_eq_true_eq]

/-- Settles O42: a flit by its check and its kind, training by its step, the others where they are due. -/
theorem linkPortCommandsComplete : Obligations.LinkPortCommandsComplete := by
  refine ⟨fun n s q hq hs => ⟨fun b bytes k hb hk => ?flit, exec_retryTimeout_of_due hq hs, exec_symbolErrorWindow_of_due hq hs⟩,
    fun n s u q hq => ⟨exec_training_of_wanted hq,
      fun hs ht lanes => ⟨exec_prbs31Test_of_few hq hs ht lanes, exec_prbs31Test_of_enough hq hs ht lanes⟩,
      fun hs ht id => ⟨exec_deviceIdExchange_of_own hq hs ht id, exec_deviceIdExchange_of_peer hq hs ht id⟩,
      fun hs ht last rest => exec_trainingDone_of_last_step hq hs ht last, exec_trainingTimeout_of_due hq⟩,
    fun n s u => exec_portDisable_of_not_recovery, exec_blRefclkLoss_next⟩
  case flit =>
    subst hk hq
    exact ⟨exec_flit_of_broken hs hb, fun hc => ⟨exec_flit_of_next hs hb hc, exec_flit_of_other hs hb hc, exec_flit_of_ack hs hb hc,
      exec_flit_of_nak hs hb hc⟩⟩

end Sys2Proof.Machine
end

section
/-! PROOFS. The messages that a port delivers to this device, their timeouts and stalls, and the drop of imports (14 R592 to R606). -/
namespace Sys2Proof.Machine

/-! A message goes to its meaning where it names this device, and on to another otherwise. -/

section
variable {s u : State} {p op : Nat} {m : List Byte} (hm : nextMsg s p op = some (m, u))
include hm

theorem onMsg_of_own (hd : mDest m = ownId u) (f : List Byte → State → State) : onMsg s p op f = f m u := by
  simp only [onMsg, hm, hd, if_true]

theorem onMsg_of_other (hd : mDest m ≠ ownId u) (f : List Byte → State → State) : onMsg s p op f = forward u m := by
  simp only [onMsg, hm, hd, if_false]

end

/-- A reply that is awaited, and whose work is live, has its effect. -/
theorem onReply_of_awaited {m : List Byte} {u : State} {r : LinkReq} (hr : mget u.link.reqs (mTag m) = some r)
    (hl : r.kind = .imp ∨ ctxLive u r.org.ctx = true) (f : Nat → LinkReq → State) : onReply m u f = f (mTag m) r := by
  have hlive : (decide (r.kind = .imp) || ctxLive u r.org.ctx) = true := by
    simpa only [Bool.or_eq_true, decide_eq_true_eq] using hl
  simp only [onReply, hr, hlive, if_true]

section
variable {n : BitVec 2} {s u : State} {m : List Byte}

section
variable (hd : mDest m = ownId u)
include hd

theorem exec_read_of_own (h : nextMsg s n.toNat opRead = some (m, u)) : exec (.read n) s = .next (serveReadMsg m u) := by
  rw [exec_read, execRead, onMsg_of_own h hd]

theorem exec_write_of_own (h : nextMsg s n.toNat opWrite = some (m, u)) : exec (.write n) s = .next (serveWriteMsg n.toNat m u) := by
  rw [exec_write, execWrite, onMsg_of_own h hd]

theorem exec_importMsg_of_own (h : nextMsg s n.toNat opImport = some (m, u)) : exec (.importMsg n) s = .next (serveImport m u) := by
  rw [exec_importMsg, execImportMsg, onMsg_of_own h hd]

theorem exec_releaseMessage_of_own (h : nextMsg s n.toNat opRelease = some (m, u)) :
    exec (.releaseMessage n) s = .next (serveRelease m u) := by
  rw [exec_releaseMessage, execReleaseMessage, onMsg_of_own h hd]

section
variable {r : LinkReq} (hr : mget u.link.reqs (mTag m) = some r) (hl : r.kind = .imp ∨ ctxLive u r.org.ctx = true)
include hr hl

theorem exec_readReply_of_refused (h : nextMsg s n.toNat opReadReply = some (m, u)) (hs : mStatus m ≠ 0) :
    exec (.readReply n) s = .next (failReq u (mTag m) r (.refused (mStatus m))) := by
  rw [exec_readReply, execReadReply, onMsg_of_own h hd, onReply_of_awaited hr hl, if_pos hs]

theorem exec_readReply_of_core (h : nextMsg s n.toNat opReadReply = some (m, u)) {c g t th : Nat} (hs : mStatus m = 0)
    (hk : r.kind = .coreRead c g t th) :
    exec (.readReply n) s = .next (deliverRead (delReq u (mTag m)) c g t th (padTo r.n (mData m))) := by
  rw [exec_readReply, execReadReply, onMsg_of_own h hd, onReply_of_awaited hr hl, if_neg (not_not.mpr hs), hk]

theorem exec_writeAck_of_refused (h : nextMsg s n.toNat opWriteAck = some (m, u)) (hs : mStatus m ≠ 0) :
    exec (.writeAck n) s = .next (failReq u (mTag m) r (.refused (mStatus m))) := by
  rw [exec_writeAck, execWriteAck, onMsg_of_own h hd, onReply_of_awaited hr hl, if_pos hs]

theorem exec_writeAck_of_done (h : nextMsg s n.toNat opWriteAck = some (m, u)) (hs : mStatus m = 0) :
    exec (.writeAck n) s = .next (delReq u (mTag m)) := by
  rw [exec_writeAck, execWriteAck, onMsg_of_own h hd, onReply_of_awaited hr hl, if_neg (not_not.mpr hs)]

theorem exec_importReply_of_awaited (h : nextMsg s n.toNat opImportReply = some (m, u)) :
    exec (.importReply n) s = .next (delReq u (mTag m)) := by
  rw [exec_importReply, execImportReply, onMsg_of_own h hd, onReply_of_awaited hr hl]

theorem exec_stalled_of_awaited (h : nextMsg s n.toNat opStalled = some (m, u)) :
    exec (.stalled n) s = .next (resendReq u (mTag m) r) := by
  rw [exec_stalled, execStalled, onMsg_of_own h hd, onReply_of_awaited hr hl]

end

end

section
variable (hd : mDest m ≠ ownId u)
include hd

theorem exec_read_of_other (h : nextMsg s n.toNat opRead = some (m, u)) : exec (.read n) s = .next (forward u m) := by
  rw [exec_read, execRead, onMsg_of_other h hd]

theorem exec_write_of_other (h : nextMsg s n.toNat opWrite = some (m, u)) : exec (.write n) s = .next (forward u m) := by
  rw [exec_write, execWrite, onMsg_of_other h hd]

end

end

theorem exec_remoteTimeout_of_due {tag : Word32} {s : State} {r : LinkReq} (hr : mget s.link.reqs tag.toNat = some r)
    (hd : due s r.sentAt (rdF s Reg.linkCfg 33 20 * 100000) = true) : exec (.remoteTimeout tag) s =
      .next (failReq (bump32 s Reg.linkTimeoutCount Reg.linkStatus 4 1) tag.toNat r .remoteTimeout) := by
  simp only [exec_remoteTimeout, execRemoteTimeout, hr, hd, if_true]

theorem exec_burstStall_of_old {n : BitVec 2} {vc : BitVec 3} {s u : State} {q : PortSt} {old : Burst → Bool} {b : Burst}
    (hq : q = portOf s n.toNat)
    (ho : ∀ b, old b = (decide (b.vc = vc.toNat) && ! b.dead && due s b.since (rdF s Reg.linkCfg 19 10 * 1000)))
    (hb : q.bursts.find? old = some b)
    (hu : u = setPort s n.toNat { q with bursts := lset q.bursts (q.bursts.findIdx old) { b with dead := true, bytes := [] } }) :
    exec (.burstStall n vc) s = .next (answerStall (appendRec (bump32 u Reg.linkStallCount Reg.linkStatus 2 1)
      (plainRec u Cond.burstStall (Engine.link n.toNat) 0 flagInfo 0 [])) b.bytes) := by
  obtain rfl : old = fun b => decide (b.vc = vc.toNat) && ! b.dead && due s b.since (rdF s Reg.linkCfg 19 10 * 1000) := funext ho
  simp only [exec_burstStall, execBurstStall, ← hq, hb, ← hu]

theorem exec_linkImportDrop_of_not_recovery {v : Word32} {s u : State} (hr : s.sec.recovery = false) (hu : u = hostTouch s) :
    exec (.linkImportDrop v) s = .next (releaseImports u (fun i => i.src = v.toNat % 8)) := by
  simp only [exec_linkImportDrop, execLinkImportDrop, hr, ← hu, Bool.false_eq_true, if_false]

/-- Settles O43: a message by whom it names, a reply by what it answers. -/
theorem linkMessageCommandsComplete : Obligations.LinkMessageCommandsComplete := by
  refine ⟨fun n s u m hd => ⟨exec_read_of_own hd, exec_write_of_own hd, exec_importMsg_of_own hd, exec_releaseMessage_of_own hd,
      fun r hr hl => ⟨fun h => ⟨exec_readReply_of_refused hd hr hl h, fun c g t th => exec_readReply_of_core hd hr hl h⟩,
        fun h => ⟨exec_writeAck_of_refused hd hr hl h, exec_writeAck_of_done hd hr hl h⟩,
        exec_importReply_of_awaited hd hr hl, exec_stalled_of_awaited hd hr hl⟩⟩,
    fun n s u m op h hd => ⟨?read, ?write⟩, fun tag s r => exec_remoteTimeout_of_due,
    fun n vc s u q old b => exec_burstStall_of_old, fun v s u => exec_linkImportDrop_of_not_recovery⟩
  case read => rintro rfl; exact exec_read_of_other hd h
  case write => rintro rfl; exact exec_write_of_other hd h

end Sys2Proof.Machine
end

section
/-! PROOFS. The haul of a firmware image over the link (14 R604; 16 R670). -/
namespace Sys2Proof.Machine

section
variable {v : Word32} {s u w : State} (hr : s.sec.recovery = false) (hu : u = hostTouch s)
  (hw : w = wrF (wrF u Reg.fwHaul 1 1 (bitsN v.toNat 1 1)) Reg.fwHaul 3 2 (bitsN v.toNat 3 2))
include hr hu hw

theorem exec_fwHaulEnable_of_clear (h : bitsN v.toNat 0 0 = 0) : exec (.fwHaulEnable v) s = .next (haulOff w) := by
  simp only [exec_fwHaulEnable, execFwHaulEnable, hr, ← hu, ← hw, h, Bool.false_eq_true, if_false, if_true]

section
variable (h : bitsN v.toNat 0 0 = 1)
include h

theorem exec_fwHaulEnable_of_start (ho : haulOn w = false) : exec (.fwHaulEnable v) s =
    .next (askBlock (setHaulState (wrF w Reg.fwHaul 0 0 1) 1) { block := 0, tries := 0, at_ := u.dtime, bytes := [] }) := by
  simp only [exec_fwHaulEnable, execFwHaulEnable, hr, ← hu, ← hw, h, ho, one_ne_zero, Bool.not_false, Bool.false_eq_true, if_false,
    if_true]

theorem exec_fwHaulEnable_of_running (ho : haulOn w = true) : exec (.fwHaulEnable v) s = .next w := by
  simp only [exec_fwHaulEnable, execFwHaulEnable, hr, ← hu, ← hw, h, ho, one_ne_zero, Bool.not_true, Bool.false_eq_true, if_false]

end

end

theorem exec_haulRequestTimer_of_due {s : State} {h : Haul} (hh : s.sec.haul = some h) (ho : haulOn s = true) (hb : h.block = 0)
    (he : h.bytes = []) (hd : due s h.at_ 10000000 = true) : exec .haulRequestTimer s = .next (askBlock s h) := by
  simp only [exec_haulRequestTimer, execHaulRequestTimer, hh, ho, hb, he, hd, List.isEmpty_nil, decide_true, Bool.and_self, if_true]

section
variable {n : BitVec 2} {s u : State} {m : List Byte}

theorem exec_haulReq_of_own (h : nextMsg s n.toNat opHaulReq = some (m, u)) (hd : mDest m = ownId u) :
    exec (.haulReq n) s = .next (serveHaul n.toNat m u) := by
  rw [exec_haulReq, execHaulReq, onMsg_of_own h hd]

theorem exec_haulBlock_of_own (h : nextMsg s n.toNat opHaulBlock = some (m, u)) (hd : mDest m = ownId u) :
    exec (.haulBlock n) s = .next (takeBlock m u) := by
  rw [exec_haulBlock, execHaulBlock, onMsg_of_own h hd]

end

/-- Settles O48: the write of FW_HAUL by its ENABLE and by whether a haul runs, the messages as any that name this device. -/
theorem haulCommandsComplete : Obligations.HaulCommandsComplete :=
  ⟨fun _ _ _ _ hr hu hw => ⟨exec_fwHaulEnable_of_clear hr hu hw, exec_fwHaulEnable_of_start hr hu hw,
      exec_fwHaulEnable_of_running hr hu hw⟩,
    fun _ _ => exec_haulRequestTimer_of_due, fun _ _ _ _ => exec_haulReq_of_own, fun _ _ _ _ => exec_haulBlock_of_own⟩

end Sys2Proof.Machine
end

section
/-! PROOFS. The power states: requests, the handshake, entry, exit and the wake (15 R611 to R625). -/
namespace Sys2Proof.Machine

/-- The device as an accepted request for state `n` leaves it, before the work that a forced one kills. -/
theorem requestState_of_accepted {u v w : State} {f : Bool} {n : Nat} (hq : u.power.req = none) (hp : pwrState u < 2)
    (hv : v = wrF (wrF (leaveA1 u) Reg.pwrCtl 2 0 n) Reg.pwrCtl 3 3 (b2n f)) (hr : (refusers v).filter (fun k => ! f || k = 4) = [])
    (hw : w = wrF (pwrResult (setPower v { v.power with req := some { target := n, at_ := v.dtime, commitAt := none } }) 1 0 0)
      Reg.pwrCtl 31 31 1) : requestState u n f = if f then killWork w else w := by
  simp only [requestState, hq, Nat.not_le.mpr hp, ← hv, hr, ← hw, List.isEmpty_nil, Option.isSome_none, decide_false, Bool.or_self,
    Bool.false_eq_true, if_false, if_true]

section
variable (f : Bool) {s u : State} (hr : s.sec.recovery = false) (hu : u = hostTouch s)
include hr hu

theorem exec_a2Request_of_not_recovery : exec (.a2Request f) s = .next (requestState u 2 f) := by
  simp only [exec_a2Request, execA2Request, hr, ← hu, Bool.false_eq_true, if_false]

theorem exec_a3Request_of_not_recovery : exec (.a3Request f) s = .next (requestState u 3 f) := by
  simp only [exec_a3Request, execA3Request, hr, ← hu, Bool.false_eq_true, if_false]

theorem exec_a4Request_of_not_recovery : exec (.a4Request f) s = .next (requestState u 4 f) := by
  simp only [exec_a4Request, execA4Request, hr, ← hu, Bool.false_eq_true, if_false]

end

/-! The handshake of a request, and the entry that it commits. -/

section
variable {s : State} {r : PwrReq} (hq : s.power.req = some r)
include hq

section
variable (hc : r.commitAt = none)
include hc

theorem exec_pmeToAck_of_ready {u : State} (hu : u = pwrResult (flushDirty s) 1 0 0) : exec (.pmeToAck true) s =
    .next (setPower u { u.power with req := some { r with commitAt := some s.dtime } }) := by
  simp only [exec_pmeToAck, execPmeToAck, hq, hc, ← hu, Option.isSome_none, Bool.not_true, Bool.false_eq_true, if_false]

theorem exec_pmeToAck_of_refused : exec (.pmeToAck false) s = .next (refuseEntry s [6]) := by
  simp only [exec_pmeToAck, execPmeToAck, hq, hc, Option.isSome_none, Bool.not_false, Bool.false_eq_true, if_false, if_true]

theorem exec_handshakeTimeout_of_due (hd : due s r.at_ 1000000000 = true) : exec .handshakeTimeout s = .next (abortEntry s 6) := by
  simp only [exec_handshakeTimeout, execHandshakeTimeout, hq, hc, hd, Option.isNone_none, Bool.and_self, if_true]

end

theorem exec_targetStateEntry_of_committed {u : State} (hc : r.commitAt ≠ none) (hu : u = setPower s { s.power with req := none }) :
    exec .targetStateEntry s =
      .next (if r.target = 2 then enterA2 u else if r.target = 3 then enterA3 u 0 else enterA4 u) := by
  have hsome : r.commitAt.isNone = false := Option.isNone_eq_false_iff.mpr (Option.isSome_iff_ne_none.mpr hc)
  simp only [exec_targetStateEntry, execTargetStateEntry, hq, hsome, ← hu, Bool.false_eq_true, if_false]

end

theorem exec_a1Entry_of_idle {s u : State} {t : Nat} (hu : u = noteIdle s) (ht : u.power.idleSince = some t) (hp : pwrState u = 0)
    (hq : u.power.req = none) (hd : due u t (rdF u Reg.pwrCfg 44 35 * 1000) = true) : exec .a1Entry s = .next (setPwrState u 1) := by
  rw [exec_a1Entry]
  unfold execA1Entry
  extract_lets +onlyGivenNames w
  obtain rfl : u = w := hu
  clear_value w
  simp only [ht, hp, hq, hd, decide_true, Option.isNone_none, Bool.and_self, if_true]

/-! The way back from A2 and from A3. -/

section
variable {s : State}

theorem exec_a2Exit_of_wake (hp : pwrState s = 2) (hw : s.power.wake.isSome) (he : s.power.exit = 0) :
    exec .a2Exit s = .next (setPower s { s.power with exit := 1, wake := none }) := by
  simp only [exec_a2Exit, execA2Exit, hp, hw, he, decide_true, Bool.and_self, if_true]

theorem exec_retainedDigestCheck_of_bad (he : s.power.exit = 1) : exec (.retainedDigestCheck false) s = .next (beginBoot s .fundamental) := by
  simp only [exec_retainedDigestCheck, execRetainedDigestCheck, he, Bool.false_eq_true, if_false, if_true]

theorem exec_retainedDigestCheck_of_good (he : s.power.exit = 1) {u : State} (hu : u = setTclk s tclkFull) :
    exec (.retainedDigestCheck true) s = .next (setPower u { u.power with exit := 2, stepAt := s.dtime }) := by
  simp only [exec_retainedDigestCheck, execRetainedDigestCheck, he, ← hu, if_true]

section
variable (hp : pwrState s = 3) {j : BitVec 8}
include hp

theorem exec_a3Exit_of_hot (hw : s.power.wake.isSome) (hj : 95 < j.toNat) :
    exec (.a3Exit j) s = .next (setPower s { s.power with deferred := true }) := by
  simp only [exec_a3Exit, execA3Exit, hp, hw, hj, decide_true, Bool.and_self, if_true]

theorem exec_a3Exit_of_cool (hw : s.power.wake.isSome) (hj : j.toNat ≤ 95) : exec (.a3Exit j) s = .next (beginBoot s .exitA3) := by
  simp only [exec_a3Exit, execA3Exit, hp, hw, Nat.not_lt.mpr hj, decide_true, Bool.and_self, if_true, if_false]

theorem exec_deferredWakeRelease_of_cool (hd : s.power.deferred = true) (hj : j.toNat ≤ 95) :
    exec (.deferredWakeRelease j) s = .next (beginBoot s .exitA3) := by
  simp only [exec_deferredWakeRelease, execDeferredWakeRelease, hp, hd, hj, decide_true, Bool.and_self, if_true]

end

end

/-- Settles O44: a request by what no party refuses, a committed entry by its target, the others by their equations. -/
theorem powerStateCommandsComplete : Obligations.PowerStateCommandsComplete := by
  refine ⟨fun f s u v w n hr hu hq hp hv hf hw => ⟨?a2, ?a3, ?a4⟩,
    fun s u r hq => ⟨fun hc hu => exec_pmeToAck_of_ready hq hc hu, exec_pmeToAck_of_refused hq, exec_handshakeTimeout_of_due hq,
      fun hc hu => ⟨fun h => ?enter2, fun h => ?enter3, fun h => ?enter4⟩⟩,
    fun s u t => exec_a1Entry_of_idle,
    fun s => ⟨fun hp hw he => ⟨_, exec_a2Exit_of_wake hp hw he, rfl, rfl, setPower_frame s _⟩,
      fun he => ⟨exec_retainedDigestCheck_of_bad he, fun u => exec_retainedDigestCheck_of_good he⟩,
      fun hp j => ⟨exec_a3Exit_of_hot hp, exec_a3Exit_of_cool hp, exec_deferredWakeRelease_of_cool hp⟩⟩⟩
  case a2 => rintro rfl; rw [exec_a2Request_of_not_recovery f hr hu, requestState_of_accepted hq hp hv hf hw]
  case a3 => rintro rfl; rw [exec_a3Request_of_not_recovery f hr hu, requestState_of_accepted hq hp hv hf hw]
  case a4 => rintro rfl; rw [exec_a4Request_of_not_recovery f hr hu, requestState_of_accepted hq hp hv hf hw]
  case enter2 => rw [exec_targetStateEntry_of_committed hq hc hu, if_pos h]
  case enter3 => rw [exec_targetStateEntry_of_committed hq hc hu, if_neg (by simp [h]), if_pos h]
  case enter4 => rw [exec_targetStateEntry_of_committed hq hc hu, if_neg (by simp [h]), if_neg (by simp [h])]

end Sys2Proof.Machine
end

section
/-! PROOFS. Power limits, coolant and temperature (15 R621 to R625; 17 R697). -/
namespace Sys2Proof.Machine

section
variable {s : State}

section
variable (hp : pwrState s < 2)
include hp

theorem exec_powerMean_of_running (w : BitVec 10) (j : BitVec 8) : exec (.powerMean w j) s =
    .next (judgePower (showTclk (wrF (wrF s Reg.pwrReading 9 0 w.toNat) Reg.pwrReading 17 10 j.toNat))) := by
  simp only [exec_powerMean, execPowerMean, Nat.not_le.mpr hp, if_false]

theorem exec_tclkThrottleStep_of_over (ho : overLimit s = true) (ht : tclkFloor < s.core.tclk)
    (hd : due s s.power.stepAt 10000 = true) : exec .tclkThrottleStep s = .next (moveTclk s (max tclkFloor (s.core.tclk - 25))) := by
  simp only [exec_tclkThrottleStep, execTclkThrottleStep, hp, ho, ht, hd, decide_true, Bool.and_self, if_true]

theorem exec_tclkRaiseStep_of_under (hw : wattsNow s * 100 < effLimit s * 97) (hj : junctionNow s < tjLimit s - 2)
    (h0 : s.core.tclk ≠ 0) (ht : s.core.tclk < tclkFull) (hd : due s s.power.stepAt 100000 = true) :
    exec .tclkRaiseStep s = .next (moveTclk s (min tclkFull (s.core.tclk + 25))) := by
  simp only [exec_tclkRaiseStep, execTclkRaiseStep, hp, hw, hj, ne_eq, h0, not_false_eq_true, ht, hd, decide_true, Bool.and_self, if_true]

theorem exec_thermalTrip_of_running {u : State} (hu : u = enterA3 s 1) : exec .thermalTrip s =
    .next (emit (setPower u { u.power with tripped := true, wake := none }) (.pin pinThermtrip false)) := by
  simp only [exec_thermalTrip, execThermalTrip, hp, ← hu, if_true]

end

/-! Placement is held while the power stays over its limit, and goes on when it has stayed under. -/

theorem exec_powerLimitAbort_of_due {t : Nat} {u v : State} (ht : s.power.overSince = some t) (hd : due s t 10000000 = true)
    (hh : s.sched.held = false) (hu : u = wrF (askNormal (setSched s { s.sched with held := true })) Reg.pwrStatus 26 26 1)
    (hv : v = appendRec u (plainRec u Cond.powerAbort Engine.gantry 0 flagInfo 0 (leBytes 2 (wattsNow s) ++ leBytes 2 (effLimit s)))) :
    exec .powerLimitAbort s = .next (sendMsix v 0 (rdF v Reg.errCtl 10 0)) := by
  simp only [exec_powerLimitAbort, execPowerLimitAbort, ht, hd, hh, ← hu, ← hv, Bool.not_false, Bool.and_self, if_true]

theorem exec_normalPlacementResume_of_due {t : Nat} (ht : s.power.underSince = some t) (hd : due s t 10000000 = true)
    (hh : s.sched.held = true) : exec .normalPlacementResume s =
      .next (settle (wrF (setSched s { s.sched with held := false }) Reg.pwrStatus 26 26 0)) := by
  simp only [exec_normalPlacementResume, execNormalPlacementResume, ht, hd, hh, Bool.and_self, if_true]

/-! Loss of coolant, by what reports it (15 R624). -/

section
variable (hc : coolantOn s = true)
include hc

section
variable (hl : rdF s Reg.pwrStatus 25 25 = 0)
include hl

theorem exec_coolantLoss_of_inlet (hi : holdExpired s s.power.inletBad = true) : exec .coolantLoss s = .next (beginLoss s 1) := by
  simp only [exec_coolantLoss, execCoolantLoss, hc, hl, hi, decide_true, Bool.and_self, if_true]

theorem exec_coolantLoss_of_flow (hi : holdExpired s s.power.inletBad = false) (hf : holdExpired s s.power.flowBad = true) :
    exec .coolantLoss s = .next (beginLoss s 2) := by
  simp only [exec_coolantLoss, execCoolantLoss, hc, hl, hi, hf, decide_true, Bool.and_self, Bool.false_eq_true, if_false, if_true]

end

section
variable (hd : due s s.power.coolAt 1000000000 = true) {u : State} (hu : u = setPower s { s.power with coolGood := none })
include hd hu

theorem exec_coolantReportMissing_of_present (hl : rdF s Reg.pwrStatus 25 25 = 0) : exec .coolantReportMissing s = .next (beginLoss u 3) := by
  simp only [exec_coolantReportMissing, execCoolantReportMissing, hc, hd, ← hu, hl, Bool.and_self, if_true]

theorem exec_coolantReportMissing_of_lost (hl : rdF s Reg.pwrStatus 25 25 = 1) : exec .coolantReportMissing s = .next u := by
  simp only [exec_coolantReportMissing, execCoolantReportMissing, hc, hd, ← hu, hl, Bool.and_self, one_ne_zero, if_true, if_false]

end

end

theorem exec_coolantLossEnd_of_due {t : Nat} (ht : s.power.coolGood = some t) (hl : rdF s Reg.pwrStatus 25 25 = 1)
    (hd : due s t 5000000000 = true) : exec .coolantLossEnd s = .next (judgePower (wrF s Reg.pwrStatus 25 25 0)) := by
  simp only [exec_coolantLossEnd, execCoolantLossEnd, ht, hl, hd, decide_true, Bool.and_self, if_true]

end

/-- The lowest bits of a number. -/
theorem bitsN_from_zero (n hi : Nat) : bitsN n hi 0 = n % 2 ^ (hi + 1) := by
  rw [bitsN, pow_zero, Nat.div_one, Nat.sub_zero]

/-- A report of the coolant: its inlet temperature and flow, and what they start or stop. -/
theorem exec_pwrCoolant_of_not_recovery {v : Word32} {s u : State} (hr : s.sec.recovery = false) (hu : u = hostTouch s) :
    ∃ x : PowerSt, x.coolAt = u.dtime ∧ x.inletBad = runTimer u (decide (720 < v.toNat % 4096)) u.power.inletBad ∧
      exec (.pwrCoolant v) s = .next (setPower (wr u Reg.pwrCoolant (BitVec.ofNat 64 (v.toNat % 2 ^ 24))) x) := by
  simp only [exec_pwrCoolant, execPwrCoolant, hr, ← hu, bitsN_from_zero, Bool.false_eq_true, if_false]
  exact ⟨_, rfl, rfl, rfl⟩

theorem rd_setPower (s : State) (x : PowerSt) (k : Nat) : rd (setPower s x) k = rd s k := rfl

/-- Settles O45: each command by its equation in the power state and for the time that its rule gives. -/
theorem powerLimitCommandsComplete : Obligations.PowerLimitCommandsComplete := by
  refine ⟨fun s => ⟨exec_powerMean_of_running, exec_tclkThrottleStep_of_over, exec_tclkRaiseStep_of_under,
      fun t u ht hd hh hu v => exec_powerLimitAbort_of_due ht hd hh hu, fun t => exec_normalPlacementResume_of_due,
      fun hc hl => ⟨exec_coolantLoss_of_inlet hc hl, exec_coolantLoss_of_flow hc hl⟩,
      fun hc hd u hu => ⟨exec_coolantReportMissing_of_present hc hd hu, exec_coolantReportMissing_of_lost hc hd hu⟩,
      fun t => exec_coolantLossEnd_of_due, fun hp u => exec_thermalTrip_of_running hp⟩,
    fun v s u hr hu => ?report⟩
  obtain ⟨x, ha, hi, he⟩ := exec_pwrCoolant_of_not_recovery (v := v) hr hu
  refine ⟨_, he, ?_, fun k hk => ?_, ha, hi, rfl⟩
  · rw [rd_setPower, rd_wr_same]
  · rw [rd_setPower, rd_wr_ne _ _ (List.ne_of_not_mem_cons hk)]

end Sys2Proof.Machine
end

section
/-! PROOFS. The Weighbridge: samples, the stall, its watchdog and reset, and the classes (15 R613, R620, R627 to R641). -/
namespace Sys2Proof.Machine

/-! Eight one-bit terms added up: the number whose bits they are. -/

theorem bitN_eq_testBit (n i : Nat) : bitN n i = n.testBit i := by
  rw [bitN, Nat.testBit_eq_decide_div_mod_eq]

/-- The number whose bits below `n` are the values of `f`. -/
def sumBits (f : Nat → Bool) (n : Nat) : Nat := ((List.range n).map (fun i => if f i then 2 ^ i else 0)).foldl (· + ·) 0

theorem sumBits_succ (f : Nat → Bool) (n : Nat) : sumBits f (n + 1) = sumBits f n + if f n then 2 ^ n else 0 := by
  simp only [sumBits, List.range_succ, List.map_append, List.map_cons, List.map_nil, List.foldl_append, List.foldl_cons, List.foldl_nil]

theorem sumBits_lt (f : Nat → Bool) (n : Nat) : sumBits f n < 2 ^ n := by
  induction n with
  | zero => exact Nat.one_pos
  | succ n ih => rw [sumBits_succ, Nat.pow_succ]; split <;> omega

theorem testBit_sumBits (f : Nat → Bool) {n i : Nat} (h : i < n) : (sumBits f n).testBit i = f i := by
  induction n with
  | zero => exact absurd h (Nat.not_lt_zero i)
  | succ n ih =>
    have hb := Nat.testBit_lt_two_pow (sumBits_lt f n)
    rw [sumBits_succ]
    cases hf : f n with
    | false =>
      rw [if_neg Bool.false_ne_true, Nat.add_zero]
      rcases Nat.lt_succ_iff_lt_or_eq.mp h with hi | rfl
      · exact ih hi
      · rw [hb, hf]
    | true =>
      rw [if_pos rfl, Nat.add_comm]
      rcases Nat.lt_succ_iff_lt_or_eq.mp h with hi | rfl
      · rw [Nat.testBit_two_pow_add_gt hi, ih hi]
      · rw [Nat.testBit_two_pow_add_eq, hb, hf, Bool.not_false]

theorem bitN_bitsN_of_le {v hi i : Nat} (h : i ≤ hi) : bitN (bitsN v hi 0) i = bitN v i := by
  rw [bitN_eq_testBit, bitN_eq_testBit, bitsN, Nat.pow_zero, Nat.div_one, Nat.testBit_mod_two_pow,
    decide_eq_true (show i < hi + 1 - 0 by omega), Bool.true_and]

/-! A piece that Mark units snoop changes no register. -/

theorem snoop_regs (s : State) (sel : Nat → Nat → Bool) (q : MarkPiece) : (snoop s sel q).regs = s.regs := by
  unfold snoop
  induction List.range 8 generalizing s with
  | nil => rfl
  | cons i is ih =>
    rw [List.foldl_cons, ih]
    split <;> rfl

theorem rdF_of_regs {s t : State} (h : t.regs = s.regs) (key hi lo : Nat) : rdF t key hi lo = rdF s key hi lo := by
  unfold rdF rd
  rw [h]

/-- A counted stall leaves the owner of a stream, whose register lies above the counters. -/
theorem sOwner_bump32_stall (s : State) (bit n i : Nat) : sOwner (bump32 s Reg.wbStallCount Reg.wbStatus bit n) i = sOwner s i := by
  refine rdF_bump32_ne ?_ ?_ ?_ ?_ s bit n 34 30
  · unfold Reg.wbStream Reg.pcieMsiDropCount; omega
  · simp only [List.mem_cons, List.not_mem_nil, or_false, not_or]
    unfold Reg.wbStream Reg.errStatus Reg.pcieStatus; omega
  · unfold Reg.wbStream Reg.wbStallCount; omega
  · unfold Reg.wbStream Reg.wbStatus; omega

section
variable {n : BitVec 4} {s : State} {x : WbStream} {i : Nat} (hi : i = n.toNat) (hx : x = streamOf s i)
include hi hx

theorem exec_sample_of_ready {u : State} (hw : wbRuns s = true) (ho : sOn s i = true) (hn : x.reading = none)
    (hd : sGpio s i = true ∨ x.last = none ∨ (∃ t, x.last = some t ∧ due s t (sPeriod s i * 1000) = true))
    (hu : u = setStream s i { x with alive := (x.alive + 1) % 256, reading := some (s.dtime, x.alive), last := some s.dtime }) :
    exec (.sample n) s = .next (snoopSensor (emit u (.bus i (sCmd s i))) i {
      first := true, last := false, bytes := wbHeader x.alive i 0 s.dtime }) := by
  rw [exec_sample]
  unfold execSample
  simp only [← hi, ← hx, hw, ho, hn, ← hu, Option.isNone_none, Bool.and_self, Bool.true_and]
  obtain hg | hl | ⟨t, hl, ht⟩ := hd
  · simp only [hg, Bool.true_or, if_true]
  · simp only [hl, Bool.or_true, if_true]
  · simp only [hl, ht, Bool.or_true, if_true]

section
variable {t a : Nat} (hr : x.reading = some (t, a))
include hr

theorem exec_sampleRecord_of_reading {b bs : List Byte} {err : Bool} (hb : bs = wbHeader a i (b2n err) t ++ padTo (sBytes s i - 8) b) :
    exec (.sampleRecord n b err) s = .next (evalRecord (deliverStream (snoopSensor (holdRec s i bs) i {
      first := false, last := true, bytes := padTo (sBytes s i - 8) b }) i) i bs) := by
  simp only [exec_sampleRecord, execSampleRecord, ← hi, ← hx, hr, ← hb]

theorem exec_sampleStall_of_due {got : List Byte} {v : State} (hd : due s t (rdF s Reg.wbCfg 16 0 * 1000) = true)
    (hv : v = bump32 (snoopSensor (setStream s i { x with reading := none }) i {
      first := false, last := false, bytes := got }) Reg.wbStallCount Reg.wbStatus 9 1) :
    exec (.sampleStall n got) s = .next (if pwrState v < 2 then appendRec v (plainRec v Cond.burstStall Engine.weighbridge (sOwner v i)
      flagInfo 0 (leBytes 1 i ++ leBytes 1 0 ++ leBytes 2 got.length)) else v) := by
  have howner : sOwner v i = sOwner s i := by
    rw [hv, sOwner_bump32_stall]
    exact rdF_of_regs (snoop_regs _ _ _) _ _ _
  simp only [exec_sampleStall, execSampleStall, ← hi, ← hx, hr, hd, ← hv, howner, if_true]
  split <;> rfl

end

end

section
variable {s : State}

theorem exec_a2RefillEnd_of_exit {u : State} (he : s.power.exit = 2)
    (hu : u = (unretained s).foldl (fun s n => fillClaim s n (claimOf s n).strength) s) : exec .a2RefillEnd s =
    .next (settle (deliverHeld (setPower (setPwrState u 0) { u.power with exit := 0, idleSince := none }))) := by
  simp only [exec_a2RefillEnd, execA2RefillEnd, he, ← hu, if_true]

theorem exec_weighbridgeWatchdog_of_running (hw : wbRuns s = true) : exec .weighbridgeWatchdog s = .next (resetWeigh s) := by
  simp only [exec_weighbridgeWatchdog, execWeighbridgeWatchdog, hw, if_true]

theorem exec_weighbridgeResetEnd_of_good (hr : s.wb.resetAt.isSome) :
    exec (.weighbridgeResetEnd true) s = .next (setWb s { s.wb with resetAt := none }) := by
  simp only [exec_weighbridgeResetEnd, execWeighbridgeResetEnd, hr, Bool.and_self, if_true]

end

/-- The class events of `x` without those that the written value `v` clears. -/
def keptEvents (v x : Nat) : Nat := sumBits (fun i => bitN x i && ! bitN (bitsN v 7 0) i) 8

theorem bitN_keptEvents (v x : Nat) {i : Nat} (h : i < 8) : bitN (keptEvents v x) i = (bitN x i && ! bitN v i) := by
  rw [keptEvents, bitN_eq_testBit, testBit_sumBits _ h, bitN_bitsN_of_le (Nat.le_of_lt_succ h)]

theorem exec_classEvClear_of_not_recovery {v : Word32} {s u : State} (hr : s.sec.recovery = false) (hu : u = hostTouch s) :
    exec (.classEvClear v) s = .next (setWb (wrF u Reg.wbStatus 7 0 (keptEvents v.toNat (rdF u Reg.wbStatus 7 0)))
      { u.wb with latched := keptEvents v.toNat u.wb.latched }) := by
  simp only [exec_classEvClear, execClassEvClear, hr, ← hu, keptEvents, sumBits, Bool.false_eq_true, if_false]

/-- Settles O46: a stall's record names the stream's owner, which neither the snooped piece nor the count moves, and the class
register keeps the events that the written value does not name. -/
theorem weighbridgeCommandsComplete : Obligations.WeighbridgeCommandsComplete := by
  refine ⟨fun n s x i hi hx => ⟨fun u => exec_sample_of_ready hi hx, fun t a hr => ⟨fun b err bs => exec_sampleRecord_of_reading hi hx hr,
      fun got v => exec_sampleStall_of_due hi hx hr⟩⟩,
    fun s => ⟨fun he u => exec_a2RefillEnd_of_exit he, exec_weighbridgeWatchdog_of_running,
      fun hr => ⟨_, exec_weighbridgeResetEnd_of_good hr, rfl, rfl⟩⟩,
    fun v s u hr hu => ⟨_, exec_classEvClear_of_not_recovery hr hu, ?cleared,
      wrF_onlyRegs u Reg.wbStatus 7 0 (keptEvents v.toNat (rdF u Reg.wbStatus 7 0)), rfl⟩⟩
  case cleared =>
    intro i h
    have hw := rdF_wrF_same u Reg.wbStatus (keptEvents v.toNat (rdF u Reg.wbStatus 7 0)) (show 0 ≤ 7 by decide) (by decide)
    rw [Nat.mod_eq_of_lt (show keptEvents v.toNat (rdF u Reg.wbStatus 7 0) < 2 ^ (7 + 1 - 0) from sumBits_lt _ 8)] at hw
    rw [← bitN_keptEvents _ _ h]
    exact congrArg (bitN · i) hw

end Sys2Proof.Machine
end

section
/-! PROOFS. FW_CTL and the firmware slots (16 R666 to R669, R672). -/
namespace Sys2Proof.Machine

/-! The operations of FW_CTL, at a device whose firmware is not at work. -/

theorem onFwCtl_of_idle {u : State} (h : fwBusy u = false) (f : State → State) : onFwCtl u f = f u := by
  simp only [onFwCtl, h, Bool.false_eq_true, if_false]

section
variable {s u : State} (hu : u = hostTouch s) (hb : fwBusy u = false)
include hu hb

theorem exec_stage_of_free (n : BitVec 14) {a : Nat} (hf : slotIn u 2 = none) (hi : u.sec.ident = true)
    (ha : a = rdF u Reg.fwImageAddr 63 12 * 4096) : exec (.stage n) s = .next (emit (setSec (fwStart u) { (fwStart u).sec with
      op := some { op := 1, at_ := u.dtime, pages := n.toNat, addr := a } }) (.hostRead 0 a (n.toNat * 4096))) := by
  simp only [exec_stage, execStage, ← hu, onFwCtl_of_idle hb, hf, hi, ← ha, Option.isSome_none, Bool.not_true, Bool.or_self,
    Bool.false_eq_true, if_false]

theorem exec_stage_of_refused (n : BitVec 14) (h : slotIn u 2 ≠ none ∨ u.sec.ident = false) :
    exec (.stage n) s = .next (fwEnd u 5 0) := by
  have hc : ((slotIn u 2).isSome || ! u.sec.ident) = true := by
    obtain h | h := h
    · rw [Option.isSome_iff_ne_none.mpr h, Bool.true_or]
    · rw [h, Bool.not_false, Bool.or_true]
  simp only [exec_stage, execStage, ← hu, onFwCtl_of_idle hb, hc, if_true]

theorem exec_activate_of_staged {i : Nat} {v : State} (hi : slotIn u 1 = some i) (hf : slotIn u 2 = none)
    (hmin : imgStateMin (slotAt u i).img ≤ u.sec.book) (hmax : u.sec.book ≤ imgFormat (slotAt u i).img) (hs : u.sec.standby ≠ none)
    (hv : v = setSlotState (fwStart u) i 2) : exec .activate s = .next (setSec v { v.sec with previous := slotIn u 3, hand := some {
      slot := i, back := false, tested := false, moved := 0, at_ := u.dtime } }) := by
  have hstandby : u.sec.standby.isNone = false := Option.isNone_eq_false_iff.mpr (Option.isSome_iff_ne_none.mpr hs)
  have hbook : ¬ (u.sec.book < imgStateMin (slotAt u i).img ∨ imgFormat (slotAt u i).img < u.sec.book) := by omega
  simp only [exec_activate, execActivate, ← hu, onFwCtl_of_idle hb, Sys2Proof.Machine.activate, hi, hf, hbook, hstandby, ← hv,
    Bool.or_eq_true, decide_eq_true_eq, Bool.false_eq_true, if_false]

theorem exec_activate_of_refused (h : slotIn u 1 = none ∨ slotIn u 2 ≠ none) : exec .activate s = .next (fwEnd u 5 0) := by
  rw [exec_activate, execActivate, ← hu, onFwCtl_of_idle hb]
  obtain h | h := h
  · simp only [Sys2Proof.Machine.activate, h]
  · obtain ⟨k, hk⟩ := Option.ne_none_iff_exists'.mp h
    rcases hj : slotIn u 1 with _ | j <;> simp only [Sys2Proof.Machine.activate, hj, hk]

theorem exec_confirm_of_trial (hc : slotIn u 2 ≠ none) (hm : rdF u Reg.fwCfg 10 10 = 1) :
    exec .confirm s = .next (fwEnd (setSec u { u.sec with confirmed := true }) 0 0) := by
  simp only [exec_confirm, execConfirm, ← hu, onFwCtl_of_idle hb, Option.isSome_iff_ne_none.mpr hc, hm, decide_true, Bool.and_self,
    if_true]

theorem exec_confirm_of_refused (h : slotIn u 2 = none ∨ rdF u Reg.fwCfg 10 10 ≠ 1) : exec .confirm s = .next (fwEnd u 5 0) := by
  have hc : ((slotIn u 2).isSome && decide (rdF u Reg.fwCfg 10 10 = 1)) = false := by
    obtain h | h := h
    · rw [h, Option.isSome_none, Bool.false_and]
    · rw [decide_eq_false h, Bool.and_false]
  simp only [exec_confirm, execConfirm, ← hu, onFwCtl_of_idle hb, hc, Bool.false_eq_true, if_false]

theorem exec_restart_of_unstaged (hn : u.sec.staged = none) :
    exec .restart s = .next (beginBoot (setSec u { u.sec with trial := none }) .fundamental) := by
  simp only [exec_restart, execRestart, ← hu, onFwCtl_of_idle hb, hn, Option.bind_none]

theorem exec_fwCtlReserved_of_idle : exec .fwCtlReserved s = .next (fwEnd u 5 0) := by
  simp only [exec_fwCtlReserved, execFwCtlReserved, ← hu, onFwCtl_of_idle hb]

end

/-! The end of a STAGE, by what the host's read and the flash gave. -/

section
variable {s u : State} {o : FwOp} (ho : s.sec.op = some o) (hu : u = setSec s { s.sec with op := none })
include ho hu

theorem exec_stageComplete_of_fail (e : ReadFail) (ok : Bool) : exec (.stageComplete (.fail e) ok) s = .next (fwEnd u 1 0) := by
  simp only [exec_stageComplete, execStageComplete, ho, ← hu]

theorem exec_stageComplete_of_bad_flash (b : List Byte) : exec (.stageComplete (.ok b) false) s = .next (fwEnd u 8 0) := by
  simp only [exec_stageComplete, execStageComplete, ho, ← hu, Bool.not_false, if_true]

theorem exec_stageComplete_of_image {b : List Byte} {v : State} {c : ImgCheck}
    (ht : takeImage u (otherSlot u) (padTo (o.pages * 4096) b) (o.pages * 4096) = (v, c)) :
    exec (.stageComplete (.ok b) true) s = .next (fwEnd v c.result c.code) := by
  simp only [exec_stageComplete, execStageComplete, ho, ← hu, ht, Bool.not_true, Bool.false_eq_true, if_false]

end

/-! A handover: the standby's test, then one role after the other. -/

section
variable {s : State} {h : Handover} (hh : s.sec.hand = some h)
include hh

theorem exec_standbySelfTest_of_untested (ht : h.tested = false) :
    exec .standbySelfTest s = .next (setSec s { s.sec with hand := some { h with tested := true, at_ := s.dtime } }) := by
  simp only [exec_standbySelfTest, execStandbySelfTest, hh, ht, Bool.false_eq_true, if_false]

theorem exec_roleMove_of_due {p : Nat} {u : State} (hp : s.sec.standby = some p) (ht : h.tested = true)
    (hd : h.moved = 0 ∨ due s h.at_ 1000000 = true)
    (hu : u = restartLoads (setSec s { s.sec with
      roles := lset s.sec.roles h.moved p, standby := s.sec.roles[h.moved]?, hand := some { h with moved := h.moved + 1, at_ := s.dtime } })) :
    exec .roleMove s = .next (if h.moved + 1 < 4 then u else settle (handoverEnd u h)) := by
  have hready : (h.tested && (decide (h.moved = 0) || due s h.at_ 1000000)) = true := by
    rwa [ht, Bool.true_and, Bool.or_eq_true, decide_eq_true_eq]
  simp only [exec_roleMove, execRoleMove, hh, hp, hready, ← hu, if_true]
  split <;> rfl

end

/-! The health window of a trial slot. -/

section
variable {s : State} {t i : Nat} (hw : s.sec.window = some t) (hi : slotIn s 2 = some i)
include hw hi

theorem exec_selfConfirmation_of_healthy (hd : due s s.sec.heartAt 1000000000 = true) (hs : s.sec.standby ≠ none)
    (hc : rdF s Reg.fwCfg 10 10 = 0 ∨ s.sec.confirmed = true) : exec .selfConfirmation s = .next (confirmSlot s i) := by
  have hconfirm : (decide (rdF s Reg.fwCfg 10 10 = 0) || s.sec.confirmed) = true := by
    rwa [Bool.or_eq_true, decide_eq_true_eq]
  simp only [exec_selfConfirmation, execSelfConfirmation, hw, hi, hd, Option.isSome_iff_ne_none.mpr hs, hconfirm, Bool.and_self, if_true]

section
variable (hd : due s t (rdF s Reg.fwCfg 9 0 * 1000000000) = true) {u v w : State}
  (hu : u = countFallback (setCode (appendRec s (fwRecord s Cond.notConfirmed i 0 (slotAt s i).img)) Cond.notConfirmed))
  (hv : v = wrF (setSlotState u i 4) Reg.fwStatus 4 4 0) (hx : w = setSec v { v.sec with window := none, trial := none })
include hd hu hv hx

theorem exec_healthWindowExpiry_of_alone (hn : slotIn s 3 = none) : exec .healthWindowExpiry s = .next w := by
  simp only [exec_healthWindowExpiry, execHealthWindowExpiry, hw, hi, hd, hn, ← hu, ← hv, ← hx, if_true]

theorem exec_healthWindowExpiry_of_fallback {k : Nat} (hk : slotIn s 3 = some k) :
    exec .healthWindowExpiry s = .next (setSec (fwStart w) { (fwStart w).sec with
      hand := some { slot := k, back := true, tested := false, moved := 0, at_ := s.dtime } }) := by
  simp only [exec_healthWindowExpiry, execHealthWindowExpiry, hw, hi, hd, hk, ← hu, ← hv, ← hx, if_true]

end

end

theorem exec_heartbeatMiss_eq (n : BitVec 3) (s : State) : exec (.heartbeatMiss n) s = .next (loseProcessor s n.toNat) := by
  rw [exec_heartbeatMiss, execHeartbeatMiss]

/-- Settles O47: an operation of FW_CTL runs while the firmware is not at work; the others follow the record they answer. -/
theorem firmwareCommandsComplete : Obligations.FirmwareCommandsComplete := by
  refine ⟨fun s u hu hb => ⟨fun n a => exec_stage_of_free hu hb n, exec_stage_of_refused hu hb, fun i v => exec_activate_of_staged hu hb,
      exec_activate_of_refused hu hb, exec_confirm_of_trial hu hb, exec_confirm_of_refused hu hb, exec_restart_of_unstaged hu hb,
      exec_fwCtlReserved_of_idle hu hb⟩,
    fun s u v o ho hu => ⟨exec_stageComplete_of_fail ho hu, exec_stageComplete_of_bad_flash ho hu,
      fun b c => exec_stageComplete_of_image ho hu⟩,
    fun s h hh => ⟨fun ht => ⟨_, exec_standbySelfTest_of_untested hh ht, rfl, rfl⟩, fun p u => exec_roleMove_of_due hh⟩,
    fun s t i hw hi => ⟨exec_selfConfirmation_of_healthy hw hi, fun hd u v w hu hv hx => ⟨?alone, fun k => ?fallback⟩⟩,
    exec_heartbeatMiss_eq⟩
  case alone => exact exec_healthWindowExpiry_of_alone hw hi hd hu hv hx
  case fallback => exact exec_healthWindowExpiry_of_fallback hw hi hd hu hv hx

end Sys2Proof.Machine
end

section
/-! PROOFS. The supply and the reset pin (17 R681, R685 to R690). -/
namespace Sys2Proof.Machine

section
variable {s : State}

theorem exec_powerOn_of_off (hp : s.sec.pwrgd = false) (f : Bool) : exec (.powerOn f) s =
    .next (setSec { State.reset with pending := s.pending, fresh := s.fresh, out := s.out } { coldSec s.sec with
      pwrgd := true, factory := f, step := if f then 0 else 1, boots := s.sec.boots + 1, reports := [] }) := by
  simp only [exec_powerOn, execPowerOn, hp, Bool.false_eq_true, if_false]

section
variable (hp : s.sec.pwrgd = true)
include hp

theorem powerDown_of_on : powerDown s =
    setSec { State.reset with pending := s.pending, fresh := s.fresh, out := s.out, dtime := s.dtime }
      { coldSec s.sec with pwrgd := false, factory := false } := by
  simp only [powerDown, hp, if_true]

theorem exec_perstAssert_of_running {u v : State} (hr : s.sec.perst = false) (hs : pwrState s < 2) (hc : s.sec.cause ≠ .powerOn)
    (hu : u = setSec s { s.sec with perst := true, perstAt := s.dtime }) (hv : v = loseAll u) :
    exec .perstAssert s = .next (setSec v { v.sec with held := true }) := by
  have hon : (! s.sec.pwrgd || s.sec.perst) = false := by rw [hp, hr]; rfl
  simp only [exec_perstAssert, execPerstAssert, hon, hc, Nat.not_le.mpr hs, ← hu, ← hv, decide_false, Bool.false_and,
    Bool.false_eq_true, if_false]

theorem exec_perstRelease_of_factory (hr : s.sec.perst = true) (hh : s.sec.held = true) (hf : s.sec.factory = true) :
    exec .perstRelease s = .next (releaseWakePin (setSec s { s.sec with perst := false })) := by
  have hpin : (! s.sec.pwrgd || ! s.sec.perst) = false := by rw [hp, hr]; rfl
  simp only [exec_perstRelease, execPerstRelease, hpin, hh, hf, Bool.false_eq_true, if_false, if_true]

end

end

section
variable (s : State)

theorem releaseWakePin_sec : (releaseWakePin s).sec = s.sec := by
  unfold releaseWakePin
  split <;> rfl

theorem releaseWakePin_mem : (releaseWakePin s).mem = s.mem := by
  unfold releaseWakePin
  split <;> rfl

theorem releaseWakePin_regs : (releaseWakePin s).regs = s.regs := by
  unfold releaseWakePin
  split <;> rfl

end

/-- Settles O9: each of the pins' commands answers the reset state with what it keeps; the release of the wake pin touches neither
the registers nor DRAM. -/
theorem pinCommandsComplete : Obligations.PinCommandsComplete := by
  refine fun s => ⟨fun hp f => ⟨_, exec_powerOn_of_off hp f, rfl, rfl, rfl, rfl, rfl, rfl, rfl⟩, fun hp => ?down,
    fun hp hr hs hc => ⟨_, exec_perstAssert_of_running hp hr hs hc rfl rfl, rfl, rfl, rfl, rfl⟩,
    fun hp hr hh hf => ⟨_, exec_perstRelease_of_factory hp hr hh hf, ?pin, releaseWakePin_mem _, releaseWakePin_regs _⟩⟩
  case down =>
    refine ⟨powerDown s, by rw [exec_pwrgdDeassert, execPwrgdDeassert], by rw [exec_railUndervoltage, execRailUndervoltage], ?_⟩
    rw [powerDown_of_on hp]
    exact ⟨rfl, rfl, rfl, rfl, rfl⟩
  case pin => rw [releaseWakePin_sec]; rfl

end Sys2Proof.Machine
end
